-- ==== Sys2Proof/Word.lean ====
section
/-! DEFINITION. The word types of the SN9632 and their plainest arithmetic (R4, R6, R32). -/

namespace Sys2Proof

/-- A register word (R6: every register is 32 bits wide). -/
abbrev Word := BitVec 32

/-- A byte of an image, frame or memory area. -/
abbrev Byte := BitVec 8

/-- Channel CH_00 to CH_95. -/
abbrev ChIx := Fin 96
/-- Outlet OUT_00 to OUT_31. -/
abbrev OutIx := Fin 32
/-- Metering set MS_00 to MS_31. -/
abbrev SetIx := Fin 32
/-- Cluster CLU_00 to CLU_11. -/
abbrev CluIx := Fin 12
/-- Region RGN_0 to RGN_3. -/
abbrev RgnIx := Fin 4
/-- Cabinet bus CAN_0 to CAN_7. -/
abbrev CanIx := Fin 8
/-- Switch instance: 0 to 47 HS_00 to HS_47, 48 to 87 LS_00 to LS_39 (R347). -/
abbrev SwIx := Fin 88

namespace Vec

/-- Change one element of a fixed table. -/
def upd {α : Type} {n : Nat} (v : Vector α n) (i : Fin n) (f : α → α) : Vector α n :=
  v.set i (f v[i])

/-- Change every element of a fixed table by its index. -/
def mapIx {α β : Type} {n : Nat} (v : Vector α n) (f : Fin n → α → β) : Vector β n :=
  Vector.ofFn fun i => f i v[i]

end Vec

/-- The little-endian value of a byte string (R32). -/
def leNat : List Byte → Nat
  | [] => 0
  | b :: bs => b.toNat + 256 * leNat bs

/-- `n` little-endian bytes of a value. -/
def leBytes : Nat → Nat → List Byte
  | 0, _ => []
  | n + 1, v => BitVec.ofNat 8 v :: leBytes n (v / 256)

/-- The two's-complement reading of an `n`-bit value. -/
def signed (n v : Nat) : Int :=
  let w := v % 2 ^ n
  if w < 2 ^ (n - 1) then (w : Int) else (w : Int) - (2 ^ n : Nat)

/-- The `n`-bit two's-complement code of an integer. -/
def unsigned (n : Nat) (v : Int) : Nat := (v % (2 ^ n : Nat)).toNat

/-- Bits `lo` to `lo + n - 1` of a value. -/
def field (v lo n : Nat) : Nat := v / 2 ^ lo % 2 ^ n

/-- A Boolean as a bit. -/
def bit (b : Bool) : Nat := if b then 1 else 0

end Sys2Proof
end

