-- ==== Sys2Proof/Types.lean ====
section
/-! DEFINITION. The plain data that commands carry and that the state keeps: inputs of the frame path
(R18, R23), vehicle values (R190), CAN frames (R353), firebreak inputs (R308), tandem packets (R285). -/

namespace Sys2Proof

/-- Accepted pilot state of R151, in the codes of OSQ_PILOT.pilot_state (R170). -/
inductive Pilot where
  | a | b | c | d | e | f | none
  deriving DecidableEq, Repr, Inhabited

/-- The PLLs of R423. -/
inductive Pll where
  | control | communication | metrology | landing
  deriving DecidableEq, Repr, Inhabited

/-- The rails the supervisor watches (R435). -/
inductive Rail where
  | core | ana | dram
  deriving DecidableEq, Repr, Inhabited

/-- The triggers of a host-island reset (R438, R447). -/
inductive HostResetKind where
  | hotReset | linkDown | functionLevel
  deriving DecidableEq, Repr, Inhabited

/-- What a cold start finds outside the package's own registers (R436): which of the sixteen loop pipelines
pass the start-up test (bit 4r + i: pipeline i of region r), where a read of a stand-map copy fails (R40 code 1),
the strap TDM_PREF (R278), whether the root burn check passes (R366), and the time from the supplies coming into
range to the first boundary. (DEDUCED, entry 69.) -/
structure BootFacts where
  pipesPass : BitVec 16 := 0xFFFF
  failA : Option Nat := none
  failB : Option Nat := none
  tdmPref : Bool := true
  burnOk : Bool := true
  bootMs : Nat := 600
  deriving DecidableEq, Repr, Inhabited

/-- The protocol layers of R186, in the codes of VLK_STATUS.layer (R196). -/
inductive Layer where
  | none | din70121 | iso2 | iso20
  deriving DecidableEq, Repr, Inhabited

/-- A number as the message layers code it: m × 10^e in V, A, W, Wh or s. -/
structure Dec where
  m : Int
  e : Int := 0
  deriving DecidableEq, Repr, Inhabited

/-- The values of a vehicle message as they were sent (R190); `none` where the layer omits the value. -/
structure VehReq where
  maxVolt : Option Dec := none
  maxCurr : Option Dec := none
  maxPower : Option Dec := none
  targetVolt : Option Dec := none
  targetCurr : Option Dec := none
  minVolt : Option Dec := none
  maxDischarge : Option Dec := none
  presentVolt : Option Dec := none
  energyWh : Option Dec := none
  departIn : Option Dec := none
  deriving DecidableEq, Repr, Inhabited

/-- The values latched of a vehicle (R190), in the units of their consumers: 1/32 V, 1/32 A, W, Wh, s. -/
structure VehVals where
  maxVolt : Option Nat := none
  maxCurr : Option Nat := none
  maxPower : Option Nat := none
  targetVolt : Option Nat := none
  targetCurr : Option Nat := none
  minVolt : Option Nat := none
  maxDischarge : Option Nat := none
  presentVolt : Option Nat := none
  energyWh : Option Nat := none
  departIn : Option Nat := none
  deriving DecidableEq, Repr, Inhabited

/-- A complete vehicle message as the links hand it to the frame path (R182, R185, R189). -/
inductive VehMsg where
  | sessionSetup (evccid : List Byte)
  | chargeParameters (v : VehReq) (ready err bpt dynamic : Bool)
  | authorization (chain signed : List Byte)
  | cableCheck
  | preCharge (v : VehReq)
  | powerDelivery (start : Bool)
  | sessionStop
  | other (v : VehReq) (err : Bool)
  | linkLost
  | slacClosed (mac : BitVec 48) (runId : BitVec 64) (atten : List (OutIx × Nat))
  | slacMatch (mac : BitVec 48) (runId : BitVec 64)
  deriving DecidableEq, Repr, Inhabited

/-- A received CAN frame (R353, R354). -/
structure CanFrame where
  ident : BitVec 29
  ext : Bool := false
  fd : Bool := false
  brs : Bool := false
  remote : Bool := false
  data : List Byte := []
  deriving DecidableEq, Repr, Inhabited

/-- The filtered inputs of the firebreak (R308). -/
inductive FbkIn where
  | estopA (z : Fin 8)
  | estopB (z : Fin 8)
  | otc (n : OutIx)
  | imd (n : OutIx)
  | kfbP (n : OutIx)
  | kfbN (n : OutIx)
  | reset
  | sealIntact
  deriving DecidableEq, Repr, Inhabited

/-- The internal faults of the firebreak's row "L1 and L2 disagree, output readback fails, clock monitor fails"
(R307). -/
inductive FbkFaultKind where
  | discrepancy | readback | clockMonitor
  deriving DecidableEq, Repr, Inhabited

/-- The parts of open-load detection (R342). -/
inductive OpenLoad where
  | onState | offState | externallyDriven | ended
  deriving DecidableEq, Repr, Inhabited

/-- The temperature trips of a switch (R340). -/
inductive ThermTrip where
  | deltaT | absolute
  deriving DecidableEq, Repr, Inhabited

/-- The tamper sources in the codes of R382: 0 to 7 TAMPER_k, then voltage, clock, temperature, light. -/
inductive TamperSrc where
  | pin (k : Fin 8) | voltage | clock | temperature | light
  deriving DecidableEq, Repr, Inhabited

/-- The error kinds of CAN_ERR [18:16] (R365). -/
inductive CanErrKind where
  | stuff | form | ack | bit1 | bit0 | crc
  deriving DecidableEq, Repr, Inhabited

/-- Which buffer of a controller the frame left from (R360). -/
inductive TxSource where
  | queue | heartbeat | cooling (n : OutIx)
  deriving DecidableEq, Repr, Inhabited

/-- An entry of one metering set in a cycle record (R229). -/
structure SetRec where
  v : Int := 0
  i : Int := 0
  ovrV : Bool := false
  ovrI : Bool := false
  lowerBound : Bool := false
  settle : Bool := false
  unassigned : Bool := false
  eFwd : Nat := 0
  eRev : Nat := 0
  deriving DecidableEq, Repr, Inhabited

/-- The site entry of a cycle record (R229). RMS order L1, L2, L3, N. -/
structure SiteRec where
  eFwd : Nat := 0
  eRev : Nat := 0
  rmsV : List Nat := []
  rmsI : List Nat := []
  lineToLine : List Nat := []
  ovr : BitVec 8 := 0
  lowerBound : Bool := false
  settle : Bool := false
  disabled : Bool := false
  deriving DecidableEq, Repr, Inhabited

/-- A cycle record (R228). -/
structure CycleRec where
  fn : Nat := 0
  seq : BitVec 32 := 0
  len : Nat := 0
  rtcSec : Nat := 0
  rtcFrac : Nat := 0
  freqHold : Bool := false
  resync : Bool := false
  phase : BitVec 2 := 3
  temp : Int := 0
  endUs : Nat := 0
  sets : Vector SetRec 32 := Vector.replicate 32 {}
  site : SiteRec := {}
  /-- The corrected average of every converter, with overrange and settle (R247). -/
  cv : List (Int × Bool × Bool) := []
  deriving DecidableEq, Repr, Inhabited

/-- A captured firebreak, tamper or aux-die event (R331, R349, R382). -/
structure AsyncEvent where
  rank : Nat
  code : Nat
  inst : Nat
  stamp : Nat := 0
  deriving DecidableEq, Repr, Inhabited

/-- The witness totals of one set or the site (R242), µWh. -/
structure Wit where
  fwd : Nat := 0
  rev : Nat := 0
  deriving DecidableEq, Repr, Inhabited

/-- A follower's witness message (R242): entries 0 to 31 the sets, 32 the site. -/
structure WitMsg where
  fn : Nat
  code : Byte
  serial : BitVec 80
  totals : Vector Wit 33
  deriving DecidableEq, Repr, Inhabited

/-- A vote of R395 as a group member sent it. -/
structure Vote where
  group : BitVec 16
  unit : Fin 8
  attempt : BitVec 8
  fnAct : Nat
  go : Bool
  revert : Bool := false
  deriving DecidableEq, Repr, Inhabited

/-- The local conditions of a package, bits [3], [5] and [6] of R393, with the hash of its manifest. -/
structure FwuLocal where
  vbatLow : Bool := false
  notVerified : Bool := true
  notResealed : Bool := true
  hash : BitVec 384 := 0
  deriving DecidableEq, Repr, Inhabited

/-- What a follower sends to its lead in the packets of type 4: its witness totals (R242), its local conditions (R393)
and the report of its restart (R398). (DESIGN CHOICE, entry 110.) -/
inductive FollowMsg where
  | totals (w : WitMsg)
  | conditions (f : FwuLocal)
  | report (ready : Bool) (reason : Nat)
  deriving DecidableEq, Repr, Inhabited

/-- How the write of an image ends (R390, R402). -/
inductive FlashEnd where
  | verified
  | writeFailed
  | readBackFailed
  deriving DecidableEq, Repr, Inhabited

/-- A non-loop input that arrives as an item of its own (R18, R23). A host command carries the content of its window
as it stands when the command is captured (R409). -/
inductive Item where
  | asyncEvent (e : AsyncEvent)
  | cycle (r : CycleRec)
  | hostCmd (off : BitVec 21) (val : Word) (win : List Byte)
  | vehicle (n : OutIx) (m : VehMsg) (size : Nat)
  | witness (w : WitMsg)
  | vote (v : Vote)
  | fwuLocal (f : FwuLocal)
  | fwuReport (lead ready : Bool) (reason : Nat)
  | amendment (image : List Byte)
  deriving DecidableEq, Repr, Inhabited

/-- A sensor-mailbox slot (R355, R356): its quantity, number and sub-index, the controller and filter entry that
filled it, the extracted value and the FN of the frame of arrival. -/
structure MailSlot where
  q : Nat
  num : Nat
  sub : Nat := 0
  can : CanIx := 0
  entry : Nat := 0
  value : Nat
  fn : Nat
  action : Bool := false
  deriving DecidableEq, Repr, Inhabited

/-- An uplink frame (R123). -/
structure Uplink where
  echo : BitVec 16 := 0
  status : BitVec 8 := 0
  fault : BitVec 8 := 0
  iOut : Int := 0
  vOut : Nat := 0
  vDc : Nat := 0
  tHs : Int := 0
  fb : BitVec 8 := 0
  deriving DecidableEq, Repr, Inhabited

/-- A downlink frame (R120). -/
structure Downlink where
  seq : BitVec 16 := 0
  src : Bool := false
  mode : Nat := 0
  spread : Bool := false
  profile : Nat := 0
  first : Bool := false
  chan : Nat := 0
  cmd : Int := 0
  limit : Nat := 0
  period : Nat := 0
  word : Nat := 0
  close : Bool := false
  n : Nat := 0
  ramp : Nat := 0
  deriving DecidableEq, Repr, Inhabited

/-- The result of one pilot window (R151), as captured. -/
structure PilotIn where
  state : Pilot := .none
  fault : Bool := false
  diode : Bool := false
  high : BitVec 8 := 0
  low : BitVec 8 := 0
  duty : BitVec 8 := 0
  /-- The measured period of the square wave in CLK_OLINK cycles. -/
  period : Nat := 0
  pp : Nat := 0
  deriving DecidableEq, Repr, Inhabited

/-- The GLIM input after the filter of R65. -/
structure GlimIn where
  value : Nat := 0
  raw : Nat := 0
  loss : Bool := false
  have_ : Bool := false
  deriving DecidableEq, Repr, Inhabited

/-- The live link conditions of a port as the boundary captures them (R185, R488). -/
structure LinkIn where
  up : Bool := false
  slac : Bool := false
  matched : Bool := false
  tcp : Bool := false
  session : Bool := false
  tls : Bool := false
  layer : Layer := .none
  /-- tls_slot is valid (R192). -/
  slotOk : Bool := false
  /-- The link gap in whole milliseconds (R185). -/
  gap : Nat := 0
  /-- Running totals of retransmissions and decode errors (R195). -/
  retrans : Nat := 0
  decodeErr : Nat := 0
  deriving DecidableEq, Repr, Inhabited

/-- The non-loop inputs that are levels or last values: the ball, mailbox and sealed-switch part of an input set
(R18, R23 groups 1 and 4). -/
structure Levels where
  rtc : Nat := 0
  glim : GlimIn := {}
  vsel : BitVec 3 := 0
  sealAcc : BitVec 64 := 0
  fbkHeld : Bool := true
  kfbP : BitVec 32 := 0
  kfbN : BitVec 32 := 0
  lsClosed : BitVec 40 := 0
  trips : BitVec 32 := 0
  tripsSf3 : BitVec 32 := 0
  weldLatch : BitVec 32 := 0
  imdOk : BitVec 32 := 0
  otcHot : BitVec 32 := 0
  pilot : Vector PilotIn 32 := Vector.replicate 32 {}
  vCab : Vector (Option Nat) 32 := Vector.replicate 32 none
  link : Vector LinkIn 32 := Vector.replicate 32 {}
  mail : List MailSlot := []
  slotValid : BitVec 128 := 0
  txFill : Vector Nat 8 := Vector.replicate 8 0
  vbatMv : Nat := 0
  brakeOn : Bool := false
  /-- The lead's own conditions of R393. -/
  fwuOwn : FwuLocal := {}
  deriving DecidableEq, Repr, Inhabited

/-- An input set of R18 and R21. -/
structure InputSet where
  fn : Nat := 0
  levels : Levels := {}
  items : List Item := []
  complete : Bool := true
  empty : Bool := false
  deriving DecidableEq, Repr, Inhabited

/-- A boundary marker (R283). -/
structure Marker where
  fn : Nat
  identity : Bool
  lead : Bool
  state : BitVec 3
  fault : Bool := false
  claim : Bool := false
  grant : Bool := false
  joinReq : Bool := false
  strapConflict : Bool := false
  matchRun : Nat := 0
  leadAge : Nat := 0
  swapFn : BitVec 32 := 0
  hash4 : BitVec 32 := 0
  deriving DecidableEq, Repr, Inhabited

/-- A CAN heartbeat (R292). -/
structure Heartbeat where
  byte0 : Byte
  fn : BitVec 32
  missed : BitVec 16 := 0
  deriving DecidableEq, Repr, Inhabited

/-- The content of a PAIR packet (R285, R297). -/
structure PairInfo where
  serial : BitVec 80
  code : Byte
  identity : Bool
  hash : BitVec 384
  meas : BitVec 384
  sealBits : BitVec 64
  tandem : List Byte
  enabled : Bool
  deriving DecidableEq, Repr, Inhabited

/-- A battery ledger entry (R258). -/
structure Ledger where
  ident : BitVec 128 := 0
  lease : BitVec 32 := 0
  phase : Nat := 0
  creditMode : Bool := false
  lowerBound : Bool := false
  gapSeen : Bool := false
  witSeen : Bool := false
  forcedTag : Bool := false
  writes : BitVec 16 := 0
  inTot : Nat := 0
  outTot : Nat := 0
  perTariff : Vector Wit 8 := Vector.replicate 8 {}
  credit : Int := 0
  tag : BitVec 64 := 0
  phase2Sec : Nat := 0
  unbindSec : Nat := 0
  count : BitVec 32 := 0
  deriving DecidableEq, Repr, Inhabited

/-- What a BULK packet carries (R298, R375). -/
inductive Bulk where
  | ledger (ix : Fin 1536) (e : Ledger)
  | ticket (ix : Fin 256) (bytes : List Byte)
  | welds (flags : BitVec 32)
  | ledgerKey (sealed : List Byte) (statementOk keyless : Bool)
  deriving DecidableEq, Repr, Inhabited

/-- A millisecond of GLIM (R65): the code of its conversion, and the cycles of CLK_LOOP of its rising edges. -/
structure GlimRead where
  code : Nat
  edges : List Nat
  deriving DecidableEq, Repr, Inhabited

/-- The measured square wave of a pilot (R151): its duty in 0.5 % and its period in CLK_OLINK cycles. -/
structure PilotWave where
  duty : BitVec 8
  period : Nat
  deriving DecidableEq, Repr, Inhabited

/-- A marker with its arrival in nanoseconds after the package's own boundary (R283). -/
structure MarkerIn where
  marker : Marker
  arrival : Int
  deriving DecidableEq, Repr, Inhabited

/-- The lanes of a host write (R449): the byte enables of its word and its length in bytes. -/
structure Lanes where
  be : BitVec 4
  len : Nat
  deriving DecidableEq, Repr, Inhabited

/-- What a quad-SPI write carries (R454): whole words, and the bytes of a further one that is cut short. -/
structure QspiData where
  words : List Word
  tail : Fin 4
  deriving DecidableEq, Repr, Inhabited

/-- The windows of the host port (R448). -/
inductive Bar where
  | bar0 | bar2
  deriving DecidableEq, Repr, Inhabited

end Sys2Proof
end

