-- ==== Sys2Proof/Machine/Map.lean ====
section
/-! DEFINITION. The loaded stand map as plain data (chapter 2 and the record tables of the other chapters). -/

namespace Sys2Proof.Machine

/-- A record of an image (R35): its offset, type, number and payload, and the amendment that carried it
(0: the full map). -/
structure Rec where
  off : Nat := 0
  typ : Nat := 0
  num : Nat := 0
  pay : List Byte := []
  amend : Nat := 0
  deriving DecidableEq, Repr, Inhabited

/-- An entry of the clamp report (R43). -/
structure ClampEntry where
  off : Nat := 0
  id : Nat := 0
  flags : Nat := 0
  amend : Nat := 0
  given : Nat := 0
  applied : Nat := 0
  deriving DecidableEq, Repr, Inhabited

/-- CHANNEL (R37). `kind` 0: out of service. -/
structure ChanCfg where
  kind : Nat := 0
  loopT : Nat := 0
  pack : Option (Fin 8) := none
  rated : Nat := 0
  iLim : Nat := 0
  vLim : Nat := 0
  swPer : Nat := 0
  slew : Nat := 0
  wdRamp : Nat := 0
  tLim : Nat := 0
  derate : Nat := 0
  spread : Nat := 0
  /-- An amendment ends the channel's record while its withdrawal still runs on it (R52). -/
  going : Bool := false
  deriving DecidableEq, Repr, Inhabited

/-- CLUSTER (R110). -/
structure CluCfg where
  n : Nat := 50
  enable : Bool := false
  deriving DecidableEq, Repr, Inhabited

/-- An enabled ROUTE record of a channel (R484). -/
structure RouteCfg where
  outlet : OutIx
  word : Nat
  tfb : Nat
  deriving DecidableEq, Repr, Inhabited

/-- The cable model of an outlet (R198). -/
structure CableCfg where
  r0 : Nat := 0
  alpha : Nat := 0
  cc : Nat := 0
  cw : Nat := 0
  cj : Nat := 0
  gcw : Nat := 0
  gwj : Nat := 0
  gja : Nat := 0
  cpFlow : Nat := 0
  tLimit : Nat := 0
  tCoolSp : Nat := 0
  tInWorst : Int := 0
  tAmb : Int := 0
  flowWorst : Nat := 0
  kh : Nat := 0
  hrDecay : Nat := 0
  pinOffset : Nat := 0
  resLimit : Nat := 0
  kObs : Nat := 0
  sensors : Nat := 0
  pumpMin : Nat := 0
  fanMin : Nat := 0
  kpCool : Nat := 0
  kiCool : Nat := 0
  kff : Nat := 0
  deriving DecidableEq, Repr, Inhabited

/-- OUTLET (R38). `conn` 0: disabled. -/
structure OutCfg where
  conn : Nat := 0
  link : Nat := 0
  prio : Nat := 0
  met : Option SetIx := none
  vCeil : Nat := 0
  iCeil : Nat := 0
  pCeil : Nat := 0
  maxCh : Nat := 1
  unbilled : Bool := false
  mast : Bool := false
  brake : Option (Fin 8) := none
  zone : Fin 8 := 0
  cable : CableCfg := {}
  /-- Pilot thresholds of R178 in 0.1 V: t_max, t_ab, t_bc, t_cd, t_de. -/
  thr : List Nat := [0, 0, 0, 0, 0]
  tNeg : Int := 0
  ppMin : Nat := 0
  ppMax : Nat := 0
  deriving DecidableEq, Repr, Inhabited

/-- A stage entry of a LOOP record (R112). -/
structure StageCfg where
  kind : Nat := 0
  dir : Nat := 0
  pol : Nat := 0
  aux : Int := 0
  spSlew : Nat := 0
  invScale : Nat := 1
  kp : Nat := 0
  ki : Nat := 0
  kd : Nat := 0
  kt : Nat := 0
  kf : Nat := 0
  deriving DecidableEq, Repr, Inhabited

/-- LOOP (R111). `present` false: no such record. -/
structure LoopCfg where
  present : Bool := false
  umax : Nat := 0
  kp : Nat := 0
  ki : Nat := 0
  kt : Nat := 0
  stages : List StageCfg := []
  deriving DecidableEq, Repr, Inhabited

/-- METER of a DC set (R218), with the general timer taken for its pulse output (R220). -/
structure MeterCfg where
  kind : Nat := 0
  target : Option Nat := none
  pulse : Option (Fin 4) := none
  mode : Nat := 0
  shunt : Nat := 0
  divider : Nat := 0
  rated : Nat := 0
  tamper : Nat := 0
  bms : Option (Fin 64) := none
  deriving DecidableEq, Repr, Inhabited

/-- METER of the site (R219, R62). `present` false: no record of number 32. -/
structure SiteCfg where
  present : Bool := false
  kind : Nat := 0
  nominal : Nat := 50
  pulse : Option (Fin 4) := none
  mode : Nat := 0
  shunt : Nat := 0
  divider : Nat := 0
  rated : Nat := 0
  tamper : Nat := 0
  imp : Nat := 0
  exp : Nat := 0
  deriving DecidableEq, Repr, Inhabited

/-- A season entry of a TARIFF record (R250). -/
structure Season where
  month : Nat := 1
  day : Nat := 1
  prof : List Nat := []
  deriving DecidableEq, Repr, Inhabited

/-- TARIFF (R250). -/
structure TariffCfg where
  present : Bool := false
  utcOff : Int := 0
  shift : Nat := 0
  dstStart : Nat × Nat × Nat := (1, 1, 0)
  dstEnd : Nat × Nat × Nat := (1, 1, 0)
  dstMinute : Nat := 0
  profiles : List (List (Nat × Nat)) := []
  seasons : List Season := []
  specials : List (Nat × Nat × Nat × Nat) := []
  deriving DecidableEq, Repr, Inhabited

/-- A filter entry of a CAN record (R352). -/
structure FiltCfg where
  ident : BitVec 29 := 0
  ext : Bool := false
  copy : Bool := false
  enabled : Bool := false
  q : Nat := 0
  num : Nat := 0
  sub : Nat := 0
  start : Nat := 0
  buf : Option (Fin 8) := none
  action : Bool := false
  mask : BitVec 29 := 0
  deriving DecidableEq, Repr, Inhabited

/-- CAN (R351). `mode` 0 OFF, 1 LEAD_ONLY, 2 DUAL. -/
structure CanCfg where
  mode : Nat := 0
  nbrp : Nat := 1
  ntseg1 : Nat := 2
  ntseg2 : Nat := 1
  nsjw : Nat := 1
  dbrp : Nat := 1
  dtseg1 : Nat := 1
  dtseg2 : Nat := 1
  dsjw : Nat := 1
  tdcOff : Nat := 0
  fd : Bool := false
  brs : Bool := false
  tdc : Bool := false
  coolId : Nat := 0
  coolExt : Bool := false
  coolMask : BitVec 32 := 0
  slotTimer : Option (Fin 16) := none
  slotOff : Nat := 30
  filters : List FiltCfg := []
  deriving DecidableEq, Repr, Inhabited

/-- AUX (R336). -/
structure AuxCfg where
  use : Nat := 0
  target : Option Nat := none
  cls : Nat := 0
  holdDuty : Nat := 0
  holdDelay : Nat := 0
  olMode : Nat := 0
  fineThr : Nat := 0
  timer : Option (Fin 16) := none
  pulseTime : Nat := 0
  deriving DecidableEq, Repr, Inhabited

/-- FIFO (R410). `kind` 0: none. -/
structure FifoCfg where
  kind : Nat := 0
  cls : Nat := 0
  next : Option (Fin 64) := none
  hostWrite : Bool := false
  base : Nat := 0
  size : Nat := 0
  irq : Nat := 0
  deriving DecidableEq, Repr, Inhabited

/-- TALLY (R442). -/
structure TallyCfg where
  code : Nat := 0
  num : Nat := 0xFF
  frames : Bool := false
  deriving DecidableEq, Repr, Inhabited

/-- PIN (R470, R64). `fn` 0 off, 1 primary. -/
structure PinCfg where
  fn : Nat := 1
  cls : Nat := 0
  glimMode : Nat := 0
  pulseFs : Nat := 0
  glimFs : Nat := 0
  deriving DecidableEq, Repr, Inhabited

/-- SAFETY (R329). `interval` is the code-free interval in hours, none for the sealed interval. -/
structure SafetyCfg where
  zoneClusters : Vector (BitVec 12) 8 := Vector.replicate 8 0xFFF
  brakeZone : Vector (Option (Fin 8)) 8 := Vector.ofFn some
  interval : Option Nat := none
  discTime : Nat := 10
  imdFilter : Nat := 5
  weldTime : Nat := 10
  brkThreshold : Nat := 4
  testTime : Nat := 300
  startMode : Bool := false
  brakeIdle : Nat := 5
  deriving DecidableEq, Repr, Inhabited

/-- TANDEM (R279). -/
structure TandemCfg where
  enable : Bool := false
  pref : Nat := 0
  linkMode : Nat := 0
  opts : Nat := 0
  hbCan : Option CanIx := none
  swapFrames : Nat := 10
  hbId : Nat := 0
  hbExt : Bool := false
  joinWait : Nat := 100
  deriving DecidableEq, Repr, Inhabited

/-- The stand map that governs operation, after all passes (R39 step 6). -/
structure SiteMap where
  ch : Vector ChanCfg 96 := Vector.replicate 96 {}
  /-- The record that replaces the one of a channel when its withdrawal has ended (R52). -/
  chNext : Vector (Option ChanCfg) 96 := Vector.replicate 96 none
  clu : Vector CluCfg 12 := Vector.replicate 12 {}
  route : Vector (List RouteCfg) 96 := Vector.replicate 96 []
  out : Vector OutCfg 32 := Vector.replicate 32 {}
  loop : Vector LoopCfg 32 := Vector.replicate 32 {}
  met : Vector MeterCfg 32 := Vector.replicate 32 {}
  site : SiteCfg := {}
  tariff : Vector TariffCfg 4 := Vector.replicate 4 {}
  can : Vector CanCfg 8 := Vector.replicate 8 {}
  aux : Vector AuxCfg 88 := Vector.replicate 88 {}
  fifo : Vector FifoCfg 64 := Vector.replicate 64 {}
  tally : Vector TallyCfg 192 := Vector.replicate 192 {}
  pin : Vector PinCfg 25 := Vector.replicate 25 {}
  safety : SafetyCfg := {}
  tandem : TandemCfg := {}
  deriving DecidableEq, Repr

end Sys2Proof.Machine
end

