-- ==== Sys2Proof/Machine/Memory.lean ====
section
/-! DEFINITION. The bytes of the landing memory as a list of cells in one canonical form (R403): addresses strictly
rising, no cell that holds 0. An address that is not listed reads 0 (DESIGN CHOICE: the manual gives the memory no
contents after power-on). -/

namespace Sys2Proof.Machine

/-- The bytes of a memory. -/
abbrev Memory := List Host.Cell

/-- The byte at an address. (DESIGN CHOICE, entry 5.) -/
def memRead : Memory → Nat → Byte
  | [], _ => 0
  | (b, v) :: m, a => if a = b then v else if a < b then 0 else memRead m a

/-- Put a cell in front, unless it holds what an unlisted address reads as. -/
def memCons (a : Nat) (v : Byte) (m : Memory) : Memory := if v = 0 then m else (a, v) :: m

/-- Write one byte. -/
def memWrite : Memory → Nat → Byte → Memory
  | [], a, v => memCons a v []
  | (b, w) :: m, a, v =>
    if a < b then memCons a v ((b, w) :: m)
    else if a = b then memCons a v m
    else (b, w) :: memWrite m a v

/-- Write a byte string at consecutive addresses. -/
def memWriteBytes : Memory → Nat → List Byte → Memory
  | m, _, [] => m
  | m, a, v :: vs => memWriteBytes (memWrite m a v) (a + 1) vs

/-- Read `n` bytes. -/
def memReadBytes (m : Memory) (a : Nat) : Nat → List Byte
  | 0 => []
  | n + 1 => memRead m a :: memReadBytes m (a + 1) n

/-- Every address of a memory is at least `lo`, they rise strictly and no cell holds 0. -/
def Memory.wfFrom : Nat → Memory → Bool
  | _, [] => true
  | lo, (a, v) :: m => decide (lo ≤ a) && decide (v ≠ 0) && Memory.wfFrom (a + 1) m

/-- The canonical form. -/
def Memory.wf (m : Memory) : Bool := Memory.wfFrom 0 m

end Sys2Proof.Machine
end

