-- ==== Sys2Proof/Machine/Parts.lean ====
section
/-! DEFINITION. The parts of the state of the SN9632 as plain data: every register, queue, counter, mode and memory that
the manual gives it, block by block in the order of the chapters, and the snapshot that the pair exchanges. -/

namespace Sys2Proof.Machine

/-- An event (R29, R30, R419). `ord` is its place within its rank (R31); `src` breaks ties between blocks. -/
structure Event where
  rank : Nat
  code : Nat
  num : Nat := 0
  ord : Nat := 0
  stamp : Nat := 0
  data : Nat := 0
  deriving DecidableEq, Repr, Inhabited

/-- The OTP contents that rules name (R2, R453, R425). (DESIGN CHOICE, entry 3.) -/
structure Otp where
  orderK : Bool := false
  /-- The lifecycle fuse (R378). -/
  locked : Bool := false
  serial : BitVec 80 := 0
  deriving DecidableEq, Repr, Inhabited

/-- Which islands run (R12, R424, R434). (DESIGN CHOICE, entry 4.) -/
structure Isl where
  ctl : Bool := true
  com : Bool := true
  met : Bool := true
  lnd : Bool := true
  deriving DecidableEq, Repr, Inhabited

/-- The SMP block (R55 to R57), the loaded image and the amendment path (R50 to R52). -/
structure Smp where
  /-- SMP_STATUS.source: 0 loading, 1 copy A, 2 copy B, 3 minimal map. -/
  source : Nat := 0
  loaded : Bool := false
  chainShort : Bool := false
  clampOver : Bool := false
  claimsLost : Nat := 0
  sealLimited : Bool := false
  length : Nat := 0
  recCount : Nat := 0
  fmtVer : Nat := 0
  hash : List Byte := []
  activeHash : List Byte := []
  /-- The hashes of the applied amendments, in chain order. -/
  amendHashes : List (List Byte) := []
  /-- The records after pass 1 of R41: the values that R45 calls unclamped. -/
  recs : List Rec := []
  /-- Claims lost so far: amendment, record offset and field. -/
  lost : List (Nat × Nat × Nat) := []
  report : List ClampEntry := []
  /-- The entries of the last run of passes 2 to 5, against which the next run finds its changes. -/
  ents : List ClampEntry := []
  clampCount : Nat := 0
  rejA : Nat := 0
  rejB : Nat := 0
  rejOffA : Nat := 0
  rejOffB : Nat := 0
  clampSel : BitVec 8 := 0
  clampData : List Byte := List.replicate 16 0
  amendLen : BitVec 15 := 0
  /-- SMP_AMEND_STATUS.state of R57. -/
  amState : Nat := 0
  amReason : Nat := 0
  amClamps : Nat := 0
  /-- The amendment image in the staging path and the frame it was latched in. -/
  amImage : List Byte := []
  amLatchFn : Nat := 0
  amFn : Nat := 0
  amAppliedAt : Nat := 0
  /-- Applied amendments that are not yet in the chain areas (R52). -/
  toPersist : List (List Byte) := []
  /-- What the last amendment disabled: outlets, channels, switches, buses, sets (R52). -/
  offOut : BitVec 32 := 0
  offCh : BitVec 96 := 0
  offAux : BitVec 88 := 0
  offCan : BitVec 8 := 0
  offMet : BitVec 32 := 0
  amendCount : Nat := 0
  lastAmendFn : Nat := 0
  sealApplied : BitVec 64 := 0
  flashLen : BitVec 21 := 0
  flashState : Nat := 0
  flashReason : Nat := 0
  /-- A seal change waits for the boundary that leaves HELD (R45). -/
  resealPending : Bool := false
  timers : BitVec 16 := 0
  /-- Timers taken by pulse outputs, with the amendment of the record (R220). -/
  pulseTimer : Vector (Option (Nat × Fin 16)) 33 := Vector.replicate 33 none
  landingFree : Nat := 0x400
  intStatus : Word := 0
  intEnable : Word := 0
  deriving DecidableEq, Repr

/-- The flash areas that hold the stand map (R39, R52, R54). -/
structure FlashMap where
  copyA : List Byte := []
  copyB : List Byte := []
  chainA : List (List Byte) := []
  chainB : List (List Byte) := []
  /-- The copy being written: false A, true B (R54). -/
  writing : Option Bool := none
  /-- What the running write stores. -/
  image : List Byte := []
  deriving DecidableEq, Repr

/-! ### The yarder (chapter 3) -/

/-- The handover states of R81, in the codes of ALC_CH_STATE.state. -/
inductive HSt where
  | idle | settled | rampDown | opening | closing | tracking | routeFault | out
  deriving DecidableEq, Repr, Inhabited

/-- A channel's handover (R81, R85). -/
structure Hand where
  st : HSt := .out
  /-- The frame in which the state took effect. -/
  stFn : Nat := 0
  /-- The outlet settled on or being left. -/
  outlet : Option OutIx := none
  dest : Option OutIx := none
  /-- The route word in force: none opens every route. -/
  word : Option Nat := none
  /-- The feedback timeout of the route that the word names, as it stood when the word took effect (R134). -/
  tfb : Nat := 50
  dwell : Nat := 0
  cause : Nat := 0
  /-- OPENING after a closing timeout: ROUTE_FAULT with cause 3 follows. -/
  pendFault : Bool := false
  /-- OPENING after a tracking failure: IDLE follows whatever the plan. -/
  trackFail : Bool := false
  /-- The destination was in ENERGY while the channel was closing or tracking. -/
  sawEnergy : Bool := false
  /-- An amendment takes the channel out of service, or withdrew its route (R52). -/
  leaving : Bool := false
  /-- First frame of SETTLED after TRACKING (R96). -/
  fresh : Bool := false
  deriving DecidableEq, Repr, Inhabited

/-- The plan of one outlet (R69 to R79, R86, R87). -/
structure OutPlan where
  dPlan : Nat := 0
  w : Nat := 0
  cls : Nat := 0
  override : Bool := false
  energyHost : Bool := false
  departHost : Bool := false
  overdue : Bool := false
  discharge : Bool := false
  target : Nat := 0
  budget : Int := 0
  iCeil : Nat := 0
  /-- Channels that the plan counts on the outlet (R75, R91). -/
  count : Nat := 0
  /-- The vehicle's need was used as written by the host, the weight and class of the planning fill (R87). -/
  charging : Bool := false
  binding : Nat := 0
  requested : Nat := 0
  deriving DecidableEq, Repr, Inhabited

/-- The results of the yarder for one frame (R78). -/
structure Plan where
  limit : Nat := 0
  src : Nat := 0
  /-- The loss term of the plan, floor(L × loss / 1000). -/
  loss : Nat := 0
  /-- house_w of the input set that the plan was computed from (R92). -/
  house : Nat := 0
  none_ : Bool := false
  net : Nat := 0
  xfmrTerm : Nat := 0
  xfmrStale : Bool := false
  xfmrAge : Nat := 0
  glimTerm : Nat := 0
  glimLoss : Bool := false
  exportLimited : Bool := false
  pDis : Nat := 0
  pChg : Nat := 0
  v2g : Nat := 0
  importPlan : Int := 0
  level : Nat := 0
  fn : Nat := 0
  /-- FRONT channels with available power (R92). -/
  mF : Nat := 0
  outs : Vector OutPlan 32 := Vector.replicate 32 {}
  packs : Vector Int 8 := Vector.replicate 8 0
  leaseCap : BitVec 8 := 0
  reserve : BitVec 8 := 0
  deriving DecidableEq, Repr, Inhabited

/-- The ALC registers that commands write, and what the block keeps beside the plan (R83, R86). -/
structure Alc where
  ctrl : BitVec 4 := 3
  hostLimit : Word := 0xFFFFFFFF
  glimFallback : Word := 0
  xfmrFallback : Nat := 0x320
  loss : Nat := 0x1E
  house : Word := 0
  exportLimit : Word := 0
  reserve : BitVec 15 := 0x5A14
  hyst : Nat := 0xFA
  chSel : BitVec 7 := 0
  prio : Vector (BitVec 4) 32 := Vector.replicate 32 0
  energy : Vector Word 32 := Vector.replicate 32 0xFFFFFFFF
  depart : Vector Word 32 := Vector.replicate 32 0
  v2g : Vector Word 32 := Vector.replicate 32 0
  settled : BitVec 16 := 0
  failed : BitVec 16 := 0
  intStatus : Word := 0
  intEnable : Word := 0
  /-- The last GLIM samples, newest first, with the runs of R65. -/
  glimLast : List Nat := []
  glimRaw : Nat := 0
  lossRun : Nat := 0
  goodRun : Nat := 0
  glimLoss : Bool := false
  /-- GLIM_P (R65): CLK_LOOP cycles since the last rising edge, or since the load before a first one, whether there was
  an edge, and the last complete period. -/
  glimGap : Nat := 0
  glimEdge : Bool := false
  glimPeriod : Option Nat := none
  /-- The frame from which ALC_XFMR_AGE counts before a first entry (R63). -/
  loadFn : Nat := 0
  /-- The frame of an XFMR_STALE_TIMEOUT: an entry of an earlier frame is stale. -/
  xfmrForced : Nat := 0
  /-- Outlets whose ALC registers were returned to reset at the boundary that opened this frame (R71). -/
  fresh : BitVec 32 := 0
  deriving DecidableEq, Repr

/-! ### Channel loops (chapter 4) and channel ports (chapter 5) -/

/-- The loop modes of R96. -/
inductive LMode where
  | zero | track | ramp | active
  deriving DecidableEq, Repr, Inhabited

/-- The block of an outer stage or of the inner stage (R100), with the working set-point of R95. -/
structure Block where
  e : Nat := 0
  mi : Int := 0
  mf : Int := 0
  md : Int := 0
  spw : Int := 0
  idle : Bool := true
  sp : Int := 0
  y : Int := 0
  cand : Int := 0
  deriving DecidableEq, Repr, Inhabited

/-- Why a channel ramps (R94). -/
inductive RampCause where
  | handover | outlet | outletFast | packOpen | lease | bus
  deriving DecidableEq, Repr, Inhabited

/-- A channel unit (R88 to R109) with its LPE registers that are not views (R114). -/
structure ChUnit where
  mode : LMode := .zero
  rev : Bool := false
  stages : List Block := []
  inner : Block := {}
  rw : Int := 0
  rate : Nat := 0
  causes : List RampCause := []
  /-- n_o of the outlet-level stages in this frame (R91), and the outlet. -/
  m : Nat := 1
  out : Option OutIx := Option.none
  sMag : Int := 0
  rRaw : Int := 0
  winner : Nat := 0
  winnerValid : Bool := false
  /-- The winner at the last sample of the previous frame, where R109 counts it. -/
  prevWinner : Option Nat := Option.none
  /-- The unit computed a sample in ACTIVE or RAMP with winner_valid in this frame. -/
  computed : Bool := false
  staleRun : Nat := 0
  hold : Bool := false
  /-- The hold ended in this frame (R131). -/
  holdEnded : Bool := false
  limiting : Bool := false
  slewing : Bool := false
  innerSat : Bool := false
  /-- Events of R109 already raised in this frame: hold entry, mantissa saturation. -/
  evHold : Bool := false
  evSat : Bool := false
  cmd : Int := 0
  cmdSeq : BitVec 16 := 0
  /-- The measurement in use and whether it was valid at the latest sample start. -/
  meas : Uplink := {}
  valid : Bool := false
  /-- An uplink has been latched at some time. -/
  seen : Bool := false
  cntWin : BitVec 16 := 0
  cntStale : BitVec 16 := 0
  cntInner : BitVec 16 := 0
  cntMant : BitVec 16 := 0
  capture : Bool := false
  stageSel : BitVec 4 := 0
  intStatus : Word := 0
  intEnable : Word := 0
  deriving DecidableEq, Repr, Inhabited

/-- What one frame leaves in the snapshot about a channel's uplinks (R486). -/
structure FrameSum where
  samples : Nat := 0
  valids : Nat := 0
  /-- Every valid sample so far met the 5 V test of R137. -/
  track : Bool := true
  /-- Every sample so far, on the measurement in use, and every valid sample had |i_out| of 2 A or less. -/
  low : Bool := true
  lowValid : Bool := true
  /-- The route_fb bytes of the last two valid uplinks, newest first. -/
  fb : List (BitVec 8) := []
  wdog : Bool := false
  shorted : Bool := false
  /-- Samples with the stale marker. -/
  stale : List Nat := []
  /-- The uplinks latched, oldest first, kept while capture is set (R418). -/
  ups : List (Option Uplink) := []
  deriving DecidableEq, Repr, Inhabited

/-- The last eight samples of the frame were stale (R67). -/
def FrameSum.staleEnd (f : FrameSum) : Bool :=
  decide (8 ≤ f.samples) && (List.range 8).all fun j => f.stale.contains (f.samples - 1 - j)

/-- A channel port (R117 to R147). (DESIGN CHOICE, entry 67.) -/
structure Port where
  /-- Valid frames received and not yet latched, newest first. -/
  rx : List Uplink := []
  tx : Option Downlink := none
  /-- No frame went out in the latest sample: the lane carries K28.5 (R122). -/
  silent : Bool := false
  /-- Samples of absence in a row. -/
  absentRun : Nat := 0
  sum : FrameSum := {}
  /-- The summary of the last whole frame. -/
  prev : FrameSum := {}
  /-- Frames left of the spread windows of R131. -/
  spreadLeft : Nat := 0
  wdogSeen : Bool := false
  partner : Bool := false
  /-- Evaluations in a row with feedback that differs from the route word (R134). -/
  fbRun : Nat := 0
  mismatch : Bool := false
  /-- The fixed zero command of R10 replaces the pipeline's frames. -/
  zeroCmd : Bool := false
  /-- Short detection (R141): run of samples at the limit, frames since the entry into TRACK, STOP held. -/
  limRun : Nat := 0
  trackFrames : Nat := 0
  trackSit : Nat := 0
  /-- The window test of R141 was made since the entry. -/
  winDone : Bool := false
  lastV : Option Nat := none
  stopHeld : Bool := false
  portOff : Bool := false
  test : Bool := false
  intEn : BitVec 6 := 0
  events : BitVec 6 := 0
  trackCfg : Word := 0x0A142802
  cntCrc : BitVec 16 := 0
  cntAbsent : BitVec 16 := 0
  cntPartner : BitVec 16 := 0
  cntMismatch : BitVec 16 := 0
  deriving DecidableEq, Repr, Inhabited

/-- A cluster's sample counters and the pipeline that serves it (R10, R107). Pipelines of a region are numbered 0 to 3;
none: the cluster is lost. -/
structure Cluster where
  next : Nat := 0
  /-- Samples of the frame whose uplinks are latched: `next`, or one more while the computation waits. -/
  latched : Nat := 0
  pipe : Option (Fin 4) := none
  onSpare : Bool := false
  deriving DecidableEq, Repr, Inhabited

/-- The pipelines of a region (R10, R108). -/
structure Region where
  spare : Option (Fin 4) := none
  spareUsed : Bool := false
  spareUnavail : Bool := false
  failed : BitVec 4 := 0
  lost : Bool := false
  deriving DecidableEq, Repr, Inhabited

/-- The states of the DC bus (R139), in the codes of CHP_STATUS.bus_state. -/
inductive BusSt where
  | off | softStart | run | shutdown | aborted
  deriving DecidableEq, Repr, Inhabited

/-- The DC bus as frame-level state (R138 to R140). -/
structure Bus where
  st : BusSt := .off
  entryFn : Nat := 0
  phi0 : Nat := 0
  deriving DecidableEq, Repr, Inhabited

/-- What the samples of one frame say about the bus (R139). -/
structure BusSum where
  any : Bool := false
  within : Bool := true
  short : Bool := false
  deriving DecidableEq, Repr, Inhabited

/-- The parts of the loop engine and the ports beyond the frame-level state. -/
structure Ctl where
  units : Vector ChUnit 96 := Vector.replicate 96 {}
  /-- The unit state after the last sample of each cluster that completes before 940 µs (R24). -/
  unitD : Vector ChUnit 96 := Vector.replicate 96 {}
  /-- The unit state in the snapshot S_F that the RO registers show (R114, R486). -/
  unitS : Vector ChUnit 96 := Vector.replicate 96 {}
  ports : Vector Port 96 := Vector.replicate 96 {}
  portS : Vector Port 96 := Vector.replicate 96 {}
  clu : Vector Cluster 12 := Vector.replicate 12 {}
  rgn : Vector Region 4 := Vector.replicate 4 {}
  /-- The stored bus set-points of CHP_BUS (R147). -/
  busSet : Vector Nat 8 := ⟨#[0, 0x5780, 0x5DC0, 0x6400, 0x6A40, 0x7080, 0x76C0, 0x7D00], rfl⟩
  busSum : BusSum := {}
  busPrev : BusSum := {}
  /-- The most recent valid V_bm (R140). -/
  lastVbm : Option Nat := none
  /-- Pipelines that failed in this frame, taken over at the next boundary (R10). -/
  pipeFail : List (RgnIx × Fin 4) := []
  deriving DecidableEq, Repr

/-! ### Outlet sequencers (chapter 6) -/

/-- The sequencer states of R152, in the codes of OSQ_STATE.state. -/
inductive OSt where
  | idle | plugged | associated | authorized | cableCheck | precharge | energy | rampDown | weldCheck | discharge
  | unplugWait | hold | fault | outOfService
  deriving DecidableEq, Repr, Inhabited

/-- An outlet sequencer as frame-level state (R148 to R166). -/
structure Osq where
  st : OSt := .idle
  prev : OSt := .idle
  /-- The frame in which the state took effect. -/
  stFn : Nat := 0
  /-- A transition was found in the frame in progress (R148: at most one). -/
  moved : Bool := false
  hostEnabled : Bool := true
  enPending : Bool := false
  /-- Stop causes latched in the stop or session, bit = code of R154. -/
  causes : BitVec 16 := 0
  disableLatched : Bool := false
  faultPending : Bool := false
  fault : Nat := 0
  stopCause : Nat := 0
  /-- Causes of class hold: [0] thermal, [1] interlock, [2] link, [3] cc timeout, [4] pc timeout. -/
  hold : BitVec 5 := 0
  exhausted : Bool := false
  credit : Bool := false
  fast : Bool := false
  unbilled : Bool := false
  weld : Bool := false
  weldUnver : Bool := false
  disUnver : Bool := false
  kCmd : Bool := false
  /-- The frame in which the last K_n command took effect; its timeout of R150 is judged in this evaluation, or was. -/
  kFn : Nat := 0
  kDue : Bool := false
  kJudged : Bool := false
  /-- A restart waits k_fb for its judgement of K_n (R166 step 6). -/
  starting : Bool := false
  dscBus : Bool := false
  dscCable : Bool := false
  lock : Bool := false
  /-- V_cab < 60 V was latched in this PRECHARGE and the vehicle was told that it may close. -/
  mayClose : Bool := false
  imdRun : Nat := 0
  vC0 : Option Nat := none
  thermal : Bool := false
  /-- The frame since which pins, sensors and hot spot have been in order (R162). -/
  coolFrom : Option Nat := none
  retryLeft : Nat := 0
  counted : Bool := false
  sessCount : Nat := 0
  sessOpen : Bool := false
  /-- AUTHORIZED took effect in this session (R264). -/
  billed : Bool := false
  startFn : Nat := 0
  authFn : Option Nat := none
  /-- The frame in which the session stopped, until its SESSION_END is written (R167, R264). -/
  stoppedFn : Option Nat := none
  deriving DecidableEq, Repr, Inhabited

/-- The OSQ registers that commands write, the mailbox pointers and the commands latched for the frame (R167, R169). -/
structure OsqReg where
  cfg : Word := 0x00A140A3
  tmo : Word := 0x19143C3C
  timing : Word := 0x32641432
  therm : Word := 0x14001680
  cc : Word := 0x003C0000
  pilotCfg : Word := 0x32
  wr : BitVec 6 := 0
  rd : BitVec 6 := 0
  lost : BitVec 16 := 0
  seq : BitVec 16 := 0
  /-- Entries in the ring that the host has not read. -/
  unread : Nat := 0
  cmd : BitVec 8 := 0
  intStatus : Word := 0
  intEnable : Word := 0
  deriving DecidableEq, Repr, Inhabited

/-- A mailbox entry found in this frame (R167), written in step 7: the values of its data bytes in their order. -/
structure MbxEntry where
  o : OutIx
  fn : Nat
  code : Nat
  before : OSt
  after : OSt
  info : Nat := 0
  retry : Nat := 0
  flags : Nat := 0
  sess : Nat := 0
  data : List Nat := []
  deriving DecidableEq, Repr, Inhabited


/-! ### Vehicle links (chapter 7) -/

/-- What the input sets have latched of a vehicle (R149, R189, R190, R489). -/
structure Veh where
  bound : Bool := false
  ccReq : Bool := false
  ready : Bool := false
  closed : Bool := false
  stop : Bool := false
  err : Bool := false
  linkLost : Bool := false
  bpt : Bool := false
  dynamic : Bool := false
  v : VehVals := {}
  /-- Departure in RTC seconds. -/
  departAt : Option Nat := none
  degraded : Bool := false
  link : LinkIn := {}
  /-- Retransmissions and decode errors latched since PLUGGED (R195). -/
  retrans : Nat := 0
  decodeErr : Nat := 0
  deriving DecidableEq, Repr, Inhabited

/-- What a response carries beside the frame values (R189, R190, R490). -/
inductive RespKind where
  | plain | ongoing | finished | ready | notReady | stopNotify | failed
  deriving DecidableEq, Repr, Inhabited

/-- A response built in step 7 (R190). -/
structure Resp where
  fn : Nat := 0
  presentV : Nat := 0
  presentI : Int := 0
  maxI : Nat := 0
  maxP : Nat := 0
  maxV : Nat := 0
  st : OSt := .idle
  kind : RespKind := .plain
  /-- The power of the one schedule offered, for 24 h (R186). -/
  schedule : Option Nat := none
  deriving DecidableEq, Repr, Inhabited

/-- The kind of the request that waits for its response. -/
inductive ReqKind where
  | cableCheck | preCharge | authorization | sessionSetup | parameters | other
  deriving DecidableEq, Repr, Inhabited

/-- A link port on the communication die (R171 to R196). -/
structure Vlk where
  modem : Option (Fin 16) := none
  t1sUp : Bool := false
  matched : Bool := false
  nmk : BitVec 128 := 0
  tcp : Bool := false
  tls : Bool := false
  session : Bool := false
  layer : Layer := .none
  bpt : Bool := false
  dynamic : Bool := false
  contract : Bool := false
  takeover : Bool := false
  gap : Nat := 0
  evccid : List Byte := []
  preSeen : Bool := false
  authSeen : Bool := false
  cfg : Word := 0x0730003C
  linkCfg : Word := 0x0000FF8A
  /-- The values in force for the session: a change applies from the next session (R196). -/
  sessCfg : Word := 0x0730003C
  sessLink : Word := 0x0000FF8A
  slacBest : Nat := 0
  slacNext : Nat := 0
  slacWinner : Nat := 0
  slacResult : Nat := 0
  attempts : Nat := 0
  /-- Running totals of retransmissions and decode errors. -/
  retrans : Nat := 0
  decodeErr : Nat := 0
  degradedCnt : Nat := 0
  longGap : Nat := 0
  req : Option ReqKind := none
  /-- The last answer of SECC discovery: address, port, TLS offered (R187). -/
  sdp : Option (BitVec 128 × Nat × Bool) := none
  resp : Resp := {}
  intStatus : Word := 0
  intEnable : Word := 0
  deriving DecidableEq, Repr, Inhabited

/-- A SLAC run (R179 to R183): the sounds heard per port as count and sum of group attenuations. -/
structure SlacRun where
  mac : BitVec 48
  runId : BitVec 64
  announced : Nat := 0
  opened : Bool := false
  closed : Bool := false
  cands : BitVec 32 := 0
  sounds : Vector (Nat × Nat) 32 := Vector.replicate 32 (0, 0)
  bound : Option OutIx := none
  /-- Ports that decisions of overlapping runs have bound (R182). -/
  excl : BitVec 32 := 0
  /-- The window was open at a take-over (R194). -/
  void : Bool := false
  deriving DecidableEq, Repr, Inhabited

/-! ### Cable cooling (chapter 8) -/

/-- The cable block of an outlet as frame-level state (R197 to R213). Temperatures in 2^-16 °C. -/
structure Ccl where
  tc : Int := 0
  tw : Int := 0
  tj : Int := 0
  /-- The cooling integrator x_i (R210). -/
  integ : Int := 0
  iHr : Nat := 0
  /-- The block has computed since its start (R206), and the frame of that start. -/
  ran : Bool := false
  startFn : Nat := 0
  /-- T_allow in 1/64 °C, rounded half to even and saturated (R214). -/
  tAllow : Int := 0
  resid : Int := 0
  resRun : Nat := 0
  resFault : Bool := false
  pinFloor : Bool := false
  overLim : Bool := false
  stale1s : Bool := false
  /-- Lost quantities: [0] inlet, [1] flow, [2] outlet, [3] pins (R201). -/
  lost : BitVec 4 := 0
  /-- A declared quantity was lost and not every one has been fresh since (R213). -/
  lostSince : Bool := false
  decaying : Bool := false
  binding : Bool := false
  pump : Nat := 0
  fan : Nat := 0
  /-- Age of the oldest declared quantity in milliseconds. -/
  age : Nat := 0
  /-- The latched sensor values of the last thermal frame (R214). -/
  tIn : Int := 0
  tOut : Int := 0
  flow : Nat := 0
  tPin : Int := 0
  manual : Bool := false
  /-- Sums of i_out latched at sample 0 of the last frames, newest first, in 1/32 A (R202). -/
  sums : List Int := []
  deriving DecidableEq, Repr, Inhabited

/-- The CCL registers that commands write (R214, R215). -/
structure CclReg where
  manual : Bool := false
  clearReq : Bool := false
  manPump : Nat := 0
  manFan : Nat := 0
  events : BitVec 6 := 0
  intEn : BitVec 6 := 0
  deriving DecidableEq, Repr, Inhabited



/-! ### Metrology (chapter 9) -/

/-- What the frame state holds of one set, 32 being the site (R235 to R243). -/
structure MetSet where
  /-- Pulse accumulator in µWh, backlog, spacing in frames, first frame of the next start, planning period. -/
  acc : Nat := 0
  b : Nat := 0
  s : Nat := 1
  nxt : Nat := 0
  per : Nat := 0
  backlog : Bool := false
  ovr : Bool := false
  settle : Bool := false
  wasOvr : Bool := false
  lbSess : Bool := false
  revDir : Int := 0
  /-- Spans in CLK_MET clocks of reversed and of mismatching records in a row. -/
  revSpan : Nat := 0
  misSpan : Nat := 0
  reversed : Bool := false
  mismatch : Bool := false
  witFlag : Bool := false
  devFwd : Int := 0
  devRev : Int := 0
  deriving DecidableEq, Repr, Inhabited

/-- The metrology block as frame-level state. -/
structure MetF where
  sets : Vector MetSet 33 := Vector.replicate 33 {}
  neutral : Bool := false
  neutSpan : Nat := 0
  bypass : Bool := false
  bypassSkip : Bool := false
  /-- The bypass window (R239): energies of the site and of the sets, forward energy of the site, whether it counts,
  and the loss terms that it began with. -/
  winSite : Int := 0
  winDc : Int := 0
  winFwd : Nat := 0
  winBad : Bool := true
  winLoss : Nat := 0
  winHouse : Word := 0
  /-- The last latched record. -/
  last : CycleRec := {}
  seen : Bool := false
  wasHold : Bool := false
  witActive : Bool := false
  witLost : Bool := false
  witFn : Nat := 0
  /-- The lead's totals from latched records, the last readings of the follower, and the largest record since the last
  message. -/
  lead : Vector Wit 33 := Vector.replicate 33 {}
  foll : Vector Wit 33 := Vector.replicate 33 {}
  emax : Vector Wit 33 := Vector.replicate 33 {}
  /-- The last messages, newest first: follower, lead, and the largest record before each (R243). -/
  hist : List (Vector Wit 33 × Vector Wit 33 × Vector Wit 33) := []
  deriving DecidableEq, Repr, Inhabited

/-- What one sub-sample gives the cycle in which it ends: its end in CLK_MET clocks after the last boundary, powers and
squares as in `Met`, the magnitudes of the three phases, the converters beyond full scale. -/
structure Samp where
  clk : Int
  pw : Vector Int 33
  sq : Vector Int 11
  mag : Vector Int 3
  ovr : BitVec 72
  deriving DecidableEq, Repr

/-- The metering hardware and its registers (R216 to R234, R246), which are no part of the snapshot. -/
structure Met where
  gain : Vector Nat 72 := Vector.replicate 72 0x40000000
  off : Vector Int 72 := Vector.replicate 72 0
  /-- The calibration area in MRAM (R234). -/
  mram : Option (Vector Nat 72 × Vector Int 72) := none
  /-- The reference correction in force in 2^-30, the one for the next boundary, the temperature that it used, and the
  reference temperature as last converted, in 1/64 °C. -/
  cref : Int := 0x40000000
  crefNext : Int := 0x40000000
  temp : Int := 0
  tempNext : Int := 0
  tempNow : Int := 1600
  /-- The running cycle: power sums by direction per set, squares for the site RMS (L1, L2, L3, N, then the currents,
  then line to line), sub-samples, and the converters that went beyond full scale. -/
  sFwd : Vector Int 33 := Vector.replicate 33 0
  sRev : Vector Int 33 := Vector.replicate 33 0
  sq : Vector Int 11 := Vector.replicate 11 0
  n : Nat := 0
  ovr : BitVec 72 := 0
  /-- Clocks from the last boundary to the end of the last sub-sample, the accepted crossing that closes the cycle, and the
  sub-samples that may belong to the next one: those after the nominal length or the crossing (R222, R223). -/
  clk : Int := 0
  cross : Option Nat := none
  tail : List Samp := []
  /-- Line to neutral of L1, L2, L3 (R222): the last sub-sample, whether one below −5 % of the last cycle's peak has come
  since the last crossing, the peak of this cycle and of the last. -/
  ln : Vector Int 3 := Vector.replicate 3 0
  low : BitVec 3 := 0
  peak : Vector Int 3 := Vector.replicate 3 0
  peakLast : Vector Int 3 := Vector.replicate 3 0
  /-- Residuals of R225, below 2^80. -/
  resFwd : Vector Nat 33 := Vector.replicate 33 0
  resRev : Vector Nat 33 := Vector.replicate 33 0
  prevOvr : BitVec 72 := 0
  phase : Nat := 3
  hold : Bool := true
  resync : Bool := true
  seq : BitVec 32 := 0
  ringIx : Nat := 0
  ringWraps : BitVec 19 := 0
  /-- Voltage sub-samples of the frame in progress per set: their sum, and their number (R135). -/
  vSum : Vector Int 32 := Vector.replicate 32 0
  vN : Nat := 0
  capEn : Bool := false
  capSite : Bool := false
  capMask : Word := 0
  tamperCfg : Word := 0xF0514
  /-- The package's own witness totals (R242) and the last message that it sent. -/
  own : Vector Wit 33 := Vector.replicate 33 {}
  witSent : Option WitMsg := none
  /-- A pulse in progress per set, 32 being the site: its width in half milliseconds (R236). -/
  pulse : Vector (Option Nat) 33 := Vector.replicate 33 none
  intStatus : Word := 0
  intEnable : Word := 0
  setEvents : Vector (BitVec 4) 32 := Vector.replicate 32 0
  setIntEn : Vector (BitVec 4) 32 := Vector.replicate 32 0
  deriving DecidableEq, Repr


/-! ### Billing (chapter 10) -/

/-- A demand of one direction with its time stamp and interval flags (R255). -/
structure Demand where
  w : Nat := 0
  ts : Nat := 0
  flags : BitVec 5 := 0
  deriving DecidableEq, Repr, Inhabited

/-- The registers of a meter (R249, R255, R270). -/
structure BMeter where
  a : Vector Wit 8 := Vector.replicate 8 {}
  t : Wit := {}
  dem : Wit := {}
  maxF : Demand := {}
  maxR : Demand := {}
  lastF : Demand := {}
  lastR : Demand := {}
  /-- e_fwd, e_rev and L of the last applied record. -/
  lastE : Wit := {}
  lastL : Nat := 0
  deriving DecidableEq, Repr, Inhabited

/-- A calendar (R252 to R254): the high-water mark in local seconds, the tariff in force, the one that BIL_TARIFF shows,
and the switches crossed and not yet recorded: tariff, and 0 plain, 1 amended, 2 late. -/
structure BCal where
  hc : Option Int := none
  tariff : Nat := 0
  shown : Nat := 0
  sw : List (Nat × Nat) := []
  deriving DecidableEq, Repr, Inhabited

/-- A gap record (R272). -/
structure Gap where
  sec : Nat := 0
  ms : Nat := 0
  upper : Nat := 0
  bits : BitVec 8 := 0
  deriving DecidableEq, Repr, Inhabited

/-- A binding of a set to a ledger entry, with the working copy (R259, R261). -/
structure Bind where
  ix : Fin 1536
  e : Ledger
  fn : Nat
  confirmed : Bool := true
  forced : Bool := false
  /-- The home entry is due in step 5 of R254. -/
  due : Bool := false
  deriving DecidableEq, Repr, Inhabited

/-- Where a billing session stopped (R264): the frame, its latched RTC, the stop cause and fault, the hash of the active
map, and for a storage set the binding as it was. -/
structure BStop where
  fn : Nat
  sec : Nat := 0
  frac : Nat := 0
  cause : Nat := 0
  fault : Nat := 0
  hash : List Byte := []
  bind : Option Bind := none
  deriving DecidableEq, Repr, Inhabited

/-- A billing session of a set (R264, R270). -/
structure BSess where
  isOpen : Bool := false
  stop : Option BStop := none
  outlet : Option OutIx := none
  sessId : Nat := 0
  startFn : Nat := 0
  startSec : Nat := 0
  startFrac : Nat := 0
  e : Vector Wit 8 := Vector.replicate 8 {}
  tot : Wit := {}
  flags : BitVec 16 := 0
  gaps : List Gap := []
  gapCount : Nat := 0
  witStart : Wit := {}
  credit0 : Int := 0
  /-- The outlet ran unbilled (R263). -/
  unbilled : Bool := false
  deriving DecidableEq, Repr, Inhabited

/-- A ticket whose content is built (R264, R265): its ring place (none: the ring was full), its sequence and bytes 30 to 507. -/
structure Ticket where
  ix : Option Nat
  seq : Nat
  body : List Byte
  unsigned : Bool := false
  deriving DecidableEq, Repr, Inhabited

/-- The billing state of the frame (R248), which a save holds. -/
structure Bil where
  m : Vector BMeter 33 := Vector.replicate 33 {}
  cal : Vector BCal 4 := Vector.replicate 4 {}
  /-- The tariffs of the last frames: the frame, its RTC, and the tariff of each calendar. -/
  hist : List (Nat × Nat × List Nat) := []
  hd : Option Nat := none
  demLen : Nat := 900
  demN : Nat := 0
  demOpen : Nat := 0
  demFlags : BitVec 5 := 0
  /-- A demand boundary crossed in this frame: its instant, the flags and the number of frames of the interval. -/
  demCross : Option (Nat × BitVec 5 × Nat) := none
  /-- The frame of the last set-forward (R257). -/
  forwardFn : Option Nat := none
  skipped : Word := 0
  sess : Vector BSess 32 := Vector.replicate 32 {}
  bind : Vector (Option Bind) 32 := Vector.replicate 32 none
  creditOut : BitVec 32 := 0
  /-- Sets whose credit is exhausted (R262). -/
  exh : BitVec 32 := 0
  /-- Outlets for which billing is available (R263), and billing as a whole. -/
  avail : BitVec 32 := 0
  ok : Bool := false
  leaseWh : Vector (Option Nat) 8 := Vector.replicate 8 none
  ticketSeq : Nat := 0
  ticketWr : Nat := 0
  ticketRd : BitVec 8 := 0
  unacked : Nat := 0
  toSign : List Ticket := []
  clockOld : Nat := 0
  clockNew : Nat := 0
  clockFn : Nat := 0
  bounds : Word := 0
  lastSwitch : Nat := 0
  /-- The slot that a restore loaded: its RTC and sequence; its first frame has not run (R271). -/
  restore : Option (Nat × Nat) := none
  restored : Bool := false
  empty : Bool := false
  mapChanged : Bool := false
  gapMs : Nat := 0
  gapSec : Nat := 0
  restores : Word := 0
  ckptFn : Nat := 0
  ledgerOp : Nat := 0
  ledgerResult : Nat := 0
  ledgerDone : Bool := false
  deriving DecidableEq, Repr, Inhabited

/-- The content of a save slot (R270). -/
structure SaveSlot where
  seq : Nat
  fn : Nat
  rtc : Nat
  hash : List Byte
  bil : Bil
  welds : BitVec 32
  /-- The ledger key under which its tag was made. -/
  tagKey : Option (List Byte) := none
  deriving DecidableEq, Repr

/-- The billing areas of MRAM and the BIL registers that commands write (R269, R276). -/
structure BilReg where
  slots : Vector (Option SaveSlot) 64 := Vector.replicate 64 none
  badSlots : BitVec 64 := 0
  writing : Option (Fin 64 × SaveSlot) := none
  lastSlot : Nat := 63
  saveSeq : Nat := 0
  /-- After a power-fail warning no new save starts (R435). -/
  noSave : Bool := false
  /-- FN_AON in the always-on domain and its copy in MRAM (R427). -/
  fnAon : Nat := 0
  fnMram : Nat := 0
  ledger : Vector Ledger 1536 := Vector.replicate 1536 {}
  /-- The ledger key under which the tag of an entry that the package wrote was made (R258). -/
  ledgerTag : List (Nat × List Byte) := []
  /-- Entries whose tag fails, as of the last check, and the ledger key of that check (none: not yet checked). -/
  unusable : List Nat := []
  ledgerSeen : Option (Option (List Byte)) := none
  /-- Ledger commands latched for this frame. -/
  ledgerReq : List Nat := []
  homeFails : BitVec 16 := 0
  tickets : Vector (List Byte) 256 := Vector.replicate 256 []
  /-- BIL_CTRL.checkpoint is latched for this frame. -/
  ckptReq : Bool := false
  /-- A tamper boot: billing was not started cleanly (R263). -/
  tamperBoot : Bool := false
  cfg : Word := 0x1902
  calMap : Vector Word 3 := Vector.replicate 3 0
  sel : Word := 0
  snap : Nat := 0
  snapFlags : BitVec 5 := 0
  snapTs : Nat := 0
  snapFn : Nat := 0
  ledgerSel : Word := 0
  ledgerId : BitVec 128 := 0
  ledgerLease : Word := 0
  ledgerArg : Word := 0
  intStatus : Word := 0
  intEnable : Word := 0
  deriving DecidableEq, Repr

/-! ### Tandem operation (chapter 11) -/

/-- The tandem states of R280, in the codes of TDM_STATUS.state. -/
inductive TSt where
  | single | wait | sync | follow | lead | reseed | isolated | faulted
  deriving DecidableEq, Repr, Inhabited

/-- Why a swap is pending (R299). -/
inductive SwapKind where
  | return_ | yield_ | fault
  deriving DecidableEq, Repr, Inhabited

/-! ### Firebreak (chapter 12) -/

/-- The states of R306. -/
inductive FSt where
  | start | held | run | fault
  deriving DecidableEq, Repr, Inhabited

/-- An outlet in the safety image (R330). -/
structure FbkOut where
  enabled : Bool := false
  zone : Fin 8 := 0
  brake : Option (Fin 8) := none
  mast : Bool := false
  deriving DecidableEq, Repr, Inhabited

/-- The safety image (R330): the SAFETY fields, the payload as sent, and the outlets. -/
structure FbkImg where
  safety : SafetyCfg := {}
  pay : List Byte := []
  outs : Vector FbkOut 32 := Vector.replicate 32 {}
  deriving DecidableEq, Repr, Inhabited

/-- An emergency-stop zone (R311, R312). Times in evaluation cycles of 50 µs. -/
structure FbkZone where
  latch : Bool := false
  disc : Bool := false
  cyc : Bool := false
  /-- Both channels were low together since cycle_needed was set. -/
  cycLow : Bool := false
  diffRun : Nat := 0
  /-- A channel is accepted low. -/
  dem : Bool := false
  demands : BitVec 16 := 0
  discs : BitVec 16 := 0
  deriving DecidableEq, Repr, Inhabited

/-- A brake (R317 to R320). -/
structure FbkBrk where
  /-- The cycle of the last pass since START. -/
  last : Option Nat := none
  due : Bool := true
  overdue : Bool := false
  /-- 0 no test, 1 started, 2 TESTTQ asserted, 3 TESTTQ released. -/
  phase : Nat := 0
  edges : BitVec 16 := 0
  failed : Bool := false
  repair : Bool := false
  /-- A retest has passed after repair. -/
  retestOk : Bool := false
  /-- The latch survived a new START, which makes the test due again (R320). -/
  again : Bool := false
  passes : BitVec 16 := 0
  aborts : BitVec 16 := 0
  deriving DecidableEq, Repr, Inhabited

/-- An entry of the log on the auxiliary die (R331, R333). -/
structure FbkLog where
  time : Word := 0
  code : Nat := 0
  inst : Nat := 0
  seq : BitVec 16 := 0
  ls : BitVec 40 := 0
  stop : BitVec 12 := 0
  st : Nat := 0
  deriving DecidableEq, Repr, Inhabited

/-- The firebreak (R303 to R334), on the auxiliary die. -/
structure Fbk where
  st : FSt := .start
  vaux : Bool := true
  cause : Nat := 0
  /-- Evaluation cycles since START. -/
  t : Nat := 0
  selfPass : Bool := false
  cyclicOk : Bool := false
  lastFail : Nat := 0
  offTests : BitVec 16 := 0
  img : Option FbkImg := none
  imgOk : Bool := true
  /-- Fields of an amended outlet that still act because its contactor is not open (R330). -/
  old : Vector (List FbkOut) 32 := Vector.replicate 32 []
  /-- HELD was entered from START and not yet left (R307). -/
  fromStart : Bool := false
  thermal : Bool := false
  sealRead : BitVec 64 := 0
  sealValid : Bool := false
  sealIncons : Bool := false
  sealRsvd : Bool := false
  sealEq : Nat := 0
  badRun : Nat := 0
  badReads : BitVec 8 := 0
  acc : BitVec 64 := 0
  sealFault : Bool := false
  sealChanged : Bool := false
  /-- Accepted levels (R308): an input without one counts as in demand. -/
  intact : Bool := false
  estopA : BitVec 8 := 0
  estopB : BitVec 8 := 0
  otc : BitVec 32 := 0
  imd : BitVec 32 := 0
  kP : BitVec 32 := 0
  kN : BitVec 32 := 0
  kPok : BitVec 32 := 0
  kNok : BitVec 32 := 0
  resetIn : Option Bool := none
  jammed : Bool := false
  resetLen : Nat := 0
  resetAcc : Bool := false
  zone : Vector FbkZone 8 := Vector.replicate 8 {}
  otcL : BitVec 32 := 0
  imdL : BitVec 32 := 0
  weldL : BitVec 32 := 0
  weldArm : BitVec 32 := 0
  /-- Cycles of LS_n held open with K_n not open, and of K_n open since the arm (R315, R316). -/
  weldRun : Vector Nat 32 := Vector.replicate 32 0
  openRun : Vector Nat 32 := Vector.replicate 32 0
  brk : Vector FbkBrk 8 := Vector.replicate 8 {}
  /-- LS_00 to LS_39 held closed, SAFE_STOP at stop. -/
  ls : BitVec 40 := 0
  stop : BitVec 12 := 0xFFF
  trips : BitVec 16 := 0
  resets : BitVec 16 := 0
  log : Vector FbkLog 32 := Vector.replicate 32 {}
  logNext : BitVec 5 := 0
  logSeq : BitVec 16 := 0
  logSel : BitVec 5 := 0
  logData : FbkLog := {}
  intStatus : Word := 0
  intEnable : Word := 0
  deriving DecidableEq, Repr

/-! ### Auxiliary switches (chapter 13) -/

/-- A protected switch (R335 to R349). -/
structure Sw where
  /-- AUX_CTRL.on of uses 1 and 6; a pulse in progress. -/
  ctl : Bool := false
  pulse : Bool := false
  on : Bool := false
  cmd : Bool := false
  /-- Commanded on and waiting for its staggered start (R338). -/
  wait : Bool := false
  inrush : Bool := false
  pwm : Bool := false
  oc : Bool := false
  dt : Bool := false
  abs : Bool := false
  /-- Off by a trip, waiting for its restart (R341). -/
  trip : Bool := false
  locked : Bool := false
  retry : Nat := 8
  openOn : Bool := false
  openOff : Bool := false
  ext : Bool := false
  short : Bool := false
  shed : Bool := false
  /-- AUX_STATUS [28:24], and those raised in this frame (R349). -/
  events : BitVec 5 := 0
  raised : BitVec 5 := 0
  intEn : BitVec 5 := 0
  senseOut : BitVec 3 := 0
  /-- Current in 2.5 mA and in 0.5 mA (R343). -/
  sense : Nat := 0
  fine : Nat := 0
  deriving DecidableEq, Repr, Inhabited

/-- The auxiliary switches of the package. -/
structure Aux where
  sw : Vector Sw 88 := Vector.replicate 88 {}
  /-- The hold window of R166. -/
  held : Bool := false
  /-- The sums of HS_00 to HS_47 of the last ten conversions in 2.5 mA, newest first (R345). -/
  sums : List Nat := []
  deriving DecidableEq, Repr


/-! ### Cabinet buses (chapter 14) -/

/-- A frame to send: a host request as it left the checks of R359, or a frame from a dedicated buffer (R360). -/
structure CanTx where
  ident : BitVec 29 := 0
  ext : Bool := false
  fd : Bool := false
  brs : Bool := false
  /-- The sequence byte of a DUAL bus (R361). -/
  seq : Option Byte := none
  data : List Byte := []
  deriving DecidableEq, Repr, Inhabited

/-- A high-priority buffer (R357, R365): the last frame that filled it. -/
structure HpBuf where
  valid : Bool := false
  ident : BitVec 29 := 0
  ext : Bool := false
  fd : Bool := false
  fn : Nat := 0
  data : List Byte := []
  deriving DecidableEq, Repr, Inhabited

/-- A CAN FD controller (R350 to R365). -/
structure Can where
  /-- 0 error-active, 1 error-passive, 2 bus-off. -/
  st : Nat := 0
  manual : Bool := false
  tec : Nat := 0
  rec_ : Nat := 0
  lastErr : Nat := 0
  errs : BitVec 16 := 0
  busOffs : BitVec 16 := 0
  /-- The last measured transmitter delay in CLK_CAN cycles. -/
  delay : BitVec 7 := 0
  txCount : BitVec 4 := 0
  /-- The transmit queue, head first, its peak, and the frames enqueued in the frame in progress. -/
  queue : List CanTx := []
  peak : Nat := 0
  enqNow : Nat := 0
  /-- The last 32 frames enqueued, newest first (R361). -/
  enqLog : List CanTx := []
  /-- The next sequence byte of each identifier that the pair sends: identifier and form. -/
  seqs : List (BitVec 29 × Bool × Byte) := []
  refused : BitVec 16 := 0
  sent : BitVec 16 := 0
  dropped : BitVec 16 := 0
  /-- The dedicated buffers of the cooling frames (R362). -/
  cool : Vector (Option CanTx) 32 := Vector.replicate 32 none
  rxWr : BitVec 6 := 0
  rxRd : BitVec 6 := 0
  unread : Nat := 0
  overflow : BitVec 16 := 0
  received : BitVec 16 := 0
  short : BitVec 16 := 0
  fltSel : BitVec 7 := 0
  hits : Vector Word 128 := Vector.replicate 128 0
  hpArrived : BitVec 8 := 0
  /-- Buffers whose action is active, as latched (R358). -/
  hpAction : BitVec 8 := 0
  hp : Vector HpBuf 8 := Vector.replicate 8 {}
  hpSel : BitVec 3 := 0
  hpShown : HpBuf := {}
  intStatus : Word := 0
  intEnable : Word := 0
  deriving DecidableEq, Repr, Inhabited



/-! ### Heartwood (chapter 15) -/

/-- A key of a battery-backed slot (R374), in the type codes of R371. -/
structure BbkKey where
  typ : Nat
  key : List Byte
  deriving DecidableEq, Repr, Inhabited

/-- An entry of the tamper log (R382). -/
structure TamperLog where
  sec : Nat := 0
  frac : Nat := 0
  src : Nat := 0
  st : Nat := 0
  deriving DecidableEq, Repr, Inhabited

/-- A heartwood command whose result has not appeared (R380): its op, the result and the bytes for the buffer. -/
structure HwdRun where
  op : Nat
  result : Nat
  out : List Byte := []
  deriving DecidableEq, Repr, Inhabited

/-- Heartwood (R366 to R386). -/
structure Hwd where
  root : BitVec 256 := 0
  rootSet : Bool := false
  rootFault : Bool := false
  tc : Nat := 0
  pending : Bool := false
  exhausted : Bool := false
  trngFail : Bool := false
  trngFails : BitVec 8 := 0
  meas : Vector (List Byte) 8 := Vector.replicate 8 (List.replicate 48 0)
  debug : Bool := false
  /-- The two MRAM banks (R371): 128 bytes an entry before the cell mask, none where zeroed. -/
  bankA : Vector (List Byte) 128 := Vector.replicate 128 []
  bankB : Vector (List Byte) 128 := Vector.replicate 128 []
  /-- The key cache of the security engine: slots with their unwrapped keys, the most recently used first (R373). -/
  cache : List (Fin 128 × List Byte) := []
  /-- The bank of the active copy (true: B), as of the last check (R372), and the bad slots. -/
  active : Vector (Option Bool) 128 := Vector.replicate 128 none
  bad : BitVec 128 := 0
  bbk : Vector (Option BbkKey) 8 := Vector.replicate 8 none
  bbkMask : BitVec 32 := 0
  ready : Bool := false
  zeroized : Bool := false
  tamperLock : Bool := false
  tamperCfg : Word := 0
  tamperNow : BitVec 12 := 0
  cause : BitVec 12 := 0
  log : Vector TamperLog 16 := Vector.replicate 16 {}
  logNext : BitVec 4 := 0
  logSel : BitVec 4 := 0
  logData : TamperLog := {}
  /-- The antifuse rows of the stand-map key, and the key in MRAM (R379). -/
  smpRows : List (List Byte) := []
  smpKey : List Byte := []
  arg : Word := 0
  busy : Option HwdRun := none
  done : Bool := false
  result : Nat := 0
  op : Nat := 0
  slotSel : BitVec 7 := 0
  measSel : BitVec 3 := 0
  resealed : Nat := 0
  pendCommit : BitVec 128 := 0
  resealDone : Bool := false
  committed : Bool := false
  attFn : Nat := 0
  glitch : Vector (BitVec 8) 4 := Vector.replicate 4 0
  ops : BitVec 16 := 0
  aborts : BitVec 16 := 0
  intStatus : Word := 0
  intEnable : Word := 0
  deriving DecidableEq, Repr


/-! ### Firmware update (chapter 16) -/

/-- The update states of R392, in the codes of FWU_STATUS.state. -/
inductive FwSt where
  | idle | receiving | staged | writing | verified | scheduled | activating | trial | reverted | failed
  deriving DecidableEq, Repr, Inhabited

/-- A copy of the boot record (R391). -/
structure BootRec where
  slot : Bool := false
  seq : Nat := 0
  hash : List Byte := []
  floor : Nat := 0
  pendCommit : Bool := false
  deriving DecidableEq, Repr, Inhabited

/-- A firmware slot in flash: its manifest and its image. -/
structure FwSlot where
  manifest : List Byte := []
  image : List Byte := []
  deriving DecidableEq, Repr, Inhabited

/-- The firmware update block of a package (R387 to R402). -/
structure Fwu where
  st : FwSt := .idle
  reason : Nat := 0
  sess : Option (BitVec 16) := none
  blocks : Nat := 0
  manifest : List Byte := []
  /-- Quarters held of blocks in progress, and the blocks held. -/
  quarters : List (Nat × BitVec 4) := []
  held : BitVec 4096 := 0
  /-- The last acknowledgement: block and status (R388). -/
  ack : Option (Nat × Nat) := none
  /-- The last STATE answer: FWU_STATUS, FWU_BLOCKS and the bitmap. -/
  stateOut : List Byte := []
  /-- The last answer of ARP (1) or ICMP (2) with its payload. -/
  svcOut : Option (Nat × List Byte) := none
  svcIp : BitVec 32 := 0
  svcNet : Word := 0xCA080018
  svcUp : Bool := false
  svcDrops : BitVec 16 := 0
  crcErrs : BitVec 16 := 0
  dups : BitVec 16 := 0
  /-- The firmware slots in flash (true: slot 1), the running one, and the two boot records (R391). -/
  slot0 : FwSlot := {}
  slot1 : FwSlot := {}
  running : Bool := false
  inactiveOk : Bool := false
  rec0 : Option BootRec := none
  rec1 : Option BootRec := none
  floor : Nat := 0
  /-- The measurements of the verified manifest, the target of R381. -/
  target : Option (Vector (List Byte) 8) := none
  actFn : Nat := 0
  latchFn : Nat := 0
  actLo : Word := 0
  actHi : Word := 0
  sched : Word := 0x0A3C000A
  group : Word := 0
  attempt : Nat := 0
  limit : Nat := 0
  resealed : Bool := false
  refuse : BitVec 9 := 0
  decided : Bool := false
  ownGo : Bool := false
  go : BitVec 8 := 0
  nogo : BitVec 8 := 0
  revertVotes : BitVec 8 := 0
  voteOut : Option Vote := none
  /-- The sequencer and protocol cores restart until this frame (R397, R439). -/
  window : Option Nat := none
  /-- Items of the window that wait for the resume frame, and the trips of outlets in it. -/
  heldItems : List Item := []
  heldTrips : BitVec 32 := 0
  heldSf3 : BitVec 32 := 0
  /-- Reports (R398): the own one, and the latched ones of lead and follower. -/
  report : Option (Bool × Nat) := none
  latOwn : Option Bool := none
  latPartner : Option Bool := none
  /-- The follower's conditions, where the latched set holds them (R393). -/
  partner : Option FwuLocal := none
  /-- The frame that the sequencers stay held to after a revert, where a report gave it (R398). -/
  resumeAt : Option Nat := none
  /-- The commit is decided; it takes effect at the boundary (R399). -/
  commitDue : Bool := false
  /-- A command of the update that waits for heartwood: op 5 or 6 of R380. -/
  hwdWant : Option Nat := none
  /-- A revert waits for the next boundary: its reason, and whether the partner asked for it. -/
  revertPend : Option (Nat × Bool) := none
  revertReason : Nat := 0
  revertByPartner : Bool := false
  restartMs : Nat := 0
  commitFn : Nat := 0
  ownerLock : Bool := false
  opKey : List Byte := []
  opKeyCrcBad : Bool := false
  opKeyRefused : Bool := false
  hashSel : BitVec 5 := 0
  intStatus : Word := 0
  intEnable : Word := 0
  deriving DecidableEq, Repr


/-! ### Landing memory (chapter 17) -/

/-- The pointers of a landing queue (R412 to R416). -/
structure LndQ where
  /-- Logical write offset; logical offset of the oldest item, or the consumer's read offset. -/
  wr : Nat := 0
  rd : Nat := 0
  /-- Bytes held that a producer may still overwrite. -/
  fill : Nat := 0
  wraps : Word := 0
  voidSeen : Bool := false
  /-- The fill is at or above the interrupt level. -/
  level : Bool := false
  deriving DecidableEq, Repr, Inhabited

/-- A journal packet held (R415, R417): its frame, its logical offset and its length with the slot. `void` marks a
filler slot. -/
structure JnlPkt where
  fn : Nat
  off : Nat
  len : Nat
  void : Bool := false
  deriving DecidableEq, Repr, Inhabited

/-- The landing die (R403 to R422). -/
structure Lnd where
  /-- Its bytes, in canonical form: an unlisted address reads 0. -/
  mem : Memory := []
  /-- 64-bit words whose code is in error: the offset, and whether two bits are wrong (R404). -/
  bad : List (Nat × Bool) := []
  planLoaded : Bool := false
  uncorr : Bool := false
  scrubbing : Bool := false
  jnlOver : Bool := false
  /-- Capture and tally are shed (R433). -/
  throttled : Bool := false
  corrN : Nat := 0
  uncorrN : Nat := 0
  corrAddr : BitVec 26 := 0
  uncorrAddr : BitVec 26 := 0
  scrubCfg : Word := 0x13C
  scrubLine : BitVec 20 := 0
  scrubPasses : BitVec 12 := 0
  qSel : BitVec 6 := 0
  q : Vector LndQ 64 := Vector.replicate 64 {}
  /-- The packets of the journal, oldest first, and its packet sequence. -/
  jnl : List JnlPkt := []
  jnlSeq : BitVec 32 := 0
  jnlRd : Nat := 0
  jnlCtrl : BitVec 4 := 8
  jnlLost : Nat := 0
  jnlLevel : Bool := false
  evtRd : BitVec 16 := 0
  evtWr : BitVec 16 := 0
  evtPasses : BitVec 16 := 0
  arbMax : BitVec 16 := 0
  arbLate : BitVec 16 := 0
  overrun : Word := 0
  hostWr : BitVec 16 := 0
  hostGran : BitVec 10 := 0
  intStatus : Word := 0
  intEnable : Word := 0
  snapFn : BitVec 32 := 0
  /-- SNAP is asked for in the latch frame's packet (R418). -/
  snapNow : Bool := false
  deriving DecidableEq, Repr


/-! ### Clocks, resets, health and tally counters (chapter 18) -/

/-- A reading of the housekeeping round (R429, R430). -/
structure HkIn where
  code : Nat := 0
  /-- A conversion of the input has been made since the start. -/
  seen : Bool := false
  ovr : Bool := false
  settle : Bool := false
  deriving DecidableEq, Repr, Inhabited

/-- The HKP and TLY blocks (R423 to R446). -/
structure Hkp where
  /-- The level of R432: 0 normal, 1 warning, 2 throttle. -/
  level : Nat := 0
  /-- A shutdown runs until its release (R434); it is logged at the next start. -/
  shutdown : Bool := false
  shutNote : Bool := false
  xtalStopped : Bool := false
  /-- A reset was requested and its boot has not run: true cold, false warm (R438). -/
  resetReq : Option Bool := none
  supplyWarn : Bool := false
  rtcValid : Bool := false
  /-- The RTC holds (R424). -/
  rtcHold : Bool := false
  avail : Bool := false
  bootMs : Nat := 0
  availMs : Nat := 0
  startFn : Nat := 0
  cause : BitVec 8 := 0
  colds : BitVec 16 := 0
  warms : BitVec 16 := 0
  peak : Int := 0
  peakAt : Nat := 0
  shutRead : Int := 0
  shutAt : Nat := 0
  shuts : BitVec 12 := 0
  setSec : Word := 0
  setFrac : BitVec 16 := 0
  trim : BitVec 16 := 0
  xtal25 : Bool := false
  xtal32 : Bool := false
  /-- PLLs locked: control, communication, metrology, landing. -/
  plls : BitVec 4 := 0
  tdmRef : Bool := false
  auxGood : Bool := false
  lockLosses : BitVec 16 := 0
  xtal32Stops : BitVec 16 := 0
  warnings : BitVec 16 := 0
  savesAfter : BitVec 16 := 0
  wdogFrames : Nat := 0x14
  /-- Frames of the core-island resets of the last 60,000 frames, newest first, and a reset that waits for the boundary. -/
  coreFns : List Nat := []
  coreReq : Bool := false
  coreResets : BitVec 16 := 0
  hostResets : BitVec 16 := 0
  throttled : Nat := 0
  /-- The readings of the round, and the slot that last clamped: its frame and number (R430). -/
  ins : Vector HkIn 42 := Vector.replicate 42 {}
  /-- The readings captured at the last boundary, and those latched for the frame (R429). -/
  insCap : Vector HkIn 42 := Vector.replicate 42 {}
  insLat : Vector HkIn 42 := Vector.replicate 42 {}
  clampAt : Option (Nat × Nat) := none
  lim : Vector Word 16 := Vector.replicate 16 0x0FFF0000
  /-- Readings of HK_IN_k in a row outside its window, and the inputs whose alarm condition stands (R430). -/
  hkRun : Vector Nat 16 := Vector.replicate 16 0
  hkCond : BitVec 16 := 0
  alarm : BitVec 16 := 0
  alarmEn : BitVec 16 := 0
  tlySel : BitVec 8 := 0
  tlyEvery : Nat := 1
  tlyNext : Nat := 0
  tlyPasses : BitVec 16 := 0
  /-- The clear takes effect at the next boundary. -/
  tlyClear : Bool := false
  /-- The counters, the snapshot of the last boundary and the holding register (R443, R446). -/
  tly : Vector Nat 192 := Vector.replicate 192 0
  tlyShown : Vector Nat 192 := Vector.replicate 192 0
  tlyHold : Option (Fin 192 × Word) := none
  /-- What the last read of HKP_RESET_CAUSE returned. -/
  causeRead : BitVec 8 := 0
  intStatus : Word := 0
  intEnable : Word := 0
  deriving DecidableEq, Repr


/-! ### Host port (chapter 19) -/

/-- An MSI-X table entry (R448, R457): 16 bytes as four words. -/
structure MsixEntry where
  addrLo : Word := 0
  addrHi : Word := 0
  data : Word := 0
  /-- The vector mask; the table is masked after reset (R459). -/
  mask : Bool := true
  deriving DecidableEq, Repr, Inhabited

/-- The host port (R447 to R462). -/
structure Hst where
  urUnmapped : Bool := false
  qspiDis : Bool := false
  intStatus : Word := 0
  intEnable : Word := 0
  vecMap : Vector Word 5 := ⟨#[0x03020100, 0x07060504, 0x0B0A0908, 0x0F0E0D0C, 0x13121110], rfl⟩
  armed : BitVec 32 := 0xFFFFFFFF
  /-- The pending-bit array. -/
  pba : BitVec 32 := 0
  msix : Vector MsixEntry 32 := Vector.replicate 32 {}
  msixEn : Bool := false
  msixMask : Bool := false
  busMaster : Bool := false
  /-- The vectors whose messages were sent in this frame, oldest first. -/
  sent : List (Fin 32) := []
  tick : BitVec 16 := 0
  /-- Commands captured so far in the frame, and those of earlier frames that had no room. -/
  cmdCount : Nat := 0
  waiting : List (BitVec 21 × Word) := []
  withheld : BitVec 16 := 0
  cErr : BitVec 16 := 0
  cUnmapped : BitVec 16 := 0
  cRefused : BitVec 16 := 0
  refusedAddr : BitVec 21 := 0
  linkUp : Bool := false
  gen2 : Bool := false
  inL1 : Bool := false
  recoveries : BitVec 16 := 0
  linkDowns : BitVec 16 := 0
  correctable : BitVec 16 := 0
  /-- The link went down or the island was reset since the last training. -/
  retrain : Bool := false
  csLow : Bool := false
  framing : BitVec 8 := 0
  accesses : BitVec 16 := 0
  lastDiscarded : Bool := false
  lastNotReady : Bool := false
  scratch : Vector Word 2 := Vector.replicate 2 0
  errAddr : Word := 0
  /-- The data of the last completed read, its words in order, and whether it ended with Unsupported Request. -/
  readData : List Word := []
  readUr : Bool := false
  deriving DecidableEq, Repr


/-! ### The whole -/

/-- The frame-level state: what step 1 of R17 makes effective at a boundary and the snapshot S_F holds (R486). -/
structure FrameState where
  hand : Vector Hand 96 := Vector.replicate 96 {}
  plan : Plan := {}
  osq : Vector Osq 32 := Vector.replicate 32 {}
  veh : Vector Veh 32 := Vector.replicate 32 {}
  ccl : Vector Ccl 32 := Vector.replicate 32 {}
  bus : Bus := {}
  met : MetF := {}
  bil : Bil := {}
  /-- STORE channels: the pack is connected; it asks to open; the mode evaluation of R96 found RAMP. -/
  packOn : BitVec 8 := 0
  packOpen : BitVec 8 := 0
  packLease : BitVec 8 := 0
  deriving DecidableEq, Repr, Inhabited

/-- What one link port holds of the protocol state that the pair shares (R193). -/
structure ProtoPort where
  matched : Bool := false
  nmk : BitVec 128 := 0
  tcp : Bool := false
  tls : Bool := false
  session : Bool := false
  layer : Layer := .none
  sdp : Option (BitVec 128 × Nat × Bool) := none
  deriving DecidableEq, Repr, Inhabited

/-- A PROTO copy (R193): TCP, TLS and NMK state of every port, the SLAC runs, and the sequence numbers and traffic
secrets, whose form no rule gives. -/
structure Proto where
  ports : Vector ProtoPort 32 := Vector.replicate 32 {}
  runs : List SlacRun := []
  secrets : List Byte := []
  deriving DecidableEq, Repr, Inhabited

/-- The boundary snapshot S_F (R486): the frame-level state with the results of F−1 and what the frame's inputs have
written so far, the unit state with the uplinks of sample 0, the summaries of F−1, and the registers that host commands
write. (DESIGN CHOICE, entry 92.) -/
structure Snap where
  fn : Nat := 0
  fl : FrameState := {}
  nx : FrameState := {}
  ctl : Ctl := {}
  alc : Alc := {}
  osqR : Vector OsqReg 32 := Vector.replicate 32 {}
  cclR : Vector CclReg 32 := Vector.replicate 32 {}
  can : Vector Can 8 := Vector.replicate 8 {}
  /-- VLK_CFG and VLK_LINK_CFG, as written and as the session uses them. -/
  link : Vector (Word × Word × Word × Word) 32 := Vector.replicate 32 (0, 0, 0, 0)
  bilCfg : Word := 0
  calMap : Vector Word 3 := Vector.replicate 3 0
  tamperCfg : Word := 0
  deriving DecidableEq, Repr, Inhabited

/-- What a reseeding or joining package retains of a frame (R27): the set that it latched, and the uplinks that it
latched itself, sample by sample. -/
structure Kept where
  fn : Nat
  set : InputSet
  ups : Vector (List (Option Uplink)) 96
  deriving DecidableEq, Repr, Inhabited

/-- The tandem block (R278 to R302). -/
structure Tdm where
  st : TSt := .single
  /-- The transition found in step 7, effective at the next boundary, with its reason. -/
  pend : Option (TSt × Nat) := none
  /-- The next boundary restarts the package as a single package does (R295). -/
  restart : Bool := false
  identity : Bool := false
  strapHigh : Bool := false
  strapConflict : Bool := false
  reason : Nat := 0
  roleFn : Nat := 0
  /-- The ledger key that the partner has (R375). -/
  keySent : Option (List Byte) := none
  /-- The state before the last transition. -/
  roleWas : TSt := .single
  leadAge : Nat := 0
  /-- Frames in the state; frames since the stand map was loaded. -/
  stFrames : Nat := 0
  mapFrames : Nat := 0
  /-- The partner's marker of the frame, and the last one received. -/
  got : Option Marker := none
  last : Option Marker := none
  /-- Frames in a row with the marker of a LEAD partner, of a WAIT partner, without a marker. -/
  leadRun : Nat := 0
  waitRun : Nat := 0
  missRun : Nat := 0
  /-- MARKER_MISSING has counted this frame. -/
  missNow : Bool := false
  /-- The marker sent at the boundary that opened the frame, and the heartbeat sent in it. -/
  sent : Option Marker := none
  /-- What a follower sends besides its witness totals (R393, R398). -/
  sentFollow : List FollowMsg := []
  hbSent : Option Heartbeat := none
  /-- A reseeding package has reached the live sample (R27). -/
  reached : Bool := false
  /-- FN_h of R427, and the join request withheld for it (R428). -/
  fnHigh : Nat := 0
  fnBehind : Bool := false
  /-- A marker came since the stand map was loaded. -/
  everMarker : Bool := false
  /-- The partner's heartbeat of the frame, of the frame before, and the last one. -/
  hb : Option Heartbeat := none
  hbPrev : Option Heartbeat := none
  hbLast : Option Heartbeat := none
  hbMiss : Nat := 0
  /-- Saturating ages of the last marker and heartbeat in frames. -/
  markAge : Nat := 0
  hbAge : Nat := 0
  joinReq : Bool := false
  joinFrames : Nat := 0
  /-- The joiner holds all bulk data; it may compute from the snapshot (R298). -/
  bulkDone : Bool := false
  bulkLedger : Nat := 0
  bulkTickets : Nat := 0
  bulkWelds : Bool := false
  lag : Nat := 0
  matchRun : Nat := 0
  /-- Frames of the last reseeds (R281). -/
  reseeds : List Nat := []
  mismatchFn : Nat := 0
  digest : BitVec 64 := 0
  /-- The frame the own digest is for. -/
  digestFn : Option Nat := none
  pDigest : BitVec 64 := 0
  pDigestFn : Option Nat := none
  /-- The last comparison: none where the frame was not compared. -/
  compared : Option Bool := none
  lastSetFn : Nat := 0
  swap : Option (Nat × SwapKind) := none
  swapFn : Nat := 0
  claim : Bool := false
  grant : Bool := false
  ownFault : Bool := false
  dualLead : Bool := false
  partnerFault : Bool := false
  linkUp : Bool := false
  timeLock : Bool := false
  retx : Nat := 0
  lockErr : BitVec 16 := 0
  skew : Int := 0
  rtt : Nat := 0
  pair : Option PairInfo := none
  pairBits : BitVec 7 := 0
  /-- Own captured sets that a take-over applies, oldest first (R293). -/
  held : List InputSet := []
  /-- The lead's set of the frame, and whether the last latched one was incomplete. -/
  inset : Option InputSet := none
  incomplete : Bool := false
  /-- The lead's snapshot and protocol copy, as received (R285). -/
  snap : Option Snap := none
  proto : Option (Nat × Proto) := none
  /-- What the package sends in the copy window, and PAIR and BULK packets of the frame (R285). -/
  sentSnap : Option Snap := none
  sentInset : Option InputSet := none
  sentProto : Option Proto := none
  sentPair : Option PairInfo := none
  sentBulk : List Bulk := []
  /-- The BULK transfer of a lead: the next frame of the sixteen, and the ledger and ticket ring as sent so far. -/
  bulkNext : Option Nat := none
  bulkRef : Option (Vector Ledger 1536 × Vector (List Byte) 256) := none
  /-- What a reseeding or joining package retains, oldest first (R27). -/
  kept : List Kept := []
  /-- Latches left for which the old lead's sets act after a swap (R299). -/
  oldSets : Nat := 0
  bytesIn : Nat := 0
  bytesOut : Nat := 0
  /-- Valid uplinks of the frame that name the partner; frames in a row with four or more (R296); seen in WAIT. -/
  upPartner : BitVec 96 := 0
  upRun : Nat := 0
  upSeen : Bool := false
  ctrlHold : Bool := false
  cmdRejoin : Bool := false
  cmdYield : Bool := false
  cMismatch : BitVec 16 := 0
  cReseed : BitVec 16 := 0
  cRetx : BitVec 16 := 0
  cMiss : BitVec 16 := 0
  cRole : BitVec 16 := 0
  cIgnored : BitVec 16 := 0
  cHb : BitVec 16 := 0
  cEmpty : BitVec 16 := 0
  kbSent : Nat := 0
  kbRecv : Nat := 0
  reseedCfg : Word := 0x003C0010
  ignoredAddr : BitVec 21 := 0
  intStatus : Word := 0
  intEnable : Word := 0
  deriving DecidableEq, Repr

/-- Status bits that the computation of a frame has found and that the next boundary shows (R17, R456): the bits of
OSQ_INT_STATUS, CHP_STATUS, ALC_INT_STATUS, CCL_STATUS, MET_INT_STATUS, MET_SET_STATUS and BIL_INT_STATUS. (DEDUCED, entry 79.) -/
structure Late where
  osq : Vector Word 32 := Vector.replicate 32 0
  chp : Vector (BitVec 6) 96 := Vector.replicate 96 0
  ccl : Vector (BitVec 6) 32 := Vector.replicate 32 0
  sets : Vector (BitVec 4) 32 := Vector.replicate 32 0
  alc : Word := 0
  met : Word := 0
  bil : Word := 0
  deriving DecidableEq, Repr

end Sys2Proof.Machine
end

