-- ==== Sys2Proof/Syntax.lean ====
section
/-! DEFINITION. The commands of the SN9632: one constructor per row of spec/opcode_table.json, with the operands
that the row's step takes from outside the package (register values, frames, codes of converters, levels). -/

namespace Sys2Proof

/-- A command: a register access, an event on a pin or bus, or a step of the package's own (R17). -/
inductive Instr where
  /-- COLD_START (R436): All core supplies come within range; the package releases reset, boots, checks
   heartwood, loads the stand map, restores billing and runs to its first boundary. -/
  | coldStart (facts : BootFacts)
  /-- WARM_RESET (R438): Control, communication and metrology logic reset, the PLLs relock and the package runs
   to its first boundary, keeping the landing contents. -/
  | warmReset (ms : Nat)
  /-- HKP_WARM_RESET (R445): HKP_CTRL.warm_reset written with the key requests a warm reset. -/
  | hkpWarmReset (key : BitVec 16)
  /-- HKP_COLD_RESET (R445): HKP_CTRL.cold_reset written with the key requests a cold start. -/
  | hkpColdReset (key : BitVec 16)
  /-- HKP_FN_CLEAR (R428): HKP_CTRL.fn_clear written with the key sets FN_h to 0 while the package is in WAIT or
   ISOLATED. -/
  | hkpFnClear (key : BitVec 16)
  /-- CORE_WATCHDOG (R439): A firmware core that has not fed its watchdog for HKP_WDOG.frames frames has all
   sequencer and protocol cores restarted, with a resume frame 150 frames later. -/
  | coreWatchdog
  /-- HOST_ISLAND_RESET (R459): A PCI Express hot reset, link down or function-level reset resets the host
   island and the HST registers and re-arms every vector. -/
  | hostIslandReset (kind : HostResetKind)
  /-- HOST_LINK_UP (R459): The PCI Express link trains again and HST_INT_STATUS.link is set. -/
  | hostLinkUp (gen2 : Bool)
  /-- SERVICE_ISLAND_RESET (R438): Loss of the RMII reference resets the service island and closes the update
   session while keeping its blocks. -/
  | serviceIslandReset
  /-- PLL_LOCK_LOSS (R424): A PLL loses lock, which raises an event and counts in HKP_CLK_COUNT. -/
  | pllLockLoss (pll : Pll)
  /-- PLL_LOCK_TIMEOUT (R424): A PLL stays unlocked for 1 ms, or the CLK_LOOP island clock stops, and a warm
   reset follows. -/
  | pllLockTimeout (pll : Option Pll)
  /-- XTAL25_STOP (R424): The 25 MHz crystal stops: the control and communication islands stop and the auxiliary
   die applies the hold-then-open sequence. -/
  | xtal25Stop
  /-- XTAL25_RETURN (R424): The 25 MHz crystal has run again for 10 ms and a cold start follows. -/
  | xtal25Return
  /-- XTAL32K_STOP (R424): The 32.768 kHz crystal stops: a clock tamper is raised, xtal32_ok clears and the RTC
   holds. -/
  | xtal32kStop
  /-- VBAT_LOSS (R425): VBAT is lost: the always-on domain restarts with the RTC at 0, rtc_valid clear and the
   battery-backed slots, tamper log and FN_AON empty. -/
  | vbatLoss
  /-- POWER_FAIL_WARNING (R435): A core rail falls below its warning level, after which no new save starts and
   HKP_HOLDUP counts the warning. -/
  | powerFailWarning (rail : Rail)
  /-- SUPPLY_RESET (R435): A core rail falls below its reset level and the package resets. -/
  | supplyReset
  /-- FRAME_BOUNDARY (R17): At a site-frame boundary the input set is latched, results take effect, the snapshot
   is taken, the capture closes and the frame steps run. -/
  | frameBoundary
  /-- THERMAL_FRAME (R197): In a frame with FN mod 10 = 0 the cable observers, headroom and cooling loops run,
   and the reference correction and pipeline self-test are evaluated. -/
  | thermalFrame
  /-- PIPELINE_SELF_TEST_FAIL (R10): A loop pipeline fails its signature self-test, keeps serving for the rest
   of the frame and is replaced at the next boundary. -/
  | pipelineSelfTestFail (r : RgnIx) (p : Fin 4)
  /-- SAMPLE_START (R88): A cluster sample starts: each unit latches its uplink, computes its stages, limiter
   and inner stage, and hands its command word to the port, which sends the downlink. -/
  | sampleStart (c : CluIx)
  /-- STALE_HOLD (R105): A channel's third consecutive absent uplink puts the unit into hold, repeating its last
   command. -/
  | staleHold (ch : ChIx)
  /-- UPLINK_RECEIVE (R125): An uplink frame is received and checked for CRC, echo and completeness before the
   sample latch. -/
  | uplinkReceive (ch : ChIx) (bytes : List Byte)
  /-- ROUTE_FEEDBACK_TIMEOUT (R134): A route word's required feedback is not found by phase D of frame G + t_fb
   + 1, and the handover goes to ROUTE_FAULT. -/
  | routeFeedbackTimeout (ch : ChIx)
  /-- RAMP_DOWN_TIMEOUT (R81): A channel has been in RAMP_DOWN for 12 frames and goes to ROUTE_FAULT with cause
   1. -/
  | rampDownTimeout (ch : ChIx)
  /-- TRACKING_TIMEOUT (R81): A channel in TRACKING mismatches within 5 frames and opens its route. -/
  | trackingTimeout (ch : ChIx)
  /-- DWELL_EXPIRY (R80): A settled channel's 2,000-frame dwell ends and it may be moved again. -/
  | dwellExpiry (ch : ChIx)
  /-- ROUTE_MISMATCH (R134): Feedback differs from the route word for more than t_fb frames, so route_mismatch
   is set and the uplink counts as faulty. -/
  | routeMismatch (ch : ChIx)
  /-- SHORT_CURRENT_LIMIT (R141): A tracking channel counts more than 20 × n consecutive valid samples at its
   current limit and aborts for a short. -/
  | shortCurrentLimit (ch : ChIx)
  /-- SHORT_WINDOW_EXPIRY (R141): At the end of the detection window the last output voltage is below 90 % of
   the target and the channel aborts for a short. -/
  | shortWindowExpiry (ch : ChIx)
  /-- VSEL_CHANGE (R138): The same new VSEL code has been captured at three consecutive boundaries and becomes
   the latched code. -/
  | vselChange (code : BitVec 3)
  /-- GLIM_SAMPLE (R65): GLIM is sampled and converted once per millisecond, and the median of the last three
   samples forms the term. -/
  | glimSample (raw : GlimRead)
  /-- GLIM_SIGNAL_LOSS (R65): Three consecutive loss samples start GLIM signal loss and the fallback term
   applies. -/
  | glimSignalLoss
  /-- GLIM_SIGNAL_RESTORE (R65): Three consecutive good samples end GLIM signal loss. -/
  | glimSignalRestore
  /-- XFMR_STALE_TIMEOUT (R63): No valid transformer entry arrives for 1,000 ms and the term falls back to the
   contract-based value. -/
  | xfmrStaleTimeout
  /-- ROUTE_FAULT_CLEAR (R81): A latched ALC_CH_CTRL.clear returns a channel in ROUTE_FAULT to IDLE if all
   routes show open, or is refused. -/
  | routeFaultClear (ch : ChIx)
  /-- CHP_PORT_OFF (R145): CHP_CTRL.port_off silences the downlink of a channel that is OUT, or is refused
   otherwise. -/
  | chpPortOff (ch : ChIx) (b : Bool)
  /-- CHP_TEST (R131): CHP_CTRL.test forces the spread bit in every mode. -/
  | chpTest (ch : ChIx) (b : Bool)
  /-- CHP_BUS_CLEAR (R139): A latched CHP_CTRL.bus_clear takes the DC bus from ABORTED to OFF. -/
  | chpBusClear
  /-- PILOT_STATE_ACCEPT (R151): A pilot state classified in 3 consecutive windows becomes the accepted state.
   -/
  | pilotStateAccept (o : OutIx) (high low : BitVec 8) (wave : PilotWave) (pp : Nat)
  /-- PILOT_FAULT (R151): Period or duty out of limits in 3 consecutive windows sets pilot_fault, and 3 good
   windows clear it. -/
  | pilotFault (o : OutIx) (set : Bool)
  /-- DIODE_FAULT (R151): A low plateau above the negative threshold in 3 consecutive windows is a diode fault,
   treated as state F. -/
  | diodeFault (o : OutIx) (set : Bool)
  /-- ASSOC_TIMEOUT (R153): assoc_timeout runs out in PLUGGED and the session stops with cause LINK. -/
  | assocTimeout (o : OutIx)
  /-- AUTH_TIMEOUT (R153): auth_timeout runs out since AUTH_REQUEST and the session stops with cause HOST. -/
  | authTimeout (o : OutIx)
  /-- CABLE_CHECK_PASSED (R158): imd_settle consecutive frames show K_n closed, the test voltage and insulation
   good, and the outlet enters PRECHARGE. -/
  | cableCheckPassed (o : OutIx)
  /-- CC_TIMEOUT (R153): cc_timeout runs out in CABLE_CHECK and the outlet ramps down with cause CC_TIMEOUT. -/
  | ccTimeout (o : OutIx)
  /-- PC_TIMEOUT (R153): pc_timeout runs out in PRECHARGE and the outlet ramps down with cause PC_TIMEOUT. -/
  | pcTimeout (o : OutIx)
  /-- CONTACTOR_TIMEOUT (R150): K_n does not show the commanded KFB pattern by frame G + k_fb + 2, giving a
   contactor fault or a weld. -/
  | contactorTimeout (o : OutIx)
  /-- WELD_WINDOW_EXPIRY (R160): weld_window runs out without a pass and the weld check fails. -/
  | weldWindowExpiry (o : OutIx)
  /-- DISCHARGE_TIMEOUT (R153): dis_timeout runs out in DISCHARGE, giving DISCHARGE_FAIL, or the end of
   DISCHARGE without a metering set. -/
  | dischargeTimeout (o : OutIx)
  /-- HOLD_RESTART (R163): retry_delay has passed in HOLD with the guards met and the outlet restarts to
   AUTHORIZED. -/
  | holdRestart (o : OutIx)
  /-- THERMAL_LATCH_CLEAR (R162): The thermal latch clears after therm_dwell seconds of cool pins, fresh sensors
   and no hot-spot excess. -/
  | thermalLatchClear (o : OutIx)
  /-- OSQ_ENABLE (R164): OSQ_CTRL.enable returns an outlet to service, or is stored as pending during a
   shutdown. -/
  | osqEnable (o : OutIx)
  /-- OSQ_DISABLE (R164): OSQ_CTRL.disable takes the outlet out of service or stops it with cause DISABLE. -/
  | osqDisable (o : OutIx)
  /-- OSQ_AUTHORIZE (R153): OSQ_CTRL.authorize moves an ASSOCIATED outlet to AUTHORIZED, or is refused. -/
  | osqAuthorize (o : OutIx)
  /-- OSQ_DENY (R153): OSQ_CTRL.deny refuses the session with stop cause HOST. -/
  | osqDeny (o : OutIx)
  /-- OSQ_STOP (R154): OSQ_CTRL.stop raises stop cause HOST. -/
  | osqStop (o : OutIx)
  /-- OSQ_FAULT_CLEAR (R153): OSQ_CTRL.fault_clear leaves FAULT when the outlet is dead and safe. -/
  | osqFaultClear (o : OutIx)
  /-- OSQ_WELD_CLEAR (R153): OSQ_CTRL.weld_clear clears the weld flag once the firebreak weld isolation is
   released. -/
  | osqWeldClear (o : OutIx)
  /-- OSQ_RETRY_GRANT (R163): OSQ_CTRL.retry_grant restores retry_left to retry_max. -/
  | osqRetryGrant (o : OutIx)
  /-- AUX_COMMAND_LOSS (R166): The auxiliary die finds no command frame for 100 µs, or sees the reset line, and
   holds every high side at its last state. -/
  | auxCommandLoss
  /-- AUX_HOLD_EXPIRY (R166): 50 ms after the command loss, the auxiliary die turns every high-side switch off.
   -/
  | auxHoldExpiry
  /-- T1S_LINK_UP (R174): Valid DME energy for 10 ms brings a T1S link up. -/
  | t1sLinkUp (o : OutIx)
  /-- T1S_LINK_DOWN (R174): 50 ms without DME energy takes a T1S link down. -/
  | t1sLinkDown (o : OutIx)
  /-- AVLN_LOST (R185): T1S link down or AVLN loss lasting 2 s declares the link lost. -/
  | avlnLost (o : OutIx)
  /-- SLAC_PARM_REQ (R179): A CM_SLAC_PARM.REQ is received and answered on each candidate port that hears it. -/
  | slacParmReq (mac : BitVec 48) (runId : BitVec 64) (heard : BitVec 32)
  /-- SLAC_START_ATTEN (R180): The first CM_START_ATTEN_CHAR.IND of a run opens its 600 ms sounding window. -/
  | slacStartAtten (mac : BitVec 48) (runId : BitVec 64) (announced : Nat)
  /-- SLAC_SOUND (R179): A CM_MNBC_SOUND.IND is recorded with its group attenuations on every power-line port
   that hears it. -/
  | slacSound (mac : BitVec 48) (runId : BitVec 64) (o : OutIx) (groups : List Nat)
  /-- SLAC_WINDOW_CLOSE (R180): The sounding window closes and each port's mean attenuation is formed as a
   non-loop input. -/
  | slacWindowClose (mac : BitVec 48) (runId : BitVec 64)
  /-- SLAC_MATCH_REQ (R181): A CM_SLAC_MATCH.REQ on the bound port is answered with the NMK drawn from the
   lead's TRNG. -/
  | slacMatchReq (o : OutIx) (mac : BitVec 48) (runId : BitVec 64)
  /-- SECC_DISCOVERY (R187): An SECC discovery request on UDP port 15,118 is answered with the port's address,
   TCP port and security mode. -/
  | seccDiscovery (o : OutIx)
  /-- TCP_CONNECT (R187): A TCP connection to the port's supply-equipment port is established. -/
  | tcpConnect (o : OutIx)
  /-- TCP_RETRANSMIT_LIMIT (R187): A segment needs more than 4 retransmissions, so the connection closes and the
   link is lost. -/
  | tcpRetransmitLimit (o : OutIx)
  /-- TLS_HANDSHAKE (R192): A TLS 1.3 handshake is served with the key of tls_slot, or fails as a TLS failure.
   -/
  | tlsHandshake (o : OutIx) (ok : Bool)
  /-- SUPPORTED_APP_PROTOCOL_REQ (R186): The vehicle's SupportedAppProtocol request is answered with the first
   layer that both sides offer and that is enabled. -/
  | supportedAppProtocolReq (o : OutIx) (offers : List Layer)
  /-- SESSION_SETUP_REQ (R489): A decoded SessionSetupReq clears the previous session's vehicle events and
   raises bound. -/
  | sessionSetupReq (o : OutIx) (evccid : List Byte)
  /-- AUTHORIZATION_REQ (R191): The first authorisation request of a session writes the identity record and the
   AUTH_REQUEST mailbox entry. -/
  | authorizationReq (o : OutIx) (chain signed : List Byte)
  /-- CHARGE_PARAMETER_DISCOVERY_REQ (R189): A completed ChargeParameterDiscovery gives the ready event and
   latches the vehicle's limits. -/
  | chargeParameterDiscoveryReq (o : OutIx) (v : VehReq) (ready err bpt dyn : Bool)
  /-- CABLE_CHECK_REQ (R490): A CableCheckReq raises the cable-check request and is answered Ongoing or
   Finished. -/
  | cableCheckReq (o : OutIx)
  /-- PRE_CHARGE_REQ (R189): A PreChargeReq is answered Ready once the vehicle may close its contactors, and not
   ready before that. -/
  | preChargeReq (o : OutIx) (v : VehReq)
  /-- POWER_DELIVERY_REQ (R189): A PowerDeliveryReq with start gives contactors closed after pre-charge, and
   with stop gives the vehicle stop event. -/
  | powerDeliveryReq (o : OutIx) (start : Bool)
  /-- SESSION_STOP_REQ (R189): A SessionStopReq gives the vehicle stop event. -/
  | sessionStopReq (o : OutIx)
  /-- V2G_REQUEST (R190): Any other V2G request is decoded completely, resets the link gap and latches its
   vehicle values, or gives a decode error that loses the link. -/
  | v2gRequest (o : OutIx) (req : Option (VehReq × Bool))
  /-- LINK_DEGRADED (R185): The link gap passes 2 s, and the vehicle current and power terms are capped by
   i_safe. -/
  | linkDegraded (o : OutIx)
  /-- LINK_LOST_TIMEOUT (R185): The link gap passes seq_timeout, the link is lost and the sequencer raises stop
   cause LINK. -/
  | linkLostTimeout (o : OutIx)
  /-- VLK_LINK_RESET (R196): VLK_CTRL.link_reset closes TCP and the session and declares the link lost. -/
  | vlkLinkReset (o : OutIx)
  /-- RESIDUAL_FAULT (R205): The coolant outlet residual exceeds res_limit for 3,000 consecutive thermal frames
   and residual_fault is set. -/
  | residualFault (o : OutIx)
  /-- CCL_RESIDUAL_CLEAR (R205): CCL_CTRL.residual_clear clears the residual fault at the first thermal frame
   with the residual in limit. -/
  | cclResidualClear (o : OutIx)
  /-- CCL_MANUAL (R210): CCL_CTRL.manual with man_pump and man_fan replaces the cooling demand. -/
  | cclManual (o : OutIx) (on : Bool) (pump fan : BitVec 8)
  /-- COOLING_FRAME_TX (R362): slot_offset after the boundary, each cooled outlet's pump and fan frame enters
   arbitration from its dedicated buffer. -/
  | coolingFrameTx
  /-- METER_SUBSAMPLE (R225): Every 62.5 µs each powered converter delivers a corrected sub-sample, and its
   power is added to the cycle sums. -/
  | meterSubsample (codes : List Int)
  /-- CYCLE_END (R222): An accepted positive zero crossing closes a mains cycle, and the cycle averages,
   energies and record are written to the cycle ring. -/
  | cycleEnd (ones : List Nat) (ovr : BitVec 64) (siteOvr : BitVec 8) (endUs : Nat)
  /-- FREQ_HOLD (R223): No accepted crossing within 91,022 clocks, and the cycle boundary runs free at the
   nominal length with freq_hold. -/
  | freqHold
  /-- PULSE_START (R235): A planned pulse of the backlog starts on PULSE_k, s frames after the previous one. -/
  | pulseStart (k : Fin 33)
  /-- PULSE_END (R236): The pulse width elapses and PULSE_k is released. -/
  | pulseEnd (k : Fin 33)
  /-- BYPASS_WINDOW_CHECK (R239): In the last frame of each 900,000-frame window the site and DC energies are
   compared and bypass is set, or the window is skipped. -/
  | bypassWindowCheck
  /-- WITNESS_SEND (R242): In each frame with FN mod 1,000 = 0 the follower sends its witness totals in the copy
   window. -/
  | witnessSend
  /-- WITNESS_LOST (R243): No witness message has been latched for 3,000 frames, so witness_lost is set and the
   window restarts. -/
  | witnessLost
  /-- MET_CAL_WRITE (R234): A write of MET_CV_GAIN or MET_CV_OFFSET applies a converter calibration on an
   SN9632-A, or is ignored. -/
  | metCalWrite (c : Fin 72) (gain : Bool) (val : Word)
  /-- MET_CAL_COMMIT (R234): MET_CTRL.cal_commit stores all 72 calibration pairs in MRAM. -/
  | metCalCommit
  /-- MET_CAPTURE_ENABLE (R230): MET_CTRL.capture_en and capture_site start or stop sub-sample capture to the
   capture ring. -/
  | metCaptureEnable (en site : Bool)
  /-- MET_NEUTRAL_CLEAR (R241): MET_CTRL.neutral_clear clears missing_neutral. -/
  | metNeutralClear
  /-- MET_BYPASS_CLEAR (R241): MET_CTRL.bypass_clear clears bypass. -/
  | metBypassClear
  /-- MET_TAMPER_CLEAR (R241): MET_SET_CTRL.tamper_clear clears reversed and vehicle_mismatch of a set. -/
  | metTamperClear (k : SetIx)
  /-- MET_WIT_CLEAR (R243): MET_SET_CTRL.wit_clear clears a set's witness_flag. -/
  | metWitClear (k : SetIx)
  /-- DEMAND_CLOSE (R255): The latched RTC crosses a demand boundary, and the interval closes in the next frame
   with its demand and maximum. -/
  | demandClose
  /-- TARIFF_SWITCH (R253): A calendar's latched local time crosses a switch point, and the new tariff applies
   to records of that frame on. -/
  | tariffSwitch (k : Fin 4)
  /-- SAVE (R270): At a save boundary the billing state is written to the next save slot in rotation. -/
  | save
  /-- SAVE_WRITE_DONE (R270): A save write completes and is read back, and a failing slot is marked bad. -/
  | saveWriteDone (ok : Bool)
  /-- TICKET_SIGNED (R268): Within 20 ms of step 4, each package signs its ticket copy with BBK_0 and writes it
   to its ticket ring. -/
  | ticketSigned
  /-- TICKET_ACK (R268): A write of BIL_TICKET_RD acknowledges tickets, and both rings advance. -/
  | ticketAck (ix : Word)
  /-- LEDGER_BIND (R259): Ledger op 1 binds an entry to a set after the identity and tag checks. -/
  | ledgerBind
  /-- LEDGER_UNBIND (R259): Ledger op 2 unbinds an entry from a storage set and writes its home entry. -/
  | ledgerUnbind
  /-- LEDGER_LOAD_CREDIT (R259): Ledger op 3 adds ARG kWh to the entry's credit. -/
  | ledgerLoadCredit
  /-- LEDGER_CREDIT_MODE (R259): Ledger op 4 sets credit_mode from ARG[0]. -/
  | ledgerCreditMode
  /-- LEDGER_RETIRE (R259): Ledger op 5 sets an unbound entry to phase 3. -/
  | ledgerRetire
  /-- LEDGER_CLEAR (R259): Ledger op 6 zeroes a retired entry to free. -/
  | ledgerClear
  /-- LEDGER_READ (R260): Ledger op 7 copies the entry to the read window. -/
  | ledgerRead
  /-- LEDGER_EXPORT (R260): Ledger op 8 copies the entry, FN and serial to the read window with a BBK_0
   signature. -/
  | ledgerExport
  /-- LEDGER_FORCED_BIND (R259): Ledger op 9 binds without the tag test, replaces the tag and sets forced tag.
   -/
  | ledgerForcedBind
  /-- BIL_MD_RESET (R277): BIL_CTRL.md_reset zeroes every maximum demand. -/
  | bilMdReset
  /-- BIL_CHECKPOINT (R274): BIL_CTRL.checkpoint writes the billing state after step 4 of the latch frame to the
   checkpoint area. -/
  | bilCheckpoint
  /-- BIL_STORE_TICKET (R264): BIL_CTRL.store_ticket builds a storage ticket for the set in BIL_SEL. -/
  | bilStoreTicket
  /-- BIL_SEL_SNAPSHOT (R276): A write of BIL_SEL snapshots the selected billing item into BIL_SNAP. -/
  | bilSelSnapshot (val : Word)
  /-- RTC_SET (R426): A latched HKP_CTRL.rtc_set loads the RTC at the boundary, and billing treats the change as
   a set-back or set-forward. -/
  | rtcSet
  /-- RTC_COMPENSATE (R425): Every 60 s the always-on domain adds or removes ticks for the crystal's temperature
   and the trim. -/
  | rtcCompensate (temp : Int)
  /-- AMEND_SUBMIT (R51): SMP_AMEND_CTRL.submit sends the staged amendment through the input path for
   validation, or is refused while another is pending. -/
  | amendSubmit
  /-- AMEND_VALIDATED (R50): Validation of a latched amendment completes within 5 frames as scheduled or
   rejected. -/
  | amendValidated
  /-- AMEND_CANCEL (R52): SMP_AMEND_CTRL.cancel cancels a scheduled amendment before activation_fn. -/
  | amendCancel
  /-- AMEND_APPLY (R52): At step 1 of activation_fn the amendment applies atomically with its clamps,
   withdrawals and modem reassignment. -/
  | amendApply
  /-- AMEND_PERSIST (R52): Within 200 ms the applied amendment is appended to both chain areas and its state
   becomes persisted. -/
  | amendPersist
  /-- SMP_FLASH_WRITE_A (R54): SMP_FLASH_CTRL bit 0 checks the staged full image and writes it into copy A,
   erasing its chain. -/
  | smpFlashWriteA
  /-- SMP_FLASH_WRITE_B (R54): SMP_FLASH_CTRL bit 1 checks the staged full image and writes it into copy B,
   erasing its chain. -/
  | smpFlashWriteB
  /-- SMP_FLASH_DONE (R54): A flash copy write completes with read-back as verified or failed. -/
  | smpFlashDone (ok : Bool)
  /-- CLAMP_SEL_WRITE (R55): A write of SMP_CLAMP_SEL snapshots the selected clamp-report entry. -/
  | clampSelWrite (val : Word)
  /-- LINK_TRAINING (R282): Tandem link training completes within 50 ms. -/
  | linkTraining
  /-- MARKER_RECEIVE (R283): A partner's boundary marker is received and the follower sets its boundary from it.
   -/
  | markerReceive (m : MarkerIn)
  /-- MARKER_MISSING (R283): No valid partner marker arrives within 5 µs after the own boundary. -/
  | markerMissing
  /-- DELAY_MEASURE (R284): Every 1,000 frames the one-way link delay is measured again. -/
  | delayMeasure (roundTrip : Nat)
  /-- HEARTBEAT_SEND (R292): 200 µs after each boundary the package sends its CAN heartbeat from a dedicated
   buffer. -/
  | heartbeatSend
  /-- HEARTBEAT_RECEIVE (R292): A partner's heartbeat frame is received. -/
  | heartbeatReceive (h : Heartbeat)
  /-- SNAP_PACKET (R285): A SNAP packet with the lead's boundary snapshot is received. -/
  | snapPacket (fn : Nat) (snap : Machine.Snap)
  /-- INSET_PACKET (R286): An INSET packet with the lead's captured input set is received for the next latch. -/
  | insetPacket (set : InputSet)
  /-- PROTO_PACKET (R193): A PROTO packet with vehicle-link protocol state is received and held. -/
  | protoPacket (fn : Nat) (p : Machine.Proto)
  /-- WIT_PACKET (R242): A WIT packet with the follower's witness totals is received by the lead. -/
  | witPacket (m : FollowMsg)
  /-- DIGEST_PACKET (R287): A DIGEST packet with the partner's frame digest is received. -/
  | digestPacket (fn : Nat) (crc : BitVec 64)
  /-- BULK_PACKET (R298): A BULK packet of ledger, ticket ring, weld flags or ledger key is received by a joiner
   and written. -/
  | bulkPacket (b : Bulk)
  /-- PAIR_PACKET (R297): A PAIR packet is received and the pairing check is made. -/
  | pairPacket (p : PairInfo)
  /-- JOIN_WAIT_EXPIRY (R281): join_wait frames pass in WAIT without a partner marker, and the package leads or
   isolates. -/
  | joinWaitExpiry
  /-- RESEED_CATCHUP (R27): The reseeding follower reaches the live sample after recomputing from the lead's
   snapshot. -/
  | reseedCatchup
  /-- JOIN_COMPLETE (R298): A joiner reaches the live sample with a matched digest and enters FOLLOW. -/
  | joinComplete
  /-- JOIN_TIMEOUT (R281): 100 frames after the join request without completion, the package isolates. -/
  | joinTimeout
  /-- TAKEOVER (R293): At the boundary after the lead is lost, the follower leads, latches its own held sets and
   enables its transmitters. -/
  | takeover
  /-- ROLE_SWAP (R299): At swap boundary S the lead and follower exchange roles, or the declaring package
   becomes FAULTED. -/
  | roleSwap
  /-- TDM_REJOIN (R302): TDM_CTRL.rejoin lets an ISOLATED package rejoin. -/
  | tdmRejoin
  /-- TDM_YIELD (R299): TDM_CTRL.yield on the lead requests a swap at K + 1 + swap_frames. -/
  | tdmYield
  /-- TDM_HOLD_RETURN (R302): TDM_CTRL.hold_return withholds the grant of an automatic return. -/
  | tdmHoldReturn
  /-- TDM_DECLARE_FAULT (R281): TDM_CTRL.declare_fault declares the package faulty. -/
  | tdmDeclareFault
  /-- SAFETY_IMAGE_LOAD (R330): The firebreak receives the safety image, or new outlet fields at an amendment.
   -/
  | safetyImageLoad
  /-- FBK_SELF_TEST (R307): The firebreak's start-up self-test completes and it goes to HELD or FAULT. -/
  | fbkSelfTest (ok : Bool)
  /-- FBK_EVAL_CYCLE (R308): Every 50 µs the firebreak samples its inputs, evaluates SF1 to SF5 and its state,
   and drives its outputs. -/
  | fbkEvalCycle
  /-- FBK_INPUT_ACCEPT (R308): An input has shown one level for its whole filter time and that level is
   accepted. -/
  | fbkInputAccept (inp : FbkIn) (level : Bool)
  /-- ZONE_DISCREPANCY (R312): A zone's two channels differ longer than disc_time, which sets the zone latch and
   cycle_needed. -/
  | zoneDiscrepancy (z : Fin 8)
  /-- WELD_DETECT (R315): With LS_n held open, KFB has not read open for weld_time and the weld latch is set. -/
  | weldDetect (o : OutIx)
  /-- WELD_NOTIFY (R304): The control die's weld notification sets the firebreak's weld latch. -/
  | weldNotify (o : OutIx)
  /-- RESET_EDGE_PAIR (R325): A FBK_RESET press of 50 ms to 3 s is released and clears HELD and every latch
   whose condition holds. -/
  | resetEdgePair (ms : Nat)
  /-- RESET_JAMMED (R325): A FBK_RESET press still high at 3 s sets jammed and is ignored. -/
  | resetJammed
  /-- AUTO_START_RUN (R307): With start_mode 1, the firebreak goes from HELD to RUN by itself once the seal and
   image guards hold. -/
  | autoStartRun
  /-- SEAL_READ (R327): Every 100 ms the sealed switch bank is read; three equal changed reads or three invalid
   reads send RUN to HELD. -/
  | sealRead (direct inverted : BitVec 64)
  /-- IMAGE_CRC_CHECK (R303): Every 10 ms the safety image CRC is checked, and a failure sends RUN to HELD. -/
  | imageCrcCheck (ok : Bool)
  /-- LS_PULSE_TEST (R305): Every 10 s each logic channel turns its transistor of each closed LS off for 100 µs
   and reads the midpoint back. -/
  | lsPulseTest (readback : BitVec 40)
  /-- FBK_CHANNEL_DISCREPANCY (R305): L1 and L2 disagree for 3 cycles, or readback or the clock monitor fails,
   and the firebreak enters FAULT. -/
  | fbkChannelDiscrepancy (kind : FbkFaultKind)
  /-- VAUX_OUT_OF_WINDOW (R307): VAUX_IN leaves the supervisor window, which removes output drive and returns
   the firebreak to START when VAUX_IN comes back. -/
  | vauxOutOfWindow (back : Bool)
  /-- FBK_THERMAL_HOLD (R307): The package thermal shutdown line or 135 °C on the auxiliary die sends the
   firebreak from RUN to HELD. -/
  | fbkThermalHold
  /-- BRAKE_TEST_DUE (R318): test_interval passes since a brake's last pass and its test falls due. -/
  | brakeTestDue (b : Fin 8)
  /-- BRAKE_TEST_OVERDUE (R318): Twice test_interval passes since the last pass, and the brake and its outlets
   are held. -/
  | brakeTestOverdue (b : Fin 8)
  /-- BRAKE_TEST_START (R319): A due test starts once the brake is idle, holding its LS outputs open and
   clearing the edge counter. -/
  | brakeTestStart (b : Fin 8)
  /-- BRAKE_TEST_TORQUE (R319): 0.1 ms after the start TESTTQ_b is asserted. -/
  | brakeTestTorque (b : Fin 8)
  /-- BRAKE_TEST_RELEASE (R319): At test_time TESTTQ_b is released. -/
  | brakeTestRelease (b : Fin 8)
  /-- BRAKE_TEST_EVALUATE (R319): 100 ms after the release the counted edges are compared with brk_threshold,
   giving a pass or the fail latch. -/
  | brakeTestEvaluate (b : Fin 8) (edges : Nat)
  /-- FBK_WELD_ARM (R316): A bit of FBK_WELD_CTRL arms the weld release of an outlet. -/
  | fbkWeldArm (o : OutIx)
  /-- FBK_BRK_TEST (R318): FBK_BRK_CTRL.test makes a brake test due at once. -/
  | fbkBrkTest (b : Fin 8)
  /-- FBK_BRK_REPAIR (R320): FBK_BRK_CTRL.repair arms a retest of a failed brake. -/
  | fbkBrkRepair (b : Fin 8)
  /-- FBK_LOG_SEL_WRITE (R333): A write of FBK_LOG_SEL snapshots the selected firebreak log entry. -/
  | fbkLogSelWrite (val : Word)
  /-- AUX_COMMAND_FRAME (R338): Every 50 µs the control die sends the aux die a command frame with the switch
   commands. -/
  | auxCommandFrame
  /-- AUX_ON (R337): AUX_CTRL.on commands a general or brake switch, or starts a pulse of a pulse output. -/
  | auxOn (k : Fin 48) (on : Bool)
  /-- AUX_CLEAR (R341): AUX_CTRL.clear restores retry_left and ends locked_off and shed. -/
  | auxClear (k : SwIx)
  /-- AUX_STAGGERED_START (R338): Switches commanded on at one boundary start in ascending order, 250 µs apart.
   -/
  | auxStaggeredStart (k : SwIx)
  /-- AUX_HOLD_START (R339): After hold_delay a high side switches to PWM hold at hold_duty. -/
  | auxHoldStart (k : SwIx)
  /-- AUX_INRUSH_END (R340): 100 ms after turn-on the inrush window ends. -/
  | auxInrushEnd (k : SwIx)
  /-- AUX_OVERCURRENT (R340): A switch exceeds its current limit for its time and turns off with oc. -/
  | auxOvercurrent (k : SwIx)
  /-- AUX_THERMAL_TRIP (R340): A switch reaches a ΔT of 60 K or a channel temperature of 150 °C and turns off
   with its latch. -/
  | auxThermalTrip (k : SwIx) (t : ThermTrip)
  /-- AUX_THERMAL_LATCH_CLEAR (R340): ΔT falls below 40 K or the channel falls below 140 °C and the latch
   clears. -/
  | auxThermalLatchClear (k : SwIx) (t : ThermTrip)
  /-- AUX_RESTART (R341): At a 1 ms tick a tripped switch restarts by itself when its guards hold, decreasing
   retry_left. -/
  | auxRestart (k : SwIx)
  /-- AUX_RETRY_RESTORE (R341): After 10 s without a trip, retry_left returns to 8. -/
  | auxRetryRestore (k : SwIx)
  /-- AUX_PULSE_END (R337): A pulse output's pulse_time ends and the switch turns off. -/
  | auxPulseEnd (k : SwIx)
  /-- AUX_OPEN_LOAD (R342): An open-load condition holds for 10 ms and an open-load fault or ext_driven is
   reported. -/
  | auxOpenLoad (k : SwIx) (kind : OpenLoad)
  /-- AUX_SENSE_CONVERT (R343): Every 1 ms each switch current is converted and sent as a non-loop input. -/
  | auxSenseConvert (milliAmps : List Nat)
  /-- AUX_BUDGET_SHED (R345): The 10 ms mean of the high-side currents exceeds 24 A and switches are shed in
   class order. -/
  | auxBudgetShed
  /-- CAN_RX_FRAME (R353): A received CAN frame fills matching mailbox slots and high-priority buffers and
   enters the receive FIFO. -/
  | canRxFrame (k : CanIx) (f : CanFrame) (us : Nat)
  /-- CAN_TX_SUBMIT (R359): CAN_TX_CTRL.submit enqueues up to 8 host transmit requests, or refuses them. -/
  | canTxSubmit (k : CanIx) (count : BitVec 4)
  /-- CAN_TX_COMPLETE (R360): The head frame of the transmit queue is sent and the next enters arbitration. -/
  | canTxComplete (k : CanIx) (src : TxSource)
  /-- CAN_BUS_OFF (R364): A controller reaches bus-off and sends nothing. -/
  | canBusOff (k : CanIx)
  /-- CAN_AUTO_RECOVERY (R364): After 128 occurrences of 11 recessive bits a bus-off controller recovers by
   itself. -/
  | canAutoRecovery (k : CanIx)
  /-- CAN_RECOVER (R364): A latched CAN_CTRL.recover ends bus-off under manual recovery. -/
  | canRecover (k : CanIx)
  /-- CAN_HP_SEL_WRITE (R365): A write of CAN_HP_SEL snapshots the selected high-priority buffer. -/
  | canHpSelWrite (k : CanIx) (val : Word)
  /-- TAMPER_DETECT (R377): A tamper source trips, ZEROIZE clears the keys, burns the next fuse and writes a log
   entry. -/
  | tamperDetect (src : TamperSrc)
  /-- TRNG_HEALTH_FAIL (R368): A TRNG health test fails and trng_fail is set. -/
  | trngHealthFail
  /-- TRNG_RECOVER (R368): After 1,024 good samples the TRNG reseeds and clears trng_fail. -/
  | trngRecover
  /-- BBK_MASK_RENEW (R374): Once per second the battery-backed slot mask is renewed and the words re-encoded.
   -/
  | bbkMaskRenew
  /-- HWD_GENERATE (R380): Heartwood op 1 generates a new key into a wrapped slot. -/
  | hwdGenerate (arg : Word)
  /-- HWD_IMPORT (R380): Heartwood op 2 unwraps an imported key and seals it to a slot. -/
  | hwdImport (arg : Word)
  /-- HWD_PUBLIC (R380): Heartwood op 3 writes a public key to the command buffer. -/
  | hwdPublic (arg : Word)
  /-- HWD_DELETE (R380): Heartwood op 4 zeroes both copies of a slot. -/
  | hwdDelete (arg : Word)
  /-- HWD_RESEAL (R381): Heartwood op 5 writes each affected slot to its other bank under the target
   measurements. -/
  | hwdReseal (arg : Word)
  /-- HWD_RESEAL_COMMIT (R381): Heartwood op 6 zeroes the old slot copies. -/
  | hwdResealCommit (arg : Word)
  /-- HWD_ATTEST (R383): Heartwood op 7 writes a signed attestation statement over the nonce. -/
  | hwdAttest (arg : Word)
  /-- HWD_BBK_GENERATE (R380): Heartwood op 8 generates a key in a battery-backed slot and shares BBK_1 in a
   pair. -/
  | hwdBbkGenerate (arg : Word)
  /-- HWD_ENROLL_SMP (R379): Heartwood op 9 enrols the stand-map verification key. -/
  | hwdEnrollSmp (arg : Word)
  /-- HWD_COMMAND_DONE (R380): A heartwood command completes, and its result appears in HWD_CMD_STATUS and the
   buffer. -/
  | hwdCommandDone
  /-- HWD_TAMPER_LOCK (R386): HWD_CTRL.tamper_lock locks HWD_TAMPER_CFG until VBAT is lost. -/
  | hwdTamperLock
  /-- HWD_LIFECYCLE_LOCK (R378): HWD_CTRL.lifecycle_lock burns the lifecycle fuse, or is refused. -/
  | hwdLifecycleLock
  /-- TAMPER_CAUSE_READ (R385): A read of HWD_TAMPER_CAUSE returns and clears the source bits. -/
  | tamperCauseRead
  /-- HWD_LOG_SEL_WRITE (R385): A write of HWD_LOG_SEL snapshots the selected tamper log entry. -/
  | hwdLogSelWrite (val : Word)
  /-- SVC_ARP (R387): The service port answers an ARP request. -/
  | svcArp (ip : BitVec 32)
  /-- SVC_ICMP_ECHO (R387): The service port answers an ICMP echo. -/
  | svcIcmpEcho (ip : BitVec 32) (payload : List Byte)
  /-- FWU_OPEN (R388): An OPEN packet opens or resumes an update session, or is refused. -/
  | fwuOpen (sess : BitVec 16) (manLen blocks : Nat)
  /-- FWU_MANIFEST (R388): A MANIFEST packet delivers the manifest. -/
  | fwuManifest (sess : BitVec 16) (image : List Byte)
  /-- FWU_BLOCK (R388): A BLOCK packet delivers a quarter block, and a complete block is checked and
   acknowledged. -/
  | fwuBlock (sess : BitVec 16) (n : Nat) (q : Fin 4) (crc : BitVec 32) (data : List Byte)
  /-- FWU_QUERY (R388): A QUERY packet is answered with STATE and the bitmap of blocks held. -/
  | fwuQuery (sess : BitVec 16)
  /-- FWU_CLOSE (R388): A CLOSE packet ends the session. -/
  | fwuClose (sess : BitVec 16)
  /-- FWU_VOTE_RECEIVE (R395): A VOTE packet from the group is captured as a non-loop input. -/
  | fwuVoteReceive (v : Vote)
  /-- FWU_SESSION_TIMEOUT (R388): A session idle for 30 s is closed, keeping its blocks. -/
  | fwuSessionTimeout
  /-- FWU_WRITE (R390): FWU_CTRL.write verifies the staged image and writes it to the inactive flash slot. -/
  | fwuWrite
  /-- FWU_WRITE_DONE (R390): The image write and read-back complete as VERIFIED or FAILED. -/
  | fwuWriteDone (r : FlashEnd)
  /-- FWU_DISCARD (R402): FWU_CTRL.discard drops the session and the staged blocks. -/
  | fwuDiscard
  /-- FWU_SCHEDULE (R394): FWU_CTRL.schedule schedules an activation after the refusal checks and the reseal. -/
  | fwuSchedule
  /-- FWU_CANCEL (R402): FWU_CTRL.cancel lapses the schedule before D. -/
  | fwuCancel
  /-- FWU_REVERT_CMD (R398): FWU_CTRL.revert in TRIAL reverts both packages at the next boundary. -/
  | fwuRevertCmd
  /-- FWU_OWNER_LOCK (R400): FWU_CTRL.owner_lock sets or clears the owner lock held in MRAM. -/
  | fwuOwnerLock (set : Bool)
  /-- FWU_OPKEY_WRITE (R400): FWU_CTRL.opkey_write writes or removes the operator key. -/
  | fwuOpkeyWrite
  /-- FWU_VOTE (R395): At vote frame V the unit evaluates the refusals and broadcasts its VOTE in three frames.
   -/
  | fwuVote
  /-- FWU_DECISION (R395): At decision frame D the unit activates if it holds every GO, or postpones. -/
  | fwuDecision
  /-- FWU_ACTIVATE (R397): At FN_act the sequencer and protocol cores restart from the new image while the
   hardware runs on. -/
  | fwuActivate
  /-- FWU_READY_REPORT (R398): The restarted firmware reports ready or not ready, and a not-ready report leads
   to a revert. -/
  | fwuReadyReport (ready : Bool) (reason : Nat)
  /-- FWU_AUTO_REVERT (R398): A package reverts at the boundary after a not-ready report, or after latching its
   partner's. -/
  | fwuAutoRevert
  /-- FWU_RESUME (R397): At FN_act + 150 the sequencers resume and apply the inputs held in the window. -/
  | fwuResume
  /-- FWU_COMMIT (R399): At FN_act + commit_delay the boot record is rewritten and the old slot copies are
   zeroed. -/
  | fwuCommit
  /-- SCRUB_STEP (R405): The scrubber reads its next line at its even pace and corrects or counts errors. -/
  | scrubStep
  /-- LND_SNAP_NOW (R418): LND_CTRL.snap_now adds a SNAP section to the latch frame's journal packet. -/
  | lndSnapNow
  /-- LND_SCRUB_NOW (R421): LND_CTRL.scrub_now starts a scrub pass. -/
  | lndScrubNow
  /-- BAR2_WRITE (R409): A BAR2 write lands in a host-writable area or is discarded and counted. -/
  | bar2Write (off : BitVec 26) (bytes : List Byte)
  /-- HK_ADC_SLOT (R429): Every 100 µs the housekeeping ADC converts its slot's input as a non-loop input. -/
  | hkAdcSlot (slot : Fin 42) (code : Nat)
  /-- HK_IN_ALARM (R430): An HK_IN reading is outside its window in three consecutive rounds and sets its alarm.
   -/
  | hkInAlarm (k : Fin 16)
  /-- THERMAL_LEVEL_CHANGE (R432): The hottest die sensor passes a warning or throttle trip, or its release
   holds for a round, which changes the level and the shedding. -/
  | thermalLevelChange (lvl : Fin 3)
  /-- THERMAL_SHUTDOWN (R434): 135 °C or a comparator trips the shutdown line, stopping all but the always-on
   and auxiliary islands. -/
  | thermalShutdown (sensor : Fin 10)
  /-- THERMAL_RELEASE (R434): All sensors stay below 105 °C for 10 s and a cold start follows. -/
  | thermalRelease
  /-- TALLY_RING_WRITE (R443): Every interval seconds the counter snapshot is written to the tally ring. -/
  | tallyRingWrite
  /-- TLY_CLEAR (R443): HKP_TLY_CTRL.clear restarts all counters at the next boundary. -/
  | tlyClear
  /-- TLY_CNT_LO_READ (R446): A read of TLY_CNT_LO copies the snapshot's upper half into the holding register.
   -/
  | tlyCntLoRead (k : Fin 192)
  /-- RESET_CAUSE_READ (R445): A read of HKP_RESET_CAUSE returns and clears the cause bits. -/
  | resetCauseRead
  /-- VECTOR_ACK (R457): Writing 1 to a bit of HST_VEC_ACK re-arms the vector, which fires again if a source is
   still pending. -/
  | vectorAck (val : Word)
  /-- QSPI_DISABLE (R455): HST_CTRL.qspi_dis disables the quad-SPI target until the next cold start. -/
  | qspiDisable
  /-- QSPI_READ (R454): A quad-SPI A1h transaction reads BAR0 or BAR2, returning FFh bytes if the data are not
   ready. -/
  | qspiRead (bar : Bar) (off : BitVec 26) (len : Nat) (ready : Bool)
  /-- QSPI_WRITE (R454): A quad-SPI A2h transaction writes BAR0 or BAR2 words under the host access rules. -/
  | qspiWrite (bar : Bar) (off : BitVec 26) (data : QspiData)
  /-- QSPI_STATUS (R454): A quad-SPI A5h transaction returns the status byte. -/
  | qspiStatus
  /-- REGISTER_WRITE (R451): A BAR0 write to a register without a row of its own applies at once, or is taken as
   a host command for capture, after the access checks. -/
  | registerWrite (off : BitVec 21) (val : Word) (lanes : Lanes)
  /-- TANDEM_LINK_DOWN (R282): The tandem link lanes lose lock, so the link is no longer trained and
   TDM_INT_STATUS.link_down is set. -/
  | tandemLinkDown
  /-- TCP_CONNECTION_CLOSED (R185): The vehicle closes the TCP connection of a port, and the link is lost from
   the frame that latches it. -/
  | tcpConnectionClosed (o : OutIx)
  /-- DEBUG_SESSION_OPEN (R370): A debug session opens on DBG_* before lifecycle lock, which empties the key
   cache and makes heartwood refuse every derivation. -/
  | debugSessionOpen
  /-- DEBUG_SESSION_CLOSE (R370): The debug session on DBG_* closes and derivations are accepted again. -/
  | debugSessionClose
  /-- CAN_BUS_ERROR (R364): A controller detects a bus error, updates TEC and REC, and may change between
   error-active and error-passive, raising an event of rank 12. -/
  | canBusError (k : CanIx) (kind : CanErrKind) (tec rec : Nat)
  /-- HOST_READ (R449): A PCI Express read of BAR0 or BAR2 returns data and sets access_error or unmapped when
   malformed or unmapped, and on BAR2 corrects or poisons ECC errors. -/
  | hostRead (bar : Bar) (off : BitVec 26) (len : Nat) (be : BitVec 4)
  /-- MSIX_MASK_CLEAR (R457): The host clears the MSI-X function mask or a vector mask, and the held messages in
   the pending-bit array are sent. -/
  | msixMaskClear (vec : Option (Fin 32))
  deriving DecidableEq, Repr

end Sys2Proof
end

