-- ==== Sys2Proof/Decode.lean ====
section
/-! DEFINITION. Decoding of table words. No row of spec/opcode_table.json gives bits: the SN9632 has no instruction
words (R1: no program, no processor, no interpreter), and its commands arrive as accesses, frames and events. -/

namespace Sys2Proof

/-- The command that a word of the table's bits spells. No row has bits, so no word spells a command. -/
def decodeTableWord (_nbits _w : Nat) : Option Instr := none

end Sys2Proof
end

