-- ==== Sys2Proof/Config.lean ====
section
/-! DEFINITION. What one package fixes and what the manual leaves open: the cryptographic primitives, the layouts
and values that no rule states. None of these has a body, so a statement holds whatever they are. -/

namespace Sys2Proof.Config

/-- SHA-384 of a byte string (R34, R370). (DESIGN CHOICE, entry 10.) -/
opaque sha384 : List Byte → BitVec 384
/-- SHA-256 of a byte string. -/
opaque sha256 : List Byte → BitVec 256
/-- ECDSA P-384 or P-256 verification: key, message, signature (R40, R379, R390, R393). -/
opaque ecdsaVerify : List Byte → List Byte → List Byte → Bool
/-- Trelaupol's public key, checked against a hash in boot ROM (R389). -/
opaque trelaupolKey : List Byte
/-- ECDSA signature of a message by a private key, nonce by RFC 6979 (R265, R383). -/
opaque ecdsaSign : (key msg : List Byte) → List Byte
/-- The public key of a private key. -/
opaque ecdsaPublic : List Byte → List Byte
/-- AES-CMAC of a message (R258, R369). -/
opaque aesCmac : List Byte → List Byte → BitVec 128
/-- AES-GCM sealing: key, nonce counter, data; and opening. -/
opaque aesSeal : List Byte → Nat → List Byte → List Byte
/-- AES-GCM opening: key, sealed data; none where the tag fails. -/
opaque aesOpen : List Byte → List Byte → Option (List Byte)
/-- HKDF over SHA-384 (R369): input key material, salt, info, length. -/
opaque hkdf : (ikm salt info : List Byte) → (len : Nat) → List Byte
/-- The AES-256-CTR key stream for a key and a first counter block (R371). -/
opaque aesCtr : (key ctr : List Byte) → (len : Nat) → List Byte
/-- The layout of the buffer of HWD_IMPORT (R380) and the unwrapping under IMK: none where the tag fails. (DESIGN CHOICE, entry 11.) -/
opaque hwdImport : (imk buffer : List Byte) → Option (List Byte)
/-- The demand of an interval that held no frame (R255 divides by its frames). (DESIGN CHOICE, entry 104.) -/
opaque demandNoFrame : (energy : Nat) → Nat
/-- The 56 bytes of a meter in a save slot after its sums, whose widths R270 does not give: N, interval flags, and the maxima,
last closed demand and last record. (DESIGN CHOICE, entry 11.) -/
opaque saveMeterTail : (n flags : Nat) → List Nat → List Byte
/-- The session state of a set in a save slot (R270). (DESIGN CHOICE, entry 11.) -/
opaque saveSession : List Nat → List Byte
/-- Bytes 20,832 to 20,879 of a save slot (R270). (DESIGN CHOICE, entry 11.) -/
opaque saveTail : List Nat → List Byte
/-- The bytes of the OTP trim t1 and t2 as written at final test (R383). -/
opaque trimBytes : BitVec 80 → List Byte
/-- Key agreement: private key and public value. -/
opaque ecdh : List Byte → List Byte → List Byte
/-- The public IMK of the package with a serial, as its checked statement names it (R375). -/
opaque imkPublic : BitVec 80 → List Byte
/-- The n-th block of random bytes of the TRNG (R368): 32 bytes. -/
opaque trng : Nat → BitVec 256
/-- A value that a rule leaves open, fresh for each index. (DESIGN CHOICE, entry 9.) -/
opaque freeNat : Nat → Nat
/-- The trim t1 and t2 of the metrology reference, written in OTP at final test (R233), by package serial. (DESIGN CHOICE, entry 37.) -/
opaque refTrim : BitVec 80 → Rat × Rat
/-- Bytes 16 to 31 of an event entry (R419): no rule lays them out. (DESIGN CHOICE, entry 11.) -/
opaque eventPayload : (rank code inst stamp data : Nat) → BitVec 128
/-- The GLIM term of a frame that latches a set taken before the first sample (R65 is silent). (DESIGN CHOICE, entry 22.) -/
opaque glimNoSample : (fn : Nat) → Nat
/-- The frequency in 1/16 Hz that GLIM_P shows between the first rising edge and the first complete period (R65 is
silent). (DEDUCED, entry 90.) -/
opaque glimNoPeriod : (fn : Nat) → Nat
/-- Bytes 20 to 31 of a mailbox entry for its event code and data values (R168): no rule lays them out, but for the
record offset of AUTH_REQUEST and the ticket number of SESSION_END. (DESIGN CHOICE, entry 11.) -/
opaque mailboxData : (code : Nat) → List Nat → BitVec 96

/-- The temperature in 1/64 °C that a die sensor's code means under its OTP trim (R429): package serial, sensor, code. (DESIGN CHOICE, entry 66.) -/
opaque dieTemp : BitVec 80 → (sensor code : Nat) → Int
/-- T0 of the 32.768 kHz crystal in 1/64 °C, held in OTP (R425). -/
opaque rtcT0 : BitVec 80 → Int
/-- A correction that is no whole number of ticks is made with the next larger number (R425 gives no rounding). (DEDUCED, entry 113.) -/
opaque rtcTickUp : (dT trim : Int) → Bool

/-- The 32-bit word that a node temperature outside its range leaves (R203 is silent), in 2^-16 °C. (DESIGN CHOICE, entry 100.) -/
opaque nodeWord : Int → BitVec 32

end Sys2Proof.Config
end

