-- ==== Sys2Proof/Machine/Image.lean ====
section
/-! DEFINITION. Stand-map images: the structural checks of R40, the five passes of R41 over the payload bytes and
the decoding of the payloads into the typed map. -/

namespace Sys2Proof.Machine

/-- The `n`-byte little-endian field at an offset of a payload (R32). -/
def getF (pay : List Byte) (off n : Nat) : Nat := leNat ((pay.drop off).take n)

/-- Replace the `n`-byte field at an offset. -/
def setF (pay : List Byte) (off n v : Nat) : List Byte := pay.take off ++ leBytes n v ++ pay.drop (off + n)

/-- The rule that brings a field into its range (R42). -/
inductive Clamp where
  /-- enumeration: a code above `max` becomes 0. -/
  | enum (max : Nat)
  /-- enumeration of bits: a bit outside `m` makes the code 0. -/
  | bits (m : Nat)
  /-- limit, count of things, timing, other: into the range. -/
  | range (lo hi : Nat)
  /-- a signed field of `w` bits into the range. -/
  | srange (w : Nat) (lo hi : Int)
  /-- count: an index above `max` becomes none (all ones in one byte). -/
  | index (max : Nat)
  /-- 0 or a value in the range; nearest, the lower value at a tie. -/
  | zeroOr (lo hi : Nat)
  /-- one of two values, nearest, the lower value at a tie. -/
  | oneOf (a b : Nat)
  deriving DecidableEq, Repr

/-- The legal value nearest to a given one under a rule of R42. -/
def Clamp.app : Clamp → Nat → Nat
  | .enum m, v => if v ≤ m then v else 0
  | .bits m, v => if v &&& m = v then v else 0
  | .range lo hi, v => if v < lo then lo else if hi < v then hi else v
  | .srange w lo hi, v =>
      let x := signed w v
      unsigned w (if x < lo then lo else if hi < x then hi else x)
  | .index m, v => if v ≤ m ∨ v = 255 then v else 255
  | .zeroOr lo hi, v => if v = 0 then 0 else if hi < v then hi else if lo ≤ v then v else if v ≤ lo / 2 then 0 else lo
  | .oneOf a b, v => if v = a ∨ v = b then v else if v ≤ (a + b) / 2 then a else b

/-- A field of a payload: offset, size, id, and the rule, which may depend on the fields already clamped. -/
structure FieldSpec where
  off : Nat
  size : Nat
  id : Nat
  rule : List Byte → Clamp

/-- A field whose rule is fixed. -/
def fld (off size id : Nat) (c : Clamp) : FieldSpec := ⟨off, size, id, fun _ => c⟩

/-- CHANNEL (R37). -/
def channelFields : List FieldSpec :=
  [fld 0 1 0x100 (.enum 3), fld 1 1 0x101 (.index 31), fld 2 1 0x102 (.index 7), fld 4 4 0x103 (.range 1 500000),
   fld 8 2 0x104 (.range 0 32767), fld 10 2 0x105 (.range 0 65535), fld 12 4 0x106 (.range 2000 100000),
   fld 16 2 0x107 (.range 1 10000), fld 18 2 0x108 (.range 100 10000), fld 20 2 0x109 (.range 0 8000),
   ⟨22, 2, 0x10A, fun p => .range 0 (getF p 20 2)⟩, fld 24 1 0x10B (.enum 1)]

/-- The cable model of an OUTLET record (R198), before the stability condition of R199. -/
def cableFields : List FieldSpec :=
  [fld 19 2 0x420 (.range 1 65535), fld 21 2 0x421 (.range 0 10000), fld 23 2 0x422 (.range 1 65535),
   fld 25 2 0x423 (.range 1 65535), fld 27 2 0x424 (.range 1 65535), fld 37 2 0x429 (.range 0 8000),
   ⟨39, 2, 0x42A, fun p => .range 0 (getF p 37 2)⟩, fld 49 2 0x42F (.range 1 65535), fld 51 2 0x430 (.range 0 2560),
   fld 53 1 0x431 (.range 1 255),
   ⟨55, 1, 0x433, fun p => if getF p 55 1 % 4 = 0 ∨ getF p 55 1 % 4 = 3 then .bits 15 else .enum 0⟩,
   fld 56 1 0x434 (.range 0 200), fld 57 1 0x435 (.range 0 200)]

/-- The strictly falling pilot thresholds and the proximity window (R178). -/
def pilotFields : List FieldSpec :=
  ([1, 2, 3, 4].map fun k => ⟨67 + k, 1, 0x40D, fun p => .range 0 (getF p (66 + k) 1 - 1)⟩) ++
  [⟨75, 2, 0x40D, fun p => .range (getF p 73 2) 65535⟩]

/-- OUTLET (R38, R171). -/
def outletFields : List FieldSpec :=
  [fld 0 1 0x400 (.enum 2),
   ⟨1, 1, 0x401, fun p => if getF p 0 1 ≠ 0 ∧ getF p 1 1 ≠ 0 ∧ getF p 0 1 ≠ getF p 1 1 then .enum 0 else .enum 2⟩,
   fld 2 1 0x402 (.range 0 7), fld 3 1 0x403 (.index 31),
   ⟨4, 2, 0x404, fun p => .range 0 (if getF p 0 1 = 2 then 32000 else 40000)⟩,
   ⟨6, 4, 0x405, fun p => .range 0 (if getF p 0 1 = 2 then 16000 else 96000)⟩,
   fld 10 4 0x406 (.range 0 3750000), fld 14 1 0x407 (.range 1 32), fld 15 1 0x408 (.enum 1), fld 16 1 0x409 (.enum 1),
   fld 17 1 0x40A (.index 7), fld 18 1 0x40B (.index 7)] ++ cableFields ++ pilotFields

/-- One stage entry of a LOOP record (R112). -/
def stageFields (s : Nat) : List FieldSpec :=
  let o := 16 + 40 * s
  let id := 0x500 + 0x10 * (s + 1)
  [fld o 1 id (.enum 8), fld (o + 1) 1 (id + 1) (.enum 3), fld (o + 2) 1 (id + 2) (.enum 2),
   ⟨o + 4, 4, id + 3, fun p =>
     if getF p o 1 = 6 then .srange 32 (-65535) 65535
     else if getF p o 1 = 7 ∨ getF p o 1 = 8 then .srange 32 0 200 else .srange 32 0 0⟩,
   fld (o + 8) 4 (id + 4) (.range 0 0x7FFFFFFF), fld (o + 12) 4 (id + 5) (.range 1 0xFFFFFFFF),
   fld (o + 16) 4 (id + 6) (.range 0 0x7FFFFFFF), fld (o + 20) 4 (id + 7) (.range 0 0x7FFFFFFF),
   fld (o + 24) 4 (id + 8) (.range 0 0x7FFFFFFF), fld (o + 28) 4 (id + 9) (.range 0 0x7FFFFFFF),
   fld (o + 32) 4 (id + 10) (.range 0 16777216)]

/-- LOOP (R111). -/
def loopFields (pay : List Byte) : List FieldSpec :=
  [fld 0 1 0x500 (.range 1 8), fld 2 2 0x501 (.range 0 32767), fld 4 4 0x502 (.range 0 0x7FFFFFFF),
   fld 8 4 0x503 (.range 0 0x7FFFFFFF), fld 12 4 0x504 (.range 0 0x7FFFFFFF)] ++
  ((List.range (getF pay 0 1)).flatMap stageFields)

/-- METER of a DC set (R218). -/
def meterFields : List FieldSpec :=
  [fld 0 1 0x600 (.enum 2), ⟨1, 1, 0x601, fun p => .index (if getF p 0 1 = 2 then 95 else 31)⟩, fld 2 1 0x602 (.index 3),
   fld 3 1 0x603 (.enum 6), fld 4 4 0x604 (.range 10000 10000000), fld 8 4 0x605 (.range 100000 10000000),
   fld 12 2 0x606 (.range 1 4000), fld 14 1 0x607 (.bits 3), fld 15 1 0x60A (.index 63)]

/-- METER of the site (R219, R62). -/
def siteFields : List FieldSpec :=
  [fld 0 1 0x600 (.enum 1), fld 1 1 0x601 (.oneOf 50 60), fld 2 1 0x602 (.index 3), fld 3 1 0x603 (.enum 6),
   fld 4 4 0x604 (.range 10000 10000000),
   fld 8 4 0x605 (.range 100000 10000000), fld 12 2 0x606 (.range 1 4000), fld 14 1 0x607 (.bits 3),
   ⟨15, 1, 0x60A, fun _ => .range 255 255⟩, fld 16 4 0x608 (.range 0 20000000), fld 20 4 0x609 (.range 0 20000000)]

/-- The header of a TARIFF record (R250). The change dates are not interpreted while dst_shift is 0. -/
def tariffFields (pay : List Byte) : List FieldSpec :=
  [fld 0 2 0x700 (.srange 16 (-720) 840), fld 2 1 0x701 (.range 1 16), fld 3 1 0x702 (.range 1 4),
   fld 4 2 0x703 (.range 0 256), fld 6 1 0x704 (.range 0 120)] ++
  (if getF pay 6 1 = 0 then [] else
    [fld 8 1 0x705 (.range 1 12), fld 9 1 0x705 (.range 1 5), fld 10 1 0x705 (.range 0 6),
     fld 12 1 0x705 (.range 1 12), fld 13 1 0x705 (.range 1 5), fld 14 1 0x705 (.range 0 6),
     fld 16 2 0x705 (.range 0 1439)])

/-- The seasons and special days of a TARIFF record (R250): a profile number beyond P becomes profile 0. -/
def tariffDayFields (pay : List Byte) : List FieldSpec :=
  let p := getF pay 2 1
  let s := getF pay 3 1
  let x := getF pay 4 2
  ((List.range s).flatMap fun k =>
    let o := 20 + 96 * p + 12 * k
    [fld o 1 0x708 (.range 1 12), fld (o + 1) 1 0x708 (.range 1 31)] ++
    (List.range 7).map fun d => fld (o + 2 + d) 1 0x708 (.enum (p - 1))) ++
  ((List.range x).flatMap fun k =>
    let o := 20 + 96 * p + 12 * s + 4 * k
    [fld (o + 1) 1 0x709 (.range 1 12), fld (o + 2) 1 0x709 (.range 1 31), fld (o + 3) 1 0x709 (.enum (p - 1))])

/-- CAN (R351). The bit rates are brought into range after the segments. -/
def canFields : List FieldSpec :=
  [fld 0 1 0x800 (.enum 2), fld 1 1 0x801 (.range 0 128), fld 2 2 0x802 (.range 1 512), fld 4 2 0x803 (.range 2 256),
   fld 6 1 0x804 (.range 1 128), ⟨7, 1, 0x805, fun p => .range 1 (getF p 6 1)⟩, fld 8 1 0x806 (.range 1 32),
   fld 9 1 0x807 (.range 1 32), fld 10 1 0x808 (.range 1 16), ⟨11, 1, 0x809, fun p => .range 1 (getF p 10 1)⟩,
   fld 12 1 0x80A (.range 0 127), fld 13 1 0x80B (.bits 7),
   ⟨2, 2, 0x802, fun p => let q := 1 + getF p 4 2 + getF p 6 1; .range ((79 + q) / q) 512⟩,
   ⟨8, 1, 0x806, fun p => let q := 1 + getF p 9 1 + getF p 10 1; .range ((9 + q) / q) 32⟩,
   ⟨16, 4, 0x80C, fun p =>
     if getF p 16 4 / 2 ^ 31 = 1 then .range 0 0xFFFFFFFF else .range 0 0x7FF⟩,
   fld 24 1 0x80E (.index 15), fld 25 1 0x80F (.range 30 90)]

/-- AUX of a high-side switch (R336, R337). -/
def auxFields : List FieldSpec :=
  [fld 0 1 0x900 (.enum 6), ⟨1, 1, 0x901, fun p => .index (if getF p 0 1 = 6 then 7 else 31)⟩, fld 2 1 0x902 (.enum 5),
   fld 3 1 0x903 (.zeroOr 10 95), fld 4 2 0x904 (.range 10 100), fld 6 1 0x905 (.enum 5), fld 7 1 0x906 (.range 2 20),
   fld 8 1 0x907 (.index 15), fld 10 2 0x908 (.range 1 65535)]

/-- AUX of a low-side switch: only class and ol_mode are interpreted (R336). -/
def auxLsFields : List FieldSpec :=
  [fld 0 1 0x900 (.range 0 0), fld 1 1 0x901 (.range 0 0), fld 2 1 0x902 (.enum 5), fld 3 1 0x903 (.range 0 0),
   fld 4 2 0x904 (.range 0 0), fld 6 1 0x905 (.enum 5), fld 7 1 0x906 (.range 0 0), fld 8 1 0x907 (.range 0 0),
   fld 10 2 0x908 (.range 0 0)]

/-- The default plan of the landing memory (R407): kind, next, base, size in granules. -/
def defaultPlan : List (Nat × Nat × Nat × Nat) :=
  [(3, 255, 0, 32), (3, 255, 32, 16), (2, 255, 48, 16), (3, 255, 64, 64), (2, 255, 128, 64), (2, 255, 192, 128),
   (2, 255, 320, 32), (3, 255, 352, 16), (2, 10, 368, 208), (3, 255, 576, 256), (2, 255, 832, 176)]

/-- FIFO (R410, R411). -/
def fifoFields (q : Nat) : List FieldSpec :=
  match defaultPlan[q]? with
  | some (k, nx, b, sz) =>
    [fld 0 1 0xA00 (.range k k), fld 1 1 0xA01 (.range 0 0), fld 2 1 0xA02 (.range nx nx), fld 3 1 0xA03 (.range 0 0),
     fld 4 2 0xA04 (.range b b), fld 6 2 0xA05 (if q = 5 then .range 0 128 else .range sz sz), fld 8 1 0xA06 (.range 0 0)]
  | none =>
    [fld 0 1 0xA00 (.range 3 3), fld 1 1 0xA01 (.range 5 5), fld 2 1 0xA02 (.range 255 255), fld 3 1 0xA03 (.enum 1),
     fld 4 2 0xA04 (.range 0 1023), fld 6 2 0xA05 (.range 1 1024), fld 8 1 0xA06 (.range 0 15)]

/-- The number of local event codes of each rank (R442). -/
def rankCodes : List Nat := [17, 5, 16, 12, 7, 9, 13, 7, 10, 12, 9, 10, 7, 10, 10, 9]

/-- A tally code that R442 defines. -/
def tallyCodeOk (c : Nat) : Bool :=
  c / 512 = 0 && (c % 32 = 31 || c % 32 ≤ rankCodes.getD (c / 32) 0)

/-- TALLY (R442). -/
def tallyFields : List FieldSpec :=
  [⟨0, 2, 0xB00, fun p => if tallyCodeOk (getF p 0 2) then .range 0 65535 else .enum 0⟩, fld 3 1 0xB02 (.enum 1)]

/-- PIN (R470, R64): bytes 1 to 7 count for the GLIM balls only. -/
def pinFields (q : Nat) : List FieldSpec :=
  if q ≤ 1 then
    [fld 1 1 0xC01 (.enum 4),
     ⟨1, 1, 0xC01, fun p => let m := getF p 1 1
       if (q = 0 ∧ (m = 3 ∨ m = 4)) ∨ (q = 1 ∧ (m = 1 ∨ m = 2)) then .enum 0 else .enum 4⟩,
     fld 2 2 0xC02 (.range 100 10000), fld 4 4 0xC03 (.range 0 20000000)]
  else []

/-- SAFETY (R329). -/
def safetyFields : List FieldSpec :=
  ((List.range 8).map fun z => ⟨2 * z, 2, 0xD00, fun p => let v := getF p (2 * z) 2; .range (v % 4096) (v % 4096)⟩) ++
  ((List.range 8).map fun b => fld (16 + b) 1 0xD01 (.index 7)) ++
  [fld 24 1 0xD02 (.range 1 24), fld 25 1 0xD03 (.range 1 50), fld 26 1 0xD04 (.range 1 9), fld 27 1 0xD05 (.range 5 100),
   fld 28 2 0xD06 (.range 0 1000), fld 30 2 0xD07 (.range 100 2000), fld 32 1 0xD08 (.enum 1), fld 33 1 0xD09 (.range 2 50)]

/-- TANDEM (R279). -/
def tandemFields : List FieldSpec :=
  [fld 0 1 0xE00 (.enum 1), fld 1 1 0xE01 (.enum 2), fld 2 1 0xE02 (.enum 2), fld 3 1 0xE03 (.bits 7),
   fld 4 1 0xE04 (.index 7), fld 6 2 0xE05 (.range 10 1000), fld 12 2 0xE07 (.range 100 2000)]

/-- The fields of a record (R36), in payload order. -/
def fieldsOf (r : Rec) : List FieldSpec :=
  match r.typ with
  | 1 => channelFields
  | 2 => [fld 0 1 0x200 (.range 10 100), fld 1 1 0x201 (.enum 1)]
  | 3 => [fld 0 1 0x300 (.index 31), fld 1 1 0x301 (.index 3), fld 2 1 0x302 (.range 5 50)]
  | 4 => outletFields
  | 5 => loopFields r.pay
  | 6 => if r.num = 32 then siteFields else meterFields
  | 7 => tariffFields r.pay
  | 8 => canFields
  | 9 => if r.num < 48 then auxFields else auxLsFields
  | 10 => fifoFields r.num
  | 11 => tallyFields
  | 12 => pinFields r.num
  | 13 => safetyFields
  | 14 => tandemFields
  | _ => []

/-- The reserved bytes of a payload with their masks (R485). -/
def reservedOf (r : Rec) : List (Nat × Nat) :=
  let all (l : List Nat) := l.map fun o => (o, 255)
  let span (a b : Nat) := (List.range (b - a)).map (a + ·)
  match r.typ with
  | 1 => all ([3] ++ span 25 32)
  | 2 => all (span 2 8)
  | 3 => all (span 3 8)
  | 4 => all ([58, 65, 66, 77, 78] ++ span 79 96)
  | 5 => all ([1] ++ (List.range (getF r.pay 0 1)).flatMap fun s => [16 + 40 * s + 3] ++ span (16 + 40 * s + 36) (16 + 40 * s + 40))
  | 6 => if r.num = 32 then [] else all (span 16 24)
  | 7 =>
    let p := getF r.pay 2 1
    all ([7, 18, 19] ++ (if getF r.pay 6 1 = 0 then [] else [11, 15]) ++
      ((List.range p).flatMap fun k => (List.range 24).map fun i => 20 + 96 * k + 4 * i + 3) ++
      ((List.range (getF r.pay 3 1)).flatMap fun k => span (20 + 96 * p + 12 * k + 9) (20 + 96 * p + 12 * k + 12)))
  | 8 => all [14, 15] ++ [(19, 0x60)] ++ all (span 26 32) ++
      ((List.range (getF r.pay 1 1)).filterMap fun k =>
        if getF r.pay (32 + 8 * k + 4) 1 = 0 then none else some (32 + 8 * k + 7, 0xE0))
  | 9 => all ([9] ++ span 12 16)
  | 10 => all (span 9 16)
  | 12 => [(0, 0x80)]
  | 13 => all (span 34 64)
  | 14 => all ([5] ++ span 14 32)
  | _ => []

/-- The working set of the passes: the records, the report so far (newest last) and the lost claims. -/
structure Passes where
  recs : List Rec := []
  ents : List ClampEntry := []

/-- One field clamp of pass 1. -/
def clampField (r : Rec) (f : FieldSpec) : Rec × List ClampEntry :=
  let v := getF r.pay f.off f.size
  let a := (f.rule r.pay).app v
  if a = v ∨ r.pay.length < f.off + f.size then (r, [])
  else ({ r with pay := setF r.pay f.off f.size a }, [{ off := r.off, id := f.id, amend := r.amend, given := v, applied := a }])

/-- The field clamps of a record, in order. -/
def clampFields : Rec → List FieldSpec → Rec × List ClampEntry
  | r, [] => (r, [])
  | r, f :: fs =>
    let (r1, e1) := clampField r f
    let (r2, e2) := clampFields r1 fs
    (r2, e1 ++ e2)

/-- A clamp entry for a part of a field. -/
def entOf (r : Rec) (id given applied : Nat) (flags : Nat := 0) (off : Nat := r.off) : ClampEntry :=
  { off := off, id := id, flags := flags, amend := r.amend, given := given, applied := applied }

/-- Reserved bytes are cleared with one entry per record, which names the first of them (R485). -/
def clearReserved (r : Rec) : Rec × List ClampEntry :=
  let bad := (reservedOf r).filter fun (o, m) => getF r.pay o 1 &&& m ≠ 0
  match bad with
  | [] => (r, [])
  | (o, _) :: rest =>
    let o := rest.foldl (fun a (o, _) => min a o) o
    ({ r with pay := bad.foldl (fun p (o, m) => setF p o 1 (getF p o 1 &&& (255 ^^^ m))) r.pay },
     [entOf r (r.typ % 256 * 256 + 0xFF) o 0])

/-- The stability condition of the cable observer (R199): nodes conductor, coolant, jacket, each lowering its own
conductances in the order g_cw, g_wj, g_ja. -/
def stableCable (r : Rec) : Rec × List ClampEntry :=
  let cc := getF r.pay 23 2
  let cw := getF r.pay 25 2
  let cj := getF r.pay 27 2
  let g1 := getF r.pay 29 2
  let g2 := getF r.pay 31 2
  let g3 := getF r.pay 33 2
  let a1 := min g1 (12800 * cc)
  let b1 := min a1 (12800 * cw - g2)
  let b2 := min g2 (12800 * cw - b1)
  let c2 := min b2 (12800 * cj - g3)
  let c3 := min g3 (12800 * cj - c2)
  let e (id g a : Nat) := if g = a then [] else [entOf r id g a]
  ({ r with pay := setF (setF (setF r.pay 29 2 b1) 31 2 c2) 33 2 c3 },
   e 0x425 g1 b1 ++ e 0x426 g2 c2 ++ e 0x427 g3 c3)

/-- The points of a day profile (R250): the list ends at minute FFFFh or at a minute not above the one before. -/
def profilePoints (r : Rec) (base : Nat) : Nat → Nat → Option Nat → List Byte → List Byte × List ClampEntry
  | 0, _, _, pay => (pay, [])
  | k + 1, i, prev, pay =>
    let o := base + 4 * i
    let m := getF pay o 2
    let t := getF pay (o + 2) 1
    if i ≠ 0 ∧ m = 0xFFFF then (pay, [])
    else if i ≠ 0 ∧ (m > 1439 ∨ prev.any (m ≤ ·)) then (setF pay o 2 0xFFFF, [entOf r 0x706 m 0xFFFF])
    else
      let e1 := if i = 0 ∧ m ≠ 0 then [entOf r 0x706 m 0] else []
      let m1 := if i = 0 then 0 else m
      let e2 := if t > 7 then [entOf r 0x706 t 7] else []
      let pay1 := setF (setF pay o 2 m1) (o + 2) 1 (min t 7)
      let (p2, e3) := profilePoints r base k (i + 1) (some m1) pay1
      (p2, e1 ++ e2 ++ e3)

/-- The body of a TARIFF record: surplus profiles, seasons and days are dropped, then the points are clamped. -/
def clampTariff (given : Rec) (r : Rec) : Rec × List ClampEntry :=
  let pg := getF given.pay 2 1
  let sg := getF given.pay 3 1
  let body := r.pay.drop 20
  let profs := (body.take (96 * pg)).take (96 * getF r.pay 2 1)
  let seas := ((body.drop (96 * pg)).take (12 * sg)).take (12 * getF r.pay 3 1)
  let spec := (body.drop (96 * pg + 12 * sg)).take (4 * getF r.pay 4 2)
  let r1 := { r with pay := r.pay.take 20 ++ profs ++ seas ++ spec }
  let (pay, es) := (List.range (getF r1.pay 2 1)).foldl (fun (p, e) k =>
    let (p1, e1) := profilePoints r1 (20 + 96 * k) 24 0 none p
    (p1, e ++ e1)) (r1.pay, [])
  let (r2, e2) := clampFields { r1 with pay := pay } (tariffDayFields pay)
  (r2, es ++ e2)

/-- The greatest number of a quantity of R355, none where the code is undefined. -/
def quantityMax (q : Nat) : Option Nat :=
  if q = 1 then some 0 else if 2 ≤ q ∧ q ≤ 7 then some 31 else if 8 ≤ q ∧ q ≤ 17 then some 7 else none

/-- One filter entry of a CAN record (R352, R355, R358). -/
def clampFilter (r : Rec) (k : Nat) : Rec × List ClampEntry :=
  let o := 32 + 8 * k
  let at_ := r.off + 6 + o
  let q := getF r.pay (o + 4) 1
  let w := getF r.pay o 4
  if q = 0 then (r, [])
  else match quantityMax q with
  | none => ({ r with pay := setF r.pay (o + 4) 4 0 }, [entOf r 0x810 q 0 0 at_])
  | some m =>
    let (r1, e1) :=
      if getF r.pay (o + 5) 1 % 64 > m ∧ w / 2 ^ 31 = 1 then
        ({ r with pay := setF r.pay o 4 (w % 2 ^ 31) }, [entOf r 0x810 1 0 0 at_])
      else (r, [])
    let b := getF r1.pay (o + 7) 1
    if q ≠ 16 ∧ b / 16 % 2 = 1 then
      ({ r1 with pay := setF r1.pay (o + 7) 1 (b - 16) }, e1 ++ [entOf r 0x810 1 0 0 at_])
    else (r1, e1)

/-- The cooling bits whose identifier would leave its form are cleared (R351). -/
def clampCool (r : Rec) : Rec × List ClampEntry :=
  let id := getF r.pay 16 4
  let top := if id / 2 ^ 31 = 1 then 0x1FFFFFFF else 0x7FF
  let m := getF r.pay 20 4
  let keep := (List.range 32).foldl (fun a n => if id % 2 ^ 29 + n ≤ top then a + 2 ^ n else a) 0
  if m &&& keep = m then (r, []) else ({ r with pay := setF r.pay 20 4 (m &&& keep) }, [entOf r 0x80D m (m &&& keep)])

/-- The two fields of byte 0 of a PIN record (R470). -/
def clampPin (r : Rec) : Rec × List ClampEntry :=
  let b := getF r.pay 0 1
  let f := b % 16
  let c := b / 16 % 8
  let f1 := if f ≤ 1 then f else 0
  let c1 := if c ≤ 5 then c else 0
  ({ r with pay := setF r.pay 0 1 (b / 128 * 128 + 16 * c1 + f1) },
   (if f = f1 then [] else [entOf r 0xC00 f f1]) ++ (if c = c1 then [] else [entOf r 0xC04 c c1]))

/-- Pass 1 of R41 on one record. The entry of its reserved bytes follows those of its fields. (DESIGN CHOICE, entry 83.) -/
def pass1 (r : Rec) : Rec × List ClampEntry :=
  let (r0, e0) := if r.typ = 12 then clampPin r else (r, [])
  let (r1, e1) := clampFields r0 (fieldsOf r0)
  let (r2, e2) :=
    match r.typ with
    | 4 => stableCable r1
    | 7 => clampTariff r r1
    | 8 =>
      let (a, ea) := clampCool r1
      (List.range (getF a.pay 1 1)).foldl (fun (p, e) k => let (p1, e1) := clampFilter p k; (p1, e ++ e1)) (a, ea)
    | _ => (r1, [])
  let (r3, e3) := clearReserved r2
  (r3, e0 ++ e1 ++ e2 ++ e3)

/-- Replace the record of a type and number. -/
def Passes.put (p : Passes) (r : Rec) (e : List ClampEntry) : Passes :=
  { recs := p.recs.map fun x => if x.typ = r.typ ∧ x.num = r.num then r else x, ents := p.ents ++ e }

/-- The record of a type and number. -/
def Passes.find (p : Passes) (typ num : Nat) : Option Rec := p.recs.find? fun x => x.typ = typ && x.num = num

/-- A field of the record of a type and number, with the value that an absent record has. -/
def Passes.get (p : Passes) (typ num off n dflt : Nat) : Nat :=
  match p.find typ num with
  | some r => getF r.pay off n
  | none => dflt

/-- Set a field of a record, with its entry. -/
def Passes.set (p : Passes) (r : Rec) (off n id v flags : Nat) : Passes :=
  match p.find r.typ r.num with
  | none => p
  | some x =>
    let g := getF x.pay off n
    if g = v then p else p.put { x with pay := setF x.pay off n v } [entOf x id g v flags]

/-- The records of a type, in the order of R41 (the map, then the amendments, each by offset). -/
def Passes.ofType (p : Passes) (t : Nat) : List Rec := p.recs.filter (·.typ = t)

/-- The count and dependency flag of R43. -/
def flCount : Nat := 8
/-- The seal flag. -/
def flSeal : Nat := 2
/-- The claim flag. -/
def flClaim : Nat := 4
/-- The held flag. -/
def flHeld : Nat := 16

/-- Pass 2: the first records keep what at most one may have, `key` giving it (none: nothing wanted). -/
def keepFirst (p : Passes) (rs : List Rec) (key : Rec → Option Nat) (drop : Passes → Rec → Passes) : Passes :=
  (rs.foldl (fun (q, seen) r =>
    match key r with
    | none => (q, seen)
    | some k => if k ∈ seen then (drop q r, seen) else (q, k :: seen)) (p, ([] : List Nat))).1

/-- Pass 2: at most sixteen power-line outlets (R41). -/
def pass2Links (p : Passes) : Passes :=
  ((p.ofType 4).foldl (fun (q, k) r =>
    if getF r.pay 1 1 = 2 then (if k < 16 then (q, k + 1) else (q.set r 1 1 0x401 0 flCount, k)) else (q, k)) (p, 0)).1

/-- Pass 2: routes only from OUTLET channels to enabled outlets, one per outlet and word of a channel, at most
max_channels per outlet, counted over the records that the other checks leave (R41, R484). (DESIGN CHOICE, entry 83.) -/
def pass2Routes (p : Passes) : Passes :=
  ((p.ofType 3).foldl (fun (q, seen) r =>
    let o := getF r.pay 0 1
    let w := getF r.pay 1 1
    let c := r.num / 4
    if o = 255 then (q, seen)
    else if q.get 1 c 0 1 0 ≠ 2 ∨ q.get 4 o 0 1 0 = 0 then (q.set r 0 1 0x300 255 flCount, seen)
    else if seen.any (fun (c1, o1, w1) => c1 = c && (o1 = o || (w1 = w && w ≠ 255))) then (q.set r 0 1 0x300 255 flCount, seen)
    else if (seen.filter fun (_, o1, _) => o1 = o).length ≥ min (q.get 4 o 14 1 0) 32 then
      (q.set r 0 1 0x300 255 flCount, seen)
    else (q, (c, o, w) :: seen)) (p, ([] : List (Nat × Nat × Nat)))).1

/-- Pass 2: of two buses that name one outlet, the lower bus keeps its cooling frame (R351). -/
def pass2Cool (p : Passes) : Passes :=
  ((List.range 8).foldl (fun (q, taken) k =>
    match q.find 8 k with
    | none => (q, taken)
    | some r => let m := getF r.pay 20 4
      let keep := m - (m &&& taken)
      (q.set r 20 4 0x80D keep flCount, taken ||| m)) (p, 0)).1

/-- Pass 2 of R41. -/
def pass2 (p : Passes) : Passes :=
  let p := pass2Links p
  let p := keepFirst p (p.ofType 4) (fun r => if getF r.pay 3 1 = 255 then none else some (getF r.pay 3 1))
    (fun q r => q.set r 3 1 0x403 255 flCount)
  let p := keepFirst p ((p.ofType 1).filter fun r => getF r.pay 0 1 = 3)
    (fun r => if getF r.pay 2 1 = 255 then none else some (getF r.pay 2 1)) (fun q r => q.set r 2 1 0x102 255 flCount)
  let p := pass2Routes p
  let p := keepFirst p ((p.ofType 6).filter fun r => r.num < 32)
    (fun r => if getF r.pay 0 1 = 0 ∨ getF r.pay 1 1 = 255 then none else some (256 * getF r.pay 0 1 + getF r.pay 1 1))
    (fun q r => q.set r 1 1 0x601 255 flCount)
  let p := keepFirst p (p.ofType 9)
    (fun r => if getF r.pay 0 1 < 2 ∨ getF r.pay 1 1 = 255 then none else some (256 * getF r.pay 0 1 + getF r.pay 1 1))
    (fun q r => q.set r 0 1 0x900 0 flCount)
  pass2Cool p

/-- The stage kinds that act for a channel kind (R90): 1 FRONT, 2 OUTLET, 3 STORE. -/
def stageActs (chanKind stage : Nat) : Bool :=
  match stage with
  | 1 | 2 | 3 => chanKind = 2 || chanKind = 3
  | 4 => chanKind = 2
  | 5 | 6 => chanKind ≠ 0
  | 7 | 8 => chanKind = 1
  | _ => false

/-- An enabled filter entry that carries a quantity for a number (R97, R357). -/
def hasQuantity (r : Rec) (q num : Nat) (buf : Option Nat) : Bool :=
  (List.range (getF r.pay 1 1)).any fun k =>
    let o := 32 + 8 * k
    getF r.pay o 4 / 2 ^ 31 = 1 && getF r.pay (o + 4) 1 = q && getF r.pay (o + 5) 1 % 64 = num &&
      (match buf with | none => true | some b => getF r.pay (o + 7) 1 % 16 = 8 + b)

/-- Pass 3 on one channel (R41, R97, R110, R113). -/
def pass3Channel (p : Passes) (r : Rec) : Passes :=
  let kind := getF r.pay 0 1
  let clu := r.num / 8
  let n := p.get 2 clu 0 1 50
  let t := getF r.pay 1 1
  let first := match (p.ofType 1).find? (fun x => getF x.pay 1 1 = t) with
    | some x => p.get 2 (x.num / 8) 0 1 50
    | none => n
  let loopOk := match p.find 5 t with
    | some l => (List.range (getF l.pay 0 1)).any fun s => stageActs kind (getF l.pay (16 + 40 * s) 1)
    | none => false
  let routed := (List.range 4).any fun k => p.get 3 (4 * r.num + k) 0 1 255 ≠ 255
  let pack := getF r.pay 2 1
  let packOk := pack ≠ 255 && (p.ofType 8).any fun c => hasQuantity c 17 pack none
  if kind ≠ 0 ∧ (p.get 2 clu 1 1 0 = 0 ∨ getF r.pay 8 2 = 0 ∨ (kind = 2 ∧ !routed) ∨ !loopOk ∨ first ≠ n ∨ (kind = 3 ∧ !packOk))
  then p.set r 0 1 0x100 0 flCount else p

/-- The loop template names keep the n of the first CHANNEL record that names them (R113), read before any channel
of this pass is taken out. -/
def pass3Channels (p : Passes) : Passes :=
  (p.ofType 1).foldl (fun q r =>
    let before : Passes := { p with recs := p.recs.map fun x => if x.typ = 1 then x else (q.find x.typ x.num).getD x }
    let d := pass3Channel before r
    { recs := q.recs.map fun x => if x.typ = 1 ∧ x.num = r.num then (d.find 1 r.num).getD x else x,
      ents := q.ents ++ d.ents.drop before.ents.length }) p

/-- Pass 3 on the METER records and the sets that OUTLET records name (R220). -/
def pass3Meters (p0 : Passes) : Passes :=
  let p := (p0.ofType 6).foldl (fun q r =>
    let t := getF r.pay 1 1
    if r.num ≥ 32 ∨ t = 255 then q
    else if getF r.pay 0 1 = 1 ∧ p0.get 4 t 3 1 255 ≠ r.num then q.set r 1 1 0x601 255 flCount
    else if getF r.pay 0 1 = 2 ∧ p0.get 1 t 0 1 0 ≠ 3 then q.set r 1 1 0x601 255 flCount
    else q) p0
  let p1 := p
  (p1.ofType 4).foldl (fun q r =>
    let m := getF r.pay 3 1
    if m ≠ 255 ∧ ¬ (p1.get 6 m 0 1 0 = 1 ∧ p1.get 6 m 1 1 255 = r.num) then q.set r 3 1 0x403 255 flCount else q) p

/-- Pass 3 of R41. An outlet needs its link and its emergency-stop zone; sets are judged after the channels. (DESIGN CHOICE, entry 83.) -/
def pass3 (p : Passes) : Passes :=
  let p := (p.ofType 4).foldl (fun q r =>
    if getF r.pay 0 1 ≠ 0 ∧ (getF r.pay 1 1 = 0 ∨ getF r.pay 18 1 = 255) then q.set r 0 1 0x400 0 flCount else q) p
  let p := (p.ofType 3).foldl (fun q r =>
    let o := getF r.pay 0 1
    if o ≠ 255 ∧ (q.get 4 o 0 1 0 = 0 ∨ getF r.pay 1 1 = 255) then q.set r 0 1 0x300 255 flCount else q) p
  let p := pass3Meters (pass3Channels p)
  let p := (p.ofType 9).foldl (fun q r =>
    if getF r.pay 0 1 ≥ 2 ∧ getF r.pay 1 1 = 255 then q.set r 0 1 0x900 0 flCount else q) p
  let p := (p.ofType 14).foldl (fun q r =>
    let q := if getF r.pay 0 1 = 1 ∧ getF r.pay 2 1 = 0 then q.set r 0 1 0xE00 0 flCount else q
    if getF r.pay 4 1 ≠ 255 ∧ q.get 8 (getF r.pay 4 1) 0 1 0 ≠ 2 then q.set r 4 1 0xE04 255 flCount else q) p
  let p := (p.ofType 8).foldl (fun q r =>
    let m := getF r.pay 20 4
    let keep := (List.range 32).foldl (fun a n =>
      if m / 2 ^ n % 2 = 1 ∧ q.get 4 n 0 1 0 ≠ 0 ∧ q.get 4 n 55 1 0 % 4 = 3 then a + 2 ^ n else a) 0
    q.set r 20 4 0x80D keep flCount) p
  (p.ofType 6).foldl (fun q r =>
    let b := getF r.pay 15 1
    if r.num ≥ 32 ∨ b = 255 then q
    else
      let pack := if getF r.pay 0 1 = 2 then q.get 1 (getF r.pay 1 1) 2 1 255 else 255
      let ok := pack ≠ 255 && (match q.find 8 (b / 8) with | some c => hasQuantity c 11 pack (some (b % 8)) | none => false)
      if ok then q else q.set r 15 1 0x60A 255 flCount) p

/-- The sealed brake-test interval in hours (R322). -/
def sealHours (code : Nat) : Nat := [1, 2, 3, 4, 5, 6, 7, 8, 10, 12, 14, 16, 18, 20, 22, 24].getD code 1

/-- Pass 4 of R41: the sealed-switch ceiling (R44). (DESIGN CHOICE, entry 83.) -/
def pass4 (p : Passes) (sw : BitVec 64) : Passes :=
  let cls := field sw.toNat 48 4
  let top := if cls > 12 then 0 else cls * 8000
  let p := (p.ofType 4).foldl (fun q r =>
    let b := getF r.pay 17 1
    let q := if getF r.pay 0 1 ≠ 0 ∧ (sw.getLsbD r.num = false ∨ (b ≠ 255 ∧ sw.getLsbD (32 + b) = false) ∨
      sw.getLsbD (40 + getF r.pay 18 1) = false) then q.set r 0 1 0x400 0 flSeal else q
    let q := if getF r.pay 6 4 > top then q.set r 6 4 0x405 top flSeal else q
    if top = 0 then q.set r 0 1 0x400 0 flSeal else q) p
  let h := sealHours (field sw.toNat 52 4)
  (p.ofType 13).foldl (fun q r => if getF r.pay 24 1 > h then q.set r 24 1 0xD02 h flSeal else q) p

/-- A resource of R47. -/
inductive Res where
  | glim | pulse (k : Nat) | timer (t : Nat) | hpBuf (can buf : Nat) | granules (base size : Nat)
  deriving DecidableEq, Repr

/-- Two claims that cannot both stand. -/
def Res.clash : Res → Res → Bool
  | .granules b s, .granules b2 s2 => b < b2 + s2 && b2 < b + s
  | a, b => a = b

/-- A claim (R47): the record, the field that falls to none when it is lost, and its rank under R48. -/
structure Claim where
  amend : Nat
  rank : Nat
  off : Nat
  src : Rec
  res : Res
  id : Nat

/-- The settling order of a class code (R48): safety to diagnostics, then none. -/
def classRank (c : Nat) : Nat := if c = 0 then 6 else c

/-- The claims of one record. -/
def claimsOf (r : Rec) : List Claim :=
  let mk (rank off : Nat) (res : Res) (id : Nat) : Claim := ⟨r.amend, rank, off, r, res, id⟩
  match r.typ with
  | 6 => if getF r.pay 0 1 ≠ 0 ∧ getF r.pay 2 1 ≠ 255 then [mk 2 r.off (.pulse (getF r.pay 2 1)) 0x602] else []
  | 8 =>
    (if getF r.pay 24 1 ≠ 255 then [mk 4 r.off (.timer (getF r.pay 24 1)) 0x80E] else []) ++
    ((List.range (getF r.pay 1 1)).filterMap fun k =>
      let o := 32 + 8 * k
      if getF r.pay o 4 / 2 ^ 31 = 1 ∧ getF r.pay (o + 4) 1 ≠ 0 ∧ getF r.pay (o + 7) 1 / 8 % 2 = 1 then
        some (mk 4 (r.off + 6 + o) (.hpBuf r.num (getF r.pay (o + 7) 1 % 8)) 0x810) else none)
  | 9 => if r.num < 48 ∧ getF r.pay 8 1 ≠ 255 then [mk (classRank (getF r.pay 2 1)) r.off (.timer (getF r.pay 8 1)) 0x907] else []
  | 10 => if r.num > 10 ∧ getF r.pay 0 1 ≠ 0 then
      [mk (classRank (getF r.pay 1 1)) r.off (.granules (getF r.pay 4 2) (getF r.pay 6 2)) 0xA00] else []
  | 12 => if r.num ≤ 1 ∧ getF r.pay 0 1 % 16 = 1 ∧ getF r.pay 1 1 ≠ 0 then
      [mk (classRank (getF r.pay 0 1 / 16 % 8)) r.off .glim 0xC00] else []
  | _ => []

/-- A lost claim: the field goes to none, and the function that needed it is disabled (R48, R49, R351). -/
def loseClaim (p : Passes) (c : Claim) (flags : Nat) : Passes :=
  match c.id with
  | 0x602 => p.set c.src 2 1 0x602 255 flags
  | 0x80E => (p.set c.src 24 1 0x80E 255 flags).set c.src 20 4 0x80D 0 flags
  | 0x810 =>
    match p.find 8 c.src.num with
    | none => p
    | some x =>
      let o := c.off - c.src.off - 6
      let b := getF x.pay (o + 7) 1
      p.put { x with pay := setF x.pay (o + 7) 1 (b - b / 8 % 2 * 8) } [entOf x 0x810 1 0 flags c.off]
  | 0x907 => p.set c.src 8 1 0x907 255 flags
  | 0xA00 => p.set c.src 0 1 0xA00 0 flags
  | 0xC00 =>
    match p.find 12 c.src.num with
    | none => p
    | some x => let b := getF x.pay 0 1
      p.put { x with pay := setF x.pay 0 1 (b - b % 16) } [entOf x 0xC00 (b % 16) 0 flags]
  | _ => p

/-- Insert into a list that rises under a key. -/
def insertBy {α : Type} (le : α → α → Bool) (a : α) : List α → List α
  | [] => [a]
  | b :: bs => if le b a then b :: insertBy le a bs else a :: b :: bs

/-- Stable insertion sort. -/
def sortBy {α : Type} (le : α → α → Bool) (l : List α) : List α := l.foldl (fun acc a => insertBy le a acc) []

/-- The settling order of claims: the map before its amendments (R49), then class, then offset (R48). -/
def Claim.le (a b : Claim) : Bool :=
  a.amend < b.amend || (a.amend = b.amend && (a.rank < b.rank || (a.rank = b.rank && a.off ≤ b.off)))

/-- What pass 5 works on: the records, the claims lost so far (amendment, offset, field), the resources granted with the
amendment that holds each, and the timers of pulse outputs with the amendment of their record. -/
structure Settle where
  p : Passes
  lost : List (Nat × Nat × Nat) := []
  own : List (Nat × Res) := []
  pulse : Vector (Option (Nat × Fin 16)) 33 := Vector.replicate 33 none

/-- One claim of pass 5 (R48, R49): a claim lost before is not granted later and makes no second entry. -/
def Settle.claim (x : Settle) (c : Claim) : Settle :=
  if (c.amend, c.off, c.id) ∈ x.lost then { x with p := { loseClaim x.p c flClaim with ents := x.p.ents } }
  else
    let out := match c.res with | .granules b s => decide (b + s > 1024) | _ => false
    match x.own.find? fun (_, r) => r.clash c.res with
    | some (a, _) => { x with p := loseClaim x.p c (if a < c.amend then flHeld else flClaim), lost := (c.amend, c.off, c.id) :: x.lost }
    | none =>
      if out then { x with p := loseClaim x.p c flClaim, lost := (c.amend, c.off, c.id) :: x.lost }
      else { x with own := x.own ++ [(c.amend, c.res)] }

/-- The timer of a granted pulse output (R220): the one that it took before, else the lowest that no claim holds. -/
def Settle.pulseTimer (kept : Vector (Option (Nat × Fin 16)) 33) (x : Settle) (r : Rec) : Settle :=
  if h : r.num < 33 then
    if getF r.pay 0 1 ≠ 0 ∧ x.p.get 6 r.num 2 1 255 ≠ 255 then
      let free (t : Fin 16) : Bool := !x.own.any fun (_, q) => q = .timer t.val
      let before := match kept[r.num] with | some (a, t) => if a = r.amend && free t then some t else none | none => none
      match before.orElse fun _ => (List.finRange 16).find? free with
      | some t => { x with own := x.own ++ [(r.amend, .timer t.val)], pulse := x.pulse.set r.num (some (r.amend, t)) h }
      | none => { x with p := x.p.set r 2 1 0x602 255 flClaim, lost := (r.amend, r.off, 0x602) :: x.lost }
    else x
  else x

/-- Pass 5 of R41: the claims of the map, then those of each amendment in turn (R49); the pulse outputs of each follow its
named claims (R220). `lost` lists the claims lost before, `kept` the timers of running pulse outputs. -/
def pass5 (p : Passes) (lost : List (Nat × Nat × Nat)) (kept : Vector (Option (Nat × Fin 16)) 33) : Settle :=
  let f5 := p.get 10 5 6 2 128
  let plan := (List.range 11).filterMap fun q =>
    match defaultPlan[q]? with
    | some (_, _, b, sz) => some (0, Res.granules b (if q = 5 then f5 else sz))
    | none => none
  let claims := sortBy Claim.le (p.recs.flatMap claimsOf)
  let step (x : Settle) (g : Nat) : Settle :=
    let x := (claims.filter (·.amend = g)).foldl Settle.claim x
    (sortBy (fun (a b : Rec) => decide (a.off ≤ b.off)) ((p.ofType 6).filter (·.amend = g))).foldl (Settle.pulseTimer kept) x
  (List.range (p.recs.foldl (fun m r => max m r.amend) 0 + 1)).foldl step { p := p, lost := lost, own := plan }

/-! ### Structural checks (R40, R50) -/

/-- The legal payload length of a record type (R36). -/
def payLenOk (typ : Nat) (pay : List Byte) : Bool :=
  let n := pay.length
  match typ with
  | 1 => n = 32
  | 2 => n = 8
  | 3 => n = 8
  | 4 => n = 96
  | 5 => 56 ≤ n && n ≤ 336 && n = 16 + 40 * getF pay 0 1
  | 6 => n = 24
  | 7 => 128 ≤ n && n ≤ 2628 && n = 20 + 96 * getF pay 2 1 + 12 * getF pay 3 1 + 4 * getF pay 4 2
  | 8 => 32 ≤ n && n ≤ 1056 && n = 32 + 8 * getF pay 1 1
  | 9 => n = 16
  | 10 => n = 16
  | 11 => n = 4
  | 12 => n = 8
  | 13 => n = 64
  | 14 => n = 32
  | _ => false

/-- The highest number of a record type (R36). -/
def numMax (typ : Nat) : Nat := [0, 95, 11, 383, 31, 31, 32, 3, 7, 87, 63, 191, 255, 0, 0].getD typ 0

/-- Walk the records from an offset up to the signature (R35, R40 order 10). An error gives its reason and offset. -/
def walkRecs (img : List Byte) (stop : Nat) : Nat → Nat → List Rec → Except (Nat × Nat) (List Rec)
  | 0, _, acc => .ok acc
  | k + 1, off, acc =>
    if off ≥ stop then .ok acc
    else
      let typ := getF img off 2
      let len := getF img (off + 2) 2
      let num := getF img (off + 4) 2
      let pad := (4 - (6 + len) % 4) % 4
      let pay := (img.drop (off + 6)).take len
      if typ = 0 ∨ typ > 14 then .error (8, off)
      else if off + 6 + len + pad > stop ∨ payLenOk typ pay = false ∨ getF img (off + 6 + len) pad ≠ 0 then .error (9, off)
      else if acc.any (fun r => r.typ = typ && r.num = num) then .error (10, off)
      else walkRecs img stop k (off + 6 + len + pad) (acc ++ [{ off := off, typ := typ, num := num, pay := pay }])

/-- The byte string that the hash and the signature cover (R34). -/
def signedPart (img : List Byte) : List Byte :=
  img.take 96 ++ (img.take (img.length - 96)).drop 144

/-- Big-endian bytes of a 384-bit value, as a hash field stores it. -/
def hashBytes (h : BitVec 384) : List Byte := (List.range 48).map fun i => h.extractLsb' (8 * (47 - i)) 8

/-- The first byte that is not zero in a span. -/
def firstNonZero (img : List Byte) (a b : Nat) : Option Nat :=
  ((List.range (b - a)).map (a + ·)).find? fun o => getF img o 1 ≠ 0

/-- The header byte in error of check order 5 (R40): image_kind, then the fields that a full map holds at zero, then
the reserved bytes. -/
def headerFault (img : List Byte) (amendment : Bool) : Option Nat :=
  if getF img 6 2 ≠ (if amendment then 1 else 0) then some 6
  else if amendment then firstNonZero img 92 96
  else firstNonZero img 32 96

/-- The structural checks of R40 in their order. `serial` is the own serial in 10 bytes, `key` the enrolled
verification key (R379). (DESIGN CHOICE, entry 84.) -/
def checkImage (img : List Byte) (readFail : Option Nat) (amendment : Bool) (serial : List Byte)
    (key : Option (List Byte)) : Except (Nat × Nat) (List Rec) :=
  let ones : List Byte := List.replicate 10 0xFF
  let t0 := (img.drop 12).take 10
  let t1 := (img.drop 22).take 10
  match readFail with
  | some o => .error (1, o)
  | none =>
    if img.take 4 ≠ [0x53, 0x4D, 0x41, 0x50] then .error (2, 0)
    else if getF img 4 2 ≠ 1 then .error (3, 4)
    else if getF img 8 4 > 1048576 ∨ getF img 8 4 ≠ img.length ∨ img.length < 240 then .error (4, 8)
    else match headerFault img amendment with
    | some o => .error (11, o)
    | none =>
      if t0 ≠ serial ∧ t1 ≠ serial ∧ t0 ≠ ones ∧ t1 ≠ ones then .error (5, 12)
      else match key with
      | none => .error (12, 0)
      | some k =>
        if (img.drop 96).take 48 ≠ hashBytes (Config.sha384 (signedPart img)) then .error (6, 96)
        else if Config.ecdsaVerify k (signedPart img) (img.drop (img.length - 96)) = false then .error (7, img.length - 96)
        else walkRecs img (img.length - 96) (img.length - 96) 144 []

/-- Records whose number is beyond the range of the type are left out, each with a count entry (R40): field index 0, the
number as given, FFFFh as applied. (DESIGN CHOICE, entry 83.) -/
def dropRange (rs : List Rec) : List Rec × List ClampEntry :=
  (rs.filter fun r => (if r.typ = 12 then decide (r.num ≤ 24) else decide (r.num ≤ numMax r.typ)),
   rs.filterMap fun r =>
     if (if r.typ = 12 then decide (r.num ≤ 24) else decide (r.num ≤ numMax r.typ)) then none
     else some (entOf r (r.typ % 256 * 256) r.num 0xFFFF flCount))

/-- Pass 1 over a list of records in offset order. -/
def pass1All : List Rec → List Rec × List ClampEntry
  | [] => ([], [])
  | r :: rs =>
    let (r1, e1) := pass1 r
    let (rs1, e2) := pass1All rs
    (r1 :: rs1, e1 ++ e2)

/-! ### Decoding of the payloads -/

/-- An index field whose all-ones code means none. -/
def optFin (n v : Nat) : Option (Fin n) := if h : v < n then some ⟨v, h⟩ else none

def decChan (p : List Byte) : ChanCfg :=
  { kind := getF p 0 1, loopT := getF p 1 1, pack := optFin 8 (getF p 2 1), rated := getF p 4 4, iLim := getF p 8 2,
    vLim := getF p 10 2, swPer := getF p 12 4, slew := getF p 16 2, wdRamp := getF p 18 2, tLim := getF p 20 2,
    derate := getF p 22 2, spread := getF p 24 1 }

def decCable (p : List Byte) : CableCfg :=
  let u (o : Nat) := getF p (19 + o) 2
  { r0 := u 0, alpha := u 2, cc := u 4, cw := u 6, cj := u 8, gcw := u 10, gwj := u 12, gja := u 14, cpFlow := u 16,
    tLimit := u 18, tCoolSp := u 20, tInWorst := signed 16 (u 22), tAmb := signed 16 (u 24), flowWorst := u 26,
    kh := u 28, hrDecay := u 30, pinOffset := u 32, resLimit := getF p 53 1, kObs := getF p 54 1, sensors := getF p 55 1,
    pumpMin := getF p 56 1, fanMin := getF p 57 1, kpCool := u 40, kiCool := u 42, kff := u 44 }

def decOut (p : List Byte) : OutCfg :=
  { conn := getF p 0 1, link := getF p 1 1, prio := getF p 2 1, met := optFin 32 (getF p 3 1), vCeil := getF p 4 2,
    iCeil := getF p 6 4, pCeil := getF p 10 4, maxCh := getF p 14 1, unbilled := getF p 15 1 = 1, mast := getF p 16 1 = 1,
    brake := optFin 8 (getF p 17 1), zone := (optFin 8 (getF p 18 1)).getD 0, cable := decCable p,
    thr := (List.range 5).map fun k => getF p (67 + k) 1, tNeg := signed 8 (getF p 72 1),
    ppMin := getF p 73 2, ppMax := getF p 75 2 }

def decStage (p : List Byte) (s : Nat) : StageCfg :=
  let o := 16 + 40 * s
  { kind := getF p o 1, dir := getF p (o + 1) 1, pol := getF p (o + 2) 1, aux := signed 32 (getF p (o + 4) 4),
    spSlew := getF p (o + 8) 4, invScale := getF p (o + 12) 4, kp := getF p (o + 16) 4, ki := getF p (o + 20) 4,
    kd := getF p (o + 24) 4, kt := getF p (o + 28) 4, kf := getF p (o + 32) 4 }

def decLoop (p : List Byte) : LoopCfg :=
  { present := true, umax := getF p 2 2, kp := getF p 4 4, ki := getF p 8 4, kt := getF p 12 4,
    stages := (List.range (getF p 0 1)).map (decStage p) }

def decMeter (p : List Byte) : MeterCfg :=
  { kind := getF p 0 1, target := if getF p 1 1 = 255 then none else some (getF p 1 1), pulse := optFin 4 (getF p 2 1),
    mode := getF p 3 1, shunt := getF p 4 4, divider := getF p 8 4, rated := getF p 12 2, tamper := getF p 14 1,
    bms := optFin 64 (getF p 15 1) }

def decSite (p : List Byte) : SiteCfg :=
  { present := true, kind := getF p 0 1, nominal := getF p 1 1, shunt := getF p 4 4, divider := getF p 8 4,
    pulse := optFin 4 (getF p 2 1), mode := getF p 3 1, rated := getF p 12 2, tamper := getF p 14 1, imp := getF p 16 4, exp := getF p 20 4 }

/-- The points of one day profile: minute and tariff, up to the end mark. -/
def decPoints (p : List Byte) (o : Nat) : Nat → List (Nat × Nat)
  | 0 => []
  | k + 1 => if getF p o 2 = 0xFFFF then [] else (getF p o 2, getF p (o + 2) 1) :: decPoints p (o + 4) k

def decTariff (p : List Byte) : TariffCfg :=
  let np := getF p 2 1
  let ns := getF p 3 1
  { present := true, utcOff := signed 16 (getF p 0 2), shift := getF p 6 1,
    dstStart := (getF p 8 1, getF p 9 1, getF p 10 1), dstEnd := (getF p 12 1, getF p 13 1, getF p 14 1),
    dstMinute := getF p 16 2,
    profiles := (List.range np).map fun k => decPoints p (20 + 96 * k) 24,
    seasons := (List.range ns).map fun k => let o := 20 + 96 * np + 12 * k
      { month := getF p o 1, day := getF p (o + 1) 1, prof := (List.range 7).map fun d => getF p (o + 2 + d) 1 },
    specials := (List.range (getF p 4 2)).map fun k => let o := 20 + 96 * np + 12 * ns + 4 * k
      (getF p o 1, getF p (o + 1) 1, getF p (o + 2) 1, getF p (o + 3) 1) }

def decFilt (p : List Byte) (k : Nat) : FiltCfg :=
  let o := 32 + 8 * k
  let w := getF p o 4
  let q := getF p (o + 4) 1
  let b7 := getF p (o + 7) 1
  { ident := BitVec.ofNat 29 w, ext := w / 2 ^ 29 % 2 = 1, copy := w / 2 ^ 30 % 2 = 1 || q = 0, enabled := w / 2 ^ 31 = 1,
    q := q, num := getF p (o + 5) 1 % 64, sub := getF p (o + 5) 1 / 64, start := getF p (o + 6) 1 % 64,
    buf := if q ≠ 0 ∧ b7 / 8 % 2 = 1 then optFin 8 (b7 % 8) else none, action := q ≠ 0 && b7 / 16 % 2 = 1,
    mask := BitVec.ofNat 29 (getF p (o + 4) 4) }

def decCan (p : List Byte) : CanCfg :=
  let fl := getF p 13 1
  { mode := getF p 0 1, nbrp := getF p 2 2, ntseg1 := getF p 4 2, ntseg2 := getF p 6 1, nsjw := getF p 7 1,
    dbrp := getF p 8 1, dtseg1 := getF p 9 1, dtseg2 := getF p 10 1, dsjw := getF p 11 1, tdcOff := getF p 12 1,
    fd := fl % 2 = 1, brs := fl / 2 % 2 = 1, tdc := fl / 4 % 2 = 1, coolId := getF p 16 4 % 2 ^ 29,
    coolExt := getF p 16 4 / 2 ^ 31 = 1, coolMask := BitVec.ofNat 32 (getF p 20 4),
    slotTimer := optFin 16 (getF p 24 1), slotOff := getF p 25 1,
    filters := (List.range (getF p 1 1)).map (decFilt p) }

def decAux (p : List Byte) : AuxCfg :=
  { use := getF p 0 1, target := if getF p 1 1 = 255 then none else some (getF p 1 1), cls := getF p 2 1,
    holdDuty := getF p 3 1, holdDelay := getF p 4 2, olMode := getF p 6 1, fineThr := getF p 7 1,
    timer := optFin 16 (getF p 8 1), pulseTime := getF p 10 2 }

def decFifo (p : List Byte) : FifoCfg :=
  { kind := getF p 0 1, cls := getF p 1 1, next := optFin 64 (getF p 2 1), hostWrite := getF p 3 1 = 1,
    base := getF p 4 2, size := getF p 6 2, irq := getF p 8 1 }

def decSafety (p : List Byte) : SafetyCfg :=
  { zoneClusters := Vector.ofFn fun z : Fin 8 => BitVec.ofNat 12 (getF p (2 * z.val) 2),
    brakeZone := Vector.ofFn fun b : Fin 8 => optFin 8 (getF p (16 + b.val) 1),
    interval := some (getF p 24 1), discTime := getF p 25 1, imdFilter := getF p 26 1, weldTime := getF p 27 1,
    brkThreshold := getF p 28 2, testTime := getF p 30 2, startMode := getF p 32 1 = 1, brakeIdle := getF p 33 1 }

def decTandem (p : List Byte) : TandemCfg :=
  { enable := getF p 0 1 = 1, pref := getF p 1 1, linkMode := getF p 2 1, opts := getF p 3 1, hbCan := optFin 8 (getF p 4 1),
    swapFrames := getF p 6 2, hbId := getF p 8 4 % 2 ^ 29, hbExt := getF p 8 4 / 2 ^ 31 = 1, joinWait := getF p 12 2 }

/-- The default FIFO plan (R407). -/
def defaultFifo (q : Fin 64) : FifoCfg :=
  match defaultPlan[q.val]? with
  | some (k, nx, b, s) => { kind := k, next := optFin 64 nx, base := b, size := s }
  | none => {}

/-- The minimal map (R46). -/
def minimalMap : SiteMap := { fifo := Vector.ofFn defaultFifo }

/-- The typed map of the records after all passes. -/
def decodeMap (rs : List Rec) : SiteMap :=
  let p : Passes := { recs := rs }
  let get {α : Type} (t : Nat) (num : Nat) (f : List Byte → α) (d : α) : α :=
    match p.find t num with | some r => f r.pay | none => d
  let out : Vector OutCfg 32 := Vector.ofFn fun n : Fin 32 => get 4 n.val decOut {}
  { ch := Vector.ofFn fun n : Fin 96 => get 1 n.val decChan {}
    clu := Vector.ofFn fun n : Fin 12 => get 2 n.val (fun q => { n := getF q 0 1, enable := getF q 1 1 = 1 }) {}
    route := Vector.ofFn fun n : Fin 96 => (List.range 4).filterMap fun k =>
      get 3 (4 * n.val + k) (fun q =>
        match optFin 32 (getF q 0 1) with
        | some o => if out[o].conn ≠ 0 ∧ getF q 1 1 ≤ 3 then some ⟨o, getF q 1 1, getF q 2 1⟩ else none
        | none => none) none
    out := out
    loop := Vector.ofFn fun n : Fin 32 => get 5 n.val decLoop {}
    met := Vector.ofFn fun n : Fin 32 => get 6 n.val decMeter {}
    site := get 6 32 decSite {}
    tariff := Vector.ofFn fun n : Fin 4 => get 7 n.val decTariff {}
    can := Vector.ofFn fun n : Fin 8 => get 8 n.val decCan {}
    aux := Vector.ofFn fun n : Fin 88 => get 9 n.val decAux {}
    fifo := Vector.ofFn fun n : Fin 64 =>
      let d := defaultFifo n
      if n.val ≤ 10 then { d with size := get 10 n.val (fun q => getF q 6 2) d.size } else get 10 n.val decFifo {}
    tally := Vector.ofFn fun n : Fin 192 => get 11 n.val (fun q => { code := getF q 0 2, num := getF q 2 1, frames := getF q 3 1 = 1 }) {}
    pin := Vector.ofFn fun n : Fin 25 => get 12 n.val
      (fun q => { fn := getF q 0 1 % 16, cls := getF q 0 1 / 16 % 8, glimMode := getF q 1 1, pulseFs := getF q 2 2, glimFs := getF q 4 4 })
      { fn := if n.val ≤ 1 then 0 else 1 }
    safety := get 13 0 decSafety {}
    tandem := get 14 0 decTandem {} }

end Sys2Proof.Machine
end

