-- ==== Sys2Proof/Machine/State.lean ====
section
/-! DEFINITION. The state of the SN9632 as plain data: the parts of Parts.lean with the queue of waiting commands, and the
state after reset. -/

namespace Sys2Proof.Machine

/-- Why a step can stop with a fault. No rule of the manual ends in one: the type has no constructor in use. (DESIGN CHOICE, entry 71.) -/
inductive Fault where
  /-- Raised by nobody. Safe. -/
  | none
  deriving DecidableEq, Repr

/-- Why a command has no meaning. -/
inductive Refusal where
  /-- Raised by a dispatch arm of a command that has no meaning yet. Safe: nothing is claimed of it. -/
  | notModelled (mnemonic : String)
  deriving DecidableEq, Repr

/-- The state of the package. (DESIGN CHOICE, entry 1.) -/
structure State where
  /-- The commands that wait, first in, first out. -/
  pending : List Instr := []
  /-- The counter of the free values (the model's own). -/
  freeIx : Nat := 0
  otp : Otp := {}
  isl : Isl := {}
  fn : Nat := 0
  live : Levels := {}
  cap : InputSet := {}
  lat : InputSet := {}
  arrived : List Item := []
  /-- Items that did not fit and stay in capture (R23). -/
  deferred : List Item := []
  evs : List Event := []
  mbx : List MbxEntry := []
  smp : Smp := {}
  map : SiteMap := {}
  flash : FlashMap := {}
  fl : FrameState := {}
  nx : FrameState := {}
  /-- The boundary snapshot S_F of the frame in progress (R486). -/
  snapS : Snap := {}
  alc : Alc := {}
  ctl : Ctl := {}
  /-- Status bits that the next boundary shows. -/
  late : Late := {}
  /-- The frame whose thermal step has run (R197). -/
  thermFn : Option Nat := none
  cclR : Vector CclReg 32 := Vector.replicate 32 {}
  /-- Weld notifications on their way to the firebreak (R160, R304), and the safety function of the last trip of an
  outlet (R168). -/
  fbkWeldNote : BitVec 32 := 0
  fbkTripFn : Vector Nat 32 := Vector.replicate 32 0
  osqR : Vector OsqReg 32 := Vector.replicate 32 {}
  vlk : Vector Vlk 32 := Vector.replicate 32 {}
  slac : List SlacRun := []
  met : Met := {}
  bilR : BilReg := {}
  hwd : Hwd := {}
  fwu : Fwu := {}
  tdm : Tdm := {}
  fbk : Fbk := {}
  aux : Aux := {}
  can : Vector Can 8 := Vector.replicate 8 {}
  hkp : Hkp := {}
  /-- The levels latched for the frame before, against which the journal forms its deltas (R418). -/
  jnlOld : Levels := {}
  lnd : Lnd := {}
  hst : Hst := {}
  deriving DecidableEq, Repr

/-- The package right after reset. -/
def State.reset : State := {}

end Sys2Proof.Machine
end

