-- ==== Sys2Proof/Machine/Ops.lean ====
section
/-! DEFINITION. The shared operations: outcomes, events and their status bits, rounding, check sums. -/

namespace Sys2Proof.Machine

/-- The answer of every command that has its effect. -/
abbrev Ans := Host.Outcome State Fault Refusal

/-- A command on a stopped island has no effect (R424, R434). (DESIGN CHOICE, entry 6.) -/
def whenOn (on : Bool) (s : State) (f : State → State) : Ans := .next (if on then f s else s)

/-- Set bit `b` of a status word. -/
def setBit {n : Nat} (w : BitVec n) (b : Nat) : BitVec n := w ||| BitVec.ofNat n (2 ^ b)

/-- Clear bit `b` of a word. -/
def clrBit {n : Nat} (w : BitVec n) (b : Nat) : BitVec n := w &&& ~~~ (BitVec.ofNat n (2 ^ b))

/-- Write bit `b` of a word. -/
def putBit {n : Nat} (w : BitVec n) (b : Nat) (v : Bool) : BitVec n := if v then setBit w b else clrBit w b

/-- Raise an event in the frame in progress (R29). (DESIGN CHOICE, entry 13.) -/
def raise (s : State) (e : Event) : State := { s with evs := s.evs ++ [e] }

/-- Raise an event when a condition holds. -/
def raiseIf (c : Bool) (e : Event) (s : State) : State := if c then raise s e else s

/-- Act on the instance that an index names, if there is one. -/
def withFin (n i : Nat) (f : Fin n → State) (s : State) : State :=
  match optFin n i with
  | some k => f k
  | none => s

/-- The next free value of the model: its index, and the state with the index used. -/
def State.fresh (s : State) : Nat × State := (s.freeIx, { s with freeIx := s.freeIx + 1 })

/-- Add one to a saturating count of `n` bits. (DEDUCED, entry 20.) -/
def satInc (n v : Nat) : Nat := min (v + 1) (2 ^ n - 1)

/-- A block refuses a latched command (R451): one host-port event, the count and the offset. -/
def refuse (off : Nat) (s : State) : State :=
  raise { s with hst := { s.hst with
    cRefused := s.hst.cRefused + 1, refusedAddr := BitVec.ofNat 21 off, intStatus := setBit s.hst.intStatus 0 } }
    { rank := 13, code := 1, num := 0, data := off }

/-! ### Rounding and saturation (R101) -/

/-- Round to nearest, an exact half to the even integer: rhe(num / den) for den > 0. -/
def rheDiv (num : Int) (den : Nat) : Int :=
  let d : Int := den
  let q := num / d
  let r := num % d
  if 2 * r < d then q else if d < 2 * r then q + 1 else if q % 2 = 0 then q else q + 1

/-- rhe(x × 2^k) for any integer k (R101). -/
def rhe2 (x : Int) (k : Int) : Int :=
  if 0 ≤ k then x * (2 : Int) ^ k.toNat else rheDiv x (2 ^ (-k).toNat)

/-- Limit an integer to a range. -/
def clampI (lo hi x : Int) : Int := if x < lo then lo else if hi < x then hi else x

/-- sat24 (R101). -/
def sat24 (x : Int) : Int := clampI (-8388608) 8388607 x

/-- sat16 (R101). -/
def sat16 (x : Int) : Int := clampI (-32768) 32767 x

/-- clamp2 (R101): ±2.0 pu at exponent e. -/
def clamp2 (e : Nat) (m : Int) : Int :=
  let b : Int := rhe2 1 (22 - e)
  clampI (-b) b m

/-- Division rounding toward zero (R66, R90). (DESIGN CHOICE, entry 73.) -/
def tdiv (a b : Int) : Int := Int.tdiv a b

/-- Ceiling of a quotient of naturals. -/
def cdiv (a b : Nat) : Nat := (a + b - 1) / b

/-! ### Check sums -/

/-- One bit step of a left-shifting CRC of `n` bits. -/
def crcStep {n : Nat} (poly c : BitVec n) (b : Bool) : BitVec n :=
  let top := c.msb != b
  if top then (c <<< 1) ^^^ poly else c <<< 1

/-- One byte, most significant bit first. -/
def crcByte {n : Nat} (poly c : BitVec n) (b : Byte) : BitVec n :=
  [7, 6, 5, 4, 3, 2, 1, 0].foldl (fun c k => crcStep poly c (b.getLsbD k)) c

/-- A CRC over bytes with no reflection. -/
def crcMsb {n : Nat} (poly init : BitVec n) (bs : List Byte) : BitVec n := bs.foldl (crcByte poly) init

/-- CRC-16 of the channel-port frames (R118). -/
def crc16 (bs : List Byte) : BitVec 16 := crcMsb 0x1021 0xFFFF bs

/-- CRC-64 of the digest (R24, R287). -/
def crc64 (bs : List Byte) : BitVec 64 := crcMsb 0x42F0E1EBA9EA3693 0xFFFFFFFFFFFFFFFF bs ^^^ 0xFFFFFFFFFFFFFFFF

/-- One byte of the reflected CRC-32C. -/
def crc32cByte (c : BitVec 32) (b : Byte) : BitVec 32 :=
  [0, 1, 2, 3, 4, 5, 6, 7].foldl (fun c k =>
    let bit := c.getLsbD 0 != b.getLsbD k
    if bit then (c >>> 1) ^^^ 0x82F63B78 else c >>> 1) c

/-- CRC-32C (R417, R443): polynomial 1EDC6F41h reflected, all ones in and out. PRESUMED: the manual names the CRC
only. (PRESUMED, entry 12.) -/
def crc32c (bs : List Byte) : BitVec 32 := bs.foldl crc32cByte 0xFFFFFFFF ^^^ 0xFFFFFFFF

/-! ### Reading the map -/

/-- The cluster of a channel (R7). -/
def cluOf (c : ChIx) : CluIx := ⟨c.val / 8, by omega⟩

/-- The region of a cluster. -/
def rgnOf (c : CluIx) : RgnIx := ⟨c.val / 3, by omega⟩

/-- Channel j of a cluster (R9). -/
def chanOf (c : CluIx) (j : Fin 8) : ChIx := ⟨8 * c.val + j.val, by omega⟩

/-- Samples per frame of a channel's cluster. -/
def nOf (s : State) (c : ChIx) : Nat := s.map.clu[cluOf c].n

/-- The route word of the enabled ROUTE record of a channel to an outlet (R484). -/
def routeTo (s : State) (c : ChIx) (o : OutIx) : Option RouteCfg := s.map.route[c].find? (·.outlet = o)

/-- The channel is in service. -/
def inService (s : State) (c : ChIx) : Bool := s.map.ch[c].kind ≠ 0 && !s.map.ch[c].going

/-- The channels of a kind in service, in index order. -/
def chansOf (s : State) (k : Nat) : List ChIx :=
  (List.finRange 96).filter fun c => s.map.ch[c].kind = k && inService s c

/-- The STORE channel of a pack. -/
def storeOf (s : State) (j : Fin 8) : Option ChIx :=
  (List.finRange 96).find? fun c => s.map.ch[c].kind = 3 && s.map.ch[c].pack = some j

/-- The channels SETTLED on an outlet, in index order, under a frame-level state. -/
def settledOn (f : FrameState) (o : OutIx) : List ChIx :=
  (List.finRange 96).filter fun c => f.hand[c].st = .settled && f.hand[c].outlet = some o

/-- The mailbox slot of a quantity (R355). -/
def mailOf (l : Levels) (q num sub : Nat) : Option MailSlot :=
  l.mail.find? fun m => m.q = q && m.num = num && m.sub = sub

/-- A slot value filled at most `ms` frames before the frame (R97): the age from the frame of arrival. -/
def mailFilled (l : Levels) (fn ms q num sub : Nat) : Option Nat :=
  match mailOf l q num sub with
  | some m => if fn ≤ m.fn + ms then some m.value else none
  | none => none

/-- A slot value whose age is at most `ms` frames, counted from the frame that latched it (R356): two frames after
its arrival (R18). -/
def mailFresh (l : Levels) (fn ms q num sub : Nat) : Option Nat := mailFilled l fn (ms + 2) q num sub

/-- The package takes host commands and uses its own inputs (R280, R300). -/
def isLead (s : State) : Bool := s.tdm.st = .single || s.tdm.st = .lead

/-- The package transmits (R280). -/
def transmits (s : State) : Bool := s.tdm.st = .single || s.tdm.st = .lead || s.tdm.st = .follow

/-- The partner is in step: it follows this lead, or it leads this follower, and its markers arrive (R281). -/
def inStep (s : State) : Bool :=
  match s.tdm.last with
  | some m => s.tdm.missRun = 0 && ((s.tdm.st = .lead && m.state = 3) || (s.tdm.st = .follow && m.state = 4))
  | none => false

/-- From the vote frame until the sequencers resume, nothing new is admitted (R395). -/
def fwuHeld (s : State) : Bool :=
  s.fwu.window.isSome || s.fwu.st = .activating || (s.fwu.st = .scheduled && decide (s.fwu.actFn ≤ s.fn + 200))

/-- The minimal map is in force (R46). -/
def minimal (s : State) : Bool := s.smp.source = 3

end Sys2Proof.Machine
end

