-- ==== Sys2Proof/Machine/Landing.lean ====
section
/-! DEFINITION. The landing memory (chapter 17): reads with their code check, writes, queues, the event ring, the host's
writes and the scrubber. -/

namespace Sys2Proof.Machine

/-! ### Areas (R407, R408) -/

def sessBase : Nat := 0x400000
def mailboxBase (o : OutIx) : Nat := sessBase + 2048 * o.val
def identityBase (o : OutIx) : Nat := sessBase + 0x10000 + 0x2000 * o.val
def tlsBase : Nat := sessBase + 0x50000
def ticketBase : Nat := sessBase + 0x80000
def ledgerWindow : Nat := sessBase + 0xC0000
def checkpointBase : Nat := sessBase + 0x100000
def hwdBase : Nat := sessBase + 0x180000
def stagingBase : Nat := 0x1600000
def canTxBase (k : CanIx) : Nat := 0x200000 + 0x2000 * k.val
def canRxBase (k : CanIx) : Nat := 0x200800 + 0x2000 * k.val
def tallyBase : Nat := 0x300000
def cycleBase : Nat := 0x800000
def captureBase : Nat := 0xC00000
def eventBase : Nat := 0x1400000
def fwBase : Nat := 0x2400000
/-- The size of the landing memory (R403). -/
def landSize : Nat := 0x4000000

/-! ### Bytes -/

/-- Change the landing block. -/
def onLnd (f : Lnd → Lnd) (s : State) : State := { s with lnd := f s.lnd }

/-- Set a bit of LND_INT_STATUS, with the event of rank 15 that carries its code (R442). -/
def lndEvent (b data : Nat) (s : State) : State :=
  raise (onLnd (fun l => { l with intStatus := setBit l.intStatus b }) s) { rank := 15, code := b + 1, data := data }

/-- An overrun of R14: the count and its event. (DEDUCED, entry 35.) (DEDUCED, entry 72.) -/
def overrun (data : Nat) (s : State) : State :=
  raise (onLnd (fun l => { l with overrun := l.overrun + 1 }) s) { rank := 15, code := 8, data := data }

/-- Write bytes: the words that they touch carry a fresh code (R405). -/
def lndWrite (a : Nat) (bs : List Byte) (s : State) : State :=
  onLnd (fun l => { l with mem := memWriteBytes l.mem a bs,
                           bad := l.bad.filter fun w => w.1 + 8 ≤ a || a + bs.length ≤ w.1 }) s

/-- Read bytes as they are stored. -/
def lndRead (a n : Nat) (s : State) : List Byte := memReadBytes s.lnd.mem a n

/-- The words in error among `n` bytes from `a`. (DEDUCED, entry 62.) -/
def lndBad (a n : Nat) (s : State) : List (Nat × Bool) := s.lnd.bad.filter fun w => a < w.1 + 8 && w.1 < a + n

/-- The bytes read with a poison mark (R404). -/
def lndPoison (a n : Nat) (s : State) : Bool := (lndBad a n s).any (·.2)

/-- What a read of one word in error does (R404). -/
def eccWord (s : State) (w : Nat × Bool) : State :=
  if w.2 then
    raise (lndEvent 1 w.1 (onLnd (fun l => { l with uncorrN := satInc 32 l.uncorrN, uncorrAddr := BitVec.ofNat 26 w.1,
                                                     uncorr := true }) s))
      { rank := 2, code := 10, data := w.1 }
  else
    lndEvent 0 w.1 (onLnd (fun l => { l with corrN := satInc 32 l.corrN, corrAddr := BitVec.ofNat 26 w.1,
                                             bad := l.bad.filter fun x => x.1 ≠ w.1 }) s)

/-- The effects of a read of `n` bytes from `a` on the error counts. -/
def eccRead (a n : Nat) (s : State) : State := (lndBad a n s).foldl eccWord s

/-! ### Queues (R412 to R416) -/

/-- The size of a queue in bytes. -/
def qBytes (s : State) (q : Fin 64) : Nat := 65536 * s.map.fifo[q].size

/-- A ring takes `n` more bytes: the pointers, the pass count and the level interrupt. -/
def ringAdd (q : Fin 64) (n : Nat) (s : State) : State :=
  let size := qBytes s q
  if size = 0 then s
  else
    let x := s.lnd.q[q]
    let wr := (x.wr + n) % size
    let fill := min size (x.fill + n)
    let irq := s.map.fifo[q].irq
    let lvl := irq ≠ 0 && irq * size ≤ 16 * fill
    let wrap := size ≤ x.wr + n
    let x' : LndQ := { x with wr := wr, fill := fill, rd := (wr + size - fill) % size, level := lvl,
                              wraps := if wrap then x.wraps + 1 else x.wraps,
                              voidSeen := x.voidSeen && !wrap }
    let t := onLnd (fun l => { l with q := l.q.set q x' }) s
    if lvl && !x.level then lndEvent 4 q.val t else t

/-- Write one fixed-size entry into a ring area at its write pointer (R414). -/
def ringPut (q : Fin 64) (base : Nat) (bs : List Byte) (s : State) : State :=
  if qBytes s q = 0 then s else ringAdd q bs.length (lndWrite (base + s.lnd.q[q].wr) bs s)

/-- A word of queue status (R422). -/
def qStatus (s : State) (q : Fin 64) : Nat :=
  let x := s.lnd.q[q]
  let size := qBytes s q
  let plain := s.map.fifo[q].kind = 3 || s.map.fifo[q].kind = 0
  if plain || size = 0 then 0
  else min 255 (cdiv (256 * x.fill) size) + 256 * bit (x.fill = 0) + 512 * bit (x.fill = size) +
    1024 * bit x.voidSeen + 65536 * (x.wraps.toNat % 65536)

/-! ### The event ring (R29 to R31, R419) -/

/-- The bytes of an event entry: the frame, the sequence within the rank, the code and the number. -/
def eventBytes (fn seq : Nat) (e : Event) : List Byte :=
  leBytes 8 fn ++ leBytes 4 (seq % 2 ^ 28 + 2 ^ 28 * e.rank) ++ leBytes 2 (32 * e.rank + e.code) ++ leBytes 2 e.num ++
    leBytes 16 (Config.eventPayload e.rank e.code e.num e.stamp e.data).toNat

/-- The total order of the events of a frame (R29, R31): by rank, then by the block's order, then as they came. -/
def eventLe (a b : Event) : Bool := a.rank < b.rank || (a.rank = b.rank && a.ord ≤ b.ord)

/-- Write one event into the ring. -/
def eventPut (fn seq : Nat) (e : Event) (s : State) : State :=
  let ix := s.lnd.evtWr.toNat
  let t := ringAdd 6 32 (lndWrite (eventBase + 32 * ix) (eventBytes fn seq e) s)
  onLnd (fun l => { l with evtWr := l.evtWr + 1, evtPasses := if ix = 65535 then l.evtPasses + 1 else l.evtPasses }) t

/-- Write the events of a frame, in order; the sequence of each rank starts at 0 (R31). -/
def eventsPut (fn : Nat) : (seq rank : Nat) → List Event → State → State
  | _, _, [], s => s
  | seq, rank, e :: es, s =>
    let k := if e.rank = rank then seq else 0
    eventsPut fn (k + 1) e.rank es (eventPut fn k e s)

/-! ### The host's writes (R409) -/

/-- A landing offset that the host may write. -/
def hostMay (s : State) (a : Nat) : Bool :=
  (decide (stagingBase ≤ a) && decide (a < stagingBase + 0x100000)) ||
  (decide (0x200000 ≤ a) && decide (a < 0x210000) && decide ((a - 0x200000) % 0x2000 < 576)) ||
  (decide (tlsBase ≤ a) && decide (a < tlsBase + 0x10000)) ||
  (decide (hwdBase ≤ a) && decide (a < hwdBase + 0x10000)) ||
  (List.finRange 64).any fun q =>
    let f := s.map.fifo[q]
    decide (11 ≤ q.val) && f.kind ≠ 0 && f.hostWrite && decide (65536 * f.base ≤ a) && decide (a < 65536 * (f.base + f.size))

/-- Granule `g` lies wholly in host-writable space (R421). -/
def granuleMay (s : State) (g : Nat) : Bool :=
  (decide (0x160 ≤ g) && decide (g < 0x170)) || g = 0x45 || g = 0x58 ||
  (List.finRange 64).any fun q =>
    let f := s.map.fifo[q]
    decide (11 ≤ q.val) && f.kind ≠ 0 && f.hostWrite && decide (f.base ≤ g) && decide (g < f.base + f.size)

/-- Write the bytes that land; the offset of the last one that does not. -/
def hostBytes : Nat → List Byte → State → State × Option Nat
  | _, [], s => (s, none)
  | a, b :: bs, s =>
    if hostMay s a then hostBytes (a + 1) bs (lndWrite a [b] s)
    else
      let r := hostBytes (a + 1) bs s
      (r.1, some (r.2.getD a))

/-- A refused BAR2 write (R409, R450). -/
def bar2Refused (a : Nat) (s : State) : State :=
  let s := onLnd (fun l => { l with hostWr := l.hostWr + 1, hostGran := BitVec.ofNat 10 (a / 65536),
                                    intStatus := setBit l.intStatus 5 }) s
  raise { s with hst := { s.hst with intStatus := setBit s.hst.intStatus 4 } }
    { rank := 13, code := 5, ord := 4, data := a }

/-- A write through BAR2. -/
def bar2Write (a : Nat) (bs : List Byte) (s : State) : State :=
  match hostBytes a bs s with
  | (t, none) => t
  | (t, some x) => bar2Refused x t

/-- BAR2_WRITE (R409): package-local, applied at once. -/
def execBar2Write (off : BitVec 26) (bytes : List Byte) (s : State) : Ans :=
  whenOn s.isl.lnd s (bar2Write off.toNat bytes)

/-! ### The scrubber (R405) and LND_CTRL (R421) -/

/-- One line read, where the scrubber runs; throttling pauses it (R433). -/
def scrubStep (s : State) : State :=
  if !(s.lnd.scrubCfg.getLsbD 8 || s.lnd.scrubbing) || s.lnd.throttled then s
  else
    let line := s.lnd.scrubLine
    let s := eccRead (64 * line.toNat) 64 s
    let done := line + 1 = 0
    let s := onLnd (fun l => { l with scrubLine := line + 1, scrubbing := !done,
                                      scrubPasses := if done then l.scrubPasses + 1 else l.scrubPasses }) s
    if done then lndEvent 6 0 s else s

/-- SCRUB_STEP (R405). -/
def execScrubStep (s : State) : Ans := whenOn s.isl.lnd s scrubStep

/-- LND_SNAP_NOW (R418): SNAP in the packet of the latch frame. -/
def execLndSnapNow (s : State) : Ans := whenOn s.isl.lnd s (onLnd fun l => { l with snapNow := true })

/-- LND_SCRUB_NOW (R421): start a pass. -/
def execLndScrubNow (s : State) : Ans :=
  whenOn s.isl.lnd s (onLnd fun l => { l with scrubLine := 0, scrubbing := true })

end Sys2Proof.Machine
end

