-- ==== Sys2Proof/Machine/Heartwood.lean ====
section
/-! DEFINITION. Heartwood (chapter 15): derivation, wrapped and battery-backed slots, tamper, lifecycle, commands and
attestation. -/

namespace Sys2Proof.Machine

/-- Change heartwood. -/
def onHwd (f : Hwd → Hwd) (s : State) : State := { s with hwd := f s.hwd }

/-- A bit of HWD_INT_STATUS. -/
def hwdInt (b : Nat) (s : State) : State := onHwd (fun h => { h with intStatus := setBit h.intStatus b }) s

/-- An event of rank 1 on its way to the control die (R382): it takes the path of R18. -/
def hwdEvent (code num : Nat) (s : State) : State :=
  { s with arrived := s.arrived ++ [.asyncEvent { rank := 1, code := code, inst := num, stamp := s.live.rtc % 65536000 }] }

/-- A derivation is refused (R366, R367, R370). -/
def derivRefused (s : State) : Bool := s.hwd.rootFault || s.hwd.exhausted || s.hwd.debug || !s.hwd.rootSet

/-- Keyless (R377, R386). -/
def keyless (s : State) : Bool :=
  s.hwd.rootFault || s.hwd.exhausted || ((s.hwd.zeroized || s.hwd.tc ≠ 0) && (s.hwd.bbk[0].isNone || s.hwd.bbk[1].isNone))

/-- The ticket key in BBK_0 and the ledger key in BBK_1 are valid (R263, R374). -/
def ticketKey (s : State) : Option (List Byte) :=
  match s.hwd.bbk[0] with | some k => if k.typ = 2 then some k.key else none | none => none
def ledgerKey (s : State) : Option (List Byte) :=
  match s.hwd.bbk[1] with | some k => if k.typ = 1 then some k.key else none | none => none

/-! ### Derivation (R369) -/

/-- The bytes of a 256-bit value, most significant first. -/
def bytes256 (v : BitVec 256) : List Byte := (List.range 32).map fun i => v.extractLsb' (8 * (31 - i)) 8

/-- A label in ASCII. -/
def ascii (t : String) : List Byte := t.toList.map fun c => BitVec.ofNat 8 c.toNat

/-- A key derived from the root for a tamper count, a mask and measurements. -/
def deriveKey (root : BitVec 256) (tc mask : Nat) (meas : Vector (List Byte) 8) (label : String) (ix len : Nat) :
    List Byte :=
  let used := (List.finRange 8).filter fun k => field mask k.val 1 = 1
  let ctx := leBytes 1 tc ++ leBytes 1 mask ++ (used.map fun k => meas[k]).flatten
  Config.hkdf (bytes256 root) (hashBytes (Config.sha384 ctx)) (ascii label ++ leBytes 1 ix) len

/-- The order of P-384. -/
def p384Order : Nat :=
  0xffffffffffffffffffffffffffffffffffffffffffffffffc7634d81f4372ddf581a0db248b0a77aecec196accc52973

/-- The big-endian value and bytes of a number. -/
def beNat (bs : List Byte) : Nat := leNat bs.reverse
def beBytes (n v : Nat) : List Byte := (leBytes n v).reverse

/-- A 64-byte output as a P-384 private key: (K mod (n − 1)) + 1. -/
def p384Key (k : List Byte) : List Byte := beBytes 48 (beNat k % (p384Order - 1) + 1)

/-- The identity key and the import key. -/
def idk (s : State) : List Byte := p384Key (deriveKey s.hwd.root s.hwd.tc 0 s.hwd.meas "HW-IDK" 0 64)
def imk (s : State) : List Byte := p384Key (deriveKey s.hwd.root s.hwd.tc 0 s.hwd.meas "HW-IMPORT" 0 64)

/-! ### Wrapped slots (R371, R372) -/

/-- The bytes of a CMAC. -/
def bytes128 (v : BitVec 128) : List Byte := (List.range 16).map fun i => v.extractLsb' (8 * (15 - i)) 8

/-- XOR with a key stream. -/
def xorStream (stream data : List Byte) : List Byte := data.zipIdx.map fun x => x.1 ^^^ stream.getD x.2 0

/-- The 128 bytes of an entry sealed under given measurements. -/
def sealEntry (root : BitVec 256) (tc : Nat) (meas : Vector (List Byte) 8) (slot typ usage mask gen : Nat)
    (key : List Byte) : List Byte :=
  let enc := deriveKey root tc mask meas "HW-WRAP-ENC" slot 32
  let mac := deriveKey root tc mask meas "HW-WRAP-MAC" slot 32
  let ctr := leBytes 2 slot ++ leBytes 1 gen ++ List.replicate 13 0
  let plain := (key ++ List.replicate 64 0).take 64
  let head := leBytes 1 typ ++ leBytes 1 usage ++ leBytes 1 mask ++ leBytes 1 gen ++ leBytes 2 slot ++ [0, 0] ++
    xorStream (Config.aesCtr enc ctr 64) plain ++ List.replicate 40 0
  head ++ bytes128 (Config.aesCmac mac head)

/-- Fields of an entry. -/
def entTyp (e : List Byte) : Nat := (e.getD 0 0).toNat
def entUsage (e : List Byte) : Nat := (e.getD 1 0).toNat
def entMask (e : List Byte) : Nat := (e.getD 2 0).toNat
def entGen (e : List Byte) : Nat := (e.getD 3 0).toNat

/-- The tag of an entry verifies under the current count and measurements. -/
def entOk (s : State) (slot : Nat) (e : List Byte) : Bool :=
  entTyp e ≠ 0 && e.drop 112 = bytes128 (Config.aesCmac
    (deriveKey s.hwd.root s.hwd.tc (entMask e) s.hwd.meas "HW-WRAP-MAC" slot 32) (e.take 112))

/-- The key of an entry. -/
def entKey (s : State) (slot : Nat) (e : List Byte) : List Byte :=
  let enc := deriveKey s.hwd.root s.hwd.tc (entMask e) s.hwd.meas "HW-WRAP-ENC" slot 32
  let ctr := leBytes 2 slot ++ leBytes 1 (entGen e) ++ List.replicate 13 0
  let k := xorStream (Config.aesCtr enc ctr 64) ((e.drop 8).take 64)
  k.take (if entTyp e = 3 then 48 else 32)

/-- Valid slots as the bitmap of HWD_SLOT_VALID. -/
def validBits (a : Vector (Option Bool) 128) : BitVec 128 :=
  (List.finRange 128).foldl (fun (w : BitVec 128) k => if a[k].isSome then setBit w k.val else w) 0

/-- The active copy of a slot: the one that verifies, the higher generation where both do (R372). -/
def bankOf (s : State) (k : Fin 128) : Option Bool :=
  let a := s.hwd.bankA[k]
  let b := s.hwd.bankB[k]
  match entOk s k.val a, entOk s k.val b with
  | true, true => some (decide (entGen a < entGen b))
  | true, false => some false
  | false, true => some true
  | false, false => none

/-- The banks of the active copies as the package stands: none where every derivation is refused (R370). -/
def slotActive (s : State) : Vector (Option Bool) 128 := Vector.ofFn fun k => if derivRefused s then none else bankOf s k

/-- The bad slots: an entry stands and no copy of it opens. -/
def slotBad (act : Vector (Option Bool) 128) (h : Hwd) : BitVec 128 :=
  let isBad (k : Fin 128) : Bool := act[k].isNone && (entTyp h.bankA[k] ≠ 0 || entTyp h.bankB[k] ≠ 0)
  (List.finRange 128).foldl (fun (w : BitVec 128) k => if isBad k then setBit w k.val else w) 0

/-- The bits of a word that another lacks, in order. -/
def newBits (w old : BitVec 128) : List (Fin 128) := (List.finRange 128).filter fun k => w.getLsbD k.val && !old.getLsbD k.val

/-- The result of a check, with one event for each slot. -/
def slotPut (act : Vector (Option Bool) 128) (bad : BitVec 128) (fresh : List (Fin 128)) (s : State) : State :=
  fresh.foldl (fun s k => hwdEvent 3 k.val (hwdInt 2 s))
    (onHwd (fun h => { h with active := act, bad := bad }) { s with live := { s.live with slotValid := validBits act } })

/-- The check of the slots at a start and after each change (R372). -/
def slotCheck (s : State) : State :=
  let act := slotActive s
  let bad := slotBad act s.hwd
  slotPut act bad (newBits bad s.hwd.bad) s

/-- Store an entry in a bank (true: B). -/
def putEntry (k : Fin 128) (b : Bool) (e : List Byte) (s : State) : State :=
  onHwd (fun h => if b then { h with bankB := h.bankB.set k e } else { h with bankA := h.bankA.set k e }) s

/-- Change the active copy of one slot. -/
def setActive (k : Fin 128) (a : Option Bool) (s : State) : State :=
  let act := s.hwd.active.set k a
  onHwd (fun h => { h with active := act, bad := clrBit h.bad k.val })
    { s with live := { s.live with slotValid := validBits act } }

/-- The active entry of a slot. -/
def activeEntry (s : State) (k : Fin 128) : Option (List Byte) :=
  s.hwd.active[k].map fun b => if b then s.hwd.bankB[k] else s.hwd.bankA[k]

/-! ### The key cache (R373) -/

/-- A key enters the cache in front; of more than 8 the least recently used leaves. (DEDUCED, entry 107.) -/
def cachePut (k : Fin 128) (key : List Byte) (s : State) : State :=
  onHwd (fun h => { h with cache := ((k, key) :: h.cache.filter (·.1 ≠ k)).take 8 }) s

/-- A slot leaves the cache. -/
def cacheDrop (k : Fin 128) (s : State) : State := onHwd (fun h => { h with cache := h.cache.filter (·.1 ≠ k) }) s

/-- The key of a slot for the engine: from the cache, or unwrapped from its active entry; it is then the most recently used. (DEDUCED, entry 107.) -/
def useKey (k : Fin 128) (e : List Byte) (s : State) : List Byte × State :=
  let key := match s.hwd.cache.find? (·.1 = k) with | some x => x.2 | none => entKey s k.val e
  (key, cachePut k key s)

/-- Seal a new key to a slot, in the bank that does not hold the active copy, with the next generation. -/
def newKey (k : Fin 128) (typ usage mask : Nat) (key : List Byte) (s : State) : State :=
  let b := match s.hwd.active[k] with | some true => false | some false => true | none => false
  let gen := (max (entGen s.hwd.bankA[k]) (entGen s.hwd.bankB[k]) + bit (entTyp s.hwd.bankA[k] ≠ 0 || entTyp s.hwd.bankB[k] ≠ 0)) % 256
  cachePut k key (setActive k (some b) (putEntry k b (sealEntry s.hwd.root s.hwd.tc s.hwd.meas k.val typ usage mask gen key) s))

/-! ### Commands (R380 to R383) -/

/-- The fields of HWD_CMD_ARG (R385). -/
def argSlot (a : Word) : Nat := field a.toNat 0 8
def argTyp (a : Word) : Nat := field a.toNat 8 3
def argUsage (a : Word) : Nat := field a.toNat 16 8
def argMask (a : Word) : Nat := field a.toNat 24 8

/-- Random key bytes of a type from the TRNG. -/
def randomKey (typ : Nat) (s : State) : List Byte × State :=
  let (i, s) := s.fresh
  let (j, s) := s.fresh
  ((bytes256 (Config.trng i) ++ bytes256 (Config.trng j)).take (if typ = 3 then 48 else 32), s)

/-- Begin a command: its result and output appear when it completes. (DEDUCED, entry 63.) -/
def hwdBegin (op result : Nat) (out : List Byte) (s : State) : State :=
  onHwd (fun h => { h with busy := some { op := op, result := result, out := out }, done := false, op := op,
                           ops := h.ops + 1 }) s

/-- GENERATE and IMPORT: the argument and the slot must admit a new key. -/
def newKeyCheck (a : Word) (s : State) : Option Nat :=
  if h : argSlot a < 128 then
    if argTyp a = 0 ∨ 3 < argTyp a then some 1
    else if derivRefused s then some 5
    else if (s.hwd.active[(⟨argSlot a, h⟩ : Fin 128)]).isSome then some 2
    else none
  else some 1

/-- Op 1: a new key from the TRNG. -/
def opGenerate (a : Word) (s : State) : State :=
  match newKeyCheck a s, optFin 128 (argSlot a) with
  | some r, _ => hwdBegin 1 r [] s
  | none, none => hwdBegin 1 1 [] s
  | none, some k =>
    if s.hwd.trngFail then hwdBegin 1 6 [] s
    else
      let (key, s) := randomKey (argTyp a) s
      hwdBegin 1 0 [] (newKey k (argTyp a) (argUsage a) (argMask a) key s)

/-- Op 2: unwrap a key from the buffer and seal it. -/
def opImport (a : Word) (s : State) : State :=
  match newKeyCheck a s, optFin 128 (argSlot a) with
  | some r, _ => hwdBegin 2 r [] s
  | none, none => hwdBegin 2 1 [] s
  | none, some k =>
    match Config.hwdImport (imk s) (lndRead hwdBase 16384 s) with
    | some key => hwdBegin 2 0 [] (newKey k (argTyp a) (argUsage a) (argMask a) key s)
    | none => hwdBegin 2 7 [] s

/-- Op 3: a public key. -/
def opPublic (a : Word) (s : State) : State :=
  let n := argSlot a
  if n = 0xFE ∨ n = 0xFF then
    if derivRefused s then hwdBegin 3 5 [] s
    else hwdBegin 3 0 (Config.ecdsaPublic (if n = 0xFE then idk s else imk s)) s
  else if 0x80 ≤ n then
    match optFin 8 (n - 0x80) with
    | none => hwdBegin 3 1 [] s
    | some b => match s.hwd.bbk[b] with
      | none => hwdBegin 3 3 [] s
      | some k => if k.typ = 1 then hwdBegin 3 1 [] s else hwdBegin 3 0 (Config.ecdsaPublic k.key) s
  else match optFin 128 n with
    | none => hwdBegin 3 1 [] s
    | some k =>
      if derivRefused s then hwdBegin 3 5 [] s
      else match activeEntry s k with
        | none => hwdBegin 3 3 [] s
        | some e =>
          if entTyp e = 1 then hwdBegin 3 1 [] s
          else let r := useKey k e s; hwdBegin 3 0 (Config.ecdsaPublic r.1) r.2

/-- Op 4: zero both copies. -/
def opDelete (a : Word) (s : State) : State :=
  match optFin 128 (argSlot a) with
  | none => hwdBegin 4 1 [] s
  | some k => hwdBegin 4 0 [] (cacheDrop k (setActive k none (putEntry k true [] (putEntry k false [] s))))

/-- The measurements of the verified manifest differ from the current ones in a bit of the mask. -/
def bindsChange (s : State) (target : Vector (List Byte) 8) (mask : Nat) : Bool :=
  (List.finRange 8).any fun k => field mask k.val 1 = 1 && target[k] ≠ s.hwd.meas[k]

/-- One slot of a reseal (R381): the copy in the other bank under the target measurements. -/
def resealSlot (target : Vector (List Byte) 8) (s : State) (k : Fin 128) : State :=
  match s.hwd.active[k], activeEntry s k with
  | some b, some e =>
    if bindsChange s target (entMask e) then
      let r := useKey k e s
      let x := sealEntry s.hwd.root s.hwd.tc target k.val (entTyp e) (entUsage e) (entMask e) ((entGen e + 1) % 256) r.1
      onHwd (fun h => { h with resealed := h.resealed + 1, pendCommit := setBit h.pendCommit k.val }) (putEntry k (!b) x r.2)
    else s
  | _, _ => s

/-- Write the copies for a target under its measurements (R381). -/
def resealAll (t : Vector (List Byte) 8) (s : State) : State :=
  let s := onHwd (fun h => { h with resealed := 0, pendCommit := 0, resealDone := false, committed := false }) s
  let s := (List.finRange 128).foldl (resealSlot t) s
  slotCheck (hwdEvent 5 0 (hwdInt 4 (onHwd (fun h => { h with resealDone := true }) s)))

/-- Op 5: reseal every affected slot for the target of a verified manifest. -/
def opReseal (s : State) : State :=
  match s.fwu.target with
  | none => hwdBegin 5 9 [] s
  | some t => if derivRefused s then hwdBegin 5 5 [] s else hwdBegin 5 0 [] (resealAll t s)

/-- The old copy of a slot that waits for the commit is zeroed. -/
def commitSlot (s : State) (k : Fin 128) : State :=
  if s.hwd.pendCommit.getLsbD k.val then
    match s.hwd.active[k] with | some b => putEntry k (!b) [] s | none => s
  else s

/-- Zero the old copies of the slots that wait for the commit. -/
def commitSlots (s : State) : State :=
  onHwd (fun h => { h with pendCommit := 0, committed := true }) ((List.finRange 128).foldl commitSlot s)

/-- Op 6. -/
def opResealCommit (s : State) : State := hwdBegin 6 0 [] (commitSlots s)

/-- The calibration hash (R383). -/
def calHash (s : State) : List Byte :=
  let pair (c : Fin 72) : List Byte := leBytes 4 s.met.gain[c] ++ leBytes 4 (unsigned 32 s.met.off[c])
  hashBytes (Config.sha384 (((List.finRange 72).map pair).flatten ++ Config.trimBytes s.otp.serial))

/-- Package serial, bytes 0 to 9, and the ordering code (R453). -/
def serialBytes (s : State) : List Byte := leBytes 10 s.otp.serial.toNat
def orderByte (s : State) : Byte := if s.otp.orderK then 0x4B else 0x41

/-- The statement of R383 before its signature. -/
def statement (nonce : List Byte) (s : State) : List Byte :=
  let h := s.hwd
  let flags := bit (keyless s) + 2 * bit h.pending + 4 * bit s.otp.locked + 8 * bit h.tamperLock + 16 * bit h.exhausted +
    32 * bit h.rootFault
  let sec := s.live.rtc / 65536000
  let frac := 2 * (s.live.rtc % 65536000 / 2000)
  [0x41, 0x54, 0x53, 0x54] ++ leBytes 2 1 ++ leBytes 2 656 ++ serialBytes s ++ [orderByte s, 0] ++ leBytes 1 h.tc ++
    leBytes 1 flags ++ [0, 0] ++ leBytes 8 s.fn ++ (nonce ++ List.replicate 32 0).take 32 ++
    (h.meas.toList.map fun m => (m ++ List.replicate 48 0).take 48).flatten ++
    (s.smp.activeHash ++ List.replicate 48 0).take 48 ++ calHash s ++ leBytes 4 h.tamperCfg.toNat ++ leBytes 4 sec ++
    leBytes 2 frac ++ List.replicate 6 0

/-- Op 7. -/
def opAttest (s : State) : State :=
  if derivRefused s then hwdBegin 7 5 [] s
  else
    let st := statement (lndRead hwdBase 32 s) s
    hwdBegin 7 0 (st ++ Config.ecdsaSign (idk s) st) (onHwd (fun h => { h with attFn := s.fn }) s)

/-- The types that a battery-backed slot takes (R374). -/
def bbkTypOk (b typ : Nat) : Bool :=
  if b = 0 then typ = 2 else if b ≤ 2 then typ = 1 else decide (1 ≤ typ) && decide (typ ≤ 3)

/-- Op 8: a new key in a battery-backed slot; BBK_1 is replaced only in a single package. -/
def opBbk (a : Word) (s : State) : State :=
  match optFin 8 (argSlot a) with
  | none => hwdBegin 8 1 [] s
  | some b =>
    let held := (s.hwd.bbk[b]).isSome
    if !bbkTypOk b.val (argTyp a) then hwdBegin 8 1 [] s
    else if held && (!a.getLsbD 31 || (b = 1 && s.tdm.st ≠ .single)) then hwdBegin 8 2 [] s
    else if s.hwd.trngFail then hwdBegin 8 6 [] s
    else
      let (key, s) := randomKey (argTyp a) s
      hwdBegin 8 0 [] (onHwd (fun h => { h with bbk := h.bbk.set b (some { typ := argTyp a, key := key }) }) s)

/-- The MRAM copy of the stand-map key matches the current row (R379). -/
def smpKeyOk (s : State) : Bool :=
  match s.hwd.smpRows.getLast? with
  | some r => hashBytes (Config.sha384 s.hwd.smpKey) = r
  | none => false

/-- Op 9: enrol the stand-map key. The buffer holds the key, 96 bytes, then the signature by the current key. -/
def opEnroll (s : State) : State :=
  let buf := lndRead hwdBase 192 s
  let key := buf.take 96
  let h := hashBytes (Config.sha384 key)
  let rows := s.hwd.smpRows
  let put (burn : Bool) (s : State) : State :=
    onHwd (fun x => { x with smpKey := key, smpRows := if burn then x.smpRows ++ [h] else x.smpRows }) s
  if rows = [] then hwdBegin 9 0 [] (put true s)
  else if rows.getLast? = some h then hwdBegin 9 0 [] (put false s)
  else if 4 ≤ rows.length then hwdBegin 9 8 [] s
  else if smpKeyOk s && Config.ecdsaVerify s.hwd.smpKey key (buf.drop 96) then hwdBegin 9 0 [] (put true s)
  else hwdBegin 9 7 [] s

/-- A command op with an argument (R380): ignored while one runs, aborted while ZEROIZE has cleared the engine. -/
def hwdStart (op : Nat) (a : Word) (s : State) : State :=
  if s.hwd.busy.isSome then s
  else
    let s := onHwd (fun h => { h with arg := a }) s
    match op with
    | 1 => opGenerate a s
    | 2 => opImport a s
    | 3 => opPublic a s
    | 4 => opDelete a s
    | 5 => opReseal s
    | 6 => opResealCommit s
    | 7 => opAttest s
    | 8 => opBbk a s
    | 9 => opEnroll s
    | _ => hwdBegin op 1 [] s

/-- A heartwood command runs on the security island, which keeps the metrology die's clocks. -/
def hwdRow (op : Nat) (a : Word) (s : State) : Ans := whenOn s.isl.met s (hwdStart op a)

/-- HWD_GENERATE (R380). -/
def execHwdGenerate (a : Word) (s : State) : Ans := hwdRow 1 a s
/-- HWD_IMPORT (R380). -/
def execHwdImport (a : Word) (s : State) : Ans := hwdRow 2 a s
/-- HWD_PUBLIC (R380). -/
def execHwdPublic (a : Word) (s : State) : Ans := hwdRow 3 a s
/-- HWD_DELETE (R380). -/
def execHwdDelete (a : Word) (s : State) : Ans := hwdRow 4 a s
/-- HWD_RESEAL (R381). -/
def execHwdReseal (a : Word) (s : State) : Ans := hwdRow 5 a s
/-- HWD_RESEAL_COMMIT (R381). -/
def execHwdResealCommit (a : Word) (s : State) : Ans := hwdRow 6 a s
/-- HWD_ATTEST (R383). -/
def execHwdAttest (a : Word) (s : State) : Ans := hwdRow 7 a s
/-- HWD_BBK_GENERATE (R380). -/
def execHwdBbkGenerate (a : Word) (s : State) : Ans := hwdRow 8 a s
/-- HWD_ENROLL_SMP (R379). -/
def execHwdEnrollSmp (a : Word) (s : State) : Ans := hwdRow 9 a s

/-- A command that the firmware update runs (R392, R399): at once, or after the one that runs. -/
def hwdAsk (op : Nat) (s : State) : State :=
  if s.hwd.busy.isSome then { s with fwu := { s.fwu with hwdWant := some op } }
  else
    let s : State := { s with fwu := { s.fwu with hwdWant := none } }
    if op = 6 then opResealCommit s else opReseal s

/-- What the end of a command brings to the update: the reseal is complete (R393), pending-commit clears (R399). -/
def hwdFwu (r : HwdRun) (s : State) : State :=
  let gone (x : BootRec) : BootRec := { x with pendCommit := false }
  let s : State :=
    if r.result ≠ 0 then s
    else if r.op = 5 then { s with fwu := { s.fwu with resealed := true } }
    else if r.op = 6 then { s with fwu := { s.fwu with rec0 := s.fwu.rec0.map gone, rec1 := s.fwu.rec1.map gone } }
    else s
  match s.fwu.hwdWant with | some op => hwdAsk op s | none => s

/-- HWD_COMMAND_DONE (R380): the result appears, and the output in the buffer. -/
def hwdDone (s : State) : State :=
  match s.hwd.busy with
  | none => s
  | some r =>
    let s := if r.out = [] then s else lndWrite hwdBase r.out s
    hwdFwu r (hwdInt 1 (onHwd (fun h => { h with busy := none, done := true, result := r.result, op := r.op }) s))

/-- HWD_COMMAND_DONE (R380). -/
def execHwdCommandDone (s : State) : Ans := whenOn s.isl.met s hwdDone

/-! ### Tamper (R376, R377, R382) -/

/-- The code of a source (R382). -/
def tamperCode : TamperSrc → Nat
  | .pin k => k.val | .voltage => 8 | .clock => 9 | .temperature => 10 | .light => 11

/-- The input is in switch or mesh mode; the internal detectors are always on, but for light in sleep (R376). -/
def tamperArmed (s : State) : TamperSrc → Bool
  | .pin k =>
    let m (j : Nat) : Nat := field s.hwd.tamperCfg.toNat (2 * j) 2
    m k.val = 1 || m (2 * (k.val / 2)) = 2
  | .light => s.isl.met
  | _ => true

/-- A log entry in the next place of the ring. -/
def tamperLog (src st : Nat) (s : State) : State :=
  let e : TamperLog := { sec := s.live.rtc / 65536000, frac := 2 * (s.live.rtc % 65536000 / 2000), src := src, st := st }
  onHwd (fun h => { h with log := h.log.set h.logNext.toFin e, logNext := h.logNext + 1 }) s

/-- Burn the next tamper fuse (R367). -/
def burnFuse (s : State) : State :=
  onHwd (fun h => if h.tc = 16 then { h with exhausted := true } else { h with tc := h.tc + 1 }) s

/-- ZEROIZE (R377): the slots and the engine, the fuse, the log entry, and every wrapped slot under the new count. -/
def zeroize (src st : Nat) (s : State) : State :=
  let s := onHwd (fun h => { h with
    bbk := Vector.replicate 8 none, cache := [], zeroized := true,
    busy := h.busy.map fun r => { r with result := 4, out := List.replicate r.out.length 0 },
    aborts := if h.busy.isSome then h.aborts + 1 else h.aborts }) s
  slotCheck (tamperLog src st (burnFuse s))

/-- The glitch counter of an internal detector (R385). -/
def glitchOf (src : Nat) : Option (Fin 4) := if 8 ≤ src then optFin 4 (src - 8) else none

/-- A tamper while the security island stands (R377, R382): the always-on domain clears its slots, leaves the burn
pending and logs. -/
def tamperAsleep (src : Nat) (s : State) : State :=
  tamperLog src 2 (onHwd (fun h => { h with bbk := Vector.replicate 8 none, cache := [], pending := true }) s)

/-- The lead of a pair in step declares itself faulty (R299). -/
def tamperFault (s : State) : State :=
  if s.tdm.st = .lead && inStep s then { s with tdm := { s.tdm with ownFault := true } } else s

/-- What a tamper writes down of its source. -/
def tamperNote (c : Nat) (s : State) : State :=
  onHwd (fun h => { h with
    cause := setBit h.cause c, tamperNow := setBit h.tamperNow c,
    glitch := match glitchOf c with | some g => Vec.upd h.glitch g (· + 1) | none => h.glitch }) s

/-- A tamper (R377). -/
def tamper (src : TamperSrc) (s : State) : State :=
  let c := tamperCode src
  let s := tamperNote c s
  tamperFault (hwdEvent 2 c (hwdEvent 1 c (hwdInt 0 (if s.isl.met then zeroize c 0 s else tamperAsleep c s))))

/-- TAMPER_DETECT (R377): acts without firmware, whatever runs. -/
def execTamperDetect (src : TamperSrc) (s : State) : Ans := .next (if tamperArmed s src then tamper src s else s)

/-- TRNG_HEALTH_FAIL (R368). -/
def execTrngHealthFail (s : State) : Ans :=
  whenOn s.isl.met s fun s =>
    hwdEvent 4 0 (hwdInt 3 (onHwd (fun h => { h with trngFail := true, trngFails := h.trngFails + 1 }) s))

/-- TRNG_RECOVER (R368). -/
def execTrngRecover (s : State) : Ans := whenOn s.isl.met s (onHwd fun h => { h with trngFail := false })

/-- BBK_MASK_RENEW (R374): a new mask from the TRNG; the keys under it stay. -/
def execBbkMaskRenew (s : State) : Ans :=
  whenOn s.isl.met s fun s =>
    let (i, s) := s.fresh
    onHwd (fun h => { h with bbkMask := (Config.trng i).setWidth 32 }) s

/-- HWD_TAMPER_LOCK (R386). -/
def execHwdTamperLock (s : State) : Ans := whenOn s.isl.met s (onHwd fun h => { h with tamperLock := true })

/-- lifecycle_lock (R378): refused with result 1 unless a stand-map key is enrolled and tamper_lock is set. -/
def lifecycleLock (s : State) : State :=
  if s.hwd.smpRows ≠ [] && s.hwd.tamperLock then
    onHwd (fun h => { h with debug := false }) { s with otp := { s.otp with locked := true } }
  else onHwd (fun h => { h with result := 1 }) s

/-- HWD_LIFECYCLE_LOCK (R378). -/
def execHwdLifecycleLock (s : State) : Ans := whenOn s.isl.met s lifecycleLock

/-- TAMPER_CAUSE_READ (R385): the read returns the source bits and clears them. -/
def execTamperCauseRead (s : State) : Ans :=
  .next (onHwd (fun h => { h with cause := 0 })
    { s with hst := { s.hst with readData := [s.hwd.cause.setWidth 32], readUr := false } })

/-- HWD_LOG_SEL_WRITE (R385): the selected entry is snapshot. -/
def logSel (val : Word) (s : State) : State :=
  let k : BitVec 4 := val.setWidth 4
  onHwd (fun h => { h with logSel := k, logData := h.log[k.toFin] }) s

/-- HWD_LOG_SEL_WRITE (R385). -/
def execHwdLogSelWrite (val : Word) (s : State) : Ans := .next (logSel val s)

/-- DEBUG_SESSION_OPEN (R370): possible only before the lifecycle lock; every derivation is refused. -/
def execDebugSessionOpen (s : State) : Ans :=
  .next (if s.otp.locked then s else onHwd (fun h => { h with debug := true, cache := [] }) s)

/-- DEBUG_SESSION_CLOSE (R370). -/
def execDebugSessionClose (s : State) : Ans := .next (onHwd (fun h => { h with debug := false }) s)

end Sys2Proof.Machine
end

