-- ==== Sys2Proof/Machine/Loops.lean ====
section
/-! DEFINITION. The channel loops (chapter 4): set-points, modes, the arithmetic of one sample of one unit. -/

namespace Sys2Proof.Machine

/-! ### Coefficients and blocks (R100, R103) -/

/-- The smallest e, from `e` on, with m < 2^(base + e). -/
def expFor (m base : Nat) : Nat → Nat → Nat
  | 0, e => e
  | k + 1, e => if m < 2 ^ (base + e) then e else expFor m base k (e + 1)

/-- E_c of a block with the masters given (R100): every master is below 2^31, so E_c is at most 7. -/
def expC (masters : List Nat) : Nat := expFor (masters.foldl max 0) 24 8 0

/-- E_c of a stage (R100). -/
def StageCfg.ec (c : StageCfg) : Nat := expC [c.kp, c.ki, c.kd, c.kt, c.kf]

/-- E_c of the inner stage. -/
def LoopCfg.ec (c : LoopCfg) : Nat := expC [c.kp, c.ki, c.kt]

/-- The coefficient word of a master at exponent e (R100). -/
def coef (master e : Nat) : Int := rhe2 master (-3 - e)

/-- A cleared block at E_c (R96). -/
def clearBlock (ec : Nat) : Block := { e := ec }

/-- sat24 that also counts the limitings (R101). -/
def sat24c (x : Int) (k : Nat) : Int × Nat := (sat24 x, if sat24 x = x then k else k + 1)

/-- Renormalisation after a sample (R103). -/
def renorm (ec : Nat) (b : Block) : Block :=
  let m := max b.mi.natAbs (max b.mf.natAbs b.md.natAbs)
  -- |m| × 2^(e − 21) < 2^x, that is |m| × 2^e < 2^(21 + x)
  let e2 := max ec (expFor (m * 2 ^ b.e) 21 16 0)
  let sh : Int := (b.e : Int) - e2
  if e2 = b.e then b else { b with e := e2, mi := rhe2 b.mi sh, mf := rhe2 b.mf sh, md := rhe2 b.md sh }

/-! ### Set-points and direction (R89 to R93) -/

/-- The bus target of R138: the stored value of the latched code, limited to the lowest voltage_limit of the FRONT
channels in service. -/
def vBus (s : State) : Nat :=
  let set := s.ctl.busSet[s.lat.levels.vsel.toFin]
  (chansOf s 1).foldl (fun v c => min v s.map.ch[c].vLim) set

/-- A value capped while the link is degraded (R185). -/
def degradedCap (veh : Veh) (safe : Nat) (x : Option Nat) : Option Nat :=
  if veh.degraded then some (match x with | some v => min v safe | none => safe) else x

/-- i_safe of a port in 1/32 A (R196). -/
def iSafe (s : State) (o : OutIx) : Nat := 32 * field s.vlk[o].cfg.toNat 8 12

/-- The vehicle target current as the loops use it (R90, R185). -/
def vehTargetCurr (s : State) (o : OutIx) : Option Nat :=
  degradedCap s.fl.veh[o] (iSafe s o) s.fl.veh[o].v.targetCurr

/-- The vehicle maximum current as the yarder uses it (R69, R185). -/
def vehMaxCurr (s : State) (o : OutIx) : Option Nat :=
  degradedCap s.fl.veh[o] (iSafe s o) s.fl.veh[o].v.maxCurr

/-- The share of a FRONT channel (R92): floor((P − house_w − floor(P × aux / 1000)) / m_F), with the house_w that was
latched in the input set of P. -/
def frontShare (s : State) (p house aux : Int) : Option Int :=
  if s.fl.plan.mF = 0 then none else some ((p - house - p * aux / 1000) / s.fl.plan.mF)

/-- The GRID share: the plan in force with the house_w that it was computed from (R89, R92). (DEDUCED, entry 91.) -/
def gridShare (s : State) (aux : Int) : Option Int := frontShare s s.fl.plan.importPlan s.fl.plan.house aux

/-- The latched GLIM term, none where no ball has the function (R64, R65). Before the first sample no rule gives the
value: it is free. -/
def glimTerm (s : State) : Option Nat :=
  let on := (List.finRange 25).any fun k => k.val ≤ 1 && s.map.pin[k].fn = 1 && s.map.pin[k].glimMode ≠ 0
  if !on then none
  else if s.lat.levels.glim.loss then some s.alc.glimFallback.toNat
  else some (if s.lat.levels.glim.have_ then s.lat.levels.glim.value else Config.glimNoSample s.fn)

/-- The raw set-point of a stage in the frame, none where it does not exist (R90, R92). -/
def stageSp (s : State) (c : ChIx) (rev : Bool) (st : StageCfg) : Option Int :=
  let cfg := s.map.ch[c]
  let h := s.fl.hand[c]
  let pk (q sub : Nat) : Option Int :=
    match cfg.pack with
    | some j => (mailOf s.lat.levels q j.val sub).map fun m => (m.value : Int)
    | none => none
  match st.kind, cfg.kind with
  | 1, 2 => match h.outlet with
    | none => none
    | some o =>
      if rev then s.fl.veh[o].v.minVolt.map fun v => (v : Int)
      else s.fl.veh[o].v.targetVolt.map fun v => (min v (min s.map.out[o].vCeil cfg.vLim) : Int)
  | 1, 3 => if rev then pk 13 0 else (pk 12 0).map fun v => min v cfg.vLim
  | 2, 2 => match h.outlet with
    | none => none
    | some o => (vehTargetCurr s o).map fun v => (min s.fl.plan.outs[o].iCeil v : Int)
  | 2, 3 => pk 14 (if rev then 1 else 0)
  | 3, 2 => h.outlet.map fun o => (s.fl.plan.outs[o].budget.natAbs : Int)
  | 3, 3 => cfg.pack.map fun j => (s.fl.plan.packs[j].natAbs : Int)
  | 4, 2 => h.outlet.map fun o => (s.fl.ccl[o].iHr : Int)
  | 5, _ => some cfg.tLim
  | 6, _ => if st.pol = 0 then none else some ((vBus s : Int) + st.aux)
  | 7, 1 => (gridShare s st.aux).map fun v => (v.natAbs : Int)
  | 8, 1 =>
    if rev then none
    else match glimTerm s with
      | some p => (frontShare s p s.alc.house.toNat st.aux).map fun v => max 0 v
      | none => none
  | _, _ => none

/-- The direction of a channel in the frame (R93): true is d = −1. -/
def dirOf (s : State) (c : ChIx) : Bool :=
  let cfg := s.map.ch[c]
  match cfg.kind with
  | 2 => match s.fl.hand[c].outlet with
    | some o => s.fl.plan.outs[o].discharge
    | none => false
  | 3 => match cfg.pack with
    | some j => s.fl.plan.packs[j] < 0
    | none => false
  | 1 =>
    let aux := match s.map.loop[(⟨cfg.loopT % 32, by omega⟩ : Fin 32)].stages.find? (·.kind = 7) with
      | some st => st.aux
      | none => 0
    match gridShare s aux with
    | some v => v < 0
    | none => false
  | _ => false

/-- The loop template of a channel. -/
def loopOf (s : State) (c : ChIx) : LoopCfg := s.map.loop[(⟨s.map.ch[c].loopT % 32, by omega⟩ : Fin 32)]

/-- A stage that is idle in the frame (R90, R91, R112). -/
def stageIdle (s : State) (c : ChIx) (rev : Bool) (m : Nat) (st : StageCfg) : Bool :=
  let dirOk := if rev then st.dir / 2 % 2 = 1 else st.dir % 2 = 1
  st.kind = 0 || !dirOk || !stageActs s.map.ch[c].kind st.kind || (stageSp s c rev st).isNone ||
    (s.map.ch[c].kind = 2 && (st.kind = 2 || st.kind = 3 || st.kind = 4) && m = 0)

/-! ### Modes (R94, R96 to R98) -/

/-- The loop mode of the frame that opens and the causes of a ramp (R96, R130, R358). -/
def modeOf (s : State) (c : ChIx) : LMode × List RampCause :=
  let cfg := s.map.ch[c]
  let h := s.fl.hand[c]
  if s.ctl.ports[c].prev.wdog then (.zero, [])
  else match cfg.kind with
  | 1 =>
    match s.fl.bus.st with
    | .run => (.active, [])
    | .softStart => (.track, [])
    | .shutdown => (.ramp, [.bus])
    | _ => (.zero, [])
  | 3 =>
    match cfg.pack with
    | none => (.zero, [])
    | some j =>
      let act := match mailOf s.lat.levels 16 j.val 0 with
        | some m => m.action && m.value ≠ 0
        | none => false
      let causes := (if act || s.fl.packOpen.getLsbD j then [RampCause.packOpen] else []) ++
        (if s.fl.packLease.getLsbD j then [.lease] else [])
      if causes ≠ [] then (.ramp, causes) else if s.fl.packOn.getLsbD j then (.active, []) else (.zero, [])
  | _ =>
    match h.st with
    | .rampDown => (.ramp, [.handover])
    | .closing => (.track, [])
    | .tracking => (.track, [])
    | .settled =>
      match h.outlet with
      | none => (.zero, [])
      | some o =>
        match s.fl.osq[o].st with
        | .energy => if h.fresh then (.track, []) else (.active, [])
        | .rampDown => (.ramp, [if s.fl.osq[o].fast then .outletFast else .outlet])
        | .cableCheck => (.track, [])
        | .precharge => (.track, [])
        | _ => (.zero, [])
    | _ => (.zero, [])

/-- The ramp rate of a cause in A/ms, with |I| in 1/32 A (R94, R156). -/
def rampRate (s : State) (c : ChIx) (i : Nat) (cause : RampCause) : Nat :=
  let t := match cause with
    | .handover => 8
    | .outletFast => 15
    | .packOpen => 15
    | .lease => 50
    | .bus => 50
    | .outlet => match s.fl.hand[c].outlet with
      | some o => max 15 (field s.osqR[o].timing.toNat 24 8)
      | none => 15
  max s.map.ch[c].slew (cdiv i (32 * t))

/-- The pu value of a raw current at exponent e (R98, R102). -/
def puOf (i : Int) (invCl : Int) (e : Nat) : Int := clamp2 e (sat24 (rhe2 (i * invCl) (-19 - e)))

/-- inv_cl of a channel (R102). -/
def invClOf (s : State) (c : ChIx) : Int := if s.map.ch[c].iLim = 0 then 0 else rheDiv (2 ^ 40) s.map.ch[c].iLim

/-- The unit at the start of a frame: mode change, direction, ramp rate and the latched set-points (R89, R94 to R98).
The measurement is the one latched at sample 0. -/
def unitFrame (s : State) (c : ChIx) (u : ChUnit) : ChUnit :=
  let cfg := loopOf s c
  let (mode, causes) := modeOf s c
  let rev := dirOf s c
  let u := if u.stages.length = cfg.stages.length then u
    else { u with stages := cfg.stages.map fun st => clearBlock st.ec, inner := clearBlock cfg.ec }
  let flip := rev ≠ u.rev
  let u := { u with rev := rev, rw := if flip then -u.rw else u.rw,
                    intStatus := if flip then setBit u.intStatus 4 else u.intStatus }
  let i := u.meas.iOut.natAbs
  let m := match s.map.ch[c].kind, s.fl.hand[c].outlet with
    | 2, some o => s.fl.plan.outs[o].count
    | _, _ => 1
  let enter := mode = .active && u.mode ≠ .active
  let init := mode = .active && (u.mode = .track || u.mode = .zero)
  let clear := mode = .zero || mode = .track
  let d : Int := if rev then -1 else 1
  let own : Int := d * u.meas.iOut
  let stage (b : Block) (st : StageCfg) : Block :=
    let b := if clear then clearBlock st.ec
      else if init then { clearBlock st.ec with mi := puOf own (invClOf s c) st.ec } else b
    let idle := clear || stageIdle s c rev m st
    let sp := (stageSp s c rev st).getD 0
    let jump := enter || b.idle || st.spSlew = 0
    { b with idle := idle, sp := sp, spw := if idle then b.spw else if jump then sp * 65536 else b.spw }
  let rate : Nat :=
    if mode ≠ .ramp then 0
    else
      let again : Bool := decide (u.mode = LMode.ramp)
      let new : List RampCause := if again then causes.filter (fun k => !u.causes.contains k) else causes
      let old : Nat := if again then u.rate else 0
      new.foldl (fun (r : Nat) (k : RampCause) => max r (rampRate s c i k)) old
  { u with
    mode := mode, causes := causes, rate := rate, m := m, out := s.fl.hand[c].outlet,
    stages := (u.stages.zip cfg.stages).map fun (b, st) => stage b st,
    inner := if clear then clearBlock cfg.ec else { u.inner with idle := false, mi := if init then 0 else u.inner.mi },
    rw := if clear then 0 else if init then max 0 own * 65536 else u.rw,
    rRaw := if clear then 0 else u.rRaw,
    sMag := if clear then 0 else u.sMag,
    slewing := !clear && u.slewing,
    innerSat := !clear && u.innerSat,
    hold := if clear then false else u.hold,
    limiting := if clear then false else u.limiting }

/-- The flags of a frame start again at its boundary, before sample 0 is latched (R105, R109). -/
def unitOpen (u : ChUnit) : ChUnit :=
  { u with prevWinner := if u.computed then some u.winner else none,
           computed := false, holdEnded := false, evHold := false, evSat := false }

/-! ### One sample of one unit (R88, R90, R91, R102 to R105) -/

/-- The measurement of a stage kind (R90). -/
def measOf (chanKind : Nat) (k : Nat) (m : Uplink) : Int :=
  match k with
  | 1 => m.vOut
  | 2 => m.iOut
  | 3 => m.iOut * m.vOut / 1024
  | 4 => m.iOut
  | 5 => m.tHs
  | 6 => if chanKind = 1 then m.vOut else m.vDc
  | _ => m.iOut * m.vOut / 1024

/-- Y_out of a stage (R91): the sum over the outlet's outbound channels of the same quantity, as last latched. -/
def yOutOf (s : State) (c : ChIx) (kind : Nat) : Int :=
  match s.map.ch[c].kind, s.fl.hand[c].outlet with
  | 2, some o =>
    ((List.finRange 96).filter fun x => s.fl.hand[x].st = .rampDown && s.fl.hand[x].outlet = some o).foldl
      (fun a x => a + measOf 2 kind s.ctl.units[x].meas) 0
  | _, _ => 0

/-- The error of a stage (R90, R91). -/
def stageErr (s : State) (c : ChIx) (u : ChUnit) (st : StageCfg) (sp y : Int) : Int :=
  let d : Int := if u.rev then -1 else 1
  match st.kind with
  | 1 => d * (sp - y)
  | 5 => sp - y
  | 6 => (if st.pol = 1 then 1 else -1) * (sp - y)
  | _ =>
    let outlet := s.map.ch[c].kind = 2 && (st.kind = 2 || st.kind = 3 || st.kind = 4)
    let m : Int := if outlet then u.m else 1
    let yo := if outlet then yOutOf s c st.kind else 0
    tdiv (sp - d * yo) m - d * y

/-- The working set-point after one sample (R95). -/
def slewSp (b : Block) (st : StageCfg) (n : Nat) : Int :=
  let t := b.sp * 65536
  let dl : Int := (st.spSlew * 65536 / n : Nat)
  if st.spSlew = 0 then t else if b.spw < t then min t (b.spw + dl) else max t (b.spw - dl)

/-- First half of a stage: filtered error and candidate (R102). The answer holds the block with its set-point and
measurement, m_f2, m_c and the limitings. -/
def stageEval (s : State) (c : ChIx) (u : ChUnit) (n : Nat) (st : StageCfg) (b : Block) : Block × Int × Int × Nat :=
  if b.idle then (b, 0, 0, 0)
  else
    let spw := slewSp b st n
    let y := measOf s.map.ch[c].kind st.kind u.meas
    let err := stageErr s c u st (spw / 65536) y
    let (me, k1) := sat24c (rhe2 (err * st.invScale) (-19 - b.e)) 0
    let me := clamp2 b.e me
    let (f2, k2) := sat24c (b.mf + rhe2 (coef st.kf b.e * (me - b.mf)) ((b.e : Int) - 21)) k1
    let f2 := clamp2 b.e f2
    let (mc, k3) := sat24c (b.mi + rhe2 (coef st.kp b.e * f2 + coef st.kd b.e * (f2 - b.md)) ((b.e : Int) - 21)) k2
    let mc := clamp2 b.e mc
    let craw := rhe2 (mc * s.map.ch[c].iLim) ((b.e : Int) - 21)
    ({ b with spw := spw, y := y, cand := craw }, f2, mc, k3)

/-- Second half of a stage: integrate and bleed, renormalise (R102, R103). -/
def stageBleed (rMag invCl : Int) (st : StageCfg) (r : Block × Int × Int × Nat) : Block × Nat :=
  let (b, f2, mc, k) := r
  let (ms, k1) := sat24c (rhe2 (rMag * invCl) (-19 - b.e)) k
  let ms := clamp2 b.e ms
  if b.idle then (renorm st.ec { b with mi := ms, mf := 0, md := 0 }, k1)
  else
    let (mi, k2) := sat24c (b.mi + rhe2 (coef st.ki b.e * f2 + coef st.kt b.e * (ms - mc)) ((b.e : Int) - 21)) k1
    (renorm st.ec { b with mi := clamp2 b.e mi, md := b.mf, mf := f2 }, k2)

/-- The lowest candidate of the applicable stages and its stage index (R93). -/
def selectMin : Nat → List Block → Option (Int × Nat)
  | _, [] => none
  | k, b :: bs =>
    match selectMin (k + 1) bs with
    | none => if b.idle then none else some (b.cand, k)
    | some (v, j) => if b.idle then some (v, j) else if b.cand ≤ v then some (b.cand, k) else some (v, j)

/-- The reference limiter (R94). -/
def limitRef (mode : LMode) (sMag rw : Int) (slew rate n : Nat) : Int :=
  let t := sMag * 65536
  match mode with
  | .ramp => max 0 (min t (rw - (cdiv (rate * 32 * 65536) n : Nat)))
  | _ => if rw < t then min t (rw + (slew * 32 * 65536 / n : Nat)) else t

/-- The inner stage (R104): the block with m_u in `cand`, the command, saturation and limitings. -/
def innerEval (cfg : LoopCfg) (b : Block) (rRaw iOwn invCl : Int) : Block × Int × Bool × Nat :=
  let (me, k1) := sat24c (rhe2 ((rRaw - iOwn) * invCl) (-19 - b.e)) 0
  let me := clamp2 b.e me
  let (un, k2) := sat24c (b.mi + rhe2 (coef cfg.kp b.e * me) ((b.e : Int) - 21)) k1
  let lim := rhe2 cfg.umax (6 - b.e)
  let mu := clampI (-lim) lim un
  let (mi, k3) := sat24c (b.mi + rhe2 (coef cfg.ki b.e * me + coef cfg.kt b.e * (mu - un)) ((b.e : Int) - 21)) k2
  let cmd := sat16 (rhe2 mu ((b.e : Int) - 6))
  (renorm cfg.ec { b with mi := clamp2 b.e mi, cand := mu, y := iOwn, sp := rRaw, spw := rRaw * 65536 }, cmd, mu ≠ un, k3)

/-- One computed sample of a unit in ACTIVE or RAMP (R102 to R104). -/
def unitCompute (s : State) (c : ChIx) (u : ChUnit) (seq : BitVec 16) : ChUnit :=
  let cfg := loopOf s c
  let n := nOf s c
  let cl := s.map.ch[c].iLim
  let inv := invClOf s c
  let ev := (u.stages.zip cfg.stages).map fun (b, st) => stageEval s c u n st b
  let sel := selectMin 0 (ev.map (·.1))
  let sMag := match sel with | some (v, _) => min (cl : Int) (max 0 v) | none => 0
  let rw := limitRef u.mode sMag u.rw s.map.ch[c].slew u.rate n
  let rMag := rw / 65536
  let d : Int := if u.rev then -1 else 1
  let bl := (ev.zip cfg.stages).map fun (r, st) => stageBleed rMag inv st r
  let (inner, cmd, isat, ki) := innerEval cfg u.inner (d * rMag) u.meas.iOut inv
  let sats := bl.foldl (fun a (_, k) => a + k) ki
  let slewing := (bl.map (·.1)).any fun (b : Block) => !b.idle && decide (b.spw ≠ b.sp * 65536)
  { u with
    stages := bl.map (·.1), inner := inner, rw := rw, sMag := sMag, rRaw := d * rMag, cmd := cmd, cmdSeq := seq,
    winner := match sel with | some (_, k) => k | none => 0, winnerValid := sel.isSome, computed := sel.isSome,
    limiting := u.mode = .active && rw < sMag * 65536, slewing := slewing, innerSat := isat,
    cntInner := if isat then u.cntInner + 1 else u.cntInner, cntMant := u.cntMant + BitVec.ofNat 16 sats,
    intStatus := (if isat then setBit u.intStatus 2 else u.intStatus) ||| (if sats = 0 then 0 else 8) }

/-- One sample of one unit (R88, R105): the answer also says whether a hold began and whether mantissas saturated for
the first time in the frame. -/
def unitSample (s : State) (c : ChIx) (u : ChUnit) (seq : BitVec 16) : ChUnit × Bool × Bool :=
  if u.mode ≠ .active ∧ u.mode ≠ .ramp then ({ u with winnerValid := false, cmd := 0, cmdSeq := seq }, false, false)
  else if u.hold then ({ u with cmdSeq := seq }, false, false)
  else
    let v := unitCompute s c u seq
    let sat := v.cntMant ≠ u.cntMant && !u.evSat
    ({ v with evSat := u.evSat || sat }, false, sat)

end Sys2Proof.Machine
end

