-- ==== Sys2Proof/Machine/Ports.lean ====
section
/-! DEFINITION. Channel ports (chapter 5): frames, the sample latch, tracking references, shorts, and the commands of
the loop engine and the ports. -/

namespace Sys2Proof.Machine

/-- The codes of R81. -/
def HSt.code : HSt → Nat
  | .idle => 0 | .settled => 1 | .rampDown => 2 | .opening => 3 | .closing => 4 | .tracking => 5 | .routeFault => 6 | .out => 7

/-- The codes of LPE_STATUS.mode. -/
def LMode.code : LMode → Nat
  | .zero => 0 | .track => 1 | .ramp => 2 | .active => 3

/-- The codes of CHP_STATUS.bus_state. -/
def BusSt.code : BusSt → Nat
  | .off => 0 | .softStart => 1 | .run => 2 | .shutdown => 3 | .aborted => 4

/-! ### Frames (R118, R120, R123) -/

/-- The check sum as the frames carry it: high byte first. -/
def crcBytes (bs : List Byte) : List Byte :=
  let c := crc16 bs
  [c.extractLsb' 8 8, c.extractLsb' 0 8]

/-- The bytes of a downlink frame (R120). -/
def Downlink.bytes (d : Downlink) : List Byte :=
  let ctl := bit d.src + 2 * (d.mode % 8) + 16 * bit d.spread + 32 * (d.profile % 4) + 128 * bit d.first
  let body := leBytes 2 d.seq.toNat ++ leBytes 1 ctl ++ leBytes 1 (d.chan % 128) ++ leBytes 2 (unsigned 16 d.cmd) ++
    leBytes 2 d.limit ++ leBytes 2 d.period ++ leBytes 1 (d.word % 4 + 4 * bit d.close) ++ leBytes 1 d.n ++
    leBytes 2 d.ramp
  body ++ crcBytes body

/-- Byte `i` of a frame. -/
def byteAt (bs : List Byte) (i : Nat) : Byte := bs.getD i 0

/-- The little-endian value of bytes `i` to `i + n - 1`. -/
def leAt (bs : List Byte) (i n : Nat) : Nat := leNat ((bs.drop i).take n)

/-- The uplink that sixteen bytes spell (R123), whatever their check sum. -/
def parseUplink (bs : List Byte) : Uplink :=
  { echo := BitVec.ofNat 16 (leAt bs 0 2), status := byteAt bs 2, fault := byteAt bs 3,
    iOut := signed 16 (leAt bs 4 2), vOut := leAt bs 6 2, vDc := leAt bs 8 2, tHs := signed 16 (leAt bs 10 2),
    fb := byteAt bs 12 }

/-- The check sum of R118 holds. -/
def crcOk (bs : List Byte) : Bool := (bs.drop 14).take 2 = crcBytes (bs.take 14)

/-- The channel is OUT: out of service, or an OUTLET channel whose handover is OUT (R81). (DEDUCED, entry 19.) -/
def chOut (s : State) (c : ChIx) : Bool :=
  s.map.ch[c].kind = 0 || (s.map.ch[c].kind = 2 && s.fl.hand[c].st = .out)

/-- The src bit of the package's downlinks: its identity, 0 for a single package (R120, R278). -/
def srcOf (s : State) : Bool := s.tdm.st ≠ .single && s.tdm.identity

/-- An uplink carries a fault status (R125). -/
def faultUp (p : Port) (m : Uplink) : Bool :=
  m.status.getLsbD 1 || m.status.getLsbD 2 || !m.status.getLsbD 6 || p.mismatch

/-! ### The sample latch (R19, R105, R125, R137) -/

/-- The global sample number of sample i of the frame for a cluster (R15), modulo 2^16. -/
def seqAt (s : State) (c : ChIx) (i : Nat) : BitVec 16 := BitVec.ofNat 16 (s.fn * nOf s c + i)

/-- The source of V_b at a sample start (R135). -/
def vb (s : State) (o : OutIx) : Option Nat :=
  let live := s.fl.osq[o].st = .energy || s.fl.osq[o].st = .rampDown
  let settled := if live then (settledOn s.fl o).find? fun x => s.ctl.units[x].valid else none
  match settled with
  | some x => some s.ctl.units[x].meas.vOut
  | none =>
    match s.map.out[o].met with
    | some k => s.lat.levels.vCab[k]
    | none => s.fl.veh[o].v.presentVolt

/-- V_bm at a sample start (R139). -/
def vbm (s : State) : Option Nat :=
  ((chansOf s 1).find? fun c => s.ctl.units[c].valid).map fun c => s.ctl.units[c].meas.vOut

/-- Set a CHP event bit, 0 to 5 for CHP_STATUS [21:16], and raise its event (R144, R442). -/
def chpEvent (c : ChIx) (b ord : Nat) (s : State) : State :=
  raise { s with ctl := { s.ctl with ports := Vec.upd s.ctl.ports c fun p => { p with events := setBit p.events b } } }
    { rank := 5, code := 4 + b, num := c.val, ord := ord }

/-- A CHP event that the computation of a frame finds: its bit shows from the next boundary. -/
def chpLate (c : ChIx) (b ord : Nat) (s : State) : State :=
  raise { s with late := { s.late with chp := Vec.upd s.late.chp c fun w => setBit w b } }
    { rank := 5, code := 4 + b, num := c.val, ord := ord }

/-- Set an LPE status bit (R114) and raise the event of R109 with the code given. -/
def lpeEvent (c : ChIx) (b ord : Nat) (s : State) : State :=
  raise { s with ctl := { s.ctl with
    units := Vec.upd s.ctl.units c fun u => { u with intStatus := setBit u.intStatus b } } }
    { rank := 5, code := if b = 3 then 3 else b + 1, num := c.val, ord := ord }

/-- The unit enters the hold of R105. -/
def enterHold (c : ChIx) (ord : Nat) (s : State) : State :=
  let u := s.ctl.units[c]
  if u.hold then s
  else
    let s := { s with ctl := { s.ctl with units := Vec.upd s.ctl.units c fun u => { u with hold := true, evHold := true } } }
    if u.evHold then s else lpeEvent c 1 ord s

/-- The order of channel events within a frame: sample index, then channel (R31). -/
def chOrd (i : Nat) (c : ChIx) : Nat := 96 * i + c.val

/-- The package retains its uplinks to recompute a frame (R27, R298). -/
def retains (s : State) : Bool := s.tdm.st = .reseed || s.tdm.st = .sync

/-- A captured uplink, for the journal while capture is set (R418), or retained. -/
def keepUp (keep : Bool) (sum : FrameSum) (m : Option Uplink) : FrameSum :=
  if keep then { sum with ups := sum.ups ++ [m] } else sum

/-- What stays received after a latch that expected the echo e: the answers to newer downlinks, for the latches that
expect them (R19). -/
def rxNewer (e : BitVec 16) (rx : List Uplink) : List Uplink :=
  rx.filter fun m => decide (0 < (m.echo - e).toNat) && decide ((m.echo - e).toNat < 2 ^ 15)

/-- The latch of one channel at the start of sample i (R19, R125): the echo expected is that of downlink s − 2. -/
def latchUp (i : Nat) (s : State) (c : ChIx) : State :=
  let u := s.ctl.units[c]
  let p := s.ctl.ports[c]
  let e := seqAt s c i - 2
  match p.rx.find? fun m => m.echo = e with
  | some m =>
    let partner := m.status.getLsbD 0 != srcOf s
    let wdog := m.status.getLsbD 2
    let sum := { p.sum with
      samples := p.sum.samples + 1, valids := p.sum.valids + 1, low := p.sum.low && m.iOut.natAbs ≤ 64,
      lowValid := p.sum.lowValid && m.iOut.natAbs ≤ 64,
      fb := (m.fb :: p.sum.fb).take 2, wdog := p.sum.wdog || wdog }
    let p' := { p with
      rx := rxNewer e p.rx, absentRun := 0, partner := partner, lastV := some m.vOut, sum := keepUp (u.capture || retains s) sum (some m),
      cntPartner := if partner then p.cntPartner + 1 else p.cntPartner }
    let u' := { u with meas := m, valid := true, seen := true, staleRun := 0, hold := false,
                       holdEnded := u.holdEnded || u.hold }
    let s := { s with
      ctl := { s.ctl with units := s.ctl.units.set c u', ports := s.ctl.ports.set c p' },
      tdm := { s.tdm with upPartner := if partner then setBit s.tdm.upPartner c.val else s.tdm.upPartner,
                          upSeen := s.tdm.upSeen || (partner && s.tdm.st = .wait) } }
    if wdog ∧ p.sum.wdog = false then chpEvent c 4 (chOrd i c) s else s
  | none =>
    let sum := { p.sum with samples := p.sum.samples + 1, stale := p.sum.stale ++ [i],
                                 low := p.sum.low && u.meas.iOut.natAbs ≤ 64 }
    let p' := { p with rx := rxNewer e p.rx, absentRun := p.absentRun + 1, cntAbsent := p.cntAbsent + 1, sum := keepUp (u.capture || retains s) sum none }
    let u' := { u with valid := false, staleRun := u.staleRun + 1, cntStale := u.cntStale + 1 }
    let s := { s with ctl := { s.ctl with units := s.ctl.units.set c u', ports := s.ctl.ports.set c p' } }
    let s := if inService s c then overrun c.val s else s
    if p'.absentRun = 8 then chpEvent c 2 (chOrd i c) s else s

/-- The hold of R105 at the start of sample i, in the mode of the frame: from the third absent uplink on. -/
def holdTest (i : Nat) (s : State) (c : ChIx) : State :=
  let u := s.ctl.units[c]
  if 3 ≤ u.staleRun ∧ (u.mode = .active ∨ u.mode = .ramp) then enterHold c (chOrd i c) s else s

/-- The outlet whose voltage a channel tracks or is measured against (R136). -/
def trackOutlet (s : State) (c : ChIx) : Option OutIx :=
  match s.fl.hand[c].st with
  | .closing => s.fl.hand[c].dest
  | .tracking => s.fl.hand[c].dest
  | .settled => s.fl.hand[c].outlet
  | _ => none

/-- The test of R137 on one channel at a sample start, after the latch. -/
def trackTest (s : State) (c : ChIx) : State :=
  let u := s.ctl.units[c]
  if !u.valid then s
  else
    let ok := match trackOutlet s c with
      | some o => match vb s o with
        | some v => decide (((u.meas.vOut : Int) - v).natAbs ≤ 160)
        | none => false
      | none => false
    { s with ctl := { s.ctl with ports := Vec.upd s.ctl.ports c fun p =>
      { p with sum := { p.sum with track := p.sum.track && ok } } } }

/-- track_ok of a frame summary (R137). -/
def trackOk (n : Nat) (f : FrameSum) : Bool := n ≤ 2 * f.valids && f.track

/-- What the bus guard of R139 keeps of a sample start in a cluster with FRONT channels. -/
def busTest (s : State) : State :=
  match vbm s with
  | none => s
  | some v =>
    let ok := decide (((v : Int) - vBus s).natAbs ≤ vBus s / 50)
    { s with ctl := { s.ctl with lastVbm := some v,
                                 busSum := { s.ctl.busSum with any := true, within := s.ctl.busSum.within && ok } } }

/-- The eight channels of a cluster. -/
def chansIn (k : CluIx) : List ChIx := (List.finRange 8).map (chanOf k)

/-- The latch of a cluster's eight channels at the start of its next sample to be latched. -/
def latchCluster (s : State) (k : CluIx) : State :=
  let s := (chansIn k).foldl (latchUp s.ctl.clu[k].latched) s
  { s with ctl := { s.ctl with clu := Vec.upd s.ctl.clu k fun x => { x with latched := x.latched + 1 } } }

/-- The tests of R137 and R139 on a cluster, after every latch of the sample start. -/
def testCluster (s : State) (k : CluIx) : State :=
  let s := (chansIn k).foldl trackTest s
  if (chansIn k).any fun c => s.map.ch[c].kind = 1 then busTest s else s

/-- The clusters whose next sample starts at or before i / n of the frame and is not latched yet (R91, R135). -/
def dueAt (s : State) (i n : Nat) : List CluIx :=
  (List.finRange 12).filter fun j =>
    let x := s.ctl.clu[j]
    decide (x.latched = x.next) && decide (x.next < s.map.clu[j].n) && decide (x.next * n ≤ i * s.map.clu[j].n)

/-- A sample start: every cluster whose sample has started latches, then the tests and holds follow. -/
def latchAt (i n : Nat) (s : State) : State :=
  let due := dueAt s i n
  let s := due.foldl testCluster (due.foldl latchCluster s)
  due.foldl (fun s k => (chansIn k).foldl (holdTest s.ctl.clu[k].next) s) s

/-! ### Tracking references (R136, R138, R140) -/

/-- A field of CHP_TRACK_CFG with the limits of R146. -/
def trkField (w : Word) (lo hi : Nat) : Nat := min hi (max 1 (field w.toNat lo 8))

/-- The lowest-index FRONT channel in service. -/
def frontLow (s : State) : Option ChIx := (chansOf s 1).head?

/-- t_ss and the detection window of the bus in milliseconds (R141). -/
def busTss (s : State) : Nat :=
  match frontLow s with
  | some c => 10 * trkField s.ctl.ports[c].trackCfg 24 50
  | none => 10

/-- φ at t microseconds after the entry boundary (R140). -/
def phiAt (s : State) (t : Nat) : Nat := min 65536 (s.fl.bus.phi0 + 65536 * t / (1000 * busTss s))

/-- Time since the entry boundary at sample i of the frame in a cluster of n samples. -/
def busTime (s : State) (i n : Nat) : Nat := 1000 * (s.fn - s.fl.bus.entryFn) + 1000 * i / n

/-- V_ss at sample i (R140). -/
def vss (s : State) (i n : Nat) : Nat := phiAt s (busTime s i n) * vBus s / 65536

/-- The cable-check test voltage of an outlet in 1/32 V (R158). -/
def ccVolt (s : State) (o : OutIx) : Nat :=
  let v := s.map.out[o].vCeil
  let host := field s.osqR[o].cc.toNat 0 16
  if host = 0 then (match s.fl.veh[o].v.maxVolt with | some x => min x v | none => v) else host

/-- What a channel in TRACK does: 1 cable check, 2 pre-charge, 3 soft start of the bus, 4 coincident tracking. -/
def trackSit (s : State) (c : ChIx) : Nat :=
  match s.map.ch[c].kind with
  | 1 => 3
  | 2 => match s.fl.hand[c].st, s.fl.hand[c].outlet with
    | .settled, some o => match s.fl.osq[o].st with
      | .cableCheck => 1
      | .precharge => 2
      | _ => 4
    | _, _ => 4
  | _ => 0

/-- The final target of R141 and the reference of R136 before its clamps, at sample i. -/
def trackRef (s : State) (c : ChIx) (i : Nat) : Option Nat :=
  match trackSit s c with
  | 1 => (trackOutlet s c).map (ccVolt s)
  | 3 => some (vss s i (nOf s c))
  | 0 => none
  | _ => (trackOutlet s c).bind (vb s)

/-- The reference with the clamps of R136. -/
def trackCmd (s : State) (c : ChIx) (i : Nat) : Option Nat :=
  (trackRef s c i).map fun v =>
    let v := min v s.map.ch[c].vLim
    match s.map.ch[c].kind, trackOutlet s c with
    | 2, some o => min v s.map.out[o].vCeil
    | _, _ => v

/-- The tracking limit of R136 in 1/32 A. -/
def trackLimit (s : State) (c : ChIx) : Nat :=
  32 * trkField s.ctl.ports[c].trackCfg (if trackSit s c = 3 then 8 else 0) 255

/-! ### Shorts (R141, R142) -/

/-- The channel is in a situation in which a short is detected. -/
def shortSit (s : State) (c : ChIx) : Bool :=
  s.ctl.units[c].mode = .track && (trackSit s c = 1 || trackSit s c = 2 || trackSit s c = 3)

/-- A short is detected on a channel (R142): STOP from the next sample, the summary of the frame, the event. -/
def shortDetect (c : ChIx) (ord : Nat) (s : State) : State :=
  if shortSit s c ∧ s.ctl.ports[c].stopHeld = false then
    let s := { s with ctl := { s.ctl with
      ports := Vec.upd s.ctl.ports c fun p => { p with stopHeld := true, sum := { p.sum with shorted := true } },
      busSum := if trackSit s c = 3 then { s.ctl.busSum with short := true } else s.ctl.busSum } }
    chpEvent c 0 ord s
  else s

/-- The run of samples at the limit (R141 way 1). -/
def limitTest (i : Nat) (s : State) (c : ChIx) : State :=
  let u := s.ctl.units[c]
  if shortSit s c ∧ u.valid ∧ s.ctl.ports[c].stopHeld = false then
    let l := trackLimit s c
    let run := if l - l / 16 ≤ u.meas.iOut.natAbs then s.ctl.ports[c].limRun + 1 else 0
    let s := { s with ctl := { s.ctl with ports := Vec.upd s.ctl.ports c fun p => { p with limRun := run } } }
    if 20 * nOf s c < run then shortDetect c (chOrd i c) s else s
  else s

/-- The detection window of a channel in milliseconds (R141). -/
def shortWindow (s : State) (c : ChIx) : Nat :=
  if trackSit s c = 3 then
    match frontLow s with
    | some f => max (10 * trkField s.ctl.ports[f].trackCfg 16 100) (busTss s + 20)
    | none => 0
  else 10 * trkField s.ctl.ports[c].trackCfg 16 100

/-- The voltage of a channel is too low for the final target (R141 way 2). -/
def shortLow (s : State) (c : ChIx) : Bool :=
  let target := match trackSit s c with
    | 1 => (trackOutlet s c).map (ccVolt s)
    | 2 => (trackOutlet s c).bind (vb s)
    | _ => some (vBus s)
  match s.ctl.ports[c].lastV, target with
  | some v, some t => v * 10 < t * 9
  | _, _ => false

/-- The window test at a boundary, after the latch of sample 0 (R141 way 2). (DEDUCED, entry 114.) -/
def windowTest (s : State) (c : ChIx) : State :=
  if shortSit s c ∧ s.ctl.ports[c].winDone = false ∧ shortWindow s c ≤ s.ctl.ports[c].trackFrames then
    let s := { s with ctl := { s.ctl with ports := Vec.upd s.ctl.ports c fun p => { p with winDone := true } } }
    if shortLow s c then shortDetect c (chOrd 0 c) s else s
  else s

/-! ### The downlink (R120, R122, R131) -/

/-- The spread bit of a channel (R131). -/
def spreadOf (s : State) (c : ChIx) : Bool :=
  let p := s.ctl.ports[c]
  s.map.ch[c].spread = 1 && (s.ctl.units[c].mode = .track || p.test || 0 < p.spreadLeft)

/-- The port sends no frame (R122, R280, R46). -/
def portSilent (s : State) (c : ChIx) : Bool :=
  minimal s || !transmits s || (s.ctl.ports[c].portOff && chOut s c)

/-- The downlink of a sample that a pipeline computed (R120, R122). -/
def downlinkOf (s : State) (c : ChIx) (i : Nat) : Downlink :=
  let cfg := s.map.ch[c]
  let u := s.ctl.units[c]
  let h := s.fl.hand[c]
  let mcl : Nat × Int × Nat := match u.mode with
    | .zero => (0, 0, cfg.iLim)
    | .track =>
      let l := trackLimit s c
      if s.ctl.ports[c].stopHeld then (0, 0, l)
      else match trackCmd s c i with
        | some v => (2, (v : Int), l)
        | none => (0, 0, l)
    | _ => (1, u.cmd, cfg.iLim)
  let close := cfg.kind = 2 && h.word.isSome && !chOut s c
  { seq := seqAt s c i, src := srcOf s, mode := mcl.1, cmd := mcl.2.1, limit := mcl.2.2, spread := spreadOf s c,
    profile := cfg.spread, first := i = 0, chan := c.val, period := cfg.swPer / 2, close := close,
    word := if close then h.word.getD 0 else 0, n := nOf s c, ramp := cfg.wdRamp }

/-- The fixed zero command of a lost cluster (R10, R122). -/
def zeroDownlink (s : State) (c : ChIx) (i : Nat) : Downlink :=
  let last := s.ctl.ports[c].tx.getD { chan := c.val, n := nOf s c, period := s.map.ch[c].swPer / 2,
                                       ramp := s.map.ch[c].wdRamp, limit := s.map.ch[c].iLim }
  { last with seq := seqAt s c i, src := srcOf s, mode := 0, cmd := 0, first := i = 0 }

/-- Send what the port sends in sample i. -/
def sendDown (s : State) (c : ChIx) (i : Nat) : State :=
  let lost := s.ctl.clu[cluOf c].pipe.isNone
  let silent := portSilent s c || (lost && inStep s)
  let d := if lost then zeroDownlink s c i else downlinkOf s c i
  { s with ctl := { s.ctl with ports := Vec.upd s.ctl.ports c fun p =>
    if silent then { p with silent := true } else { p with silent := false, tx := some d, zeroCmd := lost } } }

/-- One channel's slot in sample i (R9, R88). -/
def slot (i : Nat) (s : State) (c : ChIx) : State :=
  if s.ctl.clu[cluOf c].pipe.isNone then sendDown s c i
  else
    let (u, _, sat) := unitSample s c s.ctl.units[c] (seqAt s c i)
    let s := { s with ctl := { s.ctl with units := s.ctl.units.set c u } }
    let s := if sat then lpeEvent c 3 (chOrd i c) s else s
    limitTest i (sendDown s c i) c

/-- The unit state for the digest (R24): that after a sample which completes, 7.6 µs after its start, before 940 µs. -/
def digestUnits (k : CluIx) (i : Nat) (s : State) : State :=
  if 10000 * i < 9324 * s.map.clu[k].n then
    { s with ctl := { s.ctl with unitD := Vec.mapIx s.ctl.unitD fun c u => if cluOf c = k then s.ctl.units[c] else u } }
  else s

/-- One sample of a cluster (R88, R107). Sample 0 was latched at the boundary. (DEDUCED, entry 21.) -/
def sampleStart (k : CluIx) (s : State) : State :=
  let i := s.ctl.clu[k].next
  if s.map.clu[k].n ≤ i then s
  else
    let s := (chansIn k).foldl (slot i) (latchAt i s.map.clu[k].n s)
    digestUnits k i { s with ctl := { s.ctl with clu := Vec.upd s.ctl.clu k fun x => { x with next := i + 1 } } }

/-! ### The commands of the loop engine and the ports -/

/-- SAMPLE_START (R88): the next sample of a cluster. A frame has n samples; a further start in it has no effect. -/
def execSampleStart (k : CluIx) (s : State) : Ans := whenOn s.isl.ctl s (sampleStart k)

/-- STALE_HOLD (R105): the third absent uplink in a row puts a unit in ACTIVE or RAMP into hold. -/
def execStaleHold (c : ChIx) (s : State) : Ans :=
  whenOn s.isl.ctl s fun s =>
    let u := s.ctl.units[c]
    if u.mode = .active ∨ u.mode = .ramp then
      enterHold c (chOrd (s.ctl.clu[cluOf c].next - 1) c)
        { s with ctl := { s.ctl with units := Vec.upd s.ctl.units c fun u => { u with staleRun := max u.staleRun 3 } } }
    else s

/-- Receive an uplink frame: a frame with a good check sum waits for the latch, any other is counted (R125). -/
def receiveUp (c : ChIx) (bs : List Byte) (s : State) : State :=
  if bs.length ≠ 16 then s
  else if crcOk bs then
    { s with ctl := { s.ctl with ports := Vec.upd s.ctl.ports c fun p => { p with rx := parseUplink bs :: p.rx } } }
  else
    chpEvent c 1 (chOrd (s.ctl.clu[cluOf c].next - 1) c)
      { s with ctl := { s.ctl with ports := Vec.upd s.ctl.ports c fun p => { p with cntCrc := p.cntCrc + 1 } } }

/-- UPLINK_RECEIVE (R125). -/
def execUplinkReceive (c : ChIx) (bs : List Byte) (s : State) : Ans := whenOn s.isl.ctl s (receiveUp c bs)

/-- SHORT_CURRENT_LIMIT (R141): more than 20 × n valid samples at the limit. -/
def execShortCurrentLimit (c : ChIx) (s : State) : Ans :=
  whenOn s.isl.ctl s (shortDetect c (chOrd (s.ctl.clu[cluOf c].next - 1) c))

/-- SHORT_WINDOW_EXPIRY (R141): the window ends with the voltage below 90 % of the target. -/
def execShortWindowExpiry (c : ChIx) (s : State) : Ans :=
  whenOn s.isl.ctl s (shortDetect c (chOrd 0 c))

/-- The code captured at three boundaries in a row is accepted (R138): the set captured last and every later one carry
it. -/
def vselChange (code : BitVec 3) (s : State) : State :=
  { s with live := { s.live with vsel := code },
           cap := { s.cap with levels := { s.cap.levels with vsel := code } } }

/-- VSEL_CHANGE (R138): the same new code at three boundaries in a row becomes the latched code, by the path of R18. -/
def execVselChange (code : BitVec 3) (s : State) : Ans := whenOn s.isl.ctl s (vselChange code)

/-- A route-mismatch frame (R134): the mismatch is in force and the frame counts. The event is that of the first. -/
def setMismatch (c : ChIx) (s : State) : State :=
  let was := s.ctl.ports[c].mismatch
  let s := { s with ctl := { s.ctl with
    ports := Vec.upd s.ctl.ports c fun p => { p with mismatch := true, cntMismatch := p.cntMismatch + 1 } } }
  if was then s else chpLate c 3 c.val s

/-- ROUTE_MISMATCH (R134): the feedback differed from the route word for more than t_fb frames. -/
def execRouteMismatch (c : ChIx) (s : State) : Ans :=
  whenOn s.isl.ctl s fun s =>
    match s.map.ch[c].kind, s.fl.hand[c].st with
    | 2, .settled => setMismatch c s
    | 2, .idle => setMismatch c s
    | 2, .out => setMismatch c s
    | 0, .out => setMismatch c s
    | _, _ => s

end Sys2Proof.Machine
end

