-- ==== Sys2Proof/Machine/Yarder.lean ====
section
/-! DEFINITION. The yarder (chapter 3): site limit, demand, both fills, the route plan, the handover transitions and
the outputs of a frame. The functions read the latched input set, the frame-level state `fl` of S_F and the unit and
port parts of S_F, and write results into `nx`. -/

namespace Sys2Proof.Machine

/-! ### Phase A: limits, availability, demand (R61 to R72) -/

/-- Seconds of the latched RTC (R16). -/
def rtcSec (s : State) : Nat := s.lat.levels.rtc / 65536000

/-- A CAN filter carries a quantity for an instance number, whatever its sub-index. -/
def canHas (s : State) (q num : Nat) : Bool :=
  (List.finRange 8).any fun k => s.map.can[k].filters.any fun f => f.enabled && f.q = q && f.num = num

/-- Age of the transformer entry in frames (R63, R356). -/
def xfmrAge (s : State) : Nat :=
  match mailOf s.lat.levels 1 0 0 with
  | some m => s.fn - (m.fn + 2)
  | none => s.fn - s.alc.loadFn

/-- The transformer term is stale (R63). -/
def xfmrStale (s : State) : Bool :=
  match mailOf s.lat.levels 1 0 0 with
  | some m => 1000 ≤ xfmrAge s || m.fn < s.alc.xfmrForced
  | none => true

/-- The transformer term (R63): none where it does not exist or is left out. -/
def xfmrTerm (s : State) : Option Nat :=
  if !canHas s 1 0 then none
  else if xfmrStale s then
    if s.map.site.present then some (s.map.site.imp * min s.alc.xfmrFallback 1000 / 1000) else none
  else (mailOf s.lat.levels 1 0 0).map fun m => m.value

/-- The terms of R61 that exist, with their codes of R84, in the order of the list. -/
def siteTerms (s : State) : List (Nat × Nat) :=
  (if s.map.site.present then [(s.map.site.imp, 0)] else []) ++
  (match xfmrTerm s with | some v => [(v, 1)] | none => []) ++
  (match glimTerm s with | some v => [(v, 2)] | none => []) ++
  (if s.alc.hostLimit = 0xFFFFFFFF then [] else [(s.alc.hostLimit.toNat, 3)])

/-- The least term and the first that binds. -/
def leastTerm : List (Nat × Nat) → Option (Nat × Nat)
  | [] => none
  | t :: ts => match leastTerm ts with
    | some u => if t.1 ≤ u.1 then some t else some u
    | none => some t

/-- loss_permille as taken (R83). -/
def lossOf (s : State) : Nat := min s.alc.loss 200

/-- L_net for a site limit L (R61). -/
def netLimit (s : State) (l : Nat) : Nat := l - l * lossOf s / 1000 - s.alc.house.toNat

/-- Available power of a channel (R67). -/
def pch (s : State) (c : ChIx) : Nat :=
  let cfg := s.map.ch[c]
  let u := s.ctl.unitS[c]
  let p := s.ctl.portS[c]
  if !inService s c || s.ctl.clu[cluOf c].pipe.isNone || faultUp p u.meas || p.prev.staleEnd ||
      (cfg.kind = 2 && s.fl.hand[c].st = .routeFault) || (cfg.tLim : Int) ≤ u.meas.tHs then 0
  else if u.meas.tHs ≤ cfg.derate then cfg.rated
  else (((cfg.rated : Int) * (cfg.tLim - u.meas.tHs)) / ((cfg.tLim : Int) - cfg.derate)).toNat

/-- Power of a current at a voltage (R66). -/
def powOf (i v : Nat) : Nat := i * max v 6400 / 1024

/-- Current of a power at a voltage (R66). -/
def curOf (p : Int) (v : Nat) : Nat := p.natAbs * 1024 / max v 6400

/-- The cable headroom current of an outlet in S_F. -/
def headroom (s : State) (o : OutIx) : Nat := s.fl.ccl[o].iHr

/-- The states whose settled channels are free (R68). -/
def OSt.free : OSt → Bool
  | .idle => true | .plugged => true | .associated => true | .unplugWait => true | .hold => true | .fault => true
  | .outOfService => true | _ => false

/-- The states of a reserve channel (R68). -/
def OSt.reserve : OSt → Bool
  | .authorized => true | .cableCheck => true | .precharge => true | _ => false

/-- The states whose channels are never moved (R80). -/
def OSt.locks : OSt → Bool
  | .cableCheck => true | .precharge => true | .rampDown => true | .weldCheck => true | .discharge => true | _ => false

/-- The channel is settled on an outlet whose state forbids a move (R80, R85). -/
def lockedCh (s : State) (c : ChIx) : Bool :=
  match s.fl.hand[c].st, s.fl.hand[c].outlet with
  | .settled, some o => s.fl.osq[o].st.locks
  | _, _ => false

/-- The channel is in dwell (R80). -/
def inDwell (s : State) (c : ChIx) : Bool :=
  match s.fl.hand[c].st, s.fl.hand[c].outlet with
  | .settled, some o => 0 < s.fl.hand[c].dwell && !s.fl.osq[o].st.free
  | _, _ => false

/-- Sum of p_ch over channels. -/
def sumP (s : State) (cs : List ChIx) : Nat := cs.foldl (fun a c => a + pch s c) 0

/-- The channels SETTLED on an outlet that no withdrawal takes away. -/
def settledLive (s : State) (o : OutIx) : List ChIx :=
  (settledOn s.fl o).filter fun c => inService s c && (routeTo s c o).isSome && !s.fl.hand[c].leaving

/-- Insert a channel by p_ch descending, then index ascending. -/
def insP (s : State) (c : ChIx) : List ChIx → List ChIx
  | [] => [c]
  | d :: ds => if pch s d < pch s c ∨ (pch s d = pch s c ∧ c.val < d.val) then c :: d :: ds else d :: insP s c ds

/-- The capacity sum of an outlet (R69). -/
def capSum (s : State) (o : OutIx) : Nat :=
  let cs := (chansOf s 2).filter fun c =>
    (routeTo s c o).isSome && !(lockedCh s c && decide (s.fl.hand[c].outlet ≠ some o))
  sumP s ((cs.foldl (fun l c => insP s c l) []).take s.map.out[o].maxCh)

/-- V_o (R60). -/
def vOut (s : State) (o : OutIx) : Nat := (vb s o).getD 0

/-- The vehicle maximum power with the cap of R185: i_safe × V_ob. -/
def vehMaxPower (s : State) (o : OutIx) : Option Nat :=
  degradedCap s.fl.veh[o] (powOf (iSafe s o) (vOut s o)) s.fl.veh[o].v.maxPower

/-- The outlet may charge in the frame: enabled and in ENERGY. -/
def inEnergy (s : State) (o : OutIx) : Bool := s.map.out[o].conn ≠ 0 && s.fl.osq[o].st = .energy

/-- Discharge mode (R77, R190). -/
def disMode (s : State) (o : OutIx) : Bool :=
  inEnergy s o && s.fl.veh[o].bpt && s.alc.ctrl.getLsbD 2 && s.alc.v2g[o] ≠ 0 && s.fl.veh[o].v.maxDischarge.isSome

/-- A charging outlet in ENERGY (R68). -/
def charging (s : State) (o : OutIx) : Bool := inEnergy s o && !disMode s o

/-- D_o with its binding code (R69, R87), for the sum given. Of equal terms the first of this list is named. (DESIGN CHOICE, entry 88.) -/
def demandOf (s : State) (o : OutIx) (sum : Nat) : Nat × Nat :=
  let v := vOut s o
  let opt (k : Nat) : Option Nat → List (Nat × Nat) := fun x => match x with | some p => [(p, k)] | none => []
  let terms := opt 1 (vehMaxPower s o) ++ opt 1 ((vehMaxCurr s o).map fun i => powOf i v) ++
    [(powOf (headroom s o) v, 3), (powOf s.map.out[o].iCeil v, 2), (s.map.out[o].pCeil, 2), (sum, 4)]
  if s.fl.bil.creditOut.getLsbD o.val then (0, 0) else (leastTerm terms).getD (0, 0)

/-- The energy need in force and whether the host gave it (R70). -/
def needOf (s : State) (o : OutIx) : Option Nat × Bool :=
  if s.alc.energy[o] = 0xFFFFFFFF then (s.fl.veh[o].v.energyWh, false) else (some s.alc.energy[o].toNat, true)

/-- The departure in force (R70). -/
def departOf (s : State) (o : OutIx) : Option Nat × Bool :=
  if s.alc.depart[o] = 0 then (s.fl.veh[o].departAt, false) else (some s.alc.depart[o].toNat, true)

/-- The urgency weight for a ceiling (R70), and whether the outlet is overdue. -/
def urgency (s : State) (o : OutIx) (d : Nat) : Nat × Bool :=
  let e := (needOf s o).1
  let dt : Option Int := (departOf s o).1.map fun (t : Nat) => (t : Int) - rtcSec s
  let late := match e, dt with | some e, some t => 0 < e && t ≤ 0 | _, _ => false
  if d = 0 then (1, late)
  else match e, dt with
    | some e, some t =>
      if 0 < t then (max 1 (min 65535 (e * 3600 * 4096 / (t.toNat * d))), false)
      else if 0 < e then (65535, true) else (1, false)
    | some e, none => if e = 0 then (1, false) else (1024, false)
    | none, _ => (1024, false)

/-- The priority class in force (R70). -/
def classOf (s : State) (o : OutIx) : Nat :=
  if s.alc.prio[o].getLsbD 3 then field s.alc.prio[o].toNat 0 3 else s.map.out[o].prio

/-- Discharge of an outlet in discharge mode for its settled sum (R77). -/
def disPower (s : State) (o : OutIx) (sum : Nat) : Nat :=
  if disMode s o then
    min (min s.alc.v2g[o].toNat (s.fl.veh[o].v.maxDischarge.getD 0)) (min (powOf (headroom s o) (vOut s o)) sum)
  else 0

/-! ### Storage availability (R72, R97) -/

/-- The latched opening request of a pack. -/
def packReq (s : State) (j : Fin 8) : Bool :=
  match mailOf s.lat.levels 16 j.val 0 with | some m => m.value ≠ 0 | none => false

/-- The pack is connected for the latched values (R97). -/
def packConn (s : State) (j : Fin 8) : Bool :=
  (match mailFilled s.lat.levels s.fn 1000 17 j.val 0 with | some v => v ≠ 0 | none => false) && !packReq s j &&
    (match storeOf s j with | some c => inService s c | none => false)

/-- The lease cap in watts (R72). -/
def leaseCap (s : State) (j : Fin 8) : Option Nat := s.fl.bil.leaseWh[j].map fun e => e * 60

/-- Discharge and charge availability of a pack (R72). -/
def packAvail (s : State) (j : Fin 8) : Nat × Nat :=
  let q (k : Nat) := mailFresh s.lat.levels s.fn 1000 k j.val 0
  match storeOf s j, q 10 with
  | some c, some soc =>
    if !packConn s j then (0, 0)
    else
      let lim := match leaseCap s j with | some l => min (pch s c) l | none => pch s c
      let dis := match q 9 with
        | some p => if s.alc.ctrl.getLsbD 0 && decide (10 * field s.alc.reserve.toNat 0 7 < soc) then min p lim else 0
        | none => 0
      let chg := match q 8 with
        | some p => if s.alc.ctrl.getLsbD 1 && decide (soc < 10 * field s.alc.reserve.toNat 8 7) then min p lim else 0
        | none => 0
      (dis, chg)
  | _, _ => (0, 0)

/-- State of charge as latched, for the sharing order (R76). -/
def packSoc (s : State) (j : Fin 8) : Nat := match mailOf s.lat.levels 10 j.val 0 with | some m => m.value | none => 0

/-! ### The progressive fill (R73) -/

/-- An outlet in a fill: index, class, weight, ceiling. -/
structure FillE where
  o : OutIx
  k : Nat
  w : Nat
  d : Nat
  deriving DecidableEq, Repr

/-- alloc(o, λ) of R73. -/
def allocAt (e : FillE) (lam : Nat) : Nat :=
  let k := lam / 2 ^ 61
  if e.k < k then e.d else if k < e.k then 0 else min e.d (lam % 2 ^ 61 * e.w / 2 ^ 38)

/-- The sum of the allocations at a level. -/
def allocSum (es : List FillE) (lam : Nat) : Nat := es.foldl (fun a e => a + allocAt e lam) 0

/-- The search of R73: bits 63 down to 0, one trial each. -/
def fillLevel (es : List FillE) (a : Nat) : Nat :=
  (List.range 64).foldl (fun lam i =>
    let trial := lam + 2 ^ (63 - i)
    if allocSum es trial ≤ a then trial else lam) 0

/-- The order of the rest pass and of the requests: class ascending, weight descending, index ascending. -/
def fillBefore (x y : FillE) : Bool :=
  x.k < y.k || (x.k = y.k && (y.w < x.w || (x.w = y.w && x.o.val < y.o.val)))

/-- Insertion in fill order. -/
def insFill (e : FillE) : List FillE → List FillE
  | [] => [e]
  | x :: xs => if fillBefore e x then e :: x :: xs else x :: insFill e xs

/-- The outlets in fill order. -/
def fillOrder (es : List FillE) : List FillE := es.foldl (fun l e => insFill e l) []

/-- The rest pass (R73) over outlets in order. -/
def restPass (lam : Nat) : List FillE → Nat → List (OutIx × Nat)
  | [], _ => []
  | e :: es, rest =>
    let extra := if lam < 2 ^ 64 - 1 then min rest (allocAt e (lam + 1) - allocAt e lam) else 0
    (e.o, allocAt e lam + extra) :: restPass lam es (rest - extra)

/-- One fill of the amount a: the level and the allocations (R73). -/
def fill (es : List FillE) (a : Nat) : Nat × List (OutIx × Nat) :=
  let lam := fillLevel es a
  (lam, restPass lam (fillOrder es) (a - allocSum es lam))

/-- The allocation of an outlet in a fill, 0 where it has none. -/
def allocOf (r : List (OutIx × Nat)) (o : OutIx) : Nat :=
  match r.find? (·.1 = o) with | some x => x.2 | none => 0

/-! ### Phase C: the route plan (R79, R80) -/

/-- The route plan as it grows: destinations as the plan leaves them, moves started, requests not served. -/
structure RPlan where
  dest : Vector (Option OutIx) 96
  moved : List ChIx := []
  taken : List ChIx := []
  unserved : Vector Nat 32 := Vector.replicate 32 0

/-- The handover is between RAMP_DOWN and TRACKING. -/
def HSt.moving : HSt → Bool
  | .rampDown => true | .opening => true | .closing => true | .tracking => true | _ => false

/-- The destinations in S_F, without those that a withdrawal of R52 ends. -/
def planStart (s : State) : RPlan :=
  { dest := Vector.ofFn fun c =>
      let h := s.fl.hand[c]
      match h.dest with
      | some b => if h.st.moving && !h.leaving && inService s c && (routeTo s c b).isSome then some b else none
      | none => none }

/-- The channels inbound to an outlet, in index order (R79). -/
def inboundTo (s : State) (r : RPlan) (b : OutIx) : List ChIx :=
  (chansOf s 2).filter fun c => r.dest[c] = some b

/-- The channels of an outlet's inbound list that a plan may withdraw, highest index first. -/
def withdrawable (s : State) (r : RPlan) (b : OutIx) : List ChIx :=
  (inboundTo s r b).reverse.filter fun c => s.fl.hand[c].st ≠ .tracking

/-- hyst_permille of a power (R79). -/
def hystOf (s : State) (p : Nat) : Nat := p * min s.alc.hyst 1000 / 1000

/-- The rule of pass 2 for one inbound channel. -/
def mayWithdraw (s : State) (t : OutIx → Nat) (r : RPlan) (b : OutIx) (c : ChIx) : Bool :=
  let st := s.fl.osq[b].st
  if st.reserve then settledLive s b ≠ [] || 1 < (inboundTo s r b).length
  else if st = .energy then
    t b + hystOf s (pch s c) ≤ sumP s (settledLive s b) + sumP s (inboundTo s r b) - pch s c
  else true

/-- Withdraw channels from the front of the list while the rule holds. -/
def withdrawFrom (s : State) (t : OutIx → Nat) (b : OutIx) : List ChIx → RPlan → RPlan
  | [], r => r
  | c :: cs, r =>
    if mayWithdraw s t r b c then withdrawFrom s t b cs { r with dest := r.dest.set c none } else r

/-- The channels that an outlet in ENERGY releases, highest index first (R79 pass 2). -/
def releaseFrom (s : State) (t : Nat) (inb : Nat) : List ChIx → Nat → List ChIx
  | [], _ => []
  | c :: cs, sum =>
    if t + hystOf s (pch s c) ≤ sum + inb - pch s c then c :: releaseFrom s t inb cs (sum - pch s c) else []

/-- The channel is eligible for an outlet (R79). -/
def eligible (s : State) (b : OutIx) (c : ChIx) : Bool :=
  (routeTo s c b).isSome && !inDwell s c && 0 < pch s c && !lockedCh s c && !s.fl.hand[c].leaving

/-- The number of requests an outlet in ENERGY makes (R79 pass 3). -/
def requestsOf (s : State) (t : Nat) (r : RPlan) (b : OutIx) : Nat :=
  let p := ((chansOf s 2).filter (eligible s b)).foldl (fun m c => max m (pch s c)) 0
  let have_ := sumP s (settledLive s b) + sumP s (inboundTo s r b) + hystOf s p
  if p = 0 ∨ t < have_ then 0 else (t - have_) / p + 1

/-- Channels outbound from an outlet: in RAMP_DOWN or OPENING from it, or started by the plan (R79). -/
def outboundOf (s : State) (moved : List ChIx) (b : OutIx) : Nat :=
  ((List.finRange 96).filter fun c =>
    s.fl.hand[c].outlet = some b && (s.fl.hand[c].st = .rampDown || s.fl.hand[c].st = .opening ||
      (s.fl.hand[c].st = .settled && moved.contains c))).length

/-- Channels in RAMP_DOWN, OPENING, CLOSING or TRACKING, with the moves started. -/
def activeOf (s : State) (moved : List ChIx) : Nat :=
  ((List.finRange 96).filter fun c =>
    s.fl.hand[c].st.moving || ((s.fl.hand[c].st = .settled || s.fl.hand[c].st = .idle) && moved.contains c)).length

/-- The limits of pass 5 for a move, counted with the move. -/
def withinLimits (s : State) (r : RPlan) (b : OutIx) (c : ChIx) : Bool :=
  let moved := c :: r.moved
  moved.length ≤ 8 && activeOf s moved ≤ 16 && (inboundTo s r b).length + 1 ≤ 4 &&
    (match s.fl.hand[c].outlet with
     | some a => if s.fl.hand[c].st = .idle then true else outboundOf s moved a ≤ 4
     | none => true)

/-- Serve one request from the sources in order (R79 passes 4 and 5). -/
def serve (s : State) (src : List ChIx) (r : RPlan) (b : OutIx) : RPlan :=
  match src.find? fun c => eligible s b c && !r.taken.contains c && decide (s.fl.hand[c].outlet ≠ some b ∨
      s.fl.hand[c].st ≠ .settled) with
  | some c =>
    if withinLimits s r b c then
      { r with dest := r.dest.set c (some b), moved := c :: r.moved, taken := c :: r.taken }
    else { r with taken := c :: r.taken, unserved := Vec.upd r.unserved b (· + 1) }
  | none => { r with unserved := Vec.upd r.unserved b (· + 1) }

/-- Phase C (R79): targets, the charging outlets in fill order. -/
def routePlan (s : State) (t : OutIx → Nat) (order : List OutIx) : RPlan :=
  let outs := List.finRange 32
  let r := planStart s
  let st (b : OutIx) := s.fl.osq[b].st
  let res := outs.filter fun b => (st b).reserve && settledLive s b = [] && inboundTo s r b = []
  let r := outs.foldl (fun r b => withdrawFrom s t b (withdrawable s r b) r) r
  let rel (b : OutIx) : List ChIx :=
    if st b = .energy then
      let cs := settledLive s b
      releaseFrom s (t b) (sumP s (inboundTo s r b)) cs.reverse (sumP s cs)
    else []
  let reqs := res ++ (order.flatMap fun b => List.replicate (min 96 (requestsOf s (t b) r b)) b)
  let ch := chansOf s 2
  let homeless := ch.filter fun c =>
    let h := s.fl.hand[c]
    (h.st = .rampDown || h.st = .opening) && r.dest[c].isNone && !h.leaving && !h.trackFail && !h.pendFault
  let free := ch.filter fun c => s.fl.hand[c].st = .settled &&
    (match s.fl.hand[c].outlet with | some a => (st a).free && settledLive s a ≠ [] | none => false)
  let relOrder := (outs.filter fun b => !order.contains b).reverse ++ order.reverse
  let src := ch.filter (fun c => s.fl.hand[c].st = .idle) ++ homeless ++ free ++ relOrder.flatMap rel
  reqs.foldl (serve s src) r

/-! ### Phase D: handover (R81, R134, R487) -/

/-- The finding of R134 in a frame summary: every route open. -/
def allOpen (f : FrameSum) : Bool := f.fb.length = 2 && f.fb.all (· = 0xF0)

/-- The finding of R134: route b closed and all others open. -/
def routeClosed (b : Nat) (f : FrameSum) : Bool :=
  f.fb.length = 2 && f.fb.all (· = (BitVec.ofNat 8 (2 ^ (b % 4)) ||| (0xF0 ^^^ BitVec.ofNat 8 (2 ^ (4 + b % 4)))))

/-- The frame gives the finding that the route word asks for. -/
def fbAsWord (h : Hand) (f : FrameSum) : Bool := match h.word with | some b => routeClosed b f | none => allOpen f

/-- Write a channel's next handover. -/
def setHand (c : ChIx) (h : Hand) (s : State) : State := { s with nx := { s.nx with hand := s.nx.hand.set c h } }

/-- Set a bit of ALC_INT_STATUS, which shows it from the next boundary. -/
def alcInt (b : Nat) (s : State) : State := { s with late := { s.late with alc := setBit s.late.alc b } }

/-- Enter a handover state from the boundary that opens the next frame. -/
def Hand.enter (h : Hand) (st : HSt) (s : State) : Hand := { h with st := st, stFn := s.fn + 1, fresh := false }

/-- RAMP_DOWN with the destination given (R81). -/
def toRampDown (c : ChIx) (h : Hand) (dest : Option OutIx) (s : State) : State :=
  alcInt 3 (raise (setHand c { h.enter .rampDown s with dest := dest } s) { rank := 8, code := 4, num := c.val, ord := c.val })

/-- OPENING: every route opens. -/
def toOpening (c : ChIx) (h : Hand) (s : State) : State := setHand c { h.enter .opening s with word := none } s

/-- CLOSING toward an outlet by its route (R484). -/
def toClosing (c : ChIx) (h : Hand) (b : OutIx) (r : RouteCfg) (s : State) : State :=
  setHand c { h.enter .closing s with dest := some b, outlet := none, word := some r.word, tfb := r.tfb,
                                      sawEnergy := s.fl.osq[b].st = .energy, cause := 0 } s

/-- SETTLED on an outlet (R81): the dwell given, the first frame after TRACKING marked. -/
def toSettled (c : ChIx) (h : Hand) (b : OutIx) (dwell : Nat) (fresh : Bool) (s : State) : State :=
  let s := setHand c { h.enter .settled s with outlet := some b, dest := none, dwell := dwell, fresh := fresh } s
  let s := raise s { rank := 8, code := 5, num := c.val, ord := c.val }
  if fresh then alcInt 4 { s with alc := { s.alc with settled := s.alc.settled + 1 } } else s

/-- ROUTE_FAULT with a cause (R81). Causes 2 and 3 leave every route commanded open, cause 1 the old route. -/
def toRouteFault (c : ChIx) (h : Hand) (cause : Nat) (s : State) : State :=
  let s := setHand c { h.enter .routeFault s with dest := none, cause := cause, pendFault := false, trackFail := false } s
  alcInt 5 (raise { s with alc := { s.alc with failed := s.alc.failed + 1 } }
    { rank := 8, code := 6, num := c.val, ord := c.val })

/-- IDLE, from a handover or otherwise. -/
def toIdle (c : ChIx) (h : Hand) (handover : Bool) (s : State) : State :=
  let s := setHand c { h.enter .idle s with outlet := none, dest := none, word := none, cause := 0, pendFault := false,
                                            trackFail := false, leaving := false, dwell := 0 } s
  if handover then raise { s with alc := { s.alc with failed := s.alc.failed + 1 } }
    { rank := 8, code := 0, num := c.val, ord := c.val } else s

/-- OUT: the end of a withdrawal (R52). -/
def toOut (c : ChIx) (h : Hand) (s : State) : State :=
  setHand c { h.enter .out s with outlet := none, dest := none, word := none, dwell := 0, leaving := false,
                                  pendFault := false, trackFail := false, cause := 0 } s

/-- The end of OPENING for a channel that a withdrawal takes away (R52). -/
def toGone (c : ChIx) (h : Hand) (s : State) : State :=
  if inService s c then toIdle c h true s else toOut c h s

/-- The largest feedback timeout of a channel's enabled ROUTE records (R134). -/
def tfbOpen (s : State) (c : ChIx) : Nat :=
  if s.map.route[c] = [] then 50 else s.map.route[c].foldl (fun m r => max m r.tfb) 0

/-- The TRACKING rows of R81 that end in OPENING, then IDLE. -/
def trackFailed (c : ChIx) (h : Hand) (s : State) : State :=
  alcInt 6 (raise (toOpening c { h with dest := none, trackFail := true } s) { rank := 8, code := 7, num := c.val, ord := c.val })

/-- The withdrawal of R52 from the step reached: none where the channel needs none in the frame. -/
def withdrawStep (s : State) (c : ChIx) : Option State :=
  let h := s.fl.hand[c]
  let gone := !inService s c || (match h.st, h.outlet with
    | .settled, some o => (routeTo s c o).isNone
    | _, _ => false)
  if !gone || h.leaving then none
  else
    let h := { h with leaving := true, dest := none }
    match h.st with
    | .settled => some (toRampDown c h none s)
    | .rampDown => none
    | .opening => none
    | .idle => some (toOut c h s)
    | .out => none
    | _ => some (toOpening c h s)

/-- Phase D for a channel in RAMP_DOWN (R487). -/
def stepRampDown (s : State) (c : ChIx) (want : Option OutIx) : State :=
  let h := s.fl.hand[c]
  let away := h.leaving || !inService s c
  let live := match h.outlet with | some o => s.fl.osq[o].st = .energy | none => false
  let cleared := !away && h.dest.isSome && want.isNone
  let h := { h with leaving := away, dest := if away then none else want }
  match h.outlet with
  | some o =>
    if !away && want.isNone && live then toSettled c h o h.dwell false s
    else if s.ctl.portS[c].prev.low then toOpening c h s
    else if cleared then setHand c h s
    else if h.stFn + 12 ≤ s.fn then toRouteFault c h 1 s
    else setHand c h s
  | none => setHand c h s

/-- Phase D for a channel in OPENING. -/
def stepOpening (s : State) (c : ChIx) (want : Option OutIx) : State :=
  let h := s.fl.hand[c]
  let away := h.leaving || !inService s c
  let h := { h with leaving := away, dest := if away || h.trackFail || h.pendFault then none else want }
  if allOpen s.ctl.portS[c].prev then
    if h.pendFault then toRouteFault c h 3 s
    else if away then toGone c h s
    else match h.dest with
      | some b => match routeTo s c b with
        | some r => toClosing c h b r s
        | none => toIdle c h true s
      | none => toIdle c h true s
  else if h.stFn + tfbOpen s c + 1 ≤ s.fn then toRouteFault c h 2 s
  else setHand c h s

/-- Phase D for a channel in CLOSING. -/
def stepClosing (s : State) (c : ChIx) (want : Option OutIx) : State :=
  let h := s.fl.hand[c]
  match h.dest with
  | none => toOpening c h s
  | some b =>
    let e := s.fl.osq[b].st = .energy
    if (routeTo s c b).isNone then toOpening c { h with dest := none } s
    else if routeClosed (h.word.getD 0) s.ctl.portS[c].prev && trackOk (nOf s c) s.ctl.portS[c].prev then
      setHand c { h.enter .tracking s with sawEnergy := e } s
    else if want ≠ some b then toOpening c { h with dest := none } s
    else if h.stFn + h.tfb + 1 ≤ s.fn then toOpening c { h with dest := none, pendFault := true } s
    else setHand c { h with sawEnergy := e } s

/-- Phase D for a channel in TRACKING. -/
def stepTracking (s : State) (c : ChIx) : State :=
  let h := s.fl.hand[c]
  match h.dest with
  | none => toOpening c h s
  | some b =>
    let st := s.fl.osq[b].st
    if (routeTo s c b).isNone then toOpening c { h with dest := none, trackFail := true } s
    else if h.stFn < s.fn && trackOk (nOf s c) s.ctl.portS[c].prev then
      toSettled c h b (if st = .precharge ∨ st = .energy then 2000 else 0) true s
    else if h.stFn + 5 ≤ s.fn then trackFailed c h s
    else if h.sawEnergy && decide (st ≠ .energy) then toSettled c h b 0 true s
    else setHand c { h with sawEnergy := st = .energy } s

/-- A latched route-fault clear (R81): IDLE where the feedback shows all routes open, else refused. -/
def routeFaultClear (c : ChIx) (s : State) : State :=
  let h := s.fl.hand[c]
  if h.st ≠ .routeFault ∨ s.nx.hand[c].st ≠ .routeFault then s
  else if allOpen s.ctl.portS[c].prev then
    if h.leaving || !inService s c then toOut c h s else toIdle c h false s
  else refuse (0x2006C) s

/-- One channel in phase D: the destination is the plan's (R487). -/
def handStep (r : RPlan) (s : State) (c : ChIx) : State :=
  let h := s.fl.hand[c]
  if s.map.ch[c].kind ≠ 2 then (if h.st = .out then s else toOut c h s)
  else match withdrawStep s c with
  | some t => t
  | none =>
    let want := r.dest[c]
    match h.st with
    | .out => if inService s c then toIdle c h false s else s
    | .idle => match want with
      | some b => match routeTo s c b with
        | some rt => alcInt 3 (toClosing c h b rt s)
        | none => s
      | none => s
    | .settled => match want with
      | some b => toRampDown c h (some b) s
      | none => setHand c { h with dwell := h.dwell - 1, fresh := false } s
    | .rampDown => stepRampDown s c want
    | .opening => stepOpening s c want
    | .closing => stepClosing s c want
    | .tracking => stepTracking s c
    | .routeFault => s

/-- The route mismatch of R134: the run counts in SETTLED, IDLE and OUT, and the mismatch ends at any evaluation that
finds the commanded state. (DEDUCED, entry 114.) -/
def mismatchStep (s : State) (c : ChIx) : State :=
  let h := s.fl.hand[c]
  let f := s.ctl.portS[c].prev
  let p := s.ctl.ports[c]
  let set (p : Port) := { s with ctl := { s.ctl with ports := s.ctl.ports.set c p } }
  if s.map.ch[c].kind = 1 ∨ s.map.ch[c].kind = 3 then set { p with fbRun := 0 }
  else if f.fb.length ≠ 2 then s
  else if fbAsWord h f then set { p with fbRun := 0, mismatch := false }
  else if h.st.moving ∨ h.st = .routeFault then set { p with fbRun := 0 }
  else
    let run := p.fbRun + 1
    let t := match h.word with | some _ => h.tfb | none => tfbOpen s c
    let s := set { p with fbRun := run }
    if t < run then setMismatch c s else s

/-! ### Phases E and F: budgets, storage, outputs (R74 to R78) -/

/-- Share an amount over packs in order, each up to its bound. -/
def sharePacks : List (Fin 8 × Nat) → Nat → List (Fin 8 × Nat)
  | [], _ => []
  | (j, m) :: ps, a => (j, min a m) :: sharePacks ps (a - min a m)

/-- Insert a pack by state of charge. -/
def insSoc (before : Nat → Nat → Bool) (s : State) (x : Fin 8 × Nat) : List (Fin 8 × Nat) → List (Fin 8 × Nat)
  | [] => [x]
  | y :: ys => if before (packSoc s x.1) (packSoc s y.1) then x :: y :: ys else y :: insSoc before s x ys

/-- The packs in an order of state of charge, ties to the lower index. -/
def socOrder (before : Nat → Nat → Bool) (s : State) (ps : List (Fin 8 × Nat)) : List (Fin 8 × Nat) :=
  ps.foldl (fun l x => insSoc before s x l) []

/-- The share of a pack. -/
def shareOf (r : List (Fin 8 × Nat)) (j : Fin 8) : Nat := match r.find? (·.1 = j) with | some x => x.2 | none => 0

/-- Reduce discharges by an excess, highest outlet index first (R77). The list comes highest first. -/
def cutDis : List (OutIx × Nat) → Nat → List (OutIx × Nat)
  | [], _ => []
  | (o, d) :: ds, x => (o, d - min x d) :: cutDis ds (x - min x d)

/-- The plan of a frame (R58, R74 to R78) and the state after the phases C and D. -/
def yarder (s : State) : State :=
  let outs := List.finRange 32
  let term := leastTerm (siteTerms s)
  let l := match term with | some t => t.1 | none => 0
  let net := netLimit s l
  let avail (j : Fin 8) := packAvail s j
  let sDis := (List.finRange 8).foldl (fun a j => a + (avail j).1) 0
  let sChg := (List.finRange 8).foldl (fun a j => a + (avail j).2) 0
  let cOut := sumP s (chansOf s 2)
  -- phase B
  let entry (sum : OutIx → Nat) (o : OutIx) : FillE :=
    let d := (demandOf s o (sum o)).1
    { o := o, k := classOf s o, w := (urgency s o d).1, d := d }
  let chg := outs.filter (charging s)
  let dis0 (o : OutIx) := disPower s o (sumP s (settledLive s o))
  let v2g0 := outs.foldl (fun a o => a + dis0 o) 0
  let pes := chg.map (entry (capSum s))
  let pfill := (fill pes (min (net + sDis + v2g0) cOut)).2
  let target (o : OutIx) : Nat := if disMode s o then dis0 o else allocOf pfill o
  let order := (fillOrder pes).map (·.o)
  -- phases C and D
  let r := routePlan s target order
  let counted (o : OutIx) : List ChIx := (settledLive s o).filter fun c => !r.moved.contains c
  let t := (List.finRange 96).foldl (handStep r) s
  let t := (List.finRange 96).foldl mismatchStep t
  -- phase E
  let sums (o : OutIx) := sumP s (counted o)
  let bes := chg.map (entry sums)
  let disL := outs.reverse.map fun o => (o, disPower s o (sums o))
  let v2g1 := disL.foldl (fun a x => a + x.2) 0
  let bf := fill bes (min (net + sDis + v2g1) (outs.foldl (fun a o => a + sums o) 0))
  -- phase F
  let sb := bf.2.foldl (fun a x => a + x.2) 0
  let pDis := sb - net - v2g1
  let pChg := min sChg (net + v2g1 - sb)
  let rest := v2g1 - min v2g1 sb - min (v2g1 - min v2g1 sb) pChg
  let allow := if s.alc.ctrl.getLsbD 3 then min s.map.site.exp s.alc.exportLimit.toNat else 0
  let dl := cutDis disL (rest - allow)
  let disF (o : OutIx) := match dl.find? (·.1 = o) with | some x => x.2 | none => 0
  let v2g := dl.foldl (fun a x => a + x.2) 0
  let budget (o : OutIx) : Int := if disMode s o then -(disF o : Int) else allocOf bf.2 o
  let shDis := sharePacks (socOrder (fun x y => y < x) s ((List.finRange 8).map fun j => (j, (avail j).1))) pDis
  let shChg := sharePacks (socOrder (fun x y => x < y) s ((List.finRange 8).map fun j => (j, (avail j).2))) pChg
  let loss := l * lossOf s / 1000
  let imp : Int := outs.foldl (fun a o => a + budget o) 0 + pChg - pDis + loss + s.alc.house.toNat
  let out (o : OutIx) : OutPlan :=
    let d := demandOf s o (capSum s o)
    let b := budget o
    let i := min s.map.out[o].iCeil (min (headroom s o) (curOf b (vOut s o)))
    { dPlan := if charging s o then d.1 else 0,
      w := if charging s o then (urgency s o d.1).1 else 0,
      cls := classOf s o, override := s.alc.prio[o].getLsbD 3,
      energyHost := (needOf s o).2, departHost := (departOf s o).2, overdue := (urgency s o d.1).2,
      charging := charging s o, discharge := disMode s o, target := target o, budget := b,
      iCeil := if s.map.out[o].conn = 0 then 0 else match vehMaxCurr s o with | some m => min m i | none => i,
      count := (counted o).length,
      binding := if charging s o then d.2 else if s.map.out[o].conn ≠ 0 ∧ s.fl.osq[o].st.reserve then 5 else 0,
      requested := r.unserved[o] }
  let lease := (List.finRange 8).foldl (fun (w : BitVec 8) j => if leaseCap s j = some 0 then setBit w j.val else w) 0
  let low := (List.finRange 8).foldl (fun (w : BitVec 8) j =>
    if packConn s j then match mailFresh s.lat.levels s.fn 1000 10 j.val 0 with
      | some v => if v ≤ 10 * field s.alc.reserve.toNat 0 7 then setBit w j.val else w
      | none => w
    else w) 0
  let plan : Plan :=
    { limit := l, src := match term with | some t => t.2 | none => 0, none_ := term.isNone, net := net, loss := loss, house := s.alc.house.toNat,
      xfmrTerm := (xfmrTerm s).getD 0, xfmrStale := canHas s 1 0 && xfmrStale s, xfmrAge := xfmrAge s,
      glimTerm := (glimTerm s).getD 0, glimLoss := s.lat.levels.glim.loss, exportLimited := allow < rest,
      pDis := pDis, pChg := pChg, v2g := v2g, importPlan := imp, level := bf.1, fn := s.fn + 1,
      mF := ((chansOf s 1).filter fun c => 0 < pch s c).length,
      outs := Vector.ofFn out,
      packs := Vector.ofFn fun j => (shareOf shChg j : Int) - shareOf shDis j,
      leaseCap := lease, reserve := low }
  let was := s.fl.plan
  let ev (c : Bool) (b : Nat) (t : State) : State :=
    if c then alcInt b (raise t { rank := 8, code := b + 1, ord := 96 + b }) else t
  let t := { t with nx := { t.nx with plan := plan } }
  let t := ev (plan.src ≠ was.src) 0 t
  let t := ev (plan.glimLoss && !was.glimLoss) 1 t
  let t := ev (plan.xfmrStale && !was.xfmrStale) 2 t
  let t := ev (low &&& ~~~ was.reserve ≠ 0) 7 t
  let t := ev (lease &&& ~~~ was.leaseCap ≠ 0) 8 t
  ev (plan.exportLimited && !was.exportLimited) 9 t

/-- The pack conditions of the mode evaluation of R96, effective one frame later (R97, R72, R358). -/
def packStep (s : State) : State :=
  let bits (p : Fin 8 → Bool) : BitVec 8 := (List.finRange 8).foldl (fun w j => if p j then setBit w j.val else w) 0
  { s with nx := { s.nx with packOn := bits (packConn s), packOpen := bits (packReq s),
                             packLease := bits fun j => leaseCap s j = some 0 } }

/-! ### GLIM (R64, R65) -/

/-- The ball that has the GLIM function, with its record. -/
def glimPin (s : State) : Option PinCfg :=
  ((List.finRange 25).find? fun k => k.val ≤ 1 && s.map.pin[k].fn = 1 && s.map.pin[k].glimMode ≠ 0).map
    fun k => s.map.pin[k]

/-- One sample of GLIM: the quantity of R83's ALC_GLIM_RAW, the value in W and whether it is a loss sample. The raw
argument is the ADC code in modes 1 and 2 and the frequency in 1/16 Hz in modes 3 and 4. -/
def glimConvert (p : PinCfg) (raw : Nat) : Nat × Nat × Bool :=
  let fs := p.glimFs
  let f := 16 * p.pulseFs
  match p.glimMode with
  | 1 =>
    let i := 8 * (raw % 4096)
    (i, fs * (min (i - 4000) 16000) / 16000, i < 3600 || 21000 < i)
  | 2 =>
    let u := 4 * (raw % 4096)
    (u, fs * min u 10000 / 10000, 10500 < u)
  | 3 => (raw, fs * min raw f / f, 21 * f / 20 < raw)
  | _ =>
    let f0 := f / 5
    (raw, fs * min (raw - f0) (f - f0) / (f - f0), raw < f0 / 2 || 21 * f / 20 < raw)

/-- The median of the samples held, newest first (R65). -/
def glimMedian : List Nat → Nat
  | [a] => a
  | [a, b] => min a b
  | a :: b :: c :: _ => max (min a b) (min (max a b) c)
  | [] => 0

/-- Publish the GLIM term with its loss as a live level. -/
def glimLive (s : State) : State :=
  { s with live := { s.live with glim :=
    { value := glimMedian s.alc.glimLast, raw := s.alc.glimRaw, loss := s.alc.glimLoss, have_ := s.alc.glimLast ≠ [] } } }

/-- GLIM signal loss starts or ends. -/
def setGlimLoss (b : Bool) (s : State) : State :=
  glimLive { s with alc := { s.alc with glimLoss := b, lossRun := if b then s.alc.lossRun else 0,
                                        goodRun := if b then 0 else s.alc.goodRun } }

/-- CLK_LOOP cycles of a millisecond. -/
def glimMs : Nat := 400000

/-- The frequency in 1/16 Hz of k periods that take c cycles (R65), rounded down. (DEDUCED, entry 90.) -/
def glimFreq (k c : Nat) : Nat := 16 * 1000 * glimMs * k / c

/-- The rising edges of GLIM_P in the last millisecond, at their cycles in it (R65): the frequency, and what is kept. The
mean is that of the periods which the edges complete. Before a complete period no rule gives the value: it is free. (DEDUCED, entry 90.) -/
def glimEdges (edges : List Nat) (s : State) : Nat × State :=
  let a := s.alc
  let none_ := if 100 * glimMs ≤ a.glimGap + glimMs then 0 else match a.glimPeriod with
    | some t => glimFreq 1 t
    | none => Config.glimNoPeriod s.fn
  match edges.head?, edges.getLast? with
  | some x, some y =>
    let k := if a.glimEdge then edges.length else edges.length - 1
    let span := if a.glimEdge then a.glimGap + y else y - x
    let last := match edges.reverse with
      | y :: z :: _ => some (y - z)
      | _ => if a.glimEdge then some (a.glimGap + y) else none
    (if k = 0 then Config.glimNoPeriod s.fn else glimFreq k span,
      { s with alc := { a with glimGap := glimMs - y, glimEdge := true, glimPeriod := last } })
  | _, _ => (none_, { s with alc := { a with glimGap := a.glimGap + glimMs } })

/-- One GLIM sample (R65): the ADC code of GLIM_A, or the edges of GLIM_P. -/
def glimSample (raw : Nat) (edges : List Nat) (s : State) : State :=
  match glimPin s with
  | none => s
  | some p =>
    let (raw, s) := if p.glimMode ≤ 2 then (raw, s) else glimEdges edges s
    let (q, v, bad) := glimConvert p raw
    let lr := if bad then s.alc.lossRun + 1 else 0
    let gr := if bad then 0 else s.alc.goodRun + 1
    let loss := if 3 ≤ lr then true else if 3 ≤ gr then false else s.alc.glimLoss
    -- a clamped code of slot 0 unsettles the next two slots of the housekeeping ADC (R430)
    let clamp := p.glimMode ≤ 2 && (raw % 4096 = 0 || raw % 4096 = 4095)
    let s := if clamp then { s with hkp := { s.hkp with clampAt := some (s.fn, 0) } } else s
    glimLive { s with alc := { s.alc with
      glimLast := (v :: s.alc.glimLast).take 3, glimRaw := q % 2 ^ 24, lossRun := min lr 3, goodRun := min gr 3,
      glimLoss := loss } }

/-! ### The commands of the yarder -/

/-- GLIM_SAMPLE (R65). -/
def execGlimSample (raw : GlimRead) (s : State) : Ans := whenOn s.isl.ctl s (glimSample raw.code raw.edges)

/-- GLIM_SIGNAL_LOSS (R65): three loss samples in a row. -/
def execGlimSignalLoss (s : State) : Ans :=
  whenOn s.isl.ctl s fun s => if (glimPin s).isSome then setGlimLoss true s else s

/-- GLIM_SIGNAL_RESTORE (R65): three good samples in a row. -/
def execGlimSignalRestore (s : State) : Ans :=
  whenOn s.isl.ctl s fun s => if (glimPin s).isSome then setGlimLoss false s else s

/-- XFMR_STALE_TIMEOUT (R63): entries up to this frame no longer count. -/
def execXfmrStaleTimeout (s : State) : Ans :=
  whenOn s.isl.ctl s fun s => { s with alc := { s.alc with xfmrForced := s.fn } }

/-- ROUTE_FEEDBACK_TIMEOUT (R134, R81): the state that the route word asks for was not found in time. OPENING goes to
ROUTE_FAULT with cause 2; CLOSING opens its route first, and cause 3 follows. (DEDUCED, entry 23.) -/
def execRouteFeedbackTimeout (c : ChIx) (s : State) : Ans :=
  whenOn s.isl.ctl s fun s =>
    let h := s.fl.hand[c]
    if s.nx.hand[c].st ≠ h.st then s
    else match h.st with
      | .opening => toRouteFault c s.nx.hand[c] 2 s
      | .closing => toOpening c { s.nx.hand[c] with dest := none, pendFault := true } s
      | _ => s

/-- RAMP_DOWN_TIMEOUT (R81): twelve frames in RAMP_DOWN. -/
def execRampDownTimeout (c : ChIx) (s : State) : Ans :=
  whenOn s.isl.ctl s fun s =>
    if s.fl.hand[c].st = .rampDown ∧ s.nx.hand[c].st = .rampDown then toRouteFault c s.nx.hand[c] 1 s else s

/-- TRACKING_TIMEOUT (R81): a mismatch in five frames in TRACKING. -/
def execTrackingTimeout (c : ChIx) (s : State) : Ans :=
  whenOn s.isl.ctl s fun s =>
    if s.fl.hand[c].st = .tracking ∧ s.nx.hand[c].st = .tracking then trackFailed c s.nx.hand[c] s else s

/-- DWELL_EXPIRY (R80): the dwell of a settled channel ends. -/
def execDwellExpiry (c : ChIx) (s : State) : Ans :=
  whenOn s.isl.ctl s fun s =>
    if s.fl.hand[c].st = .settled ∧ s.nx.hand[c].st = .settled then setHand c { s.nx.hand[c] with dwell := 0 } s else s

/-- ROUTE_FAULT_CLEAR (R81): a latched ALC_CH_CTRL.clear. -/
def execRouteFaultClear (c : ChIx) (s : State) : Ans := whenOn s.isl.ctl s (routeFaultClear c)

/-! ### The DC bus (R139) -/

/-- Write the next bus state, with its event and the bit in the lowest-index FRONT channel (R139, R144). Without a FRONT
channel in service the event has number 0. (DESIGN CHOICE, entry 89.) -/
def busGo (st : BusSt) (s : State) : State :=
  let s := { s with nx := { s.nx with bus := { st := st, entryFn := s.fn + 1, phi0 := 0 } } }
  match frontLow s with
  | some c => chpLate c 5 c.val s
  | none => raise s { rank := 5, code := 9 }

/-- φ had reached 2^16 at the last sample start before the last frame (R139, R140). (DEDUCED, entry 80.) -/
def phiFull (s : State) : Bool :=
  let b := s.fl.bus
  let n := (chansOf s 1).foldl (fun a c => max a (nOf s c)) 1
  decide (b.entryFn + 2 ≤ s.fn) && decide (65536 ≤ phiAt s (1000 * (s.fn - 2 - b.entryFn) + 1000 * (n - 1) / n))

/-- The bus evaluation of a frame from S_F (R139). -/
def busEval (s : State) : State :=
  let b := s.fl.bus
  let p := s.ctl.busPrev
  let front := chansOf s 1
  let able := front.any fun c => 0 < pch s c
  let off := vBus s = 0 || !able
  match b.st with
  | .off => if 0 < vBus s && able then busGo .softStart s else s
  | .softStart =>
    if p.short then busGo .aborted s
    else if off then busGo .shutdown s
    else if phiFull s && p.any && p.within then busGo .run s
    else s
  | .run => if off then busGo .shutdown s else s
  | .shutdown => if front.all fun c => s.ctl.portS[c].prev.lowValid then busGo .off s else s
  | .aborted => s

/-- A latched bus_clear (R139, R145): ABORTED to OFF, valid on a FRONT channel only. -/
def busClear (c : ChIx) (s : State) : State :=
  if s.map.ch[c].kind = 1 ∧ s.fl.bus.st = .aborted ∧ s.nx.bus.st = .aborted then busGo .off s else s

/-- CHP_BUS_CLEAR (R139): latched on the lowest-index FRONT channel. -/
def execChpBusClear (s : State) : Ans :=
  whenOn s.isl.ctl s fun s => match frontLow s with | some c => busClear c s | none => s

/-- A latched port_off write (R145): refused unless the channel is OUT. (DEDUCED, entry 114.) -/
def portOffWrite (c : ChIx) (b : Bool) (s : State) : State :=
  if !chOut s c then refuse (0x40004 + 0x40 * c.val) s
  else { s with ctl := { s.ctl with ports := Vec.upd s.ctl.ports c fun p => { p with portOff := b } } }

/-- CHP_PORT_OFF (R145). -/
def execChpPortOff (c : ChIx) (b : Bool) (s : State) : Ans := whenOn s.isl.ctl s (portOffWrite c b)

/-- A latched CHP_CTRL.test (R131). -/
def testWrite (c : ChIx) (b : Bool) (s : State) : State :=
  { s with ctl := { s.ctl with ports := Vec.upd s.ctl.ports c fun p => { p with test := b } } }

/-- CHP_TEST (R131, R145). -/
def execChpTest (c : ChIx) (b : Bool) (s : State) : Ans := whenOn s.isl.ctl s (testWrite c b)

end Sys2Proof.Machine
end

