-- ==== Sys2Proof/Machine/Outlets.lean ====
section
/-! DEFINITION. Outlet sequencers (chapter 6): the inputs of R149, the transitions of R153, stopping, and the commands.
The evaluation of a frame reads the latched set and `fl`, and writes the next record into `nx`. -/

namespace Sys2Proof.Machine

/-! ### Register fields (R170) -/

/-- Retry delay, cable-check and pre-charge timeouts in seconds. -/
def OsqReg.retryDelay (r : OsqReg) : Nat := max 1 (field r.cfg.toNat 4 8)
def OsqReg.ccTimeout (r : OsqReg) : Nat := max 1 (field r.cfg.toNat 12 8)
def OsqReg.pcTimeout (r : OsqReg) : Nat := max 1 (field r.cfg.toNat 20 8)
def OsqReg.retryMax (r : OsqReg) : Nat := field r.cfg.toNat 0 4
/-- Association and authorisation timeouts in seconds, 0 none. -/
def OsqReg.assocTimeout (r : OsqReg) : Nat := field r.tmo.toNat 0 8
def OsqReg.authTimeout (r : OsqReg) : Nat := field r.tmo.toNat 8 8
/-- imd_settle in frames. -/
def OsqReg.imdFrames (r : OsqReg) : Nat := 100 * max 1 (field r.tmo.toNat 16 8)
/-- weld_delta in 1/32 V. -/
def OsqReg.weldDelta (r : OsqReg) : Nat := 128 * max 10 (field r.tmo.toNat 24 8)
/-- k_fb in frames. -/
def OsqReg.kFb (r : OsqReg) : Nat := max 10 (field r.timing.toNat 0 8)
/-- weld_window and dis_timeout in frames. -/
def OsqReg.weldWindow (r : OsqReg) : Nat := 10 * max 1 (field r.timing.toNat 8 8)
def OsqReg.disTimeout (r : OsqReg) : Nat := 10 * max 1 (field r.timing.toNat 16 8)
/-- Thermal trip and clear levels in 1/64 °C, the dwell in frames (R162). -/
def OsqReg.thermTrip (r : OsqReg) : Int := signed 16 (field r.therm.toNat 0 16)
def OsqReg.thermClear (r : OsqReg) : Int := signed 16 (field r.therm.toNat 16 16)
def OsqReg.thermDwell (r : OsqReg) : Nat := 1000 * field r.cc.toNat 16 8

/-- 60 V in 1/32 V. -/
def v60 : Nat := 1920

/-! ### Inputs (R149, R151, R152) -/

/-- The outlet is enabled in the stand map. -/
def outEnabled (s : State) (o : OutIx) : Bool := s.map.out[o].conn ≠ 0

/-- The accepted pilot state with the diode fault as state F (R151). -/
def pilotOf (s : State) (o : OutIx) : Pilot :=
  let p := s.lat.levels.pilot[o]
  if p.diode then .f else p.state

/-- Plugged: B, C or D accepted. -/
def plugged (s : State) (o : OutIx) : Bool := pilotOf s o = .b || pilotOf s o = .c || pilotOf s o = .d

/-- Unplugged: A accepted. -/
def unplugged (s : State) (o : OutIx) : Bool := pilotOf s o = .a

/-- K_n closed or open by its two poles (R150). -/
def kClosed (s : State) (o : OutIx) : Bool := s.lat.levels.kfbP.getLsbD o.val && s.lat.levels.kfbN.getLsbD o.val
def kOpen (s : State) (o : OutIx) : Bool := !s.lat.levels.kfbP.getLsbD o.val && !s.lat.levels.kfbN.getLsbD o.val

/-- LS_n closed as latched. -/
def lsClosed (s : State) (o : OutIx) : Bool := s.lat.levels.lsClosed.getLsbD o.val

/-- The lock and mast feedback (R149): a value older than 100 ms counts as lost. -/
def lockFb (s : State) (o : OutIx) : Bool :=
  match mailFresh s.lat.levels s.fn 100 6 o.val 0 with | some v => v ≠ 0 | none => false
def mastFb (s : State) (o : OutIx) : Bool :=
  match mailFresh s.lat.levels s.fn 100 7 o.val 0 with | some v => v ≠ 0 | none => false

/-- The interlock (R152). -/
def interlock (s : State) (o : OutIx) : Bool :=
  s.fl.veh[o].ready && (pilotOf s o = .c || pilotOf s o = .d) && lockFb s o && (!s.map.out[o].mast || mastFb s o)

/-- Cable-side voltage (R149): the metering set's mean, or the vehicle's present voltage. -/
def vCab (s : State) (o : OutIx) : Option Nat :=
  match s.map.out[o].met with
  | some k => s.lat.levels.vCab[k]
  | none => s.fl.veh[o].v.presentVolt

/-- Outlet-bus voltage (R149): the lowest-index channel SETTLED on the outlet with a valid uplink in S_F. -/
def vOb (s : State) (o : OutIx) : Option Nat :=
  ((settledOn s.fl o).find? fun c => s.ctl.unitS[c].valid).map fun c => s.ctl.unitS[c].meas.vOut

/-- V_cab below 60 V was latched. -/
def cabDead (s : State) (o : OutIx) : Bool := match vCab s o with | some v => v < v60 | none => false

/-- A short on a channel of the outlet in S_F (R142). -/
def shortOn (s : State) (o : OutIx) : Bool := (settledOn s.fl o).any fun c => s.ctl.portS[c].prev.shorted

/-- track_ok of every channel settled on the outlet. -/
def trackOn (s : State) (o : OutIx) : Bool :=
  settledOn s.fl o ≠ [] && (settledOn s.fl o).all fun c => trackOk (nOf s c) s.ctl.portS[c].prev

/-- Every settled channel at 2 A or less in every valid sample of the last frame (R153). -/
def rampedDown (s : State) (o : OutIx) : Bool := (settledOn s.fl o).all fun c => s.ctl.portS[c].prev.lowValid

/-- The sum of |i_out| over the settled channels, 1/32 A (R168). -/
def sumAbsI (s : State) (o : OutIx) : Nat := (settledOn s.fl o).foldl (fun a c => a + s.ctl.unitS[c].meas.iOut.natAbs) 0

/-- Credit exhausted and billing available, as latched at the frame start. -/
def creditOut (s : State) (o : OutIx) : Bool := s.fl.bil.creditOut.getLsbD o.val
def billAvail (s : State) (o : OutIx) : Bool := s.fl.bil.avail.getLsbD o.val

/-- T_pin: the highest fresh pin entry (R200, R201). -/
def tPin (s : State) (o : OutIx) : Option Int :=
  [0, 1, 2, 3].foldl (fun m k => match mailFresh s.lat.levels s.fn 100 5 o.val k, m with
    | some v, some a => some (max a (signed 16 v))
    | some v, none => some (signed 16 v)
    | none, m => m) none

/-- The timeout of R150 is judged once for a command: in the evaluation of frame G + k_fb + 2, or in the first one after
it where a restart window held that. (DEDUCED, entry 27.) -/
def kJudge (s : State) (o : OutIx) (q : Osq) : Osq :=
  let at_ := decide (q.kFn + s.osqR[o].kFb + 2 ≤ s.fn)
  { q with kDue := at_ && !q.kJudged, kJudged := q.kJudged || at_ }

/-! ### Records and mailbox -/

/-- The session id of R167. -/
def Osq.sessId (q : Osq) (o : OutIx) : Nat := o.val * 2 ^ 24 + q.sessCount % 2 ^ 24

/-- The codes of R152. -/
def OSt.code : OSt → Nat
  | .idle => 0 | .plugged => 1 | .associated => 2 | .authorized => 3 | .cableCheck => 4 | .precharge => 5 | .energy => 6
  | .rampDown => 7 | .weldCheck => 8 | .discharge => 9 | .unplugWait => 10 | .hold => 11 | .fault => 12 | .outOfService => 13

/-- Write an outlet's next record. -/
def setOsq (o : OutIx) (q : Osq) (s : State) : State := { s with nx := { s.nx with osq := s.nx.osq.set o q } }

/-- Set a bit of OSQ_INT_STATUS, which shows it from the next boundary. -/
def osqInt (o : OutIx) (b : Nat) (s : State) : State :=
  { s with late := { s.late with osq := Vec.upd s.late.osq o fun w => setBit w b } }

/-- A mailbox entry with its event (R153, R167). -/
def mbxPut (o : OutIx) (q : Osq) (fn code : Nat) (before after : OSt) (info : Nat) (data : List Nat) (s : State) : State :=
  let e : MbxEntry :=
    { o := o, fn := fn, code := code, before := before, after := after, info := info, retry := q.retryLeft,
      flags := bit q.counted + 2 * bit q.thermal + 4 * bit q.enPending + 8 * bit q.weldUnver, sess := q.sessId o,
      data := data }
  osqInt o 1 (raise { s with mbx := s.mbx ++ [e] } { rank := 6, code := code, num := o.val, ord := o.val })

/-- The states with the lock applied (R152). -/
def OSt.locked : OSt → Bool
  | .authorized => true | .cableCheck => true | .precharge => true | .energy => true | .rampDown => true
  | .weldCheck => true | .discharge => true | .hold => true | .fault => true | _ => false

/-- RAMP_DOWN to DISCHARGE: a shutdown that runs to its end (R156, R164). -/
def OSt.shutdown : OSt → Bool
  | .rampDown => true | .weldCheck => true | .discharge => true | _ => false

/-- Command K_n from the next boundary. -/
def Osq.setK (q : Osq) (on : Bool) (s : State) : Osq := if q.kCmd = on then q else { q with kCmd := on, kFn := s.fn + 1, kDue := false, kJudged := false }

/-- The end of a billing session (R264): the destinations other than HOLD. -/
def OSt.ends : OSt → Bool
  | .idle => true | .unplugWait => true | .fault => true | .outOfService => true | _ => false

/-- A transition, effective at the next boundary (R148), with its mailbox entry. -/
def osqGo (o : OutIx) (q : Osq) (st : OSt) (code info : Nat) (data : List Nat) (s : State) : State :=
  let ended := st.ends && q.sessOpen
  let q' : Osq := { q with
    prev := q.st, st := st, moved := true, lock := st.locked, stFn := if st = q.st then q.stFn else s.fn + 1,
    enPending := q.enPending && st.shutdown,
    sessOpen := q.sessOpen && !ended, stoppedFn := if ended then some (s.fn + 1) else q.stoppedFn,
    billed := q.billed || st = .authorized }
  let s := mbxPut o q' (s.fn + 1) code q.st st info data (setOsq o q' s)
  if st = q.st then s else osqInt o 0 s

/-- FAULT with a fault code (R153): K_n opened, both discharge loads on. -/
def osqFault (o : OutIx) (q : Osq) (f fun_ : Nat) (s : State) : State :=
  let q := { q.setK false s with fault := f, faultPending := false, dscBus := true, dscCable := true }
  osqInt o 3 (osqGo o q .fault 9 f [f, fun_] s)

/-- A weld (R153, R160): weld flag, OUT_OF_SERVICE, and the notification of the firebreak through `weldNote`. -/
def osqWeld (o : OutIx) (q : Osq) (s : State) : State :=
  let kfb := bit (s.lat.levels.kfbP.getLsbD o.val) + 2 * bit (s.lat.levels.kfbN.getLsbD o.val)
  let s := { s with fbkWeldNote := setBit s.fbkWeldNote o.val }
  osqInt o 4 (osqGo o { q.setK false s with weld := true } .outOfService 10 0
    [kfb, (vOb s o).getD 0, (vCab s o).getD 0, q.vC0.getD 0] s)

/-! ### Stopping (R154 to R156) -/

/-- The hold bit of a cause of class hold (R154, R170). -/
def holdBit : Nat → Option Nat
  | 5 => some 0 | 3 => some 1 | 7 => some 2 | 8 => some 3 | 9 => some 4 | _ => none

/-- The causes of the fast rate (R154). -/
def fastCause (c : Nat) : Bool := c = 1 || c = 2 || c = 3

/-- Latch causes toward the destination: each with the fault it sets, 0 none. -/
def latchCauses (q : Osq) (cs : List (Nat × Nat)) : Osq :=
  cs.foldl (fun q (c, f) =>
    { q with
      causes := setBit q.causes c,
      faultPending := q.faultPending || f ≠ 0, fault := if f ≠ 0 ∧ q.fault = 0 then f else q.fault,
      disableLatched := q.disableLatched || c = 4,
      hold := match holdBit c with | some b => setBit q.hold b | none => q.hold }) q

/-- The lowest cause of a list. -/
def lowCause (cs : List (Nat × Nat)) : Nat := cs.foldl (fun m x => min m x.1) 15

/-- Latch the causes that start a stop: the lowest code is recorded (R154). -/
def startStop (o : OutIx) (q : Osq) (cs : List (Nat × Nat)) (s : State) : Osq × State :=
  let c := lowCause cs
  let q := { latchCauses q cs with stopCause := c, credit := c = 6 }
  (q, if c = 6 then osqInt o 8 s else s)

/-- The destination of R155. -/
def destOf (s : State) (o : OutIx) (q : Osq) : OSt :=
  if q.faultPending then .fault
  else if q.disableLatched && !q.enPending then .outOfService
  else if unplugged s o then .idle
  else if q.hold ≠ 0 && plugged s o then .hold
  else .unplugWait

/-- Go to the destination (R155, R163). A stop or a disable in HOLD counts anew (R163, R164). -/
def osqDest (o : OutIx) (q : Osq) (s : State) : State :=
  match destOf s o q with
  | .fault => osqFault o q q.fault (if q.fault = 3 then s.fbkTripFn[o] else 0) s
  | .hold => osqInt o 2 (osqGo o { q.setK false s with
      counted := !q.thermal, disableLatched := false, causes := q.causes &&& ~~~ 0x410 } .hold 7 q.stopCause [q.hold.toNat] s)
  | .idle => osqGo o (q.setK false s) .idle 2 q.stopCause [] s
  | st => osqGo o (q.setK false s) st 5 q.stopCause [] s

/-- RAMP_DOWN from CABLE_CHECK, PRECHARGE or ENERGY (R153, R156). -/
def osqStop (o : OutIx) (q : Osq) (cs : List (Nat × Nat)) (s : State) : State :=
  let (q, s) := startStop o q cs s
  let q := { q with fast := cs.any fun x => fastCause x.1 }
  osqGo o q .rampDown 6 q.stopCause [q.stopCause, bit q.fast, sumAbsI s o] s

/-- A stop cause in a state without energy: the destination at once (R153). -/
def osqEnd (o : OutIx) (q : Osq) (cs : List (Nat × Nat)) (s : State) : State :=
  let (q, s) := startStop o q cs s
  osqDest o q s

/-- The states of a session (PLUGGED to DISCHARGE, HOLD). -/
def OSt.session : OSt → Bool
  | .plugged => true | .associated => true | .authorized => true | .cableCheck => true | .precharge => true
  | .energy => true | .rampDown => true | .weldCheck => true | .discharge => true | .hold => true | _ => false

/-- The command bits of OSQ_CTRL (R170). -/
def cEnable : Nat := 0
def cDisable : Nat := 1
def cAuthorize : Nat := 2
def cDeny : Nat := 3
def cStop : Nat := 4
def cFaultClear : Nat := 5
def cWeldClear : Nat := 6
def cRetryGrant : Nat := 7

/-- The stop causes that hold in the frame and are not yet latched, each with the fault it sets (R154). (DEDUCED, entry 25.) -/
def causesNow (s : State) (o : OutIx) (q : Osq) (c : BitVec 8) : List (Nat × Nat) :=
  let v := s.fl.veh[o]
  let p := pilotOf s o
  let bad := p = .e || p = .f || p = .none || s.lat.levels.pilot[o].fault
  let st := q.st
  let energy := st = .cableCheck || st = .precharge || st = .energy
  let all : List (Bool × Nat × Nat) :=
    [(v.err, 1, 7), (!v.err && bad, 1, 6), (unplugged s o && (kClosed s o || q.kCmd), 2, 0),
     ((energy || st = .rampDown) && !interlock s o, 3, 0),
     (c.getLsbD cDisable || !outEnabled s o, 4, 0),
     (energy && q.thermal, 5, 0),
     ((energy || st = .authorized || st = .hold) && creditOut s o, 6, 0),
     (v.linkLost, 7, 0),
     (c.getLsbD cStop || (st = .associated && c.getLsbD cDeny), 10, 0),
     (v.stop, 11, 0)]
  if !st.session then []
  else (all.filter fun x => x.1 && !q.causes.getLsbD x.2.1).map (·.2)

/-- The interrupts of newly raised causes: pilot fault, interlock loss. -/
def causeInts (o : OutIx) (cs : List (Nat × Nat)) (s : State) : State :=
  let s := if cs.contains (1, 6) then osqInt o 6 s else s
  if cs.contains (3, 0) then osqInt o 7 s else s

/-! ### The rows of R153, one operation each -/

/-- A new session: id, retries, what the last session latched cleared, its fault and stop cause with it. (DEDUCED, entry 99.) -/
def osqPlug (o : OutIx) (q : Osq) (s : State) : State :=
  let q := { q with
    sessCount := q.sessCount + 1, retryLeft := s.osqR[o].retryMax, startFn := s.fn + 1, sessOpen := true, billed := false,
    causes := 0, fault := 0, stopCause := 0, fast := false, mayClose := false, faultPending := false,
    disableLatched := false, enPending := false, hold := 0, exhausted := false, counted := false, weldUnver := false,
    disUnver := false, unbilled := false, authFn := none }
  let p := s.lat.levels.pilot[o]
  osqGo o q .plugged 1 0 [match p.state with | .a => 0 | .b => 1 | .c => 2 | .d => 3 | .e => 4 | .f => 5 | .none => 6,
    p.pp] s

/-- ASSOCIATED to AUTHORIZED, CREDIT_STOP, or a refusal (R153). -/
def osqAuthorize (o : OutIx) (q : Osq) (s : State) : State :=
  if creditOut s o then osqEnd o q [(6, 0)] s
  else if billAvail s o || s.map.out[o].unbilled then
    osqGo o { q with unbilled := !billAvail s o } .authorized 5 0 [] s
  else
    let s := refuse (0x50004 + 0x100 * o.val) s
    osqInt o 9 (mbxPut o q (s.fn + 1) 13 q.st q.st 0 [cAuthorize] (setOsq o q s))

/-- CABLE_CHECK from AUTHORIZED. -/
def osqCableCheck (o : OutIx) (q : Osq) (s : State) : State :=
  osqGo o { q.setK true s with imdRun := 0 } .cableCheck 5 0 [] s

/-- PRECHARGE from CABLE_CHECK (R158, R159). -/
def osqPrecharge (o : OutIx) (q : Osq) (s : State) : State :=
  osqGo o { q.setK false s with dscCable := true, mayClose := false } .precharge 5 0 [] s

/-- WELD_CHECK from RAMP_DOWN. -/
def osqWeldCheck (o : OutIx) (q : Osq) (s : State) : State :=
  osqGo o { q.setK false s with dscBus := true, vC0 := none } .weldCheck 5 0 [] s

/-- DISCHARGE from WELD_CHECK. -/
def osqDischarge (o : OutIx) (q : Osq) (s : State) : State :=
  osqGo o { q with dscBus := false, dscCable := true } .discharge 5 0 [] s

/-- dis_timeout: DISCHARGE_FAIL, or the end of DISCHARGE without a metering set (R153, R161). -/
def osqDisTimeout (o : OutIx) (q : Osq) (s : State) : State :=
  if s.map.out[o].met.isSome then osqFault o q 5 0 s
  else osqDest o { q with disUnver := true, dscCable := false } s

/-- The guards of a restart apart from the delay (R163). -/
def restartGuard (s : State) (o : OutIx) (q : Osq) : Bool :=
  let v := s.fl.veh[o]
  !q.thermal && 0 < q.retryLeft && v.bound && !v.stop && !v.linkLost && !v.err

/-- HOLD to AUTHORIZED (R163). -/
def osqRestart (o : OutIx) (q : Osq) (s : State) : State :=
  osqGo o { q with retryLeft := if q.counted then q.retryLeft - 1 else q.retryLeft, causes := 0, hold := 0,
                   fast := false, counted := false, exhausted := false, mayClose := false } .authorized 8 0 [] s

/-- The guard of fault_clear (R153). -/
def faultClearGuard (s : State) (o : OutIx) : Bool :=
  kOpen s o && cabDead s o && lsClosed s o &&
    (settledOn s.fl o = [] || match vOb s o with | some v => v < v60 | none => false)

/-- FAULT to IDLE or UNPLUG_WAIT. -/
def osqFaultClear (o : OutIx) (q : Osq) (s : State) : State :=
  osqGo o { q with dscBus := false, dscCable := false } (if unplugged s o then .idle else .unplugWait) 5 0 [] s

/-- The guard of weld_clear: K_n open, the firebreak's weld isolation released. -/
def weldClearGuard (s : State) (o : OutIx) (q : Osq) : Bool :=
  q.weld && kOpen s o && !s.lat.levels.weldLatch.getLsbD o.val

/-- OUT_OF_SERVICE to IDLE by an enable. -/
def osqBack (o : OutIx) (q : Osq) (s : State) : State := osqGo o { q with disableLatched := false } .idle 5 0 [] s

/-! ### One frame -/

/-- The thermal latch (R162). -/
def thermalStep (s : State) (o : OutIx) (q : Osq) : Osq :=
  let r := s.osqR[o]
  let c := s.fl.ccl[o]
  let pin := tPin s o
  let pinsIn := s.map.out[o].cable.sensors / 8 % 2 = 1
  let hot := (match pin with | some t => r.thermTrip ≤ t | none => false) || c.overLim || c.stale1s
  let cool := (match pin with | some t => t < r.thermClear | none => !pinsIn) && !c.overLim && !c.stale1s &&
    BitVec.ofNat 4 s.map.out[o].cable.sensors &&& c.lost = 0
  if hot then { q with thermal := true, coolFrom := none }
  else if cool then
    let f := q.coolFrom.getD s.fn
    { q with coolFrom := some f, thermal := q.thermal && decide (s.fn < f + r.thermDwell) }
  else { q with coolFrom := none }

/-- Enable, disable and retry_grant as levels of the record (R163, R164). -/
def osqLevels (o : OutIx) (q : Osq) (c : BitVec 8) (s : State) : Osq × State :=
  let q := if c.getLsbD cRetryGrant then { q with retryLeft := s.osqR[o].retryMax } else q
  if c.getLsbD cDisable then ({ q with hostEnabled := false, enPending := false }, s)
  else if c.getLsbD cEnable then
    let q := { q with hostEnabled := true }
    if q.st.shutdown && q.disableLatched && !q.enPending then
      let q := { q with enPending := true }
      (q, mbxPut o q (s.fn + 1) 12 q.st q.st 0 [] s)
    else (q, s)
  else (q, s)

/-- The judgement of K_n k_fb after a restart (R166 step 6): a contactor that is not open is welded; no row is evaluated
before it. (DEDUCED, entry 99.) -/
def osqStartStep (o : OutIx) (q : Osq) (s : State) : State :=
  if s.fn < q.kFn + s.osqR[o].kFb then setOsq o q s
  else if kOpen s o then setOsq o { q with starting := false } s
  else osqWeld o { q with starting := false } s

/-- The rows of a state against the inputs of the frame, for the latched commands given. No counter moves here. -/
def osqStep (o : OutIx) (q : Osq) (c : BitVec 8) (s : State) : State :=
  let r := s.osqR[o]
  let cs := causesNow s o q c
  let s := causeInts o cs s
  let age := s.fn - q.stFn
  match q.st with
  | .idle =>
    if !(outEnabled s o && q.hostEnabled) then osqGo o q .outOfService 5 0 [] s
    else if plugged s o then osqPlug o q s else setOsq o q s
  | .plugged =>
    if cs ≠ [] then osqEnd o q cs s
    else if s.fl.veh[o].bound then osqGo o q .associated 3 0 [s.map.out[o].link] s
    else if 0 < r.assocTimeout && 1000 * r.assocTimeout ≤ age then osqEnd o q [(7, 0)] s
    else setOsq o q s
  | .associated =>
    if cs ≠ [] then osqEnd o q cs s
    else if c.getLsbD cAuthorize then osqAuthorize o q s
    else match q.authFn with
      | some f => if 0 < r.authTimeout && f + 1000 * r.authTimeout ≤ s.fn then osqEnd o q [(10, 0)] s else setOsq o q s
      | none => setOsq o q s
  | .authorized =>
    if cs ≠ [] then osqEnd o q cs s
    else if s.fl.veh[o].ccReq && settledOn s.fl o ≠ [] && interlock s o && lsClosed s o && !q.thermal && !fwuHeld s then
      osqCableCheck o q s
    else setOsq o q s
  | .cableCheck =>
    if shortOn s o then osqFault o q 1 0 s
    else if q.kCmd && !kClosed s o && q.kDue then osqFault o q 4 0 s
    else if cs ≠ [] then osqStop o q cs s
    else if 1000 * r.ccTimeout ≤ age then osqStop o q [(8, 0)] s
    else if r.imdFrames ≤ q.imdRun then osqPrecharge o q s
    else setOsq o q s
  | .precharge =>
    if shortOn s o then osqFault o q 1 0 s
    else if !q.kCmd && !kOpen s o && q.kDue then osqWeld o q s
    else if q.kCmd && !kClosed s o && q.kDue then osqFault o q 4 0 s
    else if cs ≠ [] then osqStop o q cs s
    else if 1000 * r.pcTimeout ≤ age then osqStop o q [(9, 0)] s
    else if q.kCmd then (if kClosed s o then osqGo o q .energy 5 0 [] s else setOsq o q s)
    else if !q.mayClose then
      setOsq o (if cabDead s o then { q with mayClose := true, dscCable := false } else q) s
    else if kOpen s o && s.fl.veh[o].closed && (match vb s o with | some v => v60 ≤ v | none => false) && trackOn s o then
      osqGo o (q.setK true s) .precharge 5 0 [] s
    else setOsq o q s
  | .energy => if cs ≠ [] then osqStop o q cs s else setOsq o q s
  | .rampDown =>
    let q := latchCauses q cs
    let q := { q with fast := q.fast || cs.any fun x => fastCause x.1 }
    if rampedDown s o then osqWeldCheck o q s
    else if cs ≠ [] then osqGo o q .rampDown 6 (lowCause cs) [lowCause cs, bit q.fast, sumAbsI s o] s
    else setOsq o q s
  | .weldCheck =>
    let q := { latchCauses q cs with vC0 := some (q.vC0.getD ((vCab s o).getD 0)) }
    let lvl := r.weldDelta + v60
    let late := r.weldWindow ≤ age
    let pass := kOpen s o && !late && (match vOb s o, vCab s o with | some a, some b => a + r.weldDelta ≤ b | _, _ => false)
    let unver := kOpen s o && (q.vC0.getD 0 < lvl || match vCab s o with | some v => v < lvl | none => false)
    if !kOpen s o && q.kDue then osqWeld o q s
    else if pass then osqDischarge o q s
    else if unver then osqDischarge o { q with weldUnver := true } s
    else if late then osqWeld o q s
    else setOsq o q s
  | .discharge =>
    let q := latchCauses q cs
    if s.map.out[o].met.isSome && cabDead s o then osqDest o { q with dscCable := false } s
    else if r.disTimeout ≤ age then osqDisTimeout o q s
    else setOsq o q s
  | .unplugWait =>
    if unplugged s o then osqGo o q .idle 2 0 [] s
    else if c.getLsbD cDisable then osqGo o { q with disableLatched := true } .outOfService 5 0 [] s
    else setOsq o q s
  | .hold =>
    if cs ≠ [] then osqEnd o { q with hold := 0 } cs s
    else if restartGuard s o q && 1000 * r.retryDelay ≤ age then osqRestart o q s
    else setOsq o { q with exhausted := q.retryLeft = 0 } s
  | .fault =>
    if !q.kCmd && !kOpen s o && q.kDue then osqWeld o q s
    else if c.getLsbD cFaultClear && faultClearGuard s o then osqFaultClear o q s
    else setOsq o q s
  | .outOfService =>
    if c.getLsbD cWeldClear && weldClearGuard s o q then osqGo o { q with weld := false } .outOfService 5 0 [] s
    else if c.getLsbD cEnable && !c.getLsbD cDisable && outEnabled s o && !q.weld && kOpen s o then osqBack o q s
    else setOsq o q s

/-- A firebreak trip for the outlet (R153): it goes before stop causes, and in WELD_CHECK and DISCHARGE it becomes the
destination. -/
def osqTrip (o : OutIx) (q : Osq) (s : State) : Osq × Bool :=
  if !s.lat.levels.trips.getLsbD o.val || q.st = .fault || q.st = .outOfService then (q, false)
  else if q.st = .weldCheck || q.st = .discharge then
    ({ q with faultPending := true, fault := 3 }, false)
  else (q, true)

/-- The evaluation of one sequencer in step 4 (R148). -/
def osqEval (s : State) (o : OutIx) : State :=
  let c := s.osqR[o].cmd
  let q := kJudge s o (thermalStep s o { s.fl.osq[o] with moved := false })
  let s := { s with osqR := Vec.upd s.osqR o fun r => { r with cmd := 0 } }
  let (q, s) := osqLevels o q c s
  -- the check of R158 counts here, once in a frame
  let vt := ccVolt s o
  let good := kClosed s o && s.lat.levels.imdOk.getLsbD o.val &&
    (match vCab s o with | some v => decide (((v : Int) - vt).natAbs ≤ vt / 50) | none => false)
  let q := if q.st = .cableCheck then { q with imdRun := if good then q.imdRun + 1 else 0 } else q
  let (q, trip) := osqTrip o q s
  if trip then
    let sf3 := s.lat.levels.tripsSf3.getLsbD o.val
    osqFault o q (if sf3 then 2 else 3) (s.fbkTripFn[o]) s
  else if q.starting then osqStartStep o q s
  else osqStep o q c s

/-! ### Restart (R166) and outputs (R150, R151) -/

/-- The start of a sequencer after a restart of the package (R166 step 6), with its restored weld flag; `cut` where the
restart interrupted a session. -/
def osqStart (enabled weld plug cut : Bool) (fn : Nat) : Osq :=
  let st : OSt := if !enabled || weld then .outOfService else if plug then .unplugWait else .idle
  { st := st, prev := st, stFn := fn, weld := weld, lock := st.locked, kFn := fn, kJudged := true, starting := true,
    stopCause := if cut then 12 else 0 }

/-- The pilot output runs the square wave: CCS outlets in PLUGGED to HOLD (R151). (DEDUCED, entry 26.) -/
def cpSquare (s : State) (o : OutIx) : Bool :=
  let st := s.fl.osq[o].st
  s.map.out[o].conn = 2 && st ≠ .idle && st ≠ .fault && st ≠ .outOfService

/-- The duty of the square wave in 0.1 % (R151). -/
def cpDuty (s : State) (o : OutIx) : Nat := min 1000 (field s.osqR[o].pilotCfg.toNat 0 10)

/-! ### Commands -/

/-- A row of R153 found in the frame in progress, on an outlet in a state and not yet moved. (DEDUCED, entry 7.) -/
def osqRow (o : OutIx) (ok : Osq → Bool) (f : Osq → State → State) (s : State) : Ans :=
  whenOn s.isl.ctl s fun s =>
    let q := s.nx.osq[o]
    if s.fwu.window.isNone && !q.moved && !q.starting && decide (q.st = s.fl.osq[o].st) && ok q then f q s else s

/-- A latched command of OSQ_CTRL in the frame in progress (R153, R164); in a restart window it waits (R397). (DEDUCED, entry 8.) -/
def osqCommand (o : OutIx) (b : Nat) (s : State) : State :=
  if s.fwu.window.isSome then { s with osqR := Vec.upd s.osqR o fun r => { r with cmd := setBit r.cmd b } } else
  let c := setBit (0 : BitVec 8) b
  let (q, s) := osqLevels o s.nx.osq[o] c s
  if q.moved ∨ q.starting ∨ q.st ≠ s.fl.osq[o].st then setOsq o q s else osqStep o q c s

/-- Change the live pilot result of an outlet. -/
def setPilot (o : OutIx) (f : PilotIn → PilotIn) (s : State) : State :=
  { s with live := { s.live with pilot := Vec.upd s.live.pilot o f } }

/-- The class of a high plateau in 0.1 V and a proximity reading (R151, R178). -/
def classifyPilot (c : OutCfg) (high : Int) (pp : Nat) : Pilot :=
  let t (k : Nat) : Int := c.thr.getD k 0
  let range := c.ppMin ≠ 0 || c.ppMax ≠ 0
  let mated := !range || (c.ppMin ≤ pp && pp ≤ c.ppMax)
  if t 0 < high then .none
  else if t 1 ≤ high then .a
  else if t 4 ≤ high then
    if !mated then .a else if t 2 ≤ high then .b else if t 3 ≤ high then .c else .d
  else .e

/-- PILOT_STATE_ACCEPT (R151): the state classified in three windows in a row becomes the accepted state. -/
def execPilotStateAccept (o : OutIx) (high low : BitVec 8) (wave : PilotWave) (pp : Nat) (s : State) : Ans :=
  whenOn s.isl.com s fun s =>
    setPilot o (fun p => { p with state := classifyPilot s.map.out[o] high.toNat pp, high := high, low := low,
                                  duty := wave.duty, period := wave.period, pp := pp }) s

/-- PILOT_FAULT (R151), while the square wave runs. -/
def execPilotFault (o : OutIx) (set : Bool) (s : State) : Ans :=
  whenOn s.isl.com s fun s => if cpSquare s o then setPilot o (fun p => { p with fault := set }) s else s

/-- DIODE_FAULT (R151), while the square wave runs. -/
def execDiodeFault (o : OutIx) (set : Bool) (s : State) : Ans :=
  whenOn s.isl.com s fun s => if cpSquare s o then setPilot o (fun p => { p with diode := set }) s else s

/-- ASSOC_TIMEOUT (R153). -/
def execAssocTimeout (o : OutIx) (s : State) : Ans :=
  osqRow o (fun q => q.st = .plugged) (fun q s => osqEnd o q [(7, 0)] s) s

/-- AUTH_TIMEOUT (R153): since AUTH_REQUEST. -/
def execAuthTimeout (o : OutIx) (s : State) : Ans :=
  osqRow o (fun q => q.st = .associated && q.authFn.isSome) (fun q s => osqEnd o q [(10, 0)] s) s

/-- CABLE_CHECK_PASSED (R158). -/
def execCableCheckPassed (o : OutIx) (s : State) : Ans :=
  osqRow o (fun q => q.st = .cableCheck) (osqPrecharge o) s

/-- CC_TIMEOUT (R153). -/
def execCcTimeout (o : OutIx) (s : State) : Ans :=
  osqRow o (fun q => q.st = .cableCheck) (fun q s => osqStop o q [(8, 0)] s) s

/-- PC_TIMEOUT (R153). -/
def execPcTimeout (o : OutIx) (s : State) : Ans :=
  osqRow o (fun q => q.st = .precharge) (fun q s => osqStop o q [(9, 0)] s) s

/-- K_n did not show the commanded pattern in time (R150, R153, R160). -/
def osqContactor (o : OutIx) (q : Osq) (s : State) : State :=
  match q.st with
  | .cableCheck => osqFault o q 4 0 s
  | .precharge => if q.kCmd then osqFault o q 4 0 s else osqWeld o q s
  | .weldCheck => osqWeld o q s
  | .fault => osqWeld o q s
  | _ => s

/-- CONTACTOR_TIMEOUT (R150). -/
def execContactorTimeout (o : OutIx) (s : State) : Ans := osqRow o (fun _ => true) (osqContactor o) s

/-- WELD_WINDOW_EXPIRY (R160). -/
def execWeldWindowExpiry (o : OutIx) (s : State) : Ans :=
  osqRow o (fun q => q.st = .weldCheck) (osqWeld o) s

/-- DISCHARGE_TIMEOUT (R153, R161). -/
def execDischargeTimeout (o : OutIx) (s : State) : Ans :=
  osqRow o (fun q => q.st = .discharge) (osqDisTimeout o) s

/-- HOLD_RESTART (R163): the delay has passed; the other guards are tested. -/
def execHoldRestart (o : OutIx) (s : State) : Ans :=
  osqRow o (fun q => q.st = .hold && restartGuard s o q) (osqRestart o) s

/-- THERMAL_LATCH_CLEAR (R162). -/
def execThermalLatchClear (o : OutIx) (s : State) : Ans :=
  whenOn s.isl.ctl s fun s => setOsq o { s.nx.osq[o] with thermal := false } s

/-- OSQ_ENABLE (R164). -/
def execOsqEnable (o : OutIx) (s : State) : Ans := whenOn s.isl.ctl s (osqCommand o cEnable)

/-- OSQ_DISABLE (R164). -/
def execOsqDisable (o : OutIx) (s : State) : Ans := whenOn s.isl.ctl s (osqCommand o cDisable)

/-- OSQ_AUTHORIZE (R153). -/
def execOsqAuthorize (o : OutIx) (s : State) : Ans := whenOn s.isl.ctl s (osqCommand o cAuthorize)

/-- OSQ_DENY (R153). -/
def execOsqDeny (o : OutIx) (s : State) : Ans := whenOn s.isl.ctl s (osqCommand o cDeny)

/-- OSQ_STOP (R154). -/
def execOsqStop (o : OutIx) (s : State) : Ans := whenOn s.isl.ctl s (osqCommand o cStop)

/-- OSQ_FAULT_CLEAR (R153). -/
def execOsqFaultClear (o : OutIx) (s : State) : Ans := whenOn s.isl.ctl s (osqCommand o cFaultClear)

/-- OSQ_WELD_CLEAR (R153). -/
def execOsqWeldClear (o : OutIx) (s : State) : Ans := whenOn s.isl.ctl s (osqCommand o cWeldClear)

/-- OSQ_RETRY_GRANT (R163). -/
def execOsqRetryGrant (o : OutIx) (s : State) : Ans := whenOn s.isl.ctl s (osqCommand o cRetryGrant)

end Sys2Proof.Machine
end

