-- ==== Sys2Proof/Machine/Cable.lean ====
section
/-! DEFINITION. Cable cooling and thermal headroom (chapter 8): the observer, the headroom current, the cooling loop and
their commands. Every value is formed in rational arithmetic and rounded once (R203, R207, R210). -/

namespace Sys2Proof.Machine

/-- Round a rational to the nearest integer, an exact half to the even one. -/
def rheQ (q : Rat) : Int := rheDiv q.num q.den

/-- The outlet has a cable block (R197). -/
def cableOn (s : State) (o : OutIx) : Bool := s.map.out[o].conn ≠ 0

/-- A cooled cable (R198). -/
def CableCfg.cooled (c : CableCfg) : Bool := c.sensors % 4 = 3

/-- 1/64 °C as °C. -/
def degC (v : Int) : Rat := (v : Rat) / 64

/-! ### Sensors (R200, R201) -/

/-- A quantity in a thermal frame. -/
structure Quant where
  declared : Bool
  fresh : Bool
  value : Int
  age : Nat
  stale : Bool
  deriving DecidableEq, Repr, Inhabited

/-- An enabled filter names a pin entry. -/
def pinNamed (s : State) (o : OutIx) (sub : Nat) : Bool :=
  (List.finRange 8).any fun k => s.map.can[k].mode ≠ 0 && s.map.can[k].filters.any fun f =>
    f.enabled && f.q = 5 && f.num = o.val && f.sub = sub

/-- The age of a slot in milliseconds, from the load of the stand map while it was never filled. -/
def slotAge (s : State) (q : Nat) (o : OutIx) (sub : Nat) : Nat :=
  match mailOf s.lat.levels q o.val sub with
  | some m => s.fn - (m.fn + 2)
  | none => s.fn - s.alc.loadFn

/-- The state of one quantity: bit `b` of sensors, quantity code `q`, `n`-bit signed where `sg`. (DEDUCED, entry 31.) -/
def quant (s : State) (o : OutIx) (b q : Nat) (sg : Bool) : Quant :=
  let dec := field s.map.out[o].cable.sensors b 1 = 1
  let age := slotAge s q o 0
  match mailOf s.lat.levels q o.val 0 with
  | some m => { declared := dec, fresh := age ≤ 100, value := if sg then signed 16 m.value else m.value, age := age,
                stale := 1000 < age }
  | none => { declared := dec, fresh := false, value := 0, age := age, stale := 1000 < age }

/-- The pin quantity (R201): fresh while one entry is, the highest fresh value, the age of the oldest entry. -/
def pinQuant (s : State) (o : OutIx) : Quant :=
  let subs := [0, 1, 2, 3].filter (pinNamed s o)
  let ages := if subs = [] then [s.fn - s.alc.loadFn] else subs.map (slotAge s 5 o)
  let vals := subs.filterMap fun k => (mailOf s.lat.levels 5 o.val k).map fun m => signed 16 m.value
  { declared := field s.map.out[o].cable.sensors 3 1 = 1, fresh := (tPin s o).isSome,
    value := match tPin s o with
      | some t => t
      | none => match vals with | v :: vs => vs.foldl max v | [] => 0,
    age := ages.foldl max 0, stale := ages.any fun a => decide (1000 < a) }

/-! ### Observer and headroom -/

/-- G_f in W/K from a flow in 0.01 l/min, limited by R199. -/
def flowCond (c : CableCfg) (flow : Nat) : Rat :=
  if !c.cooled then 0
  else
    let f := if c.cpFlow = 0 then flow
      else min flow ((12800 * c.cw - c.gcw - c.gwj) * 100 / (2 * c.cpFlow))
    (2 * (f : Rat) * c.cpFlow) / 1600

/-- I2 of R202 in A²: the mean square of the ten sums, in 1/32 A. -/
def meanSquare (sums : List Int) : Rat := (((sums.take 10).foldl (fun (a : Int) x => a + x * x) 0 : Int) : Rat) / 10240

/-- A node temperature as its 32-bit signed word (R203). -/
def nodeT (t : Int) : Int := if -2 ^ 31 ≤ t ∧ t < 2 ^ 31 then t else (Config.nodeWord t).toInt

/-- The observer step of R203 in 2^-16 °C: new T_c, T_w, T_j. (DESIGN CHOICE, entry 100.) -/
def observe (c : CableCfg) (i2 gf tin tc tw tj : Rat) : Int × Int × Int :=
  let gcw : Rat := (c.gcw : Rat) / 16
  let gwj : Rat := (c.gwj : Rat) / 16
  let gja : Rat := (c.gja : Rat) / 16
  let p := i2 * ((c.r0 : Rat) / 1000000) * (1 + (c.alpha : Rat) / 1000000 * (tc - 20))
  let qcw := gcw * (tc - tw)
  let qf := gf * (tw - tin)
  let qwj := gwj * (tw - tj)
  let qja := gja * (tj - degC c.tAmb)
  let h : Rat := 1 / 100
  (nodeT (rheQ (65536 * (tc + h * (p - qcw) / (16 * c.cc)))), nodeT (rheQ (65536 * (tw + h * (qcw - qf - qwj) / (16 * c.cw)))),
   nodeT (rheQ (65536 * (tj + h * (qwj - qja) / (16 * c.cj)))))

/-- T_allow in °C (R207). -/
def tAllow (c : CableCfg) (tc : Rat) : Rat :=
  let e : Rat := (c.kh : Rat) / 65536
  min 511 ((degC c.tLimit - e * tc) / (1 - e))

/-- I_calc in 1/32 A (R207). -/
def iCalc (c : CableCfg) (ceil : Nat) (tc gf tin : Rat) : Nat :=
  let gcw : Rat := (c.gcw : Rat) / 16
  let gwj : Rat := (c.gwj : Rat) / 16
  let gja : Rat := (c.gja : Rat) / 16
  let gwja := if c.gwj = 0 ∨ c.gja = 0 then 0 else gwj * gja / (gwj + gja)
  let gout := gf + gwja
  if c.gcw = 0 ∨ gout = 0 then 0
  else
    let ta := tAllow c tc
    let tb := (gf * tin + gwja * degC c.tAmb) / gout
    if ta ≤ tb then 0
    else
      let ra := (c.r0 : Rat) / 1000000 * (1 + (c.alpha : Rat) / 1000000 * (ta - 20))
      if ra ≤ 0 then 0
      else
        let x := (ta - tb) / (ra * (1 / gcw + 1 / gout))
        min ceil (Nat.sqrt (1024 * x).floor.toNat)

/-! ### The thermal frame of one outlet -/

/-- Raise an event of R213; where CCL_STATUS has a W1C bit for it, that shows from the next boundary. -/
def cclEvent (o : OutIx) (code : Nat) (b : Option Nat) (s : State) : State :=
  let s := match b with
    | some k => { s with late := { s.late with ccl := Vec.upd s.late.ccl o fun w => setBit w k } }
    | none => s
  raise s { rank := 7, code := code, num := o.val, ord := 8 * o.val + code }

/-- The effort of the cooling loop (R210): the integrator, pump and fan in 0.5 %. -/
def coolLoop (c : CableCfg) (ceil : Nat) (i2 tc : Rat) (x : Int) : Int × Nat × Nat :=
  let e := tc - degC c.tCoolSp
  let ff : Rat := if ceil = 0 then 0 else (c.kff : Rat) * i2 / ((ceil : Rat) / 32 * ((ceil : Rat) / 32))
  let base := ff + (c.kpCool : Rat) * e
  let ur := base + x
  let x' := if !(65536 ≤ ur && 0 < e) && !(ur ≤ 0 && e < 0) then
      clampI (-65536) 65536 (rheQ (x + (c.kiCool : Rat) * e / 100)) else x
  let u := (clampI 0 65536 (rheQ (base + x'))).toNat
  (x', max c.pumpMin (200 * min u 32768 / 32768), max c.fanMin (200 * (u - 32768) / 32768))

/-- The cable block of one outlet in a thermal frame (R197 to R213). (DEDUCED, entry 115.) -/
def cableStep (s : State) (o : OutIx) : State :=
  if !cableOn s o then s
  else
    let c := s.map.out[o].cable
    let ceil := s.map.out[o].iCeil
    let b := s.nx.ccl[o]
    let r := s.cclR[o]
    let qi := quant s o 0 2 true
    let qf := quant s o 1 3 false
    let qo := quant s o 2 4 true
    let qp := pinQuant s o
    let inOk := c.cooled && qi.fresh
    let flOk := c.cooled && qf.fresh
    let tin := if inOk then degC qi.value else degC c.tInWorst
    let gf := flowCond c (if flOk then qf.value.toNat else c.flowWorst)
    let i2 := meanSquare b.sums
    let w (t : Int) : Rat := (t : Rat) / 65536
    let (tc, tw, tj) := observe c i2 gf tin (w b.tc) (w b.tw) (w b.tj)
    -- R204, R205: residual, fault, correction
    let formed := inOk && qo.declared && qo.fresh
    let res : Rat := if formed then degC qo.value - (2 * w tw - tin) else 0
    let lim : Rat := (c.resLimit : Rat) / 8
    let out := decide (lim < |res|)
    let run := if formed then (if out then b.resRun + 1 else 0) else b.resRun
    let newFault := formed && out && 3000 ≤ run && !b.resFault
    let cleared := b.resFault && r.clearReq && formed && !out
    let fault := (b.resFault || newFault) && !cleared
    let tw := if formed && !fault then nodeT (rheQ (65536 * (w tw + (c.kObs : Rat) / 256 * res / 2))) else tw
    -- R204: pin floor
    let floor_ : Int := 1024 * (qp.value - c.pinOffset)
    let pin := qp.declared && qp.fresh && tc < floor_
    let tc := if pin then floor_ else tc
    -- R207, R208: headroom
    let tinHr := if fault then degC c.tInWorst else tin
    let ic := iCalc c ceil (w tc) gf tinHr
    let ok := (!c.cooled || (inOk && flOk)) && !fault
    let hr := if ok || !b.ran then ic else max ic (b.iHr - c.hrDecay * 32 / 100)
    let overL := decide (1024 * (c.tLimit : Int) < tc)
    -- R210: cooling
    let lostIn := !inOk || !flOk || fault
    let (x, pump, fan) :=
      if !c.cooled then (b.integ, 0, 0)
      else if r.manual then (b.integ, r.manPump, r.manFan)
      else if lostIn then (b.integ, 200, 200)
      else coolLoop c ceil i2 (w tc) b.integ
    -- R201, R213: lost quantities
    let qs := [qi, qf, qo, qp]
    let lostBit (k : Nat) (q : Quant) : Nat := if q.declared && !q.fresh then 2 ^ k else 0
    let lost : BitVec 4 := BitVec.ofNat 4 (lostBit 0 qi + lostBit 1 qf + lostBit 2 qo + lostBit 3 qp)
    let nowLost := if b.ran then lost &&& ~~~ b.lost else 0
    let newLost := decide (nowLost ≠ 0)
    let since := b.lostSince || newLost
    let restored := since && lost = 0
    let stale := qs.any fun q => q.declared && q.stale
    let ages := (qs.filter (·.declared)).foldl (fun a q => max a q.age) 0
    let bind := decide (hr < ceil)
    let b' : Ccl := { b with
      tc := tc, tw := tw, tj := tj, integ := x, iHr := hr, ran := true,
      tAllow := min 0x7FFF (rheQ (64 * tAllow c (w tc))),
      resid := clampI (-32768) 32767 (rheQ (64 * res)), resRun := if cleared then 0 else run, resFault := fault,
      pinFloor := pin, overLim := overL, stale1s := stale, lost := lost, lostSince := since && !restored,
      decaying := decide (ic < hr), binding := bind, pump := pump, fan := fan, age := ages,
      tIn := qi.value, tOut := qo.value, flow := qf.value.toNat, tPin := qp.value, manual := r.manual && c.cooled }
    let ev (h : Bool) (code : Nat) (k : Option Nat) (t : State) : State := if h then cclEvent o code k t else t
    let s := { s with nx := { s.nx with ccl := s.nx.ccl.set o b' },
                      cclR := Vec.upd s.cclR o fun r => { r with clearReq := r.clearReq && fault } }
    -- one event for each quantity that becomes Lost
    let s := (List.range 4).foldl (fun t k => ev (nowLost.getLsbD k) 1 (some 0) t) s
    let s := ev (stale && !b.stale1s) 2 (some 1) s
    let s := ev restored 3 none s
    let s := ev newFault 4 (some 2) s
    let s := ev (pin && !b.pinFloor) 5 (some 3) s
    let s := ev (bind && !b.binding) 6 (some 4) s
    ev (overL && !b.overLim) 7 (some 5) s

/-- The start of a block (R206): all nodes at max(t_in_worst, t_amb), I_hr 0. -/
def cableStart (c : CableCfg) (ceil fn : Nat) : Ccl :=
  let t := 1024 * max c.tInWorst c.tAmb
  { tc := t, tw := t, tj := t, startFn := fn, binding := decide (0 < ceil) }

/-- The sum of i_out latched at sample 0 joins the last ten (R202). -/
def cableSum (s : State) (o : OutIx) : State :=
  if !cableOn s o then s
  else
    let on := (List.finRange 96).filter fun c =>
      (s.fl.hand[c].st = .settled || s.fl.hand[c].st = .rampDown) && s.fl.hand[c].outlet = some o
    let i := on.foldl (fun a c => a + s.ctl.unitS[c].meas.iOut) 0
    { s with nx := { s.nx with ccl := Vec.upd s.nx.ccl o fun b => { b with sums := i :: b.sums.take 9 } } }

/-! ### Commands -/

/-- RESIDUAL_FAULT (R205): the residual has been out of limit in 3,000 thermal frames in a row. -/
def execResidualFault (o : OutIx) (s : State) : Ans :=
  whenOn s.isl.ctl s fun s =>
    if !cableOn s o || s.nx.ccl[o].resFault then s
    else cclEvent o 4 (some 2) { s with nx := { s.nx with ccl := Vec.upd s.nx.ccl o fun b =>
      { b with resFault := true, resRun := max b.resRun 3000 } } }

/-- CCL_RESIDUAL_CLEAR (R205): the request acts at the first thermal frame with the residual in limit; without a fault
it clears nothing. -/
def execCclResidualClear (o : OutIx) (s : State) : Ans :=
  whenOn s.isl.ctl s fun s =>
    { s with cclR := Vec.upd s.cclR o fun r => { r with clearReq := s.nx.ccl[o].resFault } }

/-- The latched settings of CCL_CTRL (R215). -/
def cclManual (o : OutIx) (on : Bool) (pump fan : Nat) (s : State) : State :=
  { s with cclR := Vec.upd s.cclR o fun r =>
    { r with manual := on, manPump := min 200 pump, manFan := min 200 fan } }

/-- CCL_MANUAL (R210). -/
def execCclManual (o : OutIx) (on : Bool) (pump fan : BitVec 8) (s : State) : Ans :=
  whenOn s.isl.ctl s (cclManual o on pump.toNat fan.toNat)

end Sys2Proof.Machine
end

