-- ==== Sys2Proof/Machine/Metrology.lean ====
section
/-! DEFINITION. Metrology (chapter 9): the converters and cycles of the metering hardware, the records, and what a latched
record does: pulses, tamper checks and the witness. -/

namespace Sys2Proof.Machine

/-! ### Sets and events -/

/-- Set k is assigned (R220). -/
def metOn (s : State) (k : SetIx) : Bool := s.map.met[k].kind ≠ 0 && s.map.met[k].target.isSome

/-- The site meter is enabled (R219). -/
def siteOn (s : State) : Bool := s.map.site.present && s.map.site.kind = 1

/-- The set is assigned; 32 is the site. -/
def metOn33 (s : State) (k : Fin 33) : Bool := if h : k.val < 32 then metOn s ⟨k.val, h⟩ else siteOn s

/-- The outlet that a set serves. -/
def outOfSet (s : State) (k : SetIx) : Option OutIx :=
  if s.map.met[k].kind = 1 then s.map.met[k].target.bind (optFin 32) else none

/-- Change the metering hardware. -/
def onMet (f : Met → Met) (s : State) : State := { s with met := f s.met }

/-- Change the frame-level record of a set in the results of the frame. -/
def onSet (k : Fin 33) (f : MetSet → MetSet) (s : State) : State :=
  { s with nx := { s.nx with met := { s.nx.met with sets := Vec.upd s.nx.met.sets k f } } }

/-- Change the frame-level metrology in the results of the frame. -/
def onMetF (f : MetF → MetF) (s : State) : State := { s with nx := { s.nx with met := f s.nx.met } }

/-- A bit of MET_INT_STATUS that shows from the next boundary. -/
def metInt (b : Nat) (s : State) : State := { s with late := { s.late with met := setBit s.late.met b } }

/-- An event of rank 9 (R245), its bit of MET_INT_STATUS and its W1C bit of MET_SET_STATUS. -/
def metEvent (k : Nat) (code : Nat) (b : Option Nat) (sb : Option Nat) (s : State) : State :=
  let s := match b with | some b => metInt b s | none => s
  let s := match sb, optFin 32 k with
    | some x, some i => { s with late := { s.late with sets := Vec.upd s.late.sets i fun w => setBit w x } }
    | _, _ => s
  raise s { rank := 9, code := code, num := k, ord := 16 * k + code }

/-! ### Converters (R216, R224, R225) -/

/-- The converter is powered (R217). -/
def cvOn (s : State) (c : Fin 72) : Bool :=
  if h : c.val < 64 then metOn s ⟨c.val / 2, by omega⟩ else siteOn s

/-- A corrected value: rhe((x − o) × g × c_ref × 2^k). -/
def corrected (m : Met) (c : Fin 72) (x k : Int) : Int := rhe2 ((x - m.off[c]) * m.gain[c] * m.cref) k

/-- K_s (R225). -/
def ksOf (divider shunt : Nat) : Int := rheDiv (5 * divider * 1000000 * 2 ^ 18) (1152 * shunt)

/-- Divider and shunt of a set. -/
def ratios (s : State) (k : Fin 33) : Nat × Nat :=
  if h : k.val < 32 then (s.map.met[k.val].divider, s.map.met[k.val].shunt) else (s.map.site.divider, s.map.site.shunt)

/-- Full scale of a raw code. -/
def fullScale (x : Int) : Bool := x = 8388607 || x = -8388608

/-- Sets whose sub-samples the capture ring takes: the eight lowest of MET_CAPTURE (R246). -/
def capSets (s : State) : List SetIx := ((List.finRange 32).filter fun k => s.met.capMask.getLsbD k.val).take 8

/-- The capture runs (R230). -/
def capOn (s : State) : Bool := s.met.capEn && !s.lnd.throttled && s.map.fifo[5].size ≠ 0

/-- The converters captured, ascending. -/
def capConvs (s : State) : List Nat :=
  let cs := (capSets s).foldr (fun k l => 2 * k.val :: (2 * k.val + 1) :: l) []
  if s.met.capSite then cs ++ (List.range 8).map (· + 64) else cs

/-- The nominal cycle length (R223). -/
def nominalLen (s : State) : Nat := if s.map.site.nominal = 60 then 68267 else 81920

/-- A raw sub-sample of a converter. -/
def rawCode (codes : List Int) (s : State) (c : Fin 72) : Int :=
  if cvOn s c then clampI (-8388608) 8388607 (codes.getD c.val 0) else 0

/-- The corrected sub-samples (R224). -/
def subWords (codes : List Int) (s : State) : List Int :=
  (List.finRange 72).map fun c => if cvOn s c then corrected s.met c (rawCode codes s c) (-52) else 0

/-- What a sub-sample contributes (R225). -/
def sampOf (codes : List Int) (s : State) : Samp :=
  let xs := subWords codes s
  let g (i : Nat) : Int := xs.getD i 0
  let ln (p : Nat) : Int := g (64 + p) - g 67
  let pw (k : Fin 33) : Int :=
    if k.val < 32 then g (2 * k.val) * g (2 * k.val + 1) else ln 0 * g 68 + ln 1 * g 69 + ln 2 * g 70
  let sq (i : Nat) : Int :=
    let v := if i < 3 then ln i else if i = 3 then g 67 else if i < 8 then g (64 + i)
             else ln (i - 8) - ln ((i - 7) % 3)
    v * v
  { clk := s.met.clk + 256, pw := Vector.ofFn pw, sq := Vector.ofFn fun i => sq i.val,
    mag := Vector.ofFn fun p => ((ln p.val).natAbs : Int),
    ovr := (List.finRange 72).foldl
      (fun (w : BitVec 72) c => if cvOn s c && fullScale (rawCode codes s c) then setBit w c.val else w) 0 }

/-- A sub-sample joins the running cycle. -/
def addSamp (m : Met) (x : Samp) : Met :=
  { m with
    sFwd := Vec.mapIx m.sFwd fun k a => a + max 0 x.pw[k], sRev := Vec.mapIx m.sRev fun k a => a + max 0 (-x.pw[k]),
    sq := Vec.mapIx m.sq fun i a => a + x.sq[i], peak := Vec.mapIx m.peak fun p a => max a x.mag[p],
    n := m.n + 1, ovr := m.ovr ||| x.ovr }

/-- The clocks from a sub-sample `a` below 0 to the crossing before the next one `b`, to the nearest clock, a tie to the
earlier (R222). -/
def crossOff (a b : Int) : Int := (2 * (256 * -a) + (b - a) - 1) / (2 * (b - a))

/-- A positive crossing of a phase between its last sub-sample and `b` (R222). (DEDUCED, entry 101.) -/
def crossHeld (m : Met) (p : Fin 3) (b : Int) : Bool := decide (m.ln[p] < 0) && decide (0 ≤ b) && m.low.getLsbD p.val

/-- The crossing of the tracked phase that closes the cycle (R222): from 63,016 to 91,022 clocks after the last
boundary. -/
def crossIn (m : Met) (ln : Fin 3 → Int) : Option Nat :=
  match m.cross, optFin 3 m.phase with
  | some l, _ => some l
  | none, some p =>
    let l := m.clk + crossOff m.ln[p] (ln p)
    if crossHeld m p (ln p) && decide (63016 ≤ l) && decide (l ≤ 91022) then some l.toNat else none
  | none, none => none

/-- The phases follow a sub-sample (R222). (DEDUCED, entry 101.) -/
def phaseStep (ln : Fin 3 → Int) (m : Met) : Met :=
  { m with
    ln := Vector.ofFn ln
    low := (List.finRange 3).foldl (fun (w : BitVec 3) p =>
      let was := m.low.getLsbD p.val && !crossHeld m p (ln p)
      if was || decide (20 * ln p < -m.peakLast[p]) then setBit w p.val else w) 0 }

/-- The words of the capture ring (R230): the sub-sample in which a crossing shows is the first of its cycle. -/
def capWords (codes : List Int) (first : Bool) (s : State) : List (List Byte) :=
  if capOn s then (capConvs s).map fun c =>
    leBytes 4 (unsigned 24 (if h : c < 72 then rawCode codes s ⟨c, h⟩ else 0) + 2 ^ 24 * c + 2 ^ 31 * bit first) else []

/-- One sub-sample of every converter (R222, R225): it joins the cycle, or waits where the cycle may have ended before
it. -/
def subsample (codes : List Int) (s : State) : State :=
  let x := sampOf codes s
  let xs := subWords codes s
  let ln (p : Fin 3) : Int := xs.getD (64 + p.val) 0 - xs.getD 67 0
  let cr := crossIn s.met ln
  let first := (s.met.n = 0 && s.met.tail = []) || (s.met.cross.isNone && cr.isSome)
  let s := (capWords codes first s).foldl (fun s w => ringPut 5 captureBase w s) s
  let waits := cr.isSome || decide ((nominalLen s : Int) < x.clk)
  onMet (fun m =>
    let m := if waits then { m with tail := m.tail ++ [x] } else addSamp m x
    { phaseStep ln m with
      clk := x.clk, cross := cr, hold := m.hold || (cr.isNone && decide (91022 < x.clk)),
      vSum := Vec.mapIx m.vSum fun k a => a + xs.getD (2 * k.val) 0, vN := m.vN + 1 }) s

/-- METER_SUBSAMPLE (R225). -/
def execMeterSubsample (codes : List Int) (s : State) : Ans := whenOn s.isl.met s (subsample codes)

/-- V_cab of the frame that ends (R135): the mean of its sub-samples, toward zero, in 1/32 V. With none the last value
stays. -/
def vCabTake (s : State) : State :=
  if s.met.vN = 0 then s
  else
    let v (k : SetIx) (_ : Option Nat) : Option Nat :=
      if metOn s k then
        some (tdiv (s.met.vSum[k] * s.map.met[k].divider * 32) (s.met.vN * 1000 * 2 ^ 31)).toNat
      else none
    onMet (fun m => { m with vSum := Vector.replicate 32 0, vN := 0 })
      { s with live := { s.live with vCab := Vec.mapIx s.live.vCab v } }

/-! ### Cycles (R222 to R231) -/

/-- A cycle average (R224). -/
def cycleAvg (s : State) (c : Fin 72) (len n1 : Nat) : Int :=
  if cvOn s c then
    sat24 (corrected s.met c (rheDiv (2 ^ 23 * (2 * (n1 : Int) - len)) len) (-60))
  else 0

/-- The mean square as a root in 1/32 V: the sub-samples have 8 fractional bits. -/
def rmsV (s : State) (i : Fin 11) : Nat :=
  if s.met.n = 0 then 0
  else Nat.sqrt (s.met.sq[i].toNat * (32 * s.map.site.divider) ^ 2 / (s.met.n * (1000 * 2 ^ 31) ^ 2))

/-- The mean square as a root in 1/4 A. -/
def rmsI (s : State) (i : Fin 11) : Nat :=
  if s.met.n = 0 ∨ s.map.site.shunt = 0 then 0
  else Nat.sqrt (s.met.sq[i].toNat * (10 ^ 9) ^ 2 / (s.met.n * (2 ^ 31 * s.map.site.shunt) ^ 2))

/-- The phase to track next (R222): the first with at least 50 V and 20 % of the largest; 3: none. -/
def nextPhase (s : State) : Nat :=
  if !siteOn s || s.met.n = 0 then 3
  else
    let q (p : Fin 3) : Int := s.met.sq[p.val]
    let big := max (q 0) (max (q 1) (q 2))
    let div : Int := s.map.site.divider
    let ok (p : Fin 3) : Bool := 2500 * (s.met.n : Int) * (1000 * 2 ^ 31) ^ 2 ≤ q p * div * div && big ≤ 25 * q p
    match (List.finRange 3).find? ok with | some p => p.val | none => 3

/-- The bytes of a cycle record (R228, R229) with its CRC-32C. -/
def cycleBytes (r : CycleRec) : List Byte :=
  let head := leBytes 8 r.fn ++ leBytes 4 r.seq.toNat ++ leBytes 4 r.len ++ leBytes 4 r.rtcSec ++ leBytes 2 r.rtcFrac ++
    leBytes 2 (bit r.freqHold + 2 * bit r.resync + 4 * r.phase.toNat) ++ leBytes 2 (unsigned 16 r.temp) ++ leBytes 2 r.endUs
  let ent (e : SetRec) : List Byte := leBytes 3 (unsigned 24 e.v) ++ leBytes 3 (unsigned 24 e.i) ++
    leBytes 2 (bit e.ovrV + 2 * bit e.ovrI + 4 * bit e.lowerBound + 8 * bit e.settle + 16 * bit e.unassigned) ++
    leBytes 4 e.eFwd ++ leBytes 4 e.eRev
  let t := r.site
  let site := leBytes 4 t.eFwd ++ leBytes 4 t.eRev ++ (t.rmsV.map (leBytes 2)).flatten ++ (t.rmsI.map (leBytes 2)).flatten ++
    leBytes 2 (t.ovr.toNat + 256 * bit t.lowerBound + 512 * bit t.settle + 1024 * bit t.disabled) ++ List.replicate 6 0
  let body := (r.sets.toList.map ent).flatten ++ site
  head ++ leBytes 4 (crc32c (head ++ body)).toNat ++ body

/-- RTC seconds and fraction of a level (R228, R425). -/
def rtcParts (rtc : Nat) : Nat × Nat := (rtc / 65536000, 2 * (rtc % 65536000 / 2000))

/-- The sub-samples that end by the boundary join the cycle. -/
def joinTail (len : Nat) (s : State) : State :=
  onMet (fun m => { (m.tail.filter fun x => decide (x.clk ≤ (len : Int))).foldl addSamp m with
    tail := m.tail.filter fun x => decide ((len : Int) < x.clk) }) s

/-- The next cycle begins with the sub-samples that came after the boundary. -/
def nextCycle (len : Nat) (s : State) : State :=
  onMet (fun m =>
    let rest := m.tail.map fun x => { x with clk := x.clk - len }
    rest.foldl addSamp { m with tail := [], cross := none, clk := m.clk - len, peakLast := m.peak, peak := Vector.replicate 3 0 }) s

/-- Close the running cycle: averages, energies, the record, its ring entry and the non-loop input (R224 to R229). -/
def closeCycle (len : Nat) (ones : List Nat) (load : BitVec 72) (endUs : Nat) (crossing : Bool) (s : State) : State :=
  let m := s.met
  let ov := m.ovr ||| load
  let cv (c : Fin 72) : Int × Bool × Bool :=
    if !cvOn s c then (0, false, false)
    else
      let a := cycleAvg s c len (ones.getD c.val 0)
      let o := ov.getLsbD c.val
      (a, o, !o && m.prevOvr.getLsbD c.val)
  let cvs : Vector (Int × Bool × Bool) 72 := Vector.ofFn cv
  let at_ (i : Nat) : Int × Bool × Bool := cvs.toList.getD i (0, false, false)
  let aFwd (k : Fin 33) : Nat := m.resFwd[k] + (m.sFwd[k] * ksOf (ratios s k).1 (ratios s k).2).toNat
  let aRev (k : Fin 33) : Nat := m.resRev[k] + (m.sRev[k] * ksOf (ratios s k).1 (ratios s k).2).toNat
  let e (on : Bool) (a : Nat) : Nat := if on then a / 2 ^ 80 else 0
  let set (k : SetIx) : SetRec :=
    if !metOn s k then { unassigned := true }
    else
      let v := at_ (2 * k.val)
      let i := at_ (2 * k.val + 1)
      let k33 : Fin 33 := ⟨k.val, by omega⟩
      { v := v.1, i := i.1, ovrV := v.2.1, ovrI := i.2.1, lowerBound := v.2.1 || i.2.1,
        settle := (v.2.2 || i.2.2) && !(v.2.1 || i.2.1), eFwd := e true (aFwd k33), eRev := e true (aRev k33) }
  let sOvr : BitVec 8 := (List.range 8).foldl (fun (w : BitVec 8) i => if (at_ (64 + i)).2.1 then setBit w i else w) 0
  let site : SiteRec :=
    if !siteOn s then { rmsV := [0, 0, 0, 0], rmsI := [0, 0, 0, 0], lineToLine := [0, 0, 0], disabled := true }
    else { eFwd := e true (aFwd 32), eRev := e true (aRev 32), rmsV := [rmsV s 0, rmsV s 1, rmsV s 2, rmsV s 3],
           rmsI := [rmsI s 4, rmsI s 5, rmsI s 6, rmsI s 7], lineToLine := [rmsV s 8, rmsV s 9, rmsV s 10], ovr := sOvr,
           lowerBound := sOvr ≠ 0, settle := sOvr = 0 && (List.range 8).any fun i => (at_ (64 + i)).2.2 }
  let rtc := rtcParts s.lat.levels.rtc
  let r : CycleRec :=
    { fn := s.fn, seq := m.seq, len := len, rtcSec := rtc.1, rtcFrac := rtc.2, freqHold := !crossing,
      resync := m.resync || (crossing && m.hold), phase := BitVec.ofNat 2 m.phase, temp := m.temp, endUs := endUs,
      sets := Vector.ofFn set, site := site, cv := cvs.toList }
  let ph := nextPhase s
  let newOvr : BitVec 72 := (List.finRange 72).foldl (fun (w : BitVec 72) c => if (cvs[c]).2.1 then setBit w c.val else w) 0
  let own (k : Fin 33) (w : Wit) : Wit :=
    if metOn33 s k then { fwd := (w.fwd + e true (aFwd k)) % 2 ^ 80, rev := (w.rev + e true (aRev k)) % 2 ^ 80 } else w
  let wrap := m.ringIx = 7280
  let s := ringAdd 4 576 (lndWrite (cycleBase + 576 * m.ringIx) (cycleBytes r) s)
  let s := onMet (fun m => { m with
    sFwd := Vector.replicate 33 0, sRev := Vector.replicate 33 0, sq := Vector.replicate 11 0, n := 0, ovr := 0,
    resFwd := Vec.mapIx m.resFwd fun k _ => aFwd k % 2 ^ 80, resRev := Vec.mapIx m.resRev fun k _ => aRev k % 2 ^ 80,
    prevOvr := newOvr, phase := ph, hold := !crossing || ph = 3, resync := m.phase ≠ 3 && ph ≠ 3 && ph ≠ m.phase,
    seq := m.seq + 1, ringIx := if wrap then 0 else m.ringIx + 1,
    ringWraps := if wrap then m.ringWraps + 1 else m.ringWraps, own := Vec.mapIx m.own own,
    intStatus := if wrap then setBit m.intStatus 11 else m.intStatus }) s
  { s with arrived := s.arrived ++ [.cycle r] }

/-- The length of the cycle that has ended, and whether a crossing ended it (R222, R223): the accepted crossing, or in a
hold the nominal length where no further sub-sample ends within it. (DEDUCED, entry 101.) -/
def cycleLen (s : State) : Option (Nat × Bool) :=
  match s.met.cross with
  | some l => some (l, true)
  | none => if s.met.hold && decide ((nominalLen s : Int) < s.met.clk + 256) then some (nominalLen s, false) else none

/-- A cycle that has ended, with the ones of each modulator in it, the modulators that overloaded and its end in the frame. -/
def cycleEnd (ones : List Nat) (ovr : BitVec 72) (endUs : Nat) (s : State) : State :=
  match cycleLen s with
  | some (l, c) => nextCycle l (closeCycle l ones ovr endUs c (joinTail l s))
  | none => s

/-- CYCLE_END (R222, R223): the overloads of the 64 modulators of the sets and of the 8 of the site. -/
def execCycleEnd (ones : List Nat) (ovr : BitVec 64) (siteOvr : BitVec 8) (endUs : Nat) (s : State) : Ans :=
  whenOn s.isl.met s (cycleEnd ones (siteOvr ++ ovr) endUs)

/-- FREQ_HOLD (R223): no accepted crossing within 91,022 clocks; the boundary runs free at the nominal length. -/
def execFreqHold (s : State) : Ans := whenOn s.isl.met s (onMet fun m => { m with hold := m.hold || m.cross.isNone })

/-! ### What a latched record does (R235 to R241) -/

/-- µWh of one pulse (R218, R235). -/
def pulseQ (mode : Nat) : Nat := if mode % 3 = 1 then 1000000000 else if mode % 3 = 2 then 100000000 else 10000000

/-- pulse_mode of a set, 32 being the site. -/
def pulseMode (s : State) (k : Fin 33) : Nat := if h : k.val < 32 then s.map.met[k.val].mode else s.map.site.mode

/-- The pulse output of a set is granted. -/
def pulseOn (s : State) (k : Fin 33) : Bool :=
  metOn33 s k && (if h : k.val < 32 then s.map.met[k.val].pulse.isSome else s.map.site.pulse.isSome) && pulseMode s k ≠ 0

/-- The energies of a set in a record. -/
def recEnergy (r : CycleRec) (k : Fin 33) : Wit :=
  if h : k.val < 32 then { fwd := r.sets[k.val].eFwd, rev := r.sets[k.val].eRev } else { fwd := r.site.eFwd, rev := r.site.eRev }

/-- Pulses of a latched record (R235). A pulse that is due at this boundary has left the backlog that is planned. -/
def pulseStep (k33 : Fin 33) (r : CycleRec) (s : State) : State :=
  if !pulseOn s k33 then s
  else
    let x := s.nx.met.sets[k33]
    let e := recEnergy r k33
    let q := pulseQ (pulseMode s k33)
    let acc := x.acc + (if pulseMode s k33 ≤ 3 then e.fwd else e.rev)
    let b := x.b + acc / q
    let due := bit (x.b ≠ 0 && x.nxt ≤ s.fn && s.met.pulse[k33].isNone)
    let per := r.len / 4096
    let sp := if b - due = 0 then 1 else max 1 (per / (b - due))
    let full := 2 * per < b - due
    let s := onSet k33 (fun x => { x with acc := acc % q, b := b, per := per, s := sp, nxt := s.fn + 1, backlog := full }) s
    if full && !x.backlog then metEvent k33.val 12 (some 9) none s else s

/-- The session direction of a set (R237): 1 forward, −1 reverse, 0 undefined. -/
def setDir (s : State) (k : SetIx) : Int :=
  match outOfSet s k with
  | some o =>
    if disMode s o then -1
    else if s.fl.osq[o].st = .energy || s.fl.osq[o].st = .rampDown then 1 else 0
  | none =>
    match s.map.met[k].target.bind (optFin 96) with
    | some c => match s.map.ch[c].pack with | some j => Int.sign s.fl.plan.packs[j] | none => 0
    | none => 0

/-- The current of a set against a bound: |a| × 0.25 × 10^9 ≥ (num/den A) × 2^23 × shunt. -/
def currentAtLeast (a : Int) (shunt num den : Nat) : Bool := num * 2 ^ 23 * shunt ≤ a.natAbs * 250000000 * den

/-- Reversed current (R237). -/
def reversedStep (k : SetIx) (r : CycleRec) (s : State) : State :=
  if s.map.met[k].tamper % 2 = 0 then s
  else
    let k33 : Fin 33 := ⟨k.val, by omega⟩
    let x := s.nx.met.sets[k33]
    let d := setDir s k
    let a := r.sets[k].i
    let rv := d ≠ 0 && a * d < 0 && currentAtLeast a s.map.met[k].shunt (2 * s.map.met[k].rated) 100
    let span := if rv then x.revSpan + r.len else 0
    let hit := 4096000 < span
    let s := onSet k33 (fun x => { x with revSpan := span, reversed := x.reversed || hit }) s
    if hit && !x.reversed then metEvent k.val 3 (some 2) (some 1) s else s

/-- A change of direction restarts the span of reversed records (R237). -/
def dirStep (s : State) (k : SetIx) : State :=
  let d := setDir s k
  let k33 : Fin 33 := ⟨k.val, by omega⟩
  if (s.nx.met.sets[k33]).revDir = d then s else onSet k33 (fun x => { x with revDir := d, revSpan := 0 }) s

/-- The slot was filled from a filter entry that names a high-priority buffer, as 8 × controller + buffer. -/
def slotBuffer (s : State) (b : Nat) (m : MailSlot) : Bool :=
  match (s.map.can[m.can].filters[m.entry]?).bind (·.buf) with | some x => 8 * m.can.val + x.val = b | none => false

/-- The pack current from the BMS through a buffer (R238): 100 ms or less old. -/
def bmsCurrent (s : State) (b : Nat) (pack : Nat) : Option Int :=
  match mailOf s.lat.levels 11 pack 0 with
  | some m => if slotBuffer s b m && decide (s.fn ≤ m.fn + 102) then some (signed 16 m.value) else none
  | none => none

/-- The compared current of R238 in 1/32 A, where the comparison applies. -/
def compared (s : State) (k : SetIx) : Option Int :=
  let m := s.map.met[k]
  let atLeast (v : Int) : Bool := 5 * 32 * m.rated ≤ 100 * v.natAbs
  match outOfSet s k with
  | some o =>
    let won := match (settledOn s.fl o).head? with
      | some c =>
        let u := s.ctl.unitS[c]
        u.winnerValid && ((loopOf s c).stages.getD u.winner {}).kind = 2
      | none => false
    if charging s o && won then s.fl.veh[o].v.targetCurr.bind fun v => if atLeast v then some (v : Int) else none
    else none
  | none =>
    match m.bms, m.target.bind (optFin 96) with
    | some b, some c =>
      match s.map.ch[c].pack with
      | some j => (bmsCurrent s b j.val).bind fun v => if atLeast v then some v else none
      | none => none
    | _, _ => none

/-- Current comparison (R238). I = a × 0.25 × 10^9 / (2^23 × shunt) A. -/
def mismatchCheck (k : SetIx) (r : CycleRec) (s : State) : State :=
  if s.map.met[k].tamper / 2 % 2 = 0 then s
  else
    let k33 : Fin 33 := ⟨k.val, by omega⟩
    let x := s.nx.met.sets[k33]
    let sh : Int := s.map.met[k].shunt
    -- 1/32 A: |I − v| > 5 % of |v|
    let bad : Bool := match compared s k with
      | some v => decide (5 * v.natAbs * (2 ^ 23 * sh) < 100 * ((r.sets[k].i * 8000000000 - v * (2 ^ 23 * sh)).natAbs : Int))
      | none => false
    let span := if bad then x.misSpan + r.len else 0
    let hit := 40960000 < span
    let s := onSet k33 (fun x => { x with misSpan := span, mismatch := x.mismatch || hit }) s
    if hit && !x.mismatch then metEvent k.val 4 (some 4) (some 2) s else s

/-- Overrange and its end (R245). -/
def ovrStep (k : Fin 33) (ovr settle lower : Bool) (s : State) : State :=
  let x := s.nx.met.sets[k]
  let was := if ovr then true else if settle then x.wasOvr else false
  let s := onSet k (fun x => { x with ovr := ovr, settle := settle, lbSess := x.lbSess || lower, wasOvr := was }) s
  if ovr && !x.wasOvr then metEvent k.val 1 (some 1) (some 0) s
  else if x.wasOvr && !was then metEvent k.val 2 none none s else s

/-- Missing neutral (R240). -/
def neutralStep (r : CycleRec) (s : State) : State :=
  if s.map.site.tamper / 2 % 2 = 0 || !siteOn s then s
  else
    let v (i : Nat) : Nat := r.site.rmsV.getD i 0
    let thr := field s.met.tamperCfg.toNat 16 8
    let hi := max (v 0) (max (v 1) (v 2))
    let lo := min (v 0) (min (v 1) (v 2))
    let l (i : Nat) : Nat := r.site.lineToLine.getD i 0
    let lhi := max (l 0) (max (l 1) (l 2))
    let llo := min (l 0) (min (l 1) (l 2))
    let sus := decide (thr * (v 0 + v 1 + v 2) < 300 * v 3) ||
      (decide (125 * lo < 100 * hi) && decide (100 * lhi ≤ 105 * llo))
    let span := if sus then s.nx.met.neutSpan + r.len else 0
    let hit := 4096000 < span
    let was := s.nx.met.neutral
    let s := onMetF (fun m => { m with neutSpan := span, neutral := m.neutral || hit }) s
    if hit && !was then metEvent 32 6 (some 5) none s else s

/-- The lead's totals and largest records (R243), and the sums of the bypass window (R239). -/
def totalsStep (r : CycleRec) (s : State) : State :=
  let e (k : Fin 33) : Wit := recEnergy r k
  let dc : Int := (List.finRange 32).foldl (fun (a : Int) k => a + r.sets[k].eFwd - r.sets[k].eRev) 0
  let bad := r.freqHold || r.site.lowerBound || (List.finRange 32).any fun k => r.sets[k].lowerBound
  onMetF (fun m => { m with
    lead := Vec.mapIx m.lead fun k w => { fwd := (w.fwd + (e k).fwd) % 2 ^ 80, rev := (w.rev + (e k).rev) % 2 ^ 80 },
    emax := Vec.mapIx m.emax fun k w => { fwd := max w.fwd (e k).fwd, rev := max w.rev (e k).rev },
    winSite := m.winSite + r.site.eFwd - r.site.eRev, winDc := m.winDc + dc, winFwd := m.winFwd + r.site.eFwd,
    winBad := m.winBad || bad }) s

/-- The bypass window opens (R239). -/
def bypassOpen (s : State) : State :=
  let s := if s.fn % 900000 = 0 then
      onMetF (fun m => { m with winSite := 0, winDc := 0, winFwd := 0, winBad := false, winLoss := lossOf s,
                                winHouse := s.alc.house }) s
    else s
  onMetF (fun m => { m with winBad := m.winBad || m.winLoss ≠ lossOf s || m.winHouse ≠ s.alc.house }) s

/-- Apply the record latched in the frame (R226). (DEDUCED, entry 36.) -/
def recordStep (r : CycleRec) (s : State) : State :=
  let s := totalsStep r (metInt 0 s)
  let s := (List.finRange 32).foldl (fun s k =>
    if !metOn s k then s
    else
      let e := r.sets[k]
      let k33 : Fin 33 := ⟨k.val, by omega⟩
      pulseStep k33 r (mismatchCheck k r (reversedStep k r (ovrStep k33 (e.ovrV || e.ovrI) e.settle e.lowerBound s)))) s
  let s := if r.site.disabled then s
    else pulseStep 32 r (neutralStep r (ovrStep 32 (r.site.ovr ≠ 0) r.site.settle r.site.lowerBound s))
  let was := s.nx.met.wasHold
  let s := if r.freqHold = was then s else metEvent 32 9 (some 8) none s
  let s := if r.resync then metEvent 32 10 none none s else s
  onMetF (fun m => { m with last := r, seen := true, wasHold := r.freqHold }) s

/-- The record of the input set. -/
def cycleOf (l : InputSet) : Option CycleRec := l.items.findSome? fun | .cycle r => some r | _ => none

/-! ### Witness (R242, R243) -/

/-- The largest records over the messages of the window. -/
def windowMax (h : List (Vector Wit 33 × Vector Wit 33 × Vector Wit 33)) (k : Fin 33) : Wit :=
  (h.take 60).foldl (fun (a : Wit) x => { fwd := max a.fwd (x.2.2[k]).fwd, rev := max a.rev (x.2.2[k]).rev }) {}

/-- The deviation of R243 in 0.01 %. -/
def deviation (dL dF : Nat) : Int :=
  if dL = 0 then (if dF = 0 then 0 else 0x7FFF)
  else clampI (-0x7FFF) 0x7FFF (tdiv (((dF : Int) - dL) * 10000) dL)

/-- The tolerance test of R243. -/
def witOut (dL dF emax : Nat) : Bool := dL * 5 / 1000 + emax + 1000000 < ((dF : Int) - dL).natAbs

/-- Latch a follower's message and compare over the last 60 (R243). -/
def witnessStep (w : WitMsg) (s : State) : State :=
  let m := s.nx.met
  let h := (w.totals, m.lead, m.emax) :: m.hist.take 60
  let s := onMetF (fun m => { m with hist := h, emax := Vector.replicate 33 {}, foll := w.totals, witActive := true,
                                     witLost := false, witFn := s.fn }) s
  match h[60]? with
  | none => s
  | some old =>
    (List.finRange 32).foldl (fun s k =>
      if !metOn s k then s
      else
        let k33 : Fin 33 := ⟨k.val, by omega⟩
        let dl (f : Wit → Nat) : Nat := (f m.lead[k33] + 2 ^ 80 - f (old.2.1[k33])) % 2 ^ 80
        let df (f : Wit → Nat) : Nat := (f w.totals[k33] + 2 ^ 80 - f (old.1[k33])) % 2 ^ 80
        let mx := windowMax h k33
        let out := witOut (dl Wit.fwd) (df Wit.fwd) mx.fwd || witOut (dl Wit.rev) (df Wit.rev) mx.rev
        let was := (s.nx.met.sets[k33]).witFlag
        let s := onSet k33 (fun x => { x with
          witFlag := x.witFlag || out, devFwd := deviation (dl Wit.fwd) (df Wit.fwd),
          devRev := deviation (dl Wit.rev) (df Wit.rev) }) s
        if out && !was then metEvent k.val 8 (some 6) (some 3) s else s) s

/-- The witness window restarts (R243, R244); no reading is current. -/
def witnessRestart (s : State) : State :=
  onMetF (fun m => { m with hist := [], emax := Vector.replicate 33 {}, witFn := s.fn }) s

/-- The lead's partner follows it, as its markers of the last two frames show. -/
def followed (s : State) : Bool := match s.tdm.last with | some m => m.state = 3 && decide (s.tdm.missRun < 2) | none => false

/-- A package that no follower accompanies has no witness (R243). -/
def witnessIdle (s : State) : State :=
  if isLead s && !followed s then onMetF (fun m => { m with witActive := false }) s else s

/-- Metrology in step 4 of a frame. -/
def metStep (s : State) : State :=
  let s := (List.finRange 32).foldl dirStep (bypassOpen (witnessIdle s))
  let s := match cycleOf s.lat with | some r => recordStep r s | none => s
  s.lat.items.foldl (fun s i => match i with | .witness w => witnessStep w s | _ => s) s

/-- PLUGGED takes effect (R241, R243, R247): the flags of the outlet's sets clear. -/
def metPlug (o : OutIx) (s : State) : State :=
  { s with fl := { s.fl with met := { s.fl.met with
    sets := Vec.mapIx s.fl.met.sets fun k x =>
      if h : k.val < 32 then
        if outOfSet s ⟨k.val, h⟩ = some o then
          { x with reversed := false, mismatch := false, witFlag := false, lbSess := false }
        else x
      else x } } }

/-! ### Commands -/

/-- PULSE_START (R235, R236): the next planned pulse of a set, 32 being the site. -/
def execPulseStart (k : Fin 33) (s : State) : Ans :=
  whenOn s.isl.met s fun s =>
    let f := s.fl.met.sets[k]
    let x := s.nx.met.sets[k]
    if !pulseOn s k || x.b = 0 || f.b = 0 || s.fn < f.nxt || s.met.pulse[k].isSome then s
    else
      let w := if 4 ≤ f.s then 4 else f.s
      let b := x.b - 1
      let s := onSet k (fun x => { x with b := b, nxt := if x.nxt = s.fn + 1 then x.nxt else s.fn + f.s,
                                            backlog := x.backlog && decide (2 * x.per < b) }) s
      if isLead s then onMet (fun m => { m with pulse := m.pulse.set k (some w) }) s else s

/-- PULSE_END (R236). -/
def execPulseEnd (k : Fin 33) (s : State) : Ans :=
  whenOn s.isl.met s (onMet fun m => { m with pulse := m.pulse.set k none })

/-- BYPASS_WINDOW_CHECK (R239), in the last frame of a window. -/
def execBypassWindowCheck (s : State) : Ans :=
  whenOn s.isl.ctl s fun s =>
    let m := s.nx.met
    if s.fn % 900000 ≠ 899999 || s.map.site.tamper % 2 = 0 || !siteOn s then s
    else if m.winBad then metEvent 32 7 none none (onMetF (fun m => { m with bypassSkip := true }) s)
    else
      let loss := m.winDc.natAbs * lossOf s / 1000 + s.alc.house.toNat * 250000
      let tol := m.winFwd * field s.met.tamperCfg.toNat 0 8 / 1000 + field s.met.tamperCfg.toNat 8 8 * 1000000000
      let out := tol < (m.winSite - m.winDc - loss).natAbs
      let s := onMetF (fun m => { m with bypassSkip := false, bypass := m.bypass || out }) s
      if out && !m.bypass then metEvent 32 5 (some 3) none s else s

/-- The ordering code of the package, in the letters of R265. (DESIGN CHOICE, entry 96.) -/
def ownCode (s : State) : Byte := if s.otp.orderK then 0x4B else 0x41

/-- WITNESS_SEND (R242): the follower's totals, in frames with FN mod 1,000 = 0. (DESIGN CHOICE, entry 96.) -/
def execWitnessSend (s : State) : Ans :=
  whenOn s.isl.ctl s fun s =>
    if s.tdm.st = .follow && s.fn % 1000 = 0 then
      onMet (fun m => { m with witSent := some { fn := s.fn, code := ownCode s, serial := s.otp.serial,
                                                 totals := m.own } })
        { s with tdm := { s.tdm with bytesOut := s.tdm.bytesOut + 676 } }
    else s

/-- The item of a follower's message (R242, R393, R398). -/
def followItem : FollowMsg → Item
  | .totals w => .witness w
  | .conditions f => .fwuLocal f
  | .report ready reason => .fwuReport false ready reason

/-- WIT_PACKET (R242): the lead captures the message at the next boundary. -/
def execWitPacket (m : FollowMsg) (s : State) : Ans :=
  whenOn s.isl.ctl s fun s => if s.tdm.linkUp then { s with arrived := s.arrived ++ [followItem m] } else s

/-- WITNESS_LOST (R243): no message has been latched for 3,000 frames; a package without a partner expects none. -/
def execWitnessLost (s : State) : Ans :=
  whenOn s.isl.ctl s fun s =>
    if s.tdm.st = .single || s.nx.met.witLost then s
    else
      metEvent 32 8 (some 7) none
        (witnessRestart (onMetF (fun m => { m with witLost := true, witActive := false }) s))

/-- The calibration may be written (R234). -/
def calOpen (s : State) : Bool := !s.otp.orderK && !s.otp.locked

/-- A latched write of MET_CV_GAIN or MET_CV_OFFSET (R234, R246). -/
def calWrite (c : Fin 72) (gain : Bool) (val : Word) (s : State) : State :=
  if !calOpen s then refuse (0x80100 + 16 * c.val + if gain then 4 else 8) s
  else
    let g := min 0x60000000 (max 0x20000000 val.toNat)
    let o := signed 24 val.toNat
    let same := if gain then s.met.gain[c] = g else s.met.off[c] = o
    let s := onMet (fun m => if gain then { m with gain := m.gain.set c g } else { m with off := m.off.set c o }) s
    if same then s else metEvent (if c.val < 64 then c.val / 2 else 32) 11 (some 10) none s

/-- MET_CAL_WRITE (R234). -/
def execMetCalWrite (c : Fin 72) (gain : Bool) (val : Word) (s : State) : Ans :=
  whenOn s.isl.met s (calWrite c gain val)

/-- MET_CAL_COMMIT (R234): SN9632-A only. After lifecycle lock it still stores: the rule names only the writes as ignored. (DESIGN CHOICE, entry 102.) -/
def calCommit (s : State) : State :=
  if s.otp.orderK then refuse 0x80004 s else onMet (fun m => { m with mram := some (m.gain, m.off) }) s

/-- MET_CAL_COMMIT (R234). -/
def execMetCalCommit (s : State) : Ans := whenOn s.isl.met s calCommit

/-- MET_CAPTURE_ENABLE (R230). -/
def execMetCaptureEnable (en site : Bool) (s : State) : Ans :=
  whenOn s.isl.met s (onMet fun m => { m with capEn := en, capSite := site })

/-- MET_NEUTRAL_CLEAR (R241). -/
def execMetNeutralClear (s : State) : Ans :=
  whenOn s.isl.ctl s (onMetF fun m => { m with neutral := false })

/-- MET_BYPASS_CLEAR (R241). -/
def execMetBypassClear (s : State) : Ans := whenOn s.isl.ctl s (onMetF fun m => { m with bypass := false })

/-- tamper_clear of a set (R241). -/
def tamperClear (k : SetIx) (s : State) : State :=
  onSet ⟨k.val, by omega⟩ (fun x => { x with reversed := false, mismatch := false }) s

/-- MET_TAMPER_CLEAR (R241). -/
def execMetTamperClear (k : SetIx) (s : State) : Ans := whenOn s.isl.ctl s (tamperClear k)

/-- wit_clear of a set (R243). -/
def witClear (k : SetIx) (s : State) : State := onSet ⟨k.val, by omega⟩ (fun x => { x with witFlag := false }) s

/-- MET_WIT_CLEAR (R243). -/
def execMetWitClear (k : SetIx) (s : State) : Ans := whenOn s.isl.ctl s (witClear k)

/-! ### The thermal frame (R197, R233) -/

/-- The reference correction of R233 for the temperature latched, in force from the next boundary. -/
def refStep (s : State) : State :=
  let (t1, t2) := Config.refTrim s.otp.serial
  let d : Rat := degC s.met.tempNow - 25
  onMet (fun m => { m with crefNext := rheQ (2 ^ 30 * (1 + t1 * d + t2 * d * d)), tempNext := m.tempNow }) s

/-- THERMAL_FRAME (R197, R233): once, in a frame with FN mod 10 = 0. -/
def execThermalFrame (s : State) : Ans :=
  .next (
    if s.fn % 10 ≠ 0 || s.thermFn = some s.fn then s
    else
      let s := { s with thermFn := some s.fn }
      let s := if s.isl.ctl then (List.finRange 32).foldl cableStep s else s
      if s.isl.met then refStep s else s)

end Sys2Proof.Machine
end

