-- ==== Sys2Proof/Machine/Billing.lean ====
section
/-! DEFINITION. Billing (chapter 10): calendars, demand, the battery ledger, sessions and scale tickets, saves and the
restore. Step 4 of a frame reads `fl` and the latched set, and writes `nx`. -/

namespace Sys2Proof.Machine

/-! ### Dates (R251). Days and seconds count from 2000-01-01, a Saturday. -/

/-- Year, month and day of a day number. -/
def civil (day : Int) : Nat × Nat × Nat :=
  let z := (day + 730425).toNat
  let era := z / 146097
  let doe := z % 146097
  let yoe := (doe - doe / 1460 + doe / 36524 - doe / 146096) / 365
  let doy := doe - (365 * yoe + yoe / 4 - yoe / 100)
  let mp := (5 * doy + 2) / 153
  let m := if mp < 10 then mp + 3 else mp - 9
  (yoe + 400 * era + bit (m ≤ 2), m, doy - (153 * mp + 2) / 5 + 1)

/-- The day number of a date. -/
def dayOf (y m d : Nat) : Int :=
  let y := y - bit (m ≤ 2)
  let yoe := y % 400
  let doy := (153 * (if 2 < m then m - 3 else m + 9) + 2) / 5 + d - 1
  ((y / 400 * 146097 + yoe * 365 + yoe / 4 - yoe / 100 + doy : Nat) : Int) - 730425

/-- The weekday of a day, 0 Sunday. -/
def weekday (day : Int) : Nat := ((day + 6) % 7).toNat

/-- The instant of a summer-time change in a year, in local standard seconds: month, week 1 to 5 (5 last), weekday. -/
def dstInstant (c : TariffCfg) (y : Nat) (x : Nat × Nat × Nat) : Int :=
  let first := dayOf y x.1 1
  let next := if x.1 = 12 then dayOf (y + 1) 1 1 else dayOf y (x.1 + 1) 1
  let d := first + (((x.2.2 : Int) - weekday first) % 7) + 7 * ((x.2.1 : Int) - 1)
  86400 * (if next ≤ d then d - 7 else d) + 60 * c.dstMinute

/-- Summer time is in force at a local standard instant. -/
def summer (c : TariffCfg) (std : Int) : Bool :=
  let y := (civil (std / 86400)).1
  let a := dstInstant c y c.dstStart
  let b := dstInstant c y c.dstEnd
  c.shift ≠ 0 && (if a ≤ b then decide (a ≤ std) && decide (std < b) else decide (a ≤ std) || decide (std < b))

/-- Local time of UTC seconds (R251). (DEDUCED, entry 38.) -/
def localSec (c : TariffCfg) (sec : Nat) : Int :=
  let std : Int := sec + 60 * c.utcOff
  if summer c std then std + 60 * c.shift else std

/-- The season of a date: the latest start not after it, else the last entry; its place in the list. -/
def seasonOf (c : TariffCfg) (m d : Nat) : Nat :=
  let le (a b : Nat × Nat) : Bool := a.1 < b.1 || (a.1 = b.1 && a.2 ≤ b.2)
  let start (i : Nat) : Nat × Nat := let x := c.seasons.getD i {}; (x.month, x.day)
  let fit := (List.range c.seasons.length).filter fun i => le (start i) (m, d)
  match fit with
  | [] => c.seasons.length - 1
  | i :: is => is.foldl (fun b i => if le (start b) (start i) then i else b) i

/-- The special day of a date. -/
def specialOf (c : TariffCfg) (y m d : Nat) : Option (Nat × Nat × Nat × Nat) :=
  c.specials.find? fun x => (x.1 = 0xFF || x.1 + 2000 = y) && x.2.1 = m && x.2.2.1 = d

/-- The day profile of a local date: its number (R251). -/
def profileIx (c : TariffCfg) (day : Int) : Nat :=
  let (y, m, d) := civil day
  let p := match specialOf c y m d with
    | some x => x.2.2.2
    | none => (c.seasons.getD (seasonOf c m d) {}).prof.getD (weekday day) 0
  if p < c.profiles.length then p else 0

/-- The points of a local date. -/
def pointsOf (c : TariffCfg) (day : Int) : List (Nat × Nat) :=
  match c.profiles.getD (profileIx c day) [] with
  | [] => [(0, 0)]
  | ps => ps

/-- The last profile point at or before a local instant: the instant and the tariff. -/
def lastPoint (c : TariffCfg) (loc : Int) : Int × Nat :=
  let day := loc / 86400
  let mn := (loc % 86400).toNat / 60
  let p := (pointsOf c day).foldl (fun (b : Nat × Nat) p => if p.1 ≤ mn && b.1 ≤ p.1 then p else b) (0, ((pointsOf c day).headD (0, 0)).2)
  (86400 * day + 60 * p.1, p.2)

/-- The switch points of a local date in order: profile points, and the summer-time changes at the local time that they
set (R252), each with its tariff. -/
def switchesOn (c : TariffCfg) (day : Int) : List (Int × Nat) :=
  let pts := (pointsOf c day).map fun p => (86400 * day + 60 * (p.1 : Int), p.2)
  let y := (civil day).1
  let dst (y : Nat) : List Int :=
    if c.shift = 0 then [] else [dstInstant c y c.dstStart + 60 * c.shift, dstInstant c y c.dstEnd]
  let ds := ((dst (y - 1) ++ dst y ++ dst (y + 1)).filter fun b => b / 86400 = day).map fun b => (b, (lastPoint c b).2)
  sortBy (fun a b => decide (a.1 ≤ b.1)) (pts ++ ds)

/-- The switch points b with lo < b ≤ hi, in order. -/
def crossed (c : TariffCfg) (lo hi : Int) : List (Int × Nat) :=
  let d0 := lo / 86400
  ((List.range (hi / 86400 + 1 - d0).toNat).map fun (i : Nat) => switchesOn c (d0 + i)).flatten.filter fun b =>
    decide (lo < b.1) && decide (b.1 ≤ hi)

/-! ### Helpers -/

/-- Change the billing results of the frame. -/
def onBil (f : Bil → Bil) (s : State) : State := { s with nx := { s.nx with bil := f s.nx.bil } }

/-- Change the billing registers and MRAM areas. -/
def onBilR (f : BilReg → BilReg) (s : State) : State := { s with bilR := f s.bilR }

/-- A bit of BIL_INT_STATUS that shows from the next boundary. -/
def bilInt (b : Nat) (s : State) : State := { s with late := { s.late with bil := setBit s.late.bil b } }

/-- An event of rank 10 in the order of R275, with its bit of BIL_INT_STATUS. -/
def bilEvent (code m data : Nat) (s : State) : State :=
  let b := [0, 1, 0, 2, 4, 5, 6, 7, 8, 9].getD code 0
  raise (bilInt b s)
    { rank := 10, code := code, num := m, ord := 16 * m + code, data := data }

/-- The place of events of no meter in the order of R275. -/
def noMeter : Nat := 33

/-- The calendar of a meter (R250, R276). -/
def calOf (s : State) (m : Fin 33) : Fin 4 :=
  let w := if m.val < 16 then s.bilR.calMap[0] else if m.val < 32 then s.bilR.calMap[1] else s.bilR.calMap[2]
  ⟨field w.toNat (2 * (m.val % 16)) 2, Nat.mod_lt _ (by decide)⟩

/-- The demand length of BIL_CFG in seconds (R277). -/
def cfgLen (s : State) : Nat := 60 * [5, 10, 15, 30, 60].getD (field s.bilR.cfg.toNat 0 3) 15

/-- The save interval in frames. -/
def saveInt (s : State) : Nat := 10 * min 100 (max 10 (field s.bilR.cfg.toNat 8 7))

/-- credit_margin in µWh. -/
def creditMargin (s : State) : Int := (field s.bilR.cfg.toNat 16 16 : Int) * 1000000

/-- The ticket key and the ledger key are valid (R258, R263). -/
def ticketKeyOk (s : State) : Bool := (ticketKey s).isSome
def ledgerKeyOk (s : State) : Bool := (ledgerKey s).isSome

/-- Usable save slots. -/
def goodSlots (s : State) : Nat := ((List.range 64).filter fun i => !s.bilR.badSlots.getLsbD i).length

/-- The set that serves an outlet, where it is assigned. -/
def setOfOutlet (s : State) (o : OutIx) : Option SetIx := s.map.out[o].met.filter fun k => metOn s k && outOfSet s k = some o

/-- The set that holds an entry (R259). -/
def holder (s : State) (ix : Fin 1536) : Option SetIx :=
  (List.finRange 32).find? fun k => match s.nx.bil.bind[k] with | some b => b.ix = ix | none => false

/-- Change the working copy of a set. -/
def onBind (k : SetIx) (f : Bind → Bind) (s : State) : State :=
  onBil (fun b => { b with bind := Vec.upd b.bind k fun x => x.map f }) s

/-- The event of an entry found unusable, in the form of a ledger command without an op and with result 7 (R258, R275). -/
def unusableEvent (s : State) (ix : Nat) : State := bilEvent 5 noMeter (65536 * ix + 7) s

/-- The tag of an entry is made anew under the ledger key; without a key it cannot verify (R258). (DEDUCED, entry 103.) -/
def tagEntry (ix : Nat) (s : State) : State :=
  let key := ledgerKey s
  let fresh := key.isNone && !s.bilR.unusable.contains ix
  let s := onBilR (fun r => { r with
    ledgerTag := (ix, key.getD []) :: r.ledgerTag.filter (·.1 ≠ ix)
    unusable := if key.isSome then r.unusable.filter (· ≠ ix) else if fresh then r.unusable ++ [ix] else r.unusable }) s
  if fresh then unusableEvent s ix else s

/-- Write an entry in MRAM. -/
def homePut (ix : Fin 1536) (e : Ledger) (s : State) : State :=
  tagEntry ix.val (onBilR (fun r => { r with ledger := r.ledger.set ix e }) s)

/-- Check the tags where the ledger key is another than at the last check, or none was made (R258). (DEDUCED, entry 103.) -/
def ledgerScan (s : State) : State :=
  let key := ledgerKey s
  if s.bilR.ledgerSeen = some key then s
  else
    let bad := (s.bilR.ledgerTag.filter fun x => key ≠ some x.2).map (·.1)
    let fresh := bad.filter fun i => !s.bilR.unusable.contains i
    fresh.foldl unusableEvent (onBilR (fun r => { r with unusable := bad, ledgerSeen := some key }) s)

/-- Write the home entry of a bound set (R261). -/
def homeWrite (k : SetIx) (s : State) : State :=
  match s.nx.bil.bind[k] with
  | none => s
  | some b =>
    let e := { b.e with writes := b.e.writes + 1 }
    homePut b.ix e (onBind k (fun b => { b with e := e, due := false }) s)

/-- Step 5 of R254: the home entries that are due. -/
def homeDue (s : State) : State :=
  (List.finRange 32).foldl (fun s k => match s.nx.bil.bind[k] with
    | some b => if b.due then homeWrite k s else s
    | none => s) s

/-- Change a session. -/
def onSess (k : SetIx) (f : BSess → BSess) (s : State) : State := onBil (fun b => { b with sess := Vec.upd b.sess k f }) s

/-- Ten bytes of an 80-bit total. -/
def b80 (v : Nat) : List Byte := leBytes 10 (v % 2 ^ 80)

/-- Latched RTC seconds and fraction of the frame. -/
def rtcNow (s : State) : Nat × Nat := rtcParts s.lat.levels.rtc

/-! ### Applying a record (R249, R253, R261, R262) -/

/-- The tariff of a calendar in force in a frame. -/
def tariffIn (s : State) (k : Fin 4) (fn : Nat) : Nat :=
  let b := s.nx.bil
  if !s.map.tariff[k].present then 0
  else match b.hist.find? (·.1 = fn) with
    | some h => h.2.2.getD k.val 0
    | none => match b.hist.getLast? with | some h => h.2.2.getD k.val 0 | none => b.cal[k].tariff

/-- Add one energy pair to a pair. -/
def witPlus (w : Wit) (f r : Nat) : Wit := { fwd := w.fwd + f, rev := w.rev + r }

/-- The session takes a record of the frame. -/
def inSess (x : BSess) (fn : Nat) : Bool :=
  x.isOpen && decide (x.startFn ≤ fn) && (match x.stop with | some t => decide (fn < t.fn) | none => true)

/-- One meter takes its energies: registers, demand sums, session, ledger. -/
def applyMeter (fn len : Nat) (ef er : Nat) (lower settle : Bool) (s : State) (m : Fin 33) : State :=
  let t : Fin 8 := ⟨tariffIn s (calOf s m) fn % 8, by omega⟩
  let s := onBil (fun b => { b with m := Vec.upd b.m m fun x => { x with
    a := Vec.upd x.a t fun w => witPlus w ef er, t := witPlus x.t ef er, dem := witPlus x.dem ef er,
    lastE := { fwd := ef, rev := er }, lastL := len } }) s
  match optFin 32 m.val with
  | none => s
  | some k =>
    let s := if inSess s.nx.bil.sess[k] fn then
        onSess k (fun x => { x with e := Vec.upd x.e t fun w => witPlus w ef er, tot := witPlus x.tot ef er,
                                    flags := putBit (putBit x.flags 0 (x.flags.getLsbD 0 || lower)) 1 (x.flags.getLsbD 1 || settle) }) s
      else s
    onBind k (fun b => if b.fn ≤ fn then { b with e := { b.e with
        inTot := b.e.inTot + ef, outTot := b.e.outTot + er, perTariff := Vec.upd b.e.perTariff t fun w => witPlus w ef er,
        lowerBound := b.e.lowerBound || lower,
        credit := if b.e.creditMode then b.e.credit - ef - er else b.e.credit } } else b) s

/-- Apply the latched record (R249). -/
def applyRecord (r : CycleRec) (s : State) : State :=
  let s := (List.finRange 32).foldl (fun s k =>
    if metOn s k then
      let e := r.sets[k]
      applyMeter r.fn r.len e.eFwd e.eRev e.lowerBound e.settle s ⟨k.val, by omega⟩
    else s) s
  if siteOn s then applyMeter r.fn r.len r.site.eFwd r.site.eRev r.site.lowerBound r.site.settle s 32 else s

/-! ### Demand and tariffs (R252 to R257) -/

/-- The bits of an interval's flags (R255). -/
def dPartial : BitVec 5 := 1
def dLong : BitVec 5 := 2
def dLate : BitVec 5 := 4
def dInterrupted : BitVec 5 := 8
def dSkipped : BitVec 5 := 16

/-- Demand boundaries of this frame; `count` adds the frame to the open interval. Without it the frame is counted already, and
an interval that closes gives it to the next. -/
def crossDemand (late count : Bool) (s : State) : State :=
  let sec := rtcSec s
  let b := s.nx.bil
  let forward := b.forwardFn = some s.fn
  match b.hd with
  | none =>
    let len := cfgLen s
    onBil (fun b => { b with demLen := len, hd := some (sec / len * len), demOpen := sec, demN := 1, demFlags := dPartial }) s
  | some h =>
    let bm := sec / b.demLen * b.demLen
    if h < bm then
      let skip := (bm - h) / b.demLen - 1
      let fl := b.demFlags ||| (if 0 < skip then dSkipped else 0)
      let cross := match b.demCross with
        | some (_, f, n) => (bm, f ||| fl, n)
        | none => (bm, fl ||| (if late then dLate else 0), if count then b.demN else b.demN - 1)
      let part := late || forward
      onBil (fun b => { b with
        demCross := some cross, hd := some bm, demOpen := if part then sec else bm, demN := 1,
        demFlags := if part then dPartial else 0, skipped := b.skipped + BitVec.ofNat 32 skip,
        bounds := b.bounds + BitVec.ofNat 32 (skip + 1), demLen := cfgLen s }) s
    else if count then onBil (fun b => { b with demN := b.demN + 1 }) s
    else s

/-- The switches among crossed points: those that change the tariff. -/
def changes : Nat → List (Int × Nat) → List Nat
  | _, [] => []
  | t, p :: ps => if p.2 = t then changes t ps else p.2 :: changes p.2 ps

/-- Switch points of a calendar in this frame; an amended calendar first recomputes its tariff from the mark (R254). -/
def crossCal (late : Bool) (k : Fin 4) (s : State) : State :=
  let c := s.map.tariff[k]
  let x := s.nx.bil.cal[k]
  let put (x : BCal) (s : State) : State := onBil (fun b => { b with cal := b.cal.set k x }) s
  if !c.present then (if x.hc = none then s else put {} s)
  else
    let loc := localSec c (rtcSec s)
    match x.hc with
    | none => let p := lastPoint c loc; put { hc := some p.1, tariff := p.2, shown := p.2 } s
    | some h =>
      let t0 := if s.smp.amAppliedAt = s.fn then (lastPoint c h).2 else x.tariff
      let am := if t0 = x.tariff then [] else [(t0, 1)]
      let pts := crossed c h loc
      let ch := changes t0 pts
      let sw := am ++ ch.map fun t => (t, if late then 2 else 0)
      let s := put { x with hc := some ((pts.getLast?.map (·.1)).getD h), tariff := (ch.getLast?).getD t0, sw := x.sw ++ sw } s
      onBil (fun b => { b with bounds := b.bounds + BitVec.ofNat 32 pts.length,
                               lastSwitch := if sw = [] then b.lastSwitch else rtcSec s }) s

/-- The boundaries of the frame, and the tariffs in force for its records. -/
def crossAll (late count : Bool) (s : State) : State :=
  let s := (List.finRange 4).foldl (fun s k => crossCal late k s) (crossDemand late count s)
  let entry := (s.fn, s.lat.levels.rtc, s.nx.bil.cal.toList.map (·.tariff))
  onBil (fun b => { b with hist := (entry :: b.hist.filter (·.1 ≠ s.fn)).take 4 }) s

/-- The demand of one direction (R255); of an interval without a frame the rule gives none. (DESIGN CHOICE, entry 104.) -/
def demandOfSum (e n : Nat) : Nat := if n = 0 then Config.demandNoFrame e else e * 36 / (10 * n)

/-- The maximum takes a larger demand of an interval of at least a minute. -/
def takeMax (old new : Demand) (n : Nat) : Demand := if 60000 ≤ n && decide (old.w < new.w) then new else old

/-- Close the demand interval of every meter (R255). -/
def closeDemand (ts n : Nat) (fl : BitVec 5) (s : State) : State :=
  let s := onBil (fun b => { b with demCross := none }) s
  let s := (List.finRange 33).foldl (fun s m =>
    if !metOn33 s m then s
    else
      let x := s.nx.bil.m[m]
      let f : Demand := { w := demandOfSum x.dem.fwd n, ts := ts, flags := fl }
      let r : Demand := { w := demandOfSum x.dem.rev n, ts := ts, flags := fl }
      bilEvent 1 m.val f.w (onBil (fun b => { b with m := b.m.set m { x with
        dem := {}, lastF := f, lastR := r, maxF := takeMax x.maxF f n, maxR := takeMax x.maxR r n } }) s)) s
  (List.finRange 32).foldl (fun s k => onBind k (fun b => { b with due := true }) s) s

/-- Record the switches that the calendars hold (R254 step 3). -/
def recordSwitches (s : State) : State :=
  (List.finRange 4).foldl (fun s (k : Fin 4) =>
    let x := s.nx.bil.cal[k]
    let s := x.sw.foldl (fun s w => bilEvent 2 noMeter (16 * k.val + 8 * w.2 + w.1) s) s
    onBil (fun b => { b with cal := b.cal.set k { x with shown := ((x.sw.getLast?).map (·.1)).getD x.tariff, sw := [] } }) s) s

/-- A set of the RTC (R256, R257), from the old to the new seconds. -/
def clockSet (old new : Nat) (s : State) : State :=
  let back := decide (new < old)
  let s := onBil (fun b => { b with
    clockOld := old / 65536000, clockNew := new / 65536000, clockFn := s.fn,
    demFlags := if back then b.demFlags ||| dLong else b.demFlags,
    forwardFn := if back then b.forwardFn else some s.fn,
    sess := b.sess.map fun x => if x.isOpen && x.stop.isNone then { x with flags := setBit x.flags (if back then 10 else 11) } else x }) s
  bilEvent 6 noMeter (old / 65536000 + 2 ^ 32 * (new / 65536000)) s

/-! ### Sessions and tickets (R263 to R268) -/

/-- Open a session of a set in this frame. -/
def openSess (k : SetIx) (o : Option OutIx) (id : Nat) (unbilled : Bool) (s : State) : State :=
  let r := rtcNow s
  onSess k (fun _ => {
    isOpen := true, outlet := o, sessId := id, startFn := s.fn, startSec := r.1, startFrac := r.2,
    witStart := s.nx.met.foll[k.val], unbilled := unbilled,
    credit0 := match s.nx.bil.bind[k] with | some b => b.e.credit | none => 0 }) s

/-- Mark the stop of a session in this frame. -/
def stopSess (k : SetIx) (cause fault : Nat) (s : State) : State :=
  let r := rtcNow s
  onSess k (fun x => { x with stop := some { fn := s.fn, sec := r.1, frac := r.2, cause := cause, fault := fault,
                                             hash := s.smp.activeHash, bind := s.nx.bil.bind[k] } }) s

/-- The package changed from follower to lead or back at the boundary of this frame (R244, R299). -/
def roleNew (s : State) : Bool :=
  s.tdm.roleFn = s.fn && ((s.tdm.roleWas = .follow && s.tdm.st = .lead) || (s.tdm.roleWas = .lead && s.tdm.st = .follow))

/-- The flags that the frame adds to an open session (R266). -/
def sessFlags (k : SetIx) (s : State) : State :=
  let x := s.nx.bil.sess[k]
  if !x.isOpen || x.stop.isSome then s
  else
    let m := s.nx.met
    let w := m.sets[k.val]
    let add (b : Nat) (c : Bool) (f : BitVec 16) : BitVec 16 := if c then setBit f b else f
    let role := roleNew s
    let s := onSess k (fun x => { x with flags := add 4 w.witFlag (add 5 (!m.witActive) (add 6 w.reversed
      (add 7 w.mismatch (add 8 m.bypass (add 9 role x.flags))))) }) s
    if w.witFlag then onBind k (fun b => { b with e := { b.e with witSeen := true } }) s else s

/-- A gap record in its bytes (R272). -/
def gapBytes (g : Gap) : List Byte :=
  leBytes 4 g.sec ++ leBytes 4 g.ms ++ b80 g.upper ++ [g.bits] ++ List.replicate 5 0

/-- A session takes a gap; the fourth record sums the rest (R266). -/
def addGap (g : Gap) (x : BSess) : BSess :=
  let gs := if x.gaps.length < 4 then x.gaps ++ [g]
    else x.gaps.take 3 ++ (x.gaps.drop 3).map fun h => { h with ms := h.ms + g.ms, upper := h.upper + g.upper, bits := h.bits ||| g.bits }
  { x with gaps := gs, gapCount := x.gapCount + 1,
           flags := setBit (if x.gaps.length < 4 then x.flags else setBit x.flags 3) 2 }

/-- The witness state of a ticket (R265). -/
def witState (s : State) (k : SetIx) : Nat :=
  if s.tdm.st = .single then 0
  else if (s.nx.met.sets[k.val]).witFlag then 2
  else if s.nx.met.witLost then 3
  else bit s.nx.met.witActive

/-- 80-bit difference of two readings. -/
def readingDiff (a b : Nat) : Nat := (a + 2 ^ 80 - b) % 2 ^ 80

/-- Bytes 30 to 507 of a ticket (R265). -/
def ticketBody (s : State) (k : SetIx) (x : BSess) (t : BStop) (b : Option Bind) (flags : BitVec 16) (seq : Nat) : List Byte :=
  let e : Ledger := match b with | some b => b.e | none => {}
  let T := (s.nx.bil.m[k.val]).t
  let w := s.fl.met.foll[k.val]
  let single := s.tdm.st = .single
  let gaps := (x.gaps.map gapBytes).flatten
  leBytes 1 k.val ++ leBytes 1 (match x.outlet with | some o => o.val | none => 0xFF) ++ leBytes 16 e.ident.toNat ++
    leBytes 4 e.lease.toNat ++ leBytes 2 (match b with | some b => b.ix.val | none => 0xFFFF) ++ leBytes 2 flags.toNat ++
    leBytes 4 seq ++ leBytes 4 x.sessId ++ leBytes 8 x.startFn ++ leBytes 4 x.startSec ++ leBytes 2 x.startFrac ++
    leBytes 1 t.cause ++ leBytes 1 t.fault ++ leBytes 8 t.fn ++ leBytes 4 t.sec ++ leBytes 2 t.frac ++
    leBytes 1 (min 255 x.gapCount) ++ leBytes 1 (witState s k) ++ (x.e.toList.map fun w => b80 w.fwd ++ b80 w.rev).flatten ++
    b80 x.tot.fwd ++ b80 x.tot.rev ++ b80 (T.fwd - x.tot.fwd) ++ b80 T.fwd ++ b80 (T.rev - x.tot.rev) ++ b80 T.rev ++
    b80 (if single then 0 else readingDiff w.fwd x.witStart.fwd) ++ b80 (if single then 0 else readingDiff w.rev x.witStart.rev) ++
    leBytes 8 (unsigned 64 x.credit0) ++ leBytes 8 (unsigned 64 e.credit) ++ (gaps ++ List.replicate 96 0).take 96 ++
    (t.hash ++ List.replicate 48 0).take 48 ++ (calHash s).take 8 ++ List.replicate 4 0

/-- Build the ticket of a stopped session and close it: its sequence. A full ring keeps its tickets; the new one is not
stored (R268). -/
def buildTicket (k : SetIx) (x : BSess) (t : BStop) (s : State) : Nat × State :=
  let b := match x.outlet with | some _ => s.nx.bil.bind[k] | none => t.bind
  let forced := match b with | some b => b.forced | none => false
  let unsigned_ := x.unbilled || !ticketKeyOk s
  let add (b : Nat) (c : Bool) (f : BitVec 16) : BitVec 16 := if c then setBit f b else f
  let flags := add 13 (t.cause = 6) (add 14 forced (add 15 unsigned_ x.flags))
  let q := s.nx.bil
  let seq := (q.ticketSeq + 1) % 2 ^ 32
  let full := 256 ≤ q.unacked
  let tk : Ticket := { ix := if full then none else some q.ticketWr, seq := seq, body := ticketBody s k x t b flags seq, unsigned := unsigned_ }
  let s := onBil (fun q => { q with
    ticketSeq := seq, toSign := q.toSign ++ [tk], ticketWr := if full then q.ticketWr else (q.ticketWr + 1) % 256,
    unacked := if full then q.unacked else q.unacked + 1, sess := q.sess.set k {} }) s
  let s := if !full && q.unacked = 191 then bilInt 3 s else s
  (seq, bilEvent 3 k.val seq s)

/-- The binding of a set ends: the home entry takes the time of the unbind (R261). -/
def unbind (k : SetIx) (s : State) : State :=
  let s := homeWrite k (onBind k (fun b => { b with e := { b.e with unbindSec := rtcSec s } }) s)
  onBil (fun b => { b with bind := b.bind.set k none }) s

/-- The SESSION_END entry (R167, R168): the ticket sequence, or FFFF_FFFFh. -/
def sessionEnd (o : OutIx) (id : Option Nat) (seq : Nat) (s : State) : State :=
  let q := s.fl.osq[o]
  let s := mbxPut o q s.fn 11 q.st q.st 0 [seq] s
  match id, s.mbx.getLast? with
  | some i, some e => { s with mbx := s.mbx.dropLast ++ [{ e with sess := i }] }
  | _, _ => s

/-- The set whose open session is an outlet's. -/
def sessOf (s : State) (o : OutIx) : Option SetIx :=
  (List.finRange 32).find? fun k => (s.nx.bil.sess[k]).isOpen && (s.nx.bil.sess[k]).outlet = some o

/-- A session of an outlet ends in the frame after its stop (R264). -/
def endOutlet (o : OutIx) (s : State) : State :=
  match s.fl.osq[o].stoppedFn with
  | none => s
  | some t =>
    if s.fn ≤ t then s
    else
      let clear (q : Osq) : Osq := if q.stoppedFn = some t then { q with stoppedFn := none } else q
      let s := { s with nx := { s.nx with osq := Vec.upd s.nx.osq o clear } }
      let (seq, s) := match sessOf s o with
        | none => (0xFFFFFFFF, s)
        | some k => match (s.nx.bil.sess[k]).stop with
          | none => (0xFFFFFFFF, s)
          | some st => buildTicket k s.nx.bil.sess[k] st s
      let s := match s.map.out[o].met with
        | some k => if outOfSet s k = some o && (s.nx.bil.bind[k]).isSome then unbind k s else s
        | none => s
      sessionEnd o none seq s

/-- A storage set's session: it closes in the frame after its stop, and runs on from that stop. -/
def storageSess (k : SetIx) (s : State) : State :=
  if !metOn s k || s.map.met[k].kind ≠ 2 then s
  else
    let x := s.nx.bil.sess[k]
    match x.stop with
    | some t =>
      if s.fn ≤ t.fn then s
      else
        let s := (buildTicket k x t s).2
        onSess k (fun x => { x with startFn := t.fn, startSec := t.sec, startFrac := t.frac, witStart := s.fl.met.foll[k.val] }) (openSess k none 0 (!ticketKeyOk s) s)
    | none => if x.isOpen then s else openSess k none 0 (!ticketKeyOk s) s

/-- A stop that the sequencer of an outlet made, and the session that an authorization opens. -/
def sessOutlet (s : State) (o : OutIx) : State :=
  let q := s.fl.osq[o]
  let s := if q.stoppedFn = some s.fn then
      match sessOf s o with | some k => stopSess k q.stopCause q.fault s | none => s
    else s
  if q.st = .authorized && q.stFn = s.fn then
    match setOfOutlet s o with
    | some k => if (s.nx.bil.sess[k]).isOpen then s else openSess k (some o) (q.sessId o) q.unbilled s
    | none => s
  else s

/-- The sessions of the frame: ends, stops found, and starts (R264). -/
def sessStep (s : State) : State :=
  let s := (List.finRange 32).foldl (fun s o => endOutlet o s) s
  let s := (List.finRange 32).foldl (fun s k => storageSess k s) s
  let s := (List.finRange 32).foldl sessOutlet s
  (List.finRange 32).foldl (fun s k => sessFlags k s) s

/-! ### Signing (R268) -/

/-- The partner's ordering code in a ticket: 41h or 4Bh (R265). -/
def orderOf (p : PairInfo) : Byte := if p.code = 0x4B then 0x4B else 0x41

/-- The flag unsigned in bytes 30 to 507 of a ticket, whose flags stand at bytes 54 and 55 (R265, R377). -/
def markUnsigned (body : List Byte) : List Byte := body.set 25 (body.getD 25 0 ||| 0x80)

/-- A ticket as the package signs it: bytes 0 to 575. Where the key is gone the signature is zero and the ticket says so
(R377). -/
def ticketBytes (s : State) (t : Ticket) : List Byte :=
  let partner := match s.tdm.pair with
    | some p => orderOf p :: leBytes 10 p.serial.toNat
    | none => List.replicate 11 0
  let body := if (ticketKey s).isNone then markUnsigned t.body else t.body
  let head := [0x53, 0x54, 0x4B, 0x54] ++ leBytes 2 1 ++ leBytes 2 576 ++ serialBytes s ++ [orderByte s] ++ partner ++ body
  let all := head ++ leBytes 4 (crc32c head).toNat
  let sig := match ticketKey s with
    | some k => if t.unsigned then [] else Config.ecdsaSign k all
    | none => []
  all ++ (sig ++ List.replicate 64 0).take 64

/-- The oldest unsigned ticket is signed and written to the ring and its mirror. -/
def signTicket (s : State) : State :=
  match s.nx.bil.toSign with
  | [] => s
  | t :: ts =>
    let s' := onBil (fun b => { b with toSign := ts }) s
    match t.ix.bind (optFin 256) with
    | none => s'
    | some i =>
      let bs := ticketBytes s t
      lndWrite (ticketBase + 576 * i.val) bs (onBilR (fun r => { r with tickets := r.tickets.set i bs }) s')

/-- TICKET_SIGNED (R268). -/
def execTicketSigned (s : State) : Ans := whenOn s.isl.ctl s signTicket

/-- TICKET_ACK (R268): the acknowledged index advances. -/
def ticketAck (ix : Word) (s : State) : State :=
  onBil (fun b =>
    let n : BitVec 8 := ix.setWidth 8
    { b with ticketRd := n, unacked := b.unacked - (n - b.ticketRd).toNat }) s

/-- TICKET_ACK (R268). -/
def execTicketAck (ix : Word) (s : State) : Ans := whenOn s.isl.ctl s (ticketAck ix)

/-! ### Ledger commands (R259, R260) -/

/-- The bytes of an entry (R258). -/
def entryBytes (s : State) (ix : Nat) (e : Ledger) : List Byte :=
  let flags := bit e.creditMode + 2 * bit e.lowerBound + 4 * bit e.gapSeen + 8 * bit e.witSeen + 16 * bit e.forcedTag
  let body := leBytes 16 e.ident.toNat ++ leBytes 4 e.lease.toNat ++ leBytes 1 e.phase ++ leBytes 1 flags ++
    leBytes 2 e.writes.toNat ++ b80 e.inTot ++ b80 e.outTot ++ (e.perTariff.toList.map fun w => b80 w.fwd ++ b80 w.rev).flatten ++
    leBytes 8 (unsigned 64 e.credit) ++ leBytes 8 e.tag.toNat ++ leBytes 4 e.phase2Sec ++ leBytes 4 e.unbindSec ++
    leBytes 4 e.count.toNat ++ List.replicate 4 0
  let key := (ledgerKey s).getD []
  let all := body ++ bytes128 (Config.aesCmac key (leBytes 2 ix ++ body))
  all ++ leBytes 4 (crc32c all).toNat

/-- The entry as it stands: the working copy where it is bound. -/
def entryOf (s : State) (ix : Fin 1536) : Ledger :=
  match (holder s ix).bind fun k => s.nx.bil.bind[k] with
  | some b => b.e
  | none => s.bilR.ledger[ix]

/-- Change an entry: the working copy where it is bound, else the home entry. -/
def onEntry (ix : Fin 1536) (f : Ledger → Ledger) (s : State) : State :=
  match holder s ix with
  | some k => onBind k (fun b => { b with e := f b.e }) s
  | none =>
    let e := s.bilR.ledger[ix]
    homePut ix { f e with writes := e.writes + 1 } s

/-- The link tag of an EVCCID: the first 8 bytes of its SHA-256 (R258), the first byte lowest. (DESIGN CHOICE, entry 40.) -/
def linkTag (evccid : List Byte) : BitVec 64 :=
  BitVec.ofNat 64 (leNat (((List.range 32).map fun i => (Config.sha256 evccid).extractLsb' (8 * (31 - i)) 8).take 8))

/-- The states of an outlet that admit a bind (R259). -/
def OSt.bindable : OSt → Bool
  | .associated => true | .authorized => true | .hold => true | .cableCheck => true | .precharge => true | .energy => true
  | _ => false

/-- The target of a bind: the set's kind, and the tag or identity that it confirms; none: the set state does not allow
it. -/
def bindTarget (s : State) (k : SetIx) : Option (Nat × Option (BitVec 64) × Option Nat) :=
  if !metOn s k then none
  else match outOfSet s k with
    | some o =>
      if (s.fl.osq[o].st).bindable && s.vlk[o].authSeen then some (1, some (linkTag s.vlk[o].evccid), none) else none
    | none =>
      let j := ((s.map.met[k].target.bind (optFin 96)).bind fun c => s.map.ch[c].pack)
      some (2, none, j.bind fun j => (mailOf s.lat.levels 15 j.val 0).map (·.value))

/-- The binding is made. -/
def ledgerTake (forced : Bool) (ix : Fin 1536) (k : SetIx) (phase : Nat) (tag : Option (BitVec 64)) (s : State) : State :=
  let e := entryOf s ix
  let x := s.nx.bil.sess[k]
  let s := if phase = 2 && x.isOpen && x.stop.isNone then stopSess k 0 0 s else s
  let e1 : Ledger := if e.phase = 0 then { e with ident := s.bilR.ledgerId, lease := s.bilR.ledgerLease } else e
  let t := match tag with | some t => if forced || e1.tag = 0 then t else e1.tag | none => e1.tag
  let e2 : Ledger := { e1 with
    phase := phase, tag := t, forcedTag := e1.forcedTag || forced, count := e1.count + 1,
    phase2Sec := if phase = 2 && e.phase ≠ 2 then rtcSec s else e1.phase2Sec }
  let s := onBil (fun b => { b with bind := b.bind.set k (some {
    ix := ix, e := e2, fn := s.fn, confirmed := !forced, forced := forced, due := decide (e.phase ≠ phase) }) }) s
  let s := if x.isOpen && x.stop.isNone then onSess k (fun x => { x with credit0 := e2.credit }) s else s
  if phase = 1 && x.isOpen && decide (x.startFn < s.fn) then onSess k (fun x => { x with flags := setBit x.flags 14 }) s else s

/-- Op 1 and op 9: the result, and the state where it is 0. -/
def ledgerBind (forced : Bool) (ix : Fin 1536) (s : State) : Nat × State :=
  match optFin 32 (field s.bilR.ledgerSel.toNat 16 6) with
  | none => (6, s)
  | some k =>
    let e := entryOf s ix
    let id := s.bilR.ledgerId
    if (holder s ix).isSome || (s.nx.bil.bind[k]).isSome then (2, s)
    else match bindTarget s k with
      | none => (6, s)
      | some (phase, tag, ident) =>
        if e.phase = 3 ∨ (e.phase = 2 ∧ phase = 1) then (5, s)
        else if e.phase ≠ 0 ∧ e.ident ≠ id then (3, s)
        else if phase = 2 ∧ ident ≠ some id.toNat then (3, s)
        else if !forced && (match tag with | some t => e.tag ≠ 0 && e.tag ≠ t | none => false) then (4, s)
        else (0, ledgerTake forced ix k phase tag s)

/-- The window of op 7 and op 8 (R260): the entry as stored in MRAM. -/
def ledgerWin (ix : Fin 1536) (sign : Bool) (s : State) : State :=
  let body := entryBytes s ix.val s.bilR.ledger[ix] ++ leBytes 2 ix.val ++ List.replicate 6 0 ++ leBytes 8 s.fn ++ serialBytes s ++
    [orderByte s] ++ List.replicate 5 0
  let sig := match sign, ticketKey s with | true, some k => Config.ecdsaSign k body | _, _ => []
  lndWrite ledgerWindow (body ++ (sig ++ List.replicate 64 0).take 64 ++ List.replicate 160 0) s

/-- A ledger command on a usable entry: its result and its effect. (DEDUCED, entry 39.) -/
def ledgerOp (op : Nat) (ix : Fin 1536) (s : State) : Nat × State :=
  match op with
  | 1 => ledgerBind false ix s
  | 2 => match holder s ix with
    | some k =>
      if s.map.met[k].kind = 2 then
        let x := s.nx.bil.sess[k]
        (0, unbind k (if x.isOpen && x.stop.isNone then stopSess k 0 0 s else s))
      else (6, s)
    | none => (6, s)
  | 3 => (0, onEntry ix (fun e => { e with credit := e.credit + signed 32 s.bilR.ledgerArg.toNat * 1000000000 }) s)
  | 4 => (0, onEntry ix (fun e => { e with creditMode := s.bilR.ledgerArg.getLsbD 0 }) s)
  | 5 => if (holder s ix).isSome then (2, s) else (0, onEntry ix (fun e => { e with phase := 3 }) s)
  | 6 => if (entryOf s ix).phase = 3 then (0, homePut ix {} s) else (9, s)
  | 7 => (0, ledgerWin ix false s)
  | 8 => if ledgerKeyOk s && ticketKeyOk s then (0, ledgerWin ix true s) else (8, s)
  | _ => ledgerBind true ix s

/-- A ledger command in its latch frame (R259): the entry named by BIL_LEDGER_SEL. -/
def ledgerCmd (op : Nat) (s : State) : State :=
  let n := field s.bilR.ledgerSel.toNat 0 11
  let (r, s) := match optFin 1536 n with
    | none => (1, s)
    | some ix => if s.bilR.unusable.contains n then (7, s) else ledgerOp op ix s
  bilEvent 5 noMeter (16 * op + r) (onBil (fun b => { b with ledgerOp := op, ledgerResult := r, ledgerDone := true }) s)

/-- A ledger command with the home entries that it makes due. -/
def ledgerRun (op : Nat) (s : State) : State := homeDue (ledgerCmd op s)

/-- The ledger commands latched for the frame, in their order. (DESIGN CHOICE, entry 105.) -/
def ledgerReqs (s : State) : State :=
  s.bilR.ledgerReq.foldl (fun s op => ledgerCmd op s) (onBilR (fun r => { r with ledgerReq := [] }) s)

/-- LEDGER_BIND (R259). -/
def execLedgerBind (s : State) : Ans := whenOn s.isl.ctl s (ledgerRun 1)
/-- LEDGER_UNBIND (R259). -/
def execLedgerUnbind (s : State) : Ans := whenOn s.isl.ctl s (ledgerRun 2)
/-- LEDGER_LOAD_CREDIT (R259). -/
def execLedgerLoadCredit (s : State) : Ans := whenOn s.isl.ctl s (ledgerRun 3)
/-- LEDGER_CREDIT_MODE (R259). -/
def execLedgerCreditMode (s : State) : Ans := whenOn s.isl.ctl s (ledgerRun 4)
/-- LEDGER_RETIRE (R259). -/
def execLedgerRetire (s : State) : Ans := whenOn s.isl.ctl s (ledgerRun 5)
/-- LEDGER_CLEAR (R259). -/
def execLedgerClear (s : State) : Ans := whenOn s.isl.ctl s (ledgerRun 6)
/-- LEDGER_READ (R260). -/
def execLedgerRead (s : State) : Ans := whenOn s.isl.ctl s (ledgerRun 7)
/-- LEDGER_EXPORT (R260). -/
def execLedgerExport (s : State) : Ans := whenOn s.isl.ctl s (ledgerRun 8)
/-- LEDGER_FORCED_BIND (R259). -/
def execLedgerForcedBind (s : State) : Ans := whenOn s.isl.ctl s (ledgerRun 9)

/-! ### Credit and availability (R262, R263) -/

/-- The credit of a set is exhausted. -/
def exhausted (s : State) (k : SetIx) : Bool :=
  match s.nx.bil.bind[k] with | some b => b.e.creditMode && decide (b.e.credit ≤ creditMargin s) | none => false

/-- The flags of the frame's end. -/
def creditStep (s : State) : State :=
  let old := s.nx.bil.exh
  let s := (List.finRange 32).foldl (fun s k => if exhausted s k && !old.getLsbD k.val then bilEvent 4 k.val 0 s else s) s
  let ok := ticketKeyOk s && decide (s.nx.bil.unacked < 256) && decide (8 ≤ goodSlots s) && !s.bilR.tamperBoot
  let bits (p : Fin 32 → Bool) : BitVec 32 := (List.finRange 32).foldl (fun (w : BitVec 32) i => if p i then setBit w i.val else w) 0
  let lease (j : Fin 8) : Option Nat :=
    ((List.finRange 32).find? fun k => metOn s k && s.map.met[k].kind = 2 &&
        (s.map.met[k].target.bind (optFin 96)).bind (fun c => s.map.ch[c].pack) = some j).bind fun k =>
      match s.nx.bil.bind[k] with
      | some b => if b.e.creditMode then some ((b.e.credit / 1000000).toNat) else none
      | none => none
  onBil (fun b => { b with
    exh := bits (exhausted s), creditOut := bits fun o => match setOfOutlet s o with | some k => exhausted s k | none => false,
    ok := ok, avail := bits fun o => ok && (setOfOutlet s o).isSome, leaseWh := Vector.ofFn lease }) s

/-! ### Saves, checkpoints and the restore (R270 to R274) -/

/-- The tail of a meter in a save slot: N and the flags of the open interval, maxima, last closed demand and last record. -/
def saveMeter (b : Bil) (x : BMeter) : List Byte :=
  ((x.a.toList.map fun (w : Wit) => b80 w.fwd ++ b80 w.rev).flatten ++ b80 x.t.fwd ++ b80 x.t.rev ++ b80 x.dem.fwd ++ b80 x.dem.rev ++
    Config.saveMeterTail b.demN b.demFlags.toNat [x.maxF.w, x.maxF.ts, x.maxR.w, x.maxR.ts, x.lastF.w, x.lastR.w, x.lastE.fwd, x.lastE.rev, x.lastL] ++
    List.replicate 256 0).take 256

/-- The session of a set in a save slot, in 128 bytes. -/
def saveSess (x : BSess) : List Byte :=
  let nums := [bit x.isOpen, (match x.outlet with | some o => o.val | none => 0xFF), x.sessId, x.startFn, x.startSec, x.startFrac,
    x.flags.toNat, x.gapCount, x.witStart.fwd, x.witStart.rev, unsigned 64 x.credit0, x.tot.fwd, x.tot.rev] ++
    (x.e.toList.map fun (w : Wit) => [w.fwd, w.rev]).flatten ++ (x.gaps.map fun g => [g.sec, g.ms, g.upper, g.bits.toNat]).flatten ++
    (match x.stop with | some t => [t.fn, t.sec, t.frac, t.cause, t.fault] | none => [])
  (Config.saveSession nums ++ List.replicate 128 0).take 128

/-- Bytes 96 to 20,879 of a save slot (R270): meters, working copies by set index in the form of R258, sessions, and the last
region. The widths that the rule does not give are opaque. -/
def saveBody (s : State) (b : Bil) (welds : BitVec 32) : List Byte :=
  let work (x : Option Bind) : List Byte := match x with
    | some y => (entryBytes s y.ix.val y.e ++ List.replicate 256 0).take 256
    | none => List.replicate 256 0
  let last := (b.hist.take 3).map (fun h => h.2.2) |>.flatten
  (b.m.toList.map (saveMeter b)).flatten ++ (b.bind.toList.map work).flatten ++ (b.sess.toList.map saveSess).flatten ++
    (Config.saveTail (last ++ [b.ticketSeq, b.ticketWr, b.ticketRd.toNat, welds.toNat]) ++ List.replicate 48 0).take 48

/-- Outlets with the weld flag of R160. -/
def weldFlags (f : FrameState) : BitVec 32 :=
  (List.finRange 32).foldl (fun (w : BitVec 32) o => if f.osq[o].weld then setBit w o.val else w) 0

/-- A save slot in its bytes (R270). -/
def slotBytes (s : State) (x : SaveSlot) : List Byte :=
  let r := rtcParts x.rtc
  let head := [0x42, 0x53, 0x41, 0x56] ++ leBytes 8 x.seq ++ leBytes 8 x.fn ++ leBytes 4 r.1 ++ leBytes 2 r.2 ++ leBytes 2 1 ++
    (x.hash ++ List.replicate 48 0).take 48 ++ leBytes 4 (x.bil.hd.getD 0) ++
    (x.bil.cal.toList.map fun c => leBytes 4 (unsigned 32 (c.hc.getD 0))).flatten
  let body := head ++ (saveBody s x.bil x.welds ++ List.replicate 20784 0).take 20784 ++ List.replicate 11868 0
  let key := (ledgerKey s).getD []
  let all := body ++ bytes128 (Config.aesCmac key body)
  all ++ leBytes 4 (crc32c all).toNat

/-- Write a checkpoint of the results of a frame (R274). -/
def checkpointAt (fn : Nat) (s : State) : State :=
  let x : SaveSlot := { seq := s.bilR.saveSeq, fn := fn, rtc := s.lat.levels.rtc, hash := s.smp.activeHash, bil := s.nx.bil, welds := weldFlags s.nx, tagKey := ledgerKey s }
  let s := lndWrite checkpointBase (slotBytes s x) s
  bilInt 10 (onBilR (fun r => { r with ckptReq := false }) (onBil (fun b => { b with ckptFn := fn }) s))

/-- Write a checkpoint of the frame's results (R274). -/
def checkpoint (s : State) : State := checkpointAt s.fn s

/-- BIL_CHECKPOINT (R274). -/
def execBilCheckpoint (s : State) : Ans := whenOn s.isl.ctl s checkpoint

/-- The next usable slot in rotation. -/
def nextSlot (s : State) : Option (Fin 64) :=
  ((List.range 64).map fun i => (s.bilR.lastSlot + 1 + i) % 64).findSome? fun i =>
    if s.bilR.badSlots.getLsbD i then none else optFin 64 i

/-- SAVE (R270): at a save boundary the state after step 4 of the frame before. -/
def save (s : State) : State :=
  if s.fn % saveInt s ≠ 0 || s.bilR.noSave || s.bilR.writing.isSome then s
  else match nextSlot s, s.fl.bil.hist.find? (fun h => h.1 + 1 = s.fn) with
    | some k, some h =>
      let x : SaveSlot := { seq := s.bilR.saveSeq + 1, fn := h.1, rtc := h.2.1, hash := s.smp.activeHash, bil := s.fl.bil, welds := weldFlags s.fl, tagKey := ledgerKey s }
      onBilR (fun r => { r with writing := some (k, x), fnAon := h.1, fnMram := h.1 }) s
    | _, _ => s

/-- SAVE (R270). -/
def execSave (s : State) : Ans := whenOn s.isl.ctl s save

/-- The write of a slot ends; a slot that fails its read-back is bad and skipped (R270). -/
def saveDone (ok : Bool) (s : State) : State :=
  match s.bilR.writing with
  | none => s
  | some (k, x) =>
    if ok then
      let n := if s.hkp.supplyWarn then s.hkp.savesAfter + 1 else s.hkp.savesAfter
      onBilR (fun r => { r with writing := none, slots := r.slots.set k (some x), lastSlot := k.val, saveSeq := x.seq })
        { s with hkp := { s.hkp with savesAfter := n } }
    else
      bilEvent 8 noMeter k.val
        (onBilR (fun r => { r with writing := none, slots := r.slots.set k none, lastSlot := k.val, badSlots := setBit r.badSlots k.val }) s)

/-- SAVE_WRITE_DONE (R270). -/
def execSaveWriteDone (ok : Bool) (s : State) : Ans := .next (saveDone ok s)

/-- A slot is valid: its tag verifies under the ledger key (R271). (DEDUCED, entry 103.) -/
def slotValid (s : State) (x : SaveSlot) : Bool := x.tagKey.isSome && x.tagKey = ledgerKey s

/-- The valid slot with the highest sequence (R271). -/
def bestSlot (s : State) : Option SaveSlot :=
  (s.bilR.slots.toList.filterMap fun x => x.filter (slotValid s)).foldl (fun (b : Option SaveSlot) c => match b with
    | none => some c
    | some a => if a.seq < c.seq then some c else some a) none

/-- The start of billing at a cold start (R271 step 1): what the first frame computes from. -/
def billStart (s : State) : Bil :=
  match bestSlot s with
  | none => { empty := true }
  | some x => { x.bil with restore := some (x.rtc, x.seq), restored := true, empty := false,
                           mapChanged := x.hash ≠ s.smp.activeHash, restores := x.bil.restores + 1 }

/-- A gap of `d` milliseconds on one meter (R272). -/
def gapFor (x : BMeter) (sec d : Nat) : Gap :=
  { sec := sec, ms := d, upper := if x.lastL = 0 then 0 else cdiv ((x.lastE.fwd + x.lastE.rev) * 4096 * d) x.lastL,
    bits := BitVec.ofNat 8 (bit (x.lastE.fwd ≠ 0) + 2 * bit (x.lastE.rev ≠ 0)) }

/-- The gap of one set or the site. -/
def restoreGap (sec d : Nat) (s : State) (m : Fin 33) : State :=
  let g := gapFor s.nx.bil.m[m] sec d
  match optFin 32 m.val with
  | none => if siteOn s then bilEvent 7 m.val d s else s
  | some k =>
    if (s.nx.bil.sess[k]).isOpen || (s.nx.bil.bind[k]).isSome then
      let s := if (s.nx.bil.sess[k]).isOpen then onSess k (addGap g) s else s
      bilEvent 7 m.val d (onBind k (fun b => { b with e := { b.e with gapSeen := true } }) s)
    else s

/-- The ticket of a session that has stopped, and the end of its binding. -/
def restoreTicket (k : SetIx) (o : OutIx) (t : BStop) (s : State) : State :=
  let x := s.nx.bil.sess[k]
  let r := buildTicket k x t s
  sessionEnd o (some x.sessId) r.1 (if (r.2.nx.bil.bind[k]).isSome then unbind k r.2 else r.2)

/-- A session that a power loss cut (R271 steps 1 and 4); without one, the binding of an outlet ends (R259). -/
def restoreSess (s : State) (k : SetIx) : State :=
  let x := s.nx.bil.sess[k]
  if !x.isOpen then (if (s.nx.bil.bind[k]).isSome && (outOfSet s k).isSome then unbind k s else s)
  else
    let s := onSess k (fun x => { x with flags := setBit x.flags 12 }) (if x.stop.isSome then s else stopSess k 12 0 s)
    match (s.nx.bil.sess[k]).stop, x.outlet with
    | some t, some o => restoreTicket k o t s
    | some t, none => (buildTicket k s.nx.bil.sess[k] t s).2
    | none, _ => s

/-- Steps 3 and 4 of R271: the gap records, and the open sessions closed with RESET. -/
def restoreTail (rtc : Nat) (s : State) : State :=
  let d := cdiv (s.lat.levels.rtc - rtc) 65536
  let sec := rtc / 65536000
  let s := onBil (fun b => { b with gapMs := d, gapSec := sec }) s
  (List.finRange 32).foldl restoreSess ((List.finRange 33).foldl (restoreGap sec d) s)

/-! ### Step 4 (R254) -/

/-- A demand period that a crossing closes. -/
def crossClose (c : Option (Nat × BitVec 5 × Nat)) (s : State) : State :=
  match c with | some (ts, fl, n) => closeDemand ts n fl s | none => s

/-- The first step after a restore. -/
def billRestore (rtc seq : Nat) (s : State) : State :=
  let held := s.nx.bil.demCross.map fun x => (x.1, x.2.1 ||| dLate ||| dInterrupted, x.2.2)
  let s := crossClose held (onBil (fun b => { b with restore := none, demFlags := b.demFlags ||| dInterrupted }) s)
  let s := crossAll true true s
  let s := crossClose s.nx.bil.demCross s
  let s := restoreTail rtc (recordSwitches s)
  checkpoint (creditStep (homeDue (ledgerReqs (sessStep (bilEvent 9 noMeter seq s)))))

/-- Steps 2 to 5 of R254 after the record of the frame. -/
def billRest (s : State) : State :=
  let s := crossClose s.fl.bil.demCross s
  let s := homeDue (ledgerReqs (sessStep (recordSwitches s)))
  let s := creditStep (crossAll false true s)
  if s.bilR.ckptReq || roleNew s || (s.tdm.roleFn = s.fn && s.tdm.st = .lead) then checkpoint s else s

/-- The ordinary step. (DESIGN CHOICE, entry 105.) -/
def billRecord (s : State) : State := billRest (match cycleOf s.lat with | some r => applyRecord r s | none => s)

/-- A frame of billing. -/
def billStep (s : State) : State :=
  let s := ledgerScan s
  match s.nx.bil.restore with
  | some (rtc, seq) => billRestore rtc seq s
  | none => billRecord s

/-- DEMAND_CLOSE (R255): the boundary test of the frame; without a boundary it does nothing. -/
def execDemandClose (s : State) : Ans := whenOn s.isl.ctl s (crossDemand false false)

/-- TARIFF_SWITCH (R253): the switch points of a calendar in the frame. -/
def execTariffSwitch (k : Fin 4) (s : State) : Ans := whenOn s.isl.ctl s fun s => crossAll false false (crossCal false k s)

/-! ### Other commands -/

/-- Zero every maximum (R277). -/
def mdReset (s : State) : State := onBil (fun b => { b with m := b.m.map fun x => { x with maxF := {}, maxR := {} } }) s

/-- BIL_MD_RESET (R277). -/
def execBilMdReset (s : State) : Ans := whenOn s.isl.ctl s mdReset

/-- A storage ticket for the set in BIL_SEL (R264): its session stops in this frame. -/
def storeTicket (s : State) : State :=
  match optFin 32 (field s.bilR.sel.toNat 0 6) with
  | none => s
  | some k =>
    let x := s.nx.bil.sess[k]
    if metOn s k && s.map.met[k].kind = 2 && x.isOpen && x.stop.isNone then stopSess k 0 0 s else s

/-- BIL_STORE_TICKET (R264). -/
def execBilStoreTicket (s : State) : Ans := whenOn s.isl.ctl s storeTicket

/-- The item that BIL_SEL names (R277): value, interval flags and time stamp, from S_F. -/
def selItem (s : State) (w : Word) : Nat × BitVec 5 × Nat :=
  let b := s.fl.bil
  let dir (x : Wit) : Nat := if w.getLsbD 13 then x.rev else x.fwd
  match optFin 33 (field w.toNat 0 6) with
  | none => (0, 0, 0)
  | some m =>
    let x := b.m[m]
    let t : Fin 8 := ⟨field w.toNat 10 3, Nat.mod_lt _ (by decide)⟩
    let dem (f r : Demand) : Nat × BitVec 5 × Nat := let d := if w.getLsbD 13 then r else f; (d.w, d.flags, d.ts)
    let sess : Option BSess := (optFin 32 m.val).map fun k => b.sess[k]
    match field w.toNat 6 4, sess with
    | 0, _ => (dir x.a[t], 0, 0)
    | 1, _ => (dir x.t, 0, 0)
    | 2, _ => dem x.maxF x.maxR
    | 3, _ => dem x.lastF x.lastR
    | 4, some y => (dir y.e[t], 0, 0)
    | 5, some y => if y.isOpen then (dir { fwd := x.t.fwd - y.tot.fwd, rev := x.t.rev - y.tot.rev }, 0, 0) else (0, 0, 0)
    | _, _ => (0, 0, 0)

/-- A write of BIL_SEL snapshots the item (R276). -/
def selWrite (val : Word) (s : State) : State :=
  let w := val &&& 0x3FFF
  let (v, f, ts) := selItem s w
  onBilR (fun r => { r with sel := w, snap := v, snapFlags := f, snapTs := ts, snapFn := s.fn }) s

/-- BIL_SEL_SNAPSHOT (R276). -/
def execBilSelSnapshot (val : Word) (s : State) : Ans := whenOn s.isl.ctl s (selWrite val)

end Sys2Proof.Machine
end

