-- ==== Sys2Proof/Machine/Links.lean ====
section
/-! DEFINITION. The vehicle links (chapter 7): association, transport and messages as they arrive, what a latched
input set makes of them, and the responses. -/

namespace Sys2Proof.Machine

/-! ### The port -/

/-- Change a link port. -/
def onVlk (o : OutIx) (f : Vlk → Vlk) (s : State) : State := { s with vlk := Vec.upd s.vlk o f }

/-- A bit of VLK_INT_STATUS with its event of rank 11 (R195, R442). -/
def vlkInt (o : OutIx) (b : Nat) (s : State) : State :=
  raise (onVlk o (fun v => { v with intStatus := setBit v.intStatus b }) s)
    { rank := 11, code := b + 1, num := o.val, ord := 16 * o.val + b }

/-- seq_timeout in milliseconds (R196). -/
def seqMs (v : Vlk) : Nat := 1000 * min 60 (max 2 (field v.cfg.toNat 0 8))

/-- slac_attempts (R196). -/
def slacMax (v : Vlk) : Nat := max 1 (field v.sessCfg.toNat 20 4)

/-- The wrapped slot of TLS in force, none: FFh or a value that counts as FFh (R196). -/
def tlsSlot (v : Vlk) : Option (Fin 128) := optFin 128 (field v.sessLink.toNat 8 8)

/-- The slot holds a valid key and a chain stands in its area (R192). -/
def tlsReady (s : State) (o : OutIx) : Bool :=
  match tlsSlot s.vlk[o] with
  | some k => s.lat.levels.slotValid.getLsbD k.val && leNat (lndRead tlsBase 4 s) ≠ 0
  | none => false

/-- The port has a medium (R171). -/
def portOn (s : State) (o : OutIx) : Bool := s.map.out[o].conn ≠ 0 && s.map.out[o].link ≠ 0

/-- The port's modem core is in use. -/
def plc (s : State) (o : OutIx) : Bool := s.map.out[o].conn ≠ 0 && s.map.out[o].link = 2 && s.vlk[o].modem.isSome

/-- A link that can carry transport: T1S up, or matched (R174, R488). -/
def linkReady (s : State) (o : OutIx) : Bool :=
  if s.map.out[o].link = 1 then s.vlk[o].t1sUp else plc s o && s.vlk[o].matched

/-- ASSOCIATED to HOLD (R185). -/
def OSt.linked : OSt → Bool
  | .idle => false | .plugged => false | .fault => false | .outOfService => false | _ => true

/-- A message enters the path of R18. Its coded length is no operand of the command: it is free (R188: at most 8 KB). (DESIGN CHOICE, entry 30.) -/
def arriveVeh (o : OutIx) (m : VehMsg) (s : State) : State :=
  let (ix, s) := s.fresh
  { s with arrived := s.arrived ++ [.vehicle o m (1 + Config.freeNat ix % 8192)] }

/-- Transport closes and the link is lost (R185). -/
def loseLink (o : OutIx) (s : State) : State :=
  arriveVeh o .linkLost (onVlk o (fun v => { v with tcp := false, tls := false, session := false, layer := .none }) s)

/-- A complete V2G request (R185, R190): it resets the gap and enters the path. -/
def request (o : OutIx) (m : VehMsg) (s : State) : State := arriveVeh o m (onVlk o (fun v => { v with gap := 0 }) s)

/-- What a follower does with a vehicle's message (R193, R290): it captures the message and its time, and answers
nothing; the protocol state is that of the lead's copies. (DEDUCED, entry 93.) -/
def shadow (f : State → State) (s : State) : State :=
  let t := f s
  { s with arrived := t.arrived, freeIx := t.freeIx, vlk := Vec.mapIx s.vlk fun o v => { v with gap := (t.vlk[o]).gap } }

/-- A command of a vehicle needs the communication island, a port with a medium, and what the guard asks. Only the
lead's port acts on it (R193). (DEDUCED, entry 93.) -/
def linkRow (o : OutIx) (ok : State → Bool) (f : State → State) (s : State) : Ans :=
  whenOn s.isl.com s fun s => if portOn s o && ok s then (if isLead s then f s else shadow f s) else s

/-- A receiver's observation, which both packages of a pair make (R193). -/
def heardRow (o : OutIx) (ok : State → Bool) (f : State → State) (s : State) : Ans :=
  whenOn s.isl.com s fun s => if portOn s o && ok s then f s else s

/-- A request on the open connection with a layer agreed. (DEDUCED, entry 68.) -/
def v2gRow (o : OutIx) (f : State → State) (s : State) : Ans :=
  linkRow o (fun s => s.vlk[o].tcp && s.vlk[o].layer ≠ .none) f s

/-! ### Addresses (R173, R187) -/

/-- The MAC address of a port: 02h, bytes 0 to 3 of the full map's hash, the outlet index. -/
def portMac (s : State) (o : OutIx) : List Byte :=
  [2] ++ ((s.smp.hash ++ List.replicate 4 0).take 4) ++ [BitVec.ofNat 8 o.val]

/-- The link-local address with the modified EUI-64 of the MAC: the universal bit of byte 0 inverted. -/
def portIp (s : State) (o : OutIx) : BitVec 128 :=
  let m := portMac s o
  let bs : List Byte := [0xfe, 0x80, 0, 0, 0, 0, 0, 0, m.getD 0 0 ^^^ 2, m.getD 1 0, m.getD 2 0, 0xff, 0xfe,
    m.getD 3 0, m.getD 4 0, m.getD 5 0]
  bs.foldl (fun a b => a <<< 8 ||| b.setWidth 128) 0

/-- The layers that the port offers (R186), in the order of preference. -/
def offered (s : State) (o : OutIx) : List Layer :=
  let en := s.vlk[o].sessCfg
  let mega := s.map.out[o].conn = 1
  (if en.getLsbD 26 && tlsReady s o then [.iso20] else []) ++
  (if en.getLsbD 25 && !mega then [.iso2] else []) ++ (if en.getLsbD 24 && !mega then [.din70121] else [])

/-! ### Joint association (R179 to R183) -/

/-- A candidate for a run (R179): in PLUGGED, no vehicle bound, and not bound by an earlier decision (R182). A run that
has bound keeps its record until the vehicle leaves. -/
def slacCand (s : State) (o : OutIx) : Bool :=
  plc s o && s.fl.osq[o].st = .plugged && !s.fl.veh[o].bound && !s.slac.any fun r => r.bound = some o

/-- Change the run of a vehicle, or open its record. -/
def onRun (mac : BitVec 48) (id : BitVec 64) (f : SlacRun → SlacRun) (s : State) : State :=
  if s.slac.any fun r => r.mac = mac && r.runId = id then
    { s with slac := s.slac.map fun r => if r.mac = mac && r.runId = id then f r else r }
  else { s with slac := s.slac ++ [f { mac := mac, runId := id }] }

/-- The record of a run. -/
def runOf (s : State) (mac : BitVec 48) (id : BitVec 64) : Option SlacRun :=
  s.slac.find? fun r => r.mac = mac && r.runId = id

/-- The mean attenuation at a port, in 1/4 dB, where it heard at least half of the announced sounds (R180). -/
def attenOf (r : SlacRun) (o : OutIx) : Option Nat :=
  let (n, sum) := r.sounds[o]
  if n = 0 || 2 * n < r.announced then none else some (rheDiv (4 * sum) (58 * n)).toNat

/-- The lowest value of a list of ports, the lower index on equality, and the next lowest. -/
def lowestTwo : List (OutIx × Nat) → Option (OutIx × Nat) × Option Nat
  | [] => (none, none)
  | x :: xs =>
    match lowestTwo xs with
    | (none, _) => (some x, none)
    | (some w, n) =>
      if x.2 ≤ w.2 then (some x, some w.2)
      else (some w, some (match n with | some m => min m x.2 | none => x.2))

/-- Change the SLAC results of ports. -/
def onPorts (p : OutIx → Bool) (f : Vlk → Vlk) (s : State) : State :=
  { s with vlk := Vec.mapIx s.vlk fun o v => if p o then f v else v }

/-- The decision of a run from its latched attenuation values (R181 to R183, R194): an earlier decision of an overlapping
run takes its port out of the comparison. (DEDUCED, entry 28.) -/
def slacDecide (mac : BitVec 48) (id : BitVec 64) (att : List (OutIx × Nat)) (s : State) : State :=
    let r := (runOf s mac id).getD { mac := mac, runId := id }
    let att := att.filter fun x => !r.excl.getLsbD x.1.val
    let cand (o : OutIx) : Bool := r.cands.getLsbD o.val || (slacCand s o && att.any (·.1 = o))
    let low := lowestTwo att
    let rec1 (code : Nat) (v : Vlk) : Vlk :=
      { v with slacResult := code,
               slacBest := match low.1 with | some w => min 1023 w.2 | none => 0,
               slacNext := match low.2 with | some n => min 1023 n | none => 0x3FF,
               slacWinner := match low.1 with | some w => w.1.val | none => 0 }
    let bindTo : Option OutIx := match low.1 with
      | some w =>
        let margin := match low.2 with | some n => w.2 + 24 ≤ n | none => true
        if margin && !r.void && slacCand s w.1 && pilotOf s w.1 = .b then some w.1 else none
      | none => none
    match bindTo with
    | some w =>
      let s := onRun mac id (fun x => { x with bound := some w }) (onPorts cand (rec1 1) s)
      vlkInt w 1 { s with slac := s.slac.map fun x => if x.bound.isNone then { x with excl := setBit x.excl w.val } else x }
    | none =>
      let code := match low.1 with
        | none => 4
        | some w => match low.2 with | some n => if w.2 + 24 ≤ n then 3 else 2 | none => 3
      let s := onPorts cand (fun v =>
        let v := { rec1 code v with attempts := min 15 (v.attempts + 1) }
        { v with slacResult := if slacMax v ≤ v.attempts then 5 else code }) s
      let s := { s with slac := s.slac.filter fun x => !(x.mac = mac && x.runId = id) }
      (List.finRange 32).foldl (fun s o =>
        if cand o then
          raiseIf (s.vlk[o].slacResult = 5) { rank := 11, code := 0, num := o.val, ord := 16 * o.val + 2, data := 5 } (vlkInt o 2 s)
        else s) s

/-- T1S_LINK_UP (R174). -/
def execT1sLinkUp (o : OutIx) (s : State) : Ans :=
  heardRow o (fun s => s.map.out[o].link = 1 && !s.vlk[o].t1sUp) (onVlk o fun v => { v with t1sUp := true }) s

/-- T1S_LINK_DOWN (R174): the loss of the link follows after 2 s (R185). -/
def execT1sLinkDown (o : OutIx) (s : State) : Ans :=
  heardRow o (fun s => s.map.out[o].link = 1) (onVlk o fun v => { v with t1sUp := false }) s

/-- AVLN_LOST (R185): the T1S link down, or the AVLN lost, for 2 s. -/
def execAvlnLost (o : OutIx) (s : State) : Ans :=
  linkRow o (fun s => s.map.out[o].link = 2 || !s.vlk[o].t1sUp)
    (fun s => loseLink o { onVlk o (fun v => { v with matched := false }) s with slac := s.slac.filter fun r => r.bound ≠ some o }) s

/-- SLAC_PARM_REQ (R179): every candidate that hears the request answers it. -/
def execSlacParmReq (mac : BitVec 48) (runId : BitVec 64) (heard : BitVec 32) (s : State) : Ans :=
  whenOn s.isl.com s fun s =>
    let ans : BitVec 32 := (List.finRange 32).foldl
      (fun (w : BitVec 32) o => if heard.getLsbD o.val && slacCand s o then setBit w o.val else w) 0
    if ans = 0 || !isLead s then s else onRun mac runId (fun r => { r with cands := r.cands ||| ans }) s

/-- SLAC_START_ATTEN (R180): the first one opens the sounding window. -/
def execSlacStartAtten (mac : BitVec 48) (runId : BitVec 64) (announced : Nat) (s : State) : Ans :=
  whenOn s.isl.com s (onRun mac runId fun r => if r.opened then r else { r with opened := true, announced := announced })

/-- SLAC_SOUND (R179, R180): recorded on every power-line port while the window is open. -/
def execSlacSound (mac : BitVec 48) (runId : BitVec 64) (o : OutIx) (groups : List Nat) (s : State) : Ans :=
  heardRow o (fun s => plc s o)
    (fun s => onRun mac runId (fun r =>
      if r.opened && !r.closed then
        { r with sounds := Vec.upd r.sounds o fun x => (x.1 + 1, x.2 + (groups.take 58).foldl (· + ·) 0) }
      else r) s) s

/-- SLAC_WINDOW_CLOSE (R180, R182): the attenuation values become a non-loop input. -/
def execSlacWindowClose (mac : BitVec 48) (runId : BitVec 64) (s : State) : Ans :=
  whenOn s.isl.com s fun s =>
    match runOf s mac runId with
    | none => s
    | some r =>
      if !r.opened || r.closed then s
      else
        let att := (List.finRange 32).filterMap fun o => (attenOf r o).map fun a => (o, a)
        let first := match att with | x :: _ => x.1 | [] => 0
        arriveVeh first (.slacClosed mac runId att) (onRun mac runId (fun r => { r with closed := true }) s)

/-- SLAC_MATCH_REQ (R181): accepted on the bound port only, and answered in the frame that latches it. -/
def execSlacMatchReq (o : OutIx) (mac : BitVec 48) (runId : BitVec 64) (s : State) : Ans :=
  linkRow o (fun s => match runOf s mac runId with | some r => r.bound = some o | none => false)
    (arriveVeh o (.slacMatch mac runId)) s

/-- SECC_DISCOVERY (R187): the address, the port and the security mode. -/
def execSeccDiscovery (o : OutIx) (s : State) : Ans :=
  linkRow o (fun s => linkReady s o)
    (fun s => onVlk o (fun v => { v with sdp := some (portIp s o, 52000 + o.val, v.sessCfg.getLsbD 26 && tlsReady s o) }) s) s

/-- TCP_CONNECT (R187): one connection per port. -/
def execTcpConnect (o : OutIx) (s : State) : Ans :=
  linkRow o (fun s => linkReady s o && !s.vlk[o].tcp) (onVlk o fun v => { v with tcp := true }) s

/-- TCP_RETRANSMIT_LIMIT (R187): the connection closes after four retransmissions of a segment. -/
def execTcpRetransmitLimit (o : OutIx) (s : State) : Ans :=
  linkRow o (fun s => s.vlk[o].tcp)
    (fun s => loseLink o (onVlk o (fun v => { v with retrans := v.retrans + 4 }) s)) s

/-- TCP_CONNECTION_CLOSED (R185). -/
def execTcpConnectionClosed (o : OutIx) (s : State) : Ans := linkRow o (fun s => s.vlk[o].tcp) (loseLink o) s

/-- The server key of an outlet's port: the active entry of its slot. -/
def tlsEntry (s : State) (o : OutIx) : Option (Fin 128 × List Byte) :=
  (tlsSlot s.vlk[o]).bind fun k => (activeEntry s k).map fun e => (k, e)

/-- The device's side of a handshake: it signs with the server key (R192, R373); after a zeroize there is none (R377). -/
def tlsServe (o : OutIx) (ok : Bool) (s : State) : State :=
  match tlsEntry s o with
  | some (k, e) => if ok && tlsReady s o then onVlk o (fun v => { v with tls := true }) (useKey k e s).2 else vlkInt o 7 (loseLink o s)
  | none => vlkInt o 7 (loseLink o s)

/-- TLS_HANDSHAKE (R192): it needs a valid slot and a chain; otherwise, or where the vehicle cannot complete it, it is
a TLS failure. -/
def execTlsHandshake (o : OutIx) (ok : Bool) (s : State) : Ans :=
  linkRow o (fun s => s.vlk[o].tcp) (tlsServe o ok) s

/-- SUPPORTED_APP_PROTOCOL_REQ (R186): the first layer that both sides offer; ISO 15118-20 requires TLS, which the other
layers do not offer. -/
def execSupportedAppProtocolReq (o : OutIx) (offers : List Layer) (s : State) : Ans :=
  linkRow o (fun s => s.vlk[o].tcp)
    (fun s =>
      let s := onVlk o (fun v => { v with gap := 0 }) s
      match (offered s o).find? fun l => offers.contains l && (s.vlk[o].tls = decide (l = .iso20)) with
      | some l => vlkInt o 3 (onVlk o (fun v => { v with layer := l }) s)
      | none => s) s

/-- SESSION_SETUP_REQ (R189, R489). -/
def execSessionSetupReq (o : OutIx) (evccid : List Byte) (s : State) : Ans :=
  v2gRow o (fun s => request o (.sessionSetup evccid) (onVlk o (fun v =>
    { v with session := true }) s)) s

/-- A message that does not decode (R188): the answer FAILED where a layer is agreed, the count, and the loss of the link. (DEDUCED, entry 94.) -/
def decodeFail (o : OutIx) (s : State) : State :=
  let answer (v : Vlk) : Vlk := if v.layer = .none then v else { v with resp := { v.resp with fn := s.fn, kind := .failed } }
  vlkInt o 8 (loseLink o (onVlk o (fun v => { answer v with decodeErr := v.decodeErr + 1 }) s))

/-- AUTHORIZATION_REQ (R191): a contract chain exists in ISO 15118-20 only (R186, R188). -/
def execAuthorizationReq (o : OutIx) (chain signed : List Byte) (s : State) : Ans :=
  v2gRow o (fun s => if chain ≠ [] && decide (s.vlk[o].layer ≠ .iso20) then decodeFail o s else request o (.authorization chain signed) s) s

/-- CHARGE_PARAMETER_DISCOVERY_REQ (R189). -/
def execChargeParameterDiscoveryReq (o : OutIx) (v : VehReq) (ready err bpt dyn : Bool) (s : State) : Ans :=
  v2gRow o (request o (.chargeParameters v ready err bpt dyn)) s

/-- CABLE_CHECK_REQ (R490). -/
def execCableCheckReq (o : OutIx) (s : State) : Ans := v2gRow o (request o .cableCheck) s

/-- PRE_CHARGE_REQ (R189). -/
def execPreChargeReq (o : OutIx) (v : VehReq) (s : State) : Ans := v2gRow o (request o (.preCharge v)) s

/-- POWER_DELIVERY_REQ (R189). -/
def execPowerDeliveryReq (o : OutIx) (start : Bool) (s : State) : Ans := v2gRow o (request o (.powerDelivery start)) s

/-- SESSION_STOP_REQ (R189). -/
def execSessionStopReq (o : OutIx) (s : State) : Ans := v2gRow o (request o .sessionStop) s

/-- V2G_REQUEST (R188, R190): any other request, or one that does not decode. -/
def execV2gRequest (o : OutIx) (req : Option (VehReq × Bool)) (s : State) : Ans :=
  linkRow o (fun s => s.vlk[o].tcp)
    (fun s => match req with
      | some (v, err) => if s.vlk[o].layer ≠ .none then request o (.other v err) s else s
      | none => decodeFail o s) s

/-- LINK_DEGRADED (R185): the gap passes 2 s. -/
def execLinkDegraded (o : OutIx) (s : State) : Ans :=
  linkRow o (fun s => s.fl.osq[o].st.linked) (onVlk o fun v => { v with gap := max v.gap 2001 }) s

/-- LINK_LOST_TIMEOUT (R185): the gap passes seq_timeout. -/
def execLinkLostTimeout (o : OutIx) (s : State) : Ans :=
  linkRow o (fun s => s.fl.osq[o].st.linked) (onVlk o fun v => { v with gap := max v.gap (seqMs v + 1) }) s

/-! ### What a latched input set does (R185, R189, R489) -/

/-- Change what is latched of a vehicle. -/
def onVeh (o : OutIx) (f : Veh → Veh) (s : State) : State := { s with fl := { s.fl with veh := Vec.upd s.fl.veh o f } }

/-- Link loss latched. -/
def latchLost (o : OutIx) (s : State) : State :=
  if s.fl.veh[o].linkLost then s else vlkInt o 6 (onVeh o (fun v => { v with linkLost := true }) s)

/-- Values of a message: what the layer omits stays as it was latched (R60). -/
def mergeVals (old new : VehVals) : VehVals :=
  { maxVolt := new.maxVolt <|> old.maxVolt, maxCurr := new.maxCurr <|> old.maxCurr,
    maxPower := new.maxPower <|> old.maxPower, targetVolt := new.targetVolt <|> old.targetVolt,
    targetCurr := new.targetCurr <|> old.targetCurr, minVolt := new.minVolt <|> old.minVolt,
    maxDischarge := new.maxDischarge <|> old.maxDischarge, presentVolt := new.presentVolt <|> old.presentVolt,
    energyWh := new.energyWh <|> old.energyWh, departIn := new.departIn <|> old.departIn }

/-- A number in k-ths of its unit, rounded toward zero and saturated at the consumer's range (R190). (DEDUCED, entry 95.) -/
def Dec.to (k max_ : Nat) (d : Sys2Proof.Dec) : Nat :=
  let v : Int := if 0 ≤ d.e then d.m * (10 : Int) ^ d.e.toNat * k else tdiv (d.m * k) ((10 : Int) ^ (-d.e).toNat)
  min max_ v.toNat

/-- The values of a message in the units of their consumers (R190): voltages in 16 bits, currents and powers in 32,
the energy below FFFF_FFFFh. (DEDUCED, entry 95.) -/
def toVals (v : VehReq) : VehVals :=
  let volt := Dec.to 32 0xFFFF
  let wide := Dec.to 32 0xFFFFFFFF
  let pow := Dec.to 1 0xFFFFFFFF
  { maxVolt := v.maxVolt.map volt, maxCurr := v.maxCurr.map wide, maxPower := v.maxPower.map pow,
    targetVolt := v.targetVolt.map volt, targetCurr := v.targetCurr.map wide, minVolt := v.minVolt.map volt,
    maxDischarge := v.maxDischarge.map pow, presentVolt := v.presentVolt.map volt,
    energyWh := v.energyWh.map (Dec.to 1 0xFFFFFFFE), departIn := v.departIn.map (Dec.to 1 0xFFFFFFFF) }

/-- Latch the values of a message, with the departure as RTC seconds (R190). -/
def latchVals (o : OutIx) (r : VehReq) (s : State) : State :=
  let v := toVals r
  onVeh o (fun x => { x with v := mergeVals x.v v,
                             departAt := match v.departIn with
                               | some d => some (min 0xFFFFFFFF (rtcSec s + d)) | none => x.departAt }) s

/-- What a PROTO copy carries (R193). -/
def protoOf (s : State) : Proto :=
  let port (v : Vlk) : ProtoPort :=
    { matched := v.matched, nmk := v.nmk, tcp := v.tcp, tls := v.tls, session := v.session, layer := v.layer, sdp := v.sdp }
  { ports := s.vlk.map port, runs := s.slac }

/-- A run of the copy with the sounds that the follower heard itself. -/
def ownSounds (s : State) (r : SlacRun) : SlacRun :=
  match runOf s r.mac r.runId with
  | some x => { r with sounds := x.sounds }
  | none => r

/-- Hold a PROTO copy (R193). -/
def takeProto (p : Proto) (s : State) : State :=
  let port (o : Fin 32) (v : Vlk) : Vlk :=
    let x := p.ports[o]
    { v with matched := x.matched, nmk := x.nmk, tcp := x.tcp, tls := x.tls, session := x.session, layer := x.layer, sdp := x.sdp }
  let own := s.slac.filter fun r => !p.runs.any fun x => x.mac = r.mac && x.runId = r.runId
  { s with vlk := Vec.mapIx s.vlk port, slac := p.runs.map (ownSounds s) ++ own.filter fun r => r.bound.isNone }

/-- The runs whose window is open at a take-over are void (R194). -/
def voidRuns (s : State) : State :=
  { s with slac := s.slac.map fun r => if r.opened && !r.closed then { r with void := true } else r }

/-- The identity record of R191. -/
def identityRecord (v : Vlk) (chain signed : List Byte) : List Byte :=
  let layer := match v.layer with | .none => 0 | .din70121 => 1 | .iso2 => 2 | .iso20 => 3
  let c := chain.take 8116
  let sg := signed.take (8116 - c.length)
  let id := v.evccid.take 64
  leBytes 2 (76 + c.length + sg.length) ++ leBytes 1 layer ++ leBytes 1 (if c = [] then 1 else 2) ++
    leBytes 1 id.length ++ [0] ++ id ++ List.replicate (64 - id.length) 0 ++ leBytes 2 c.length ++ leBytes 2 sg.length ++
    [0, 0] ++ c ++ sg

/-- Latch one message (R189, R191, R489): the events and values, and the request that waits for its response. -/
def latchVehicle (o : OutIx) (m : VehMsg) (s : State) : State :=
  let req (k : ReqKind) (s : State) : State := onVlk o (fun v => { v with req := some k }) s
  match m with
  | .sessionSetup ev =>
    let s := onVlk o (fun v => { v with evccid := ev.take 64, preSeen := false, bpt := false, dynamic := false }) s
    req .sessionSetup (onVeh o (fun v => { v with bound := true, ccReq := false, ready := false, closed := false,
                                                  stop := false, err := false, linkLost := false }) s)
  | .chargeParameters v ready err bpt dyn =>
    let cfg := s.vlk[o].sessCfg
    let is20 := s.vlk[o].layer = .iso20
    let s := onVlk o (fun x => { x with bpt := bpt && cfg.getLsbD 27 && is20, dynamic := dyn && is20 }) s
    req .parameters (latchVals o v (onVeh o (fun x =>
      { x with ready := x.ready || (ready && !err), err := x.err || err, bpt := bpt && cfg.getLsbD 27 && is20,
               dynamic := dyn && is20 }) s))
  | .authorization chain signed =>
    let s := req .authorization s
    if s.vlk[o].authSeen then s
    else
      let s := onVlk o (fun v => { v with authSeen := true, contract := chain ≠ [] }) s
      let s := lndWrite (identityBase o) (identityRecord s.vlk[o] chain signed) s
      let q := s.fl.osq[o]
      vlkInt o 4 (osqInt o 5 (mbxPut o q (s.fn + 1) 4 q.st q.st 0 [0x10000 + 0x2000 * o.val]
        { s with fl := { s.fl with osq := Vec.upd s.fl.osq o fun q => { q with authFn := some s.fn } } }))
  | .cableCheck => req .cableCheck (onVeh o (fun v => { v with ccReq := true }) s)
  | .preCharge v => req .preCharge (latchVals o v (onVlk o (fun x => { x with preSeen := true }) s))
  | .powerDelivery start =>
    req .other (onVeh o (fun v => if start then { v with closed := v.closed || s.vlk[o].preSeen }
                                  else { v with stop := true }) s)
  | .sessionStop => req .other (onVeh o (fun v => { v with stop := true }) s)
  | .other v err => req .other (latchVals o v (onVeh o (fun x => { x with err := x.err || err }) s))
  | .linkLost => latchLost o s
  | .slacClosed mac id att => slacDecide mac id att s
  | .slacMatch mac id =>
    match runOf s mac id with
    | some r =>
      if r.bound ≠ some o || s.vlk[o].matched then s
      else if isLead s then
        let (ix, s) := s.fresh
        onVlk o (fun v => { v with matched := true, nmk := (Config.trng ix).setWidth 128 }) s
      else s
    | none => s

/-- The link conditions as a boundary captures them. -/
def linkIn (s : State) (o : OutIx) : LinkIn :=
  let v := s.vlk[o]
  { up := portOn s o && (if s.map.out[o].link = 1 then v.t1sUp else plc s o),
    slac := s.fl.osq[o].st = .plugged && s.slac.any (fun r => r.bound.isNone && r.cands.getLsbD o.val),
    matched := v.matched, tcp := v.tcp, session := v.session, tls := v.tls, layer := v.layer, slotOk := tlsReady s o,
    gap := v.gap, retrans := v.retrans, decodeErr := v.decodeErr }

/-- The link gap at a boundary (R185): it runs only in ASSOCIATED to HOLD. (DEDUCED, entry 29.) -/
def gapTick (o : OutIx) (s : State) : State :=
  onVlk o (fun v => { v with gap := if s.fl.osq[o].st.linked then v.gap + 1 else 0 }) s

/-- Latch the link conditions of a port (R185, R195, R488). -/
def latchLink (o : OutIx) (s : State) : State :=
  let l := s.lat.levels.link[o]
  let deg := decide (2000 < l.gap) && s.fl.osq[o].st.linked
  let old := s.fl.veh[o]
  let enter := deg && !old.degraded
  let s := onVeh o (fun v => { v with
    link := l, degraded := deg, retrans := min 255 (v.retrans + (l.retrans - old.link.retrans)),
    decodeErr := min 255 (v.decodeErr + (l.decodeErr - old.link.decodeErr)) }) s
  let s := if l.up && !old.link.up then vlkInt o 0 s else s
  let s := onVlk o (fun v => { v with longGap := max v.longGap (min 255 (l.gap / 100)),
                                      degradedCnt := if enter then min 255 (v.degradedCnt + 1) else v.degradedCnt }) s
  let s := if enter then vlkInt o 5 s else s
  if decide (seqMs s.vlk[o] < l.gap) && s.fl.osq[o].st.linked then latchLost o s else s

/-- PLUGGED takes effect (R183, R195, R489), or the outlet has no session: the settings of the next session apply. -/
def sessionStart (o : OutIx) (s : State) : State :=
  let q := s.fl.osq[o]
  let s := if q.st = .idle ∨ q.st = .outOfService ∨ (q.st = .plugged ∧ q.stFn = s.fn) then
      onVlk o (fun v => { v with sessCfg := v.cfg, sessLink := v.linkCfg }) s else s
  if q.st = .plugged ∧ q.stFn = s.fn then
    let s := { s with slac := (s.slac.filter fun r => r.bound ≠ some o).map fun r => { r with cands := clrBit r.cands o.val } }
    onVeh o (fun v => { v with bound := false, ccReq := false, ready := false, closed := false, stop := false,
                               err := false, linkLost := false, bpt := false, dynamic := false, v := {},
                               departAt := none, degraded := false, retrans := 0, decodeErr := 0 })
      (onVlk o (fun v => { v with degradedCnt := 0, longGap := 0, attempts := 0,
                                  slacResult := 0, takeover := false, authSeen := false, contract := false, preSeen := false }) s)
  else s

/-- VLK_LINK_RESET (R196): the latched command closes TCP and the session, and the link is lost. -/
def linkReset (o : OutIx) (s : State) : State :=
  let s := onVlk o (fun v => { v with tcp := false, tls := false, session := false, layer := .none }) s
  let s := latchLost o s
  { s with nx := { s.nx with veh := Vec.upd s.nx.veh o fun v => { v with linkLost := true } } }

/-- VLK_LINK_RESET (R196). -/
def execVlkLinkReset (o : OutIx) (s : State) : Ans := whenOn s.isl.com s (linkReset o)

/-! ### Responses (R189, R190, R490) -/

/-- The kind of the response to a request: PreChargeReq is answered Ready only in a pre-charge whose guards hold (R159,
R189). -/
def respKind (s : State) (o : OutIx) (k : ReqKind) : RespKind :=
  let q := s.nx.osq[o]
  if q.causes ≠ 0 || q.st = .weldCheck || q.st = .rampDown then .stopNotify
  else match k with
    | .cableCheck => if s.fl.osq[o].st = .precharge || s.fl.osq[o].st = .energy then .finished else .ongoing
    | .preCharge =>
      if q.mayClose && (q.st = .precharge || q.st = .energy) then .ready
      else if s.vlk[o].layer = .iso20 then .ongoing else .notReady
    | .authorization => if q.st = .associated then .ongoing else .finished
    | _ => .plain

/-- The one schedule that a response with charge parameters offers (R186): in ISO 15118-2, and in the Scheduled mode of
ISO 15118-20. -/
def schedOf (s : State) (o : OutIx) (k : ReqKind) : Option Nat :=
  let v := s.vlk[o]
  if k = .parameters && (v.layer = .iso2 || (v.layer = .iso20 && !v.dynamic)) then some s.map.out[o].pCeil else none

/-- Build the response of a port whose request was latched in this frame. -/
def respond (s : State) (o : OutIx) : State :=
  match s.vlk[o].req with
  | none => s
  | some k =>
    let (ix, s) := s.fresh
    let v := match vCab s o with | some v => v | none => Config.freeNat ix
    let i := (settledOn s.fl o).foldl (fun a c => a + s.ctl.unitS[c].meas.iOut) 0
    let p := s.nx.plan.outs[o]
    onVlk o (fun x => { x with
      req := none,
      resp := { fn := s.fn, presentV := v, presentI := i, maxI := p.iCeil, maxP := p.budget.natAbs,
                maxV := s.map.out[o].vCeil, st := s.nx.osq[o].st, kind := respKind s o k, schedule := schedOf s o k } }) s

end Sys2Proof.Machine
end

