-- ==== Sys2Proof/Machine/Firmware.lean ====
section
/-! DEFINITION. Firmware update (chapter 16): the service port, the image, the states of R392, schedule and vote,
activation, revert and commit. -/

namespace Sys2Proof.Machine

/-- Change the block. -/
def onFwu (f : Fwu → Fwu) (s : State) : State := { s with fwu := f s.fwu }

/-- The code of a state (R392). -/
def FwSt.code : FwSt → Nat
  | .idle => 0 | .receiving => 1 | .staged => 2 | .writing => 3 | .verified => 4 | .scheduled => 5 | .activating => 6
  | .trial => 7 | .reverted => 8 | .failed => 9

/-- A change of state, an event of rank 14 (R392): `b` is its bit of FWU_INT_STATUS, none where it has no bit. -/
def fwuGo (st : FwSt) (b : Option Nat) (s : State) : State :=
  let s := onFwu (fun f => { f with st := st, intStatus := match b with | some b => setBit f.intStatus b | none => f.intStatus }) s
  raise s { rank := 14, code := match b with | some b => b + 1 | none => 0, data := st.code }

/-- An event of rank 14 without a change of state. -/
def fwuNote (b : Nat) (s : State) : State :=
  raise (onFwu (fun f => { f with intStatus := setBit f.intStatus b }) s) { rank := 14, code := b + 1 }

/-! ### Service port and block protocol (R387, R388) -/

/-- The port is enabled (R401). -/
def svcOn (s : State) : Bool := s.fwu.svcIp ≠ 0

/-- A packet at the port, whose link is up then: dropped while the port is disabled. -/
def svcPacket (s : State) (f : State → State) : Ans :=
  whenOn s.isl.met s fun s =>
    let s := onFwu (fun f => { f with svcUp := true }) s
    if svcOn s then f s else onFwu (fun f => { f with svcDrops := f.svcDrops + 1 }) s

/-- The MAC address (R387). -/
def svcMac (s : State) : List Byte := 0x02 :: ((serialBytes s).drop 5).take 5

/-- SVC_ARP (R387). -/
def execSvcArp (ip : BitVec 32) (s : State) : Ans :=
  svcPacket s fun s => if ip = s.fwu.svcIp then onFwu (fun f => { f with svcOut := some (1, svcMac s) }) s else s

/-- SVC_ICMP_ECHO (R387). -/
def execSvcIcmpEcho (ip : BitVec 32) (payload : List Byte) (s : State) : Ans :=
  svcPacket s fun s => if ip = s.fwu.svcIp then onFwu (fun f => { f with svcOut := some (2, payload) }) s else s

/-- Blocks held. -/
def blocksHeld (f : Fwu) : Nat := ((List.range 4096).filter fun i => f.held.getLsbD i).length

/-- FWU_STATUS (R402). -/
def fwuStatus (f : Fwu) : Nat := f.st.code + 16 * f.reason + 4096 * bit f.sess.isSome + 8192 * bit f.window.isSome

/-- FWU_BLOCKS (R401). -/
def fwuBlocks (f : Fwu) : Nat := blocksHeld f + 65536 * f.blocks

/-- The STATE packet's payload. -/
def stateAnswer (s : State) : State :=
  onFwu (fun f => { f with stateOut := leBytes 4 (fwuStatus f) ++ leBytes 4 (fwuBlocks f) ++ leBytes 512 f.held.toNat }) s

/-- An acknowledgement. -/
def fwuAck (n status : Nat) (s : State) : State := onFwu (fun f => { f with ack := some (n, status) }) s

/-- FWU_OPEN (R388): a new session; it resumes what is held. -/
def fwuOpen (sess : BitVec 16) (blocks : Nat) (s : State) : State :=
  let s := onFwu (fun f => { f with sess := some sess }) s
  if s.fwu.st = .idle then fwuGo .receiving none (onFwu (fun f => { f with blocks := min 4096 blocks }) s) else s

/-- FWU_OPEN (R388). -/
def execFwuOpen (sess : BitVec 16) (_manLen blocks : Nat) (s : State) : Ans := svcPacket s (fwuOpen sess blocks)

/-- FWU_MANIFEST (R388): the same manifest resumes, another is refused until discard. -/
def fwuManifest (sess : BitVec 16) (image : List Byte) (s : State) : State :=
  if s.fwu.sess ≠ some sess then fwuAck 0 3 s
  else if s.fwu.manifest = [] then onFwu (fun f => { f with manifest := image }) s
  else if Config.sha384 image = Config.sha384 s.fwu.manifest then stateAnswer s
  else fwuAck 0 4 (onFwu (fun f => { f with sess := none }) s)

/-- FWU_MANIFEST (R388). -/
def execFwuManifest (sess : BitVec 16) (image : List Byte) (s : State) : Ans := svcPacket s (fwuManifest sess image)

/-- The quarters held of a block. -/
def quartersOf (f : Fwu) (n : Nat) : BitVec 4 := match f.quarters.find? (·.1 = n) with | some x => x.2 | none => 0

/-- A quarter of a block is staged; the fourth decides (R388). -/
def fwuQuarter (n : Nat) (q : Fin 4) (crc : BitVec 32) (data : List Byte) (s : State) : State :=
  let got := setBit (quartersOf s.fwu n) q.val
  let s := lndWrite (fwBase + 4096 * n + 1024 * q.val) data s
  let rest := s.fwu.quarters.filter (·.1 ≠ n)
  if got ≠ 0xF then onFwu (fun f => { f with quarters := (n, got) :: rest }) s
  else
    let s := onFwu (fun f => { f with quarters := rest }) s
    if crc32c (lndRead (fwBase + 4096 * n) 4096 s) = crc then
      let s := fwuAck n 0 (onFwu (fun f => { f with held := setBit f.held n }) s)
      if blocksHeld s.fwu = s.fwu.blocks then fwuGo .staged (some 0) s else s
    else fwuAck n 1 (onFwu (fun f => { f with crcErrs := f.crcErrs + 1 }) s)

/-- FWU_BLOCK (R388). -/
def fwuBlock (sess : BitVec 16) (n : Nat) (q : Fin 4) (crc : BitVec 32) (data : List Byte) (s : State) : State :=
  if s.fwu.sess ≠ some sess then fwuAck n 3 s
  else if s.fwu.blocks ≤ n then fwuAck n 2 s
  else if s.fwu.held.getLsbD n then fwuAck n 5 (onFwu (fun f => { f with dups := f.dups + 1 }) s)
  else if s.fwu.st ≠ .receiving then fwuAck n 4 s
  else if data.length ≠ 1024 then onFwu (fun f => { f with svcDrops := f.svcDrops + 1 }) s
  else fwuQuarter n q crc data s

/-- FWU_BLOCK (R388). -/
def execFwuBlock (sess : BitVec 16) (n : Nat) (q : Fin 4) (crc : BitVec 32) (data : List Byte) (s : State) : Ans :=
  svcPacket s (fwuBlock sess n q crc data)

/-- FWU_QUERY (R388). -/
def execFwuQuery (sess : BitVec 16) (s : State) : Ans :=
  svcPacket s fun s => if s.fwu.sess = some sess then stateAnswer s else fwuAck 0 3 s

/-- FWU_CLOSE (R388). -/
def execFwuClose (sess : BitVec 16) (s : State) : Ans :=
  svcPacket s fun s => if s.fwu.sess = some sess then onFwu (fun f => { f with sess := none }) s else fwuAck 0 3 s

/-- FWU_SESSION_TIMEOUT (R388): 30 s idle; the blocks are kept. -/
def execFwuSessionTimeout (s : State) : Ans := .next (onFwu (fun f => { f with sess := none }) s)

/-- Drop the staged blocks. -/
def dropStaged (s : State) : State :=
  onFwu (fun f => { f with sess := none, blocks := 0, manifest := [], quarters := [], held := 0, reason := 0, target := none,
                           resealed := false, inactiveOk := false, hwdWant := none }) s

/-- FWU_DISCARD (R402): the session and the staged blocks, where no write, schedule or activation stands on them. (DESIGN CHOICE, entry 111.) -/
def fwuDiscard (s : State) : State :=
  match s.fwu.st with
  | .writing => s | .scheduled => s | .activating => s | .trial => s
  | .idle => dropStaged s
  | _ => fwuGo .idle none (dropStaged s)

/-- FWU_DISCARD (R402). -/
def execFwuDiscard (s : State) : Ans := whenOn s.isl.ctl s fwuDiscard

/-! ### The image (R389, R390) -/

/-- A field of a manifest. -/
def manNat (m : List Byte) (off n : Nat) : Nat := leNat ((m.drop off).take n)

/-- The measurements of a manifest, bytes 80 to 463. -/
def manMeas (m : List Byte) : Vector (List Byte) 8 := Vector.ofFn fun k => (m.drop (80 + 48 * k.val)).take 48

/-- The staged blocks in index order. -/
def stagedImage (s : State) : List Byte := lndRead fwBase (4096 * s.fwu.blocks) s

/-- The checks of R390 steps 2 to 5: the reason of the first that fails. -/
def imageFault (s : State) : Option Nat :=
  let m := s.fwu.manifest
  let img := stagedImage s
  if lndPoison fwBase (4096 * s.fwu.blocks) s || hashBytes (Config.sha384 img) ≠ (m.drop 32).take 48 then some 1
  else if !Config.ecdsaVerify Config.trelaupolKey (m.take 480) ((m.drop 480).take 96) then some 2
  else if s.fwu.opKey ≠ [] && !Config.ecdsaVerify s.fwu.opKey (m.take 576) ((m.drop 576).take 96) then some 3
  else if manNat m 20 2 ≠ 0xB0 then some 4
  else if manNat m 8 4 < s.fwu.floor then some 5
  else none

/-- FWU_WRITE (R390). -/
def fwuWrite (s : State) : State :=
  if s.fwu.st ≠ .staged then s
  else
    let s := eccRead fwBase (4096 * s.fwu.blocks) s
    match imageFault s with
    | some r => fwuGo .failed (some 2) (onFwu (fun f => { f with reason := r }) s)
    | none => fwuGo .writing none (onFwu (fun f => { f with inactiveOk := false, reason := 0 }) s)

/-- FWU_WRITE (R390). -/
def execFwuWrite (s : State) : Ans := whenOn s.isl.ctl s fwuWrite

/-- Store an image in the inactive slot. -/
def putSlot (x : FwSlot) (f : Fwu) : Fwu := if f.running then { f with slot0 := x } else { f with slot1 := x }

/-- The image of a slot. -/
def slotOf (f : Fwu) (b : Bool) : FwSlot := if b then f.slot1 else f.slot0

/-- FWU_WRITE_DONE (R390): VERIFIED with the reseal target, or FAILED with its reason. (DEDUCED, entry 50.) -/
def fwuWriteDone (r : FlashEnd) (s : State) : State :=
  if s.fwu.st ≠ .writing then s
  else match r with
    | .verified =>
      let x : FwSlot := { manifest := s.fwu.manifest, image := stagedImage s }
      fwuGo .verified (some 1) (onFwu (fun f => { putSlot x f with inactiveOk := true, target := some (manMeas f.manifest), resealed := false }) s)
    | .writeFailed => fwuGo .failed (some 2) (onFwu (fun f => { f with reason := 6 }) s)
    | .readBackFailed => fwuGo .failed (some 2) (onFwu (fun f => { f with reason := 7 }) s)

/-- FWU_WRITE_DONE (R390). -/
def execFwuWriteDone (r : FlashEnd) (s : State) : Ans := whenOn s.isl.ctl s (fwuWriteDone r)

/-! ### Refusal, schedule and vote (R393 to R396) -/

/-- The package belongs to a pair. -/
def paired (s : State) : Bool := s.tdm.st = .lead || s.tdm.st = .follow

/-- The package's own conditions (R393). -/
def ownLocal (s : State) : FwuLocal :=
  { vbatLow := decide (s.live.vbatMv < 2600), notVerified := !(s.fwu.st = .verified || s.fwu.st = .scheduled),
    notResealed := !s.fwu.resealed, hash := Config.sha384 s.fwu.manifest }

/-- The conditions of R393 but for bit [8], from the latched set: the lead's own and, in a pair, the follower's, which
count as not VERIFIED in a frame whose set holds none; `vote` tests bit [6] too. (DESIGN CHOICE, entry 110.) -/
def fwuRefuseBits (vote : Bool) (actFn latchFn : Nat) (s : State) : BitVec 9 :=
  let st (o : OutIx) : OSt := s.fl.osq[o].st
  let own := s.lat.levels.fwuOwn
  let p := s.fwu.partner.getD {}
  let pr := paired s
  let b0 := (List.finRange 32).any fun o => st o = .cableCheck || st o = .precharge || st o = .energy || (st o).shutdown
  let b2 := (List.finRange 32).any fun o =>
    !interlock s o && !(st o = .idle || st o = .fault || st o = .outOfService)
  let bits := bit b0 + 2 * bit s.lat.levels.brakeOn + 4 * bit b2 + 8 * bit (s.lat.levels.vbatMv < 2600 || (pr && p.vbatLow)) +
    16 * bit s.fwu.ownerLock + 32 * bit (own.notVerified || (pr && (p.notVerified || decide (p.hash ≠ own.hash)))) +
    64 * bit (vote && (own.notResealed || (pr && p.notResealed))) + 128 * bit (actFn < latchFn + 1000)
  BitVec.ofNat 9 bits

/-- The reseal that a schedule starts (R392): none is needed again for the same manifest (R396). -/
def fwuReseal (s : State) : State := if s.fwu.resealed then s else hwdAsk 5 s

/-- FWU_SCHEDULE, latched in the frame in progress (R393, R394). -/
def fwuSchedule (s : State) : State :=
  let act := s.fwu.actLo.toNat + 2 ^ 32 * s.fwu.actHi.toNat
  let bits := fwuRefuseBits false act s.fn s
  if s.fwu.st ≠ .verified then refuse 0xF0004 s
  else if bits ≠ 0 then fwuNote 4 (refuse 0xF0004 (onFwu (fun f => { f with refuse := bits }) s))
  else
    let lim := max 1 (field s.fwu.sched.toNat 24 8)
    let s := onFwu (fun f => { f with
      refuse := 0, actFn := act, latchFn := s.fn, attempt := 0, limit := lim, decided := false, ownGo := false, go := 0,
      nogo := 0, revertVotes := 0, voteOut := none }) s
    fwuReseal (fwuGo .scheduled (some 3) s)

/-- FWU_SCHEDULE (R394). -/
def execFwuSchedule (s : State) : Ans := whenOn s.isl.ctl s fwuSchedule

/-- FWU_CANCEL (R402): ignored from D on. -/
def fwuCancel (s : State) : State :=
  if s.fwu.st = .scheduled && decide (s.fn + 1 < s.fwu.actFn) then fwuGo .verified none s else s

/-- FWU_CANCEL (R402). -/
def execFwuCancel (s : State) : Ans := whenOn s.isl.ctl s fwuCancel

/-- The group, the unit's index and the group's size (R402). -/
def groupId (f : Fwu) : BitVec 16 := f.group.setWidth 16
def unitIx (f : Fwu) : Fin 8 := ⟨field f.group.toNat 16 3, Nat.mod_lt _ (by decide)⟩
def groupSize (f : Fwu) : Nat := field f.group.toNat 19 3 + 1

/-- FWU_VOTE (R395), in frame V. -/
def fwuVote (s : State) : State :=
  if s.fwu.st ≠ .scheduled || s.fn + 200 ≠ s.fwu.actFn then s
  else
    let bits := fwuRefuseBits true s.fwu.actFn s.fwu.latchFn s
    let go := bits = 0
    let u := unitIx s.fwu
    let v : Vote := { group := groupId s.fwu, unit := u, attempt := BitVec.ofNat 8 s.fwu.attempt, fnAct := s.fwu.actFn, go := go }
    onFwu (fun f => { f with refuse := bits, ownGo := go, voteOut := some v,
                             go := if go then setBit f.go u.val else f.go, nogo := if go then f.nogo else setBit f.nogo u.val }) s

/-- FWU_VOTE (R395). -/
def execFwuVote (s : State) : Ans := whenOn s.isl.ctl s fwuVote

/-- FWU_VOTE_RECEIVE (R395): the lead captures the vote. -/
def execFwuVoteReceive (v : Vote) (s : State) : Ans :=
  svcPacket s fun s => { s with arrived := s.arrived ++ [.vote v] }

/-- A latched vote (R395, R398): another group or attempt is ignored. -/
def latchVote (v : Vote) (s : State) : State :=
  if v.group ≠ groupId s.fwu || v.attempt.toNat ≠ s.fwu.attempt % 256 then s
  else
    let s := onFwu (fun f => { f with
      go := if v.go then setBit f.go v.unit.val else f.go, nogo := if v.go then f.nogo else setBit f.nogo v.unit.val,
      revertVotes := if v.revert then setBit f.revertVotes v.unit.val else f.revertVotes }) s
    if v.revert && (s.fwu.st = .activating || s.fwu.st = .trial) then
      onFwu (fun f => { f with revertPend := some (f.revertPend.getD (5, false)) }) s
    else s

/-- FWU_DECISION (R395, R396), in frame D. -/
def fwuDecision (s : State) : State :=
  if s.fwu.st ≠ .scheduled || s.fn + 1 ≠ s.fwu.actFn then s
  else if (List.range (groupSize s.fwu)).all fun i => s.fwu.go.getLsbD i then
    onFwu (fun f => { f with decided := true, refuse := clrBit f.refuse 8 }) s
  else
    let retry := 1000 * max 10 (field s.fwu.sched.toNat 16 8)
    let s := onFwu (fun f => { f with
      refuse := setBit f.refuse 8, actFn := f.actFn + retry, attempt := f.attempt + 1, ownGo := false, go := 0, nogo := 0,
      voteOut := none }) s
    if s.fwu.limit ≤ s.fwu.attempt then fwuGo .verified none s else fwuNote 5 s

/-- FWU_DECISION (R395). -/
def execFwuDecision (s : State) : Ans := whenOn s.isl.ctl s fwuDecision

/-! ### Activation, revert and commit (R397 to R399) -/

/-- The cores restart from a slot: the measurements, the slots as the new start finds them (R372), the window. -/
def coresRestart (slot : Bool) (resume : Nat) (s : State) : State :=
  let m := (slotOf s.fwu slot).manifest
  let s := onFwu (fun f => { f with running := slot, window := some resume }) { s with slac := [] }
  slotCheck (onHwd (fun h => { h with meas := if m = [] then h.meas else manMeas m }) s)

/-- FWU_ACTIVATE (R397), in frame FN_act. -/
def fwuActivate (s : State) : State :=
  if s.fwu.st ≠ .scheduled || !s.fwu.decided || s.fn ≠ s.fwu.actFn then s
  else
    let s := onFwu (fun f => { f with
      report := none, latOwn := none, latPartner := none, revertPend := none, decided := false, resumeAt := none }) s
    fwuGo .activating (some 6) (coresRestart (!s.fwu.running) (s.fwu.actFn + 150) s)

/-- FWU_ACTIVATE (R397). -/
def execFwuActivate (s : State) : Ans := whenOn s.isl.ctl s fwuActivate

/-- FWU_READY_REPORT (R398): the report takes the non-loop path; not ready reverts this package at the next boundary. -/
def fwuReport (ready : Bool) (reason : Nat) (s : State) : State :=
  if s.fwu.st ≠ .activating then s
  else
    let s := onFwu (fun f => { f with
      report := some (ready, reason), revertPend := if ready then f.revertPend else some (reason, false),
      restartMs := min 255 (s.fn - f.actFn) }) s
    { s with arrived := s.arrived ++ [.fwuReport (isLead s) ready reason] }

/-- FWU_READY_REPORT (R398). -/
def execFwuReadyReport (ready : Bool) (reason : Nat) (s : State) : Ans := whenOn s.isl.ctl s (fwuReport ready reason)

/-- The frame to which a report that is not ready holds the sequencers (R398): 150 frames after the lead's revert
boundary, which opened the frame before for the lead's own report and opens the next frame for the follower's. -/
def holdTo (lead ready : Bool) (s : State) : State :=
  let r := if lead then s.fn + 149 else s.fn + 151
  if ready || (s.fwu.st ≠ .activating && s.fwu.st ≠ .reverted) then s
  else onFwu (fun f =>
    let r := match f.resumeAt with | some a => min a r | none => r
    { f with resumeAt := some r, window := if f.st = .reverted && f.window.isSome then some r else f.window }) s

/-- A latched report (R398): not ready of the partner reverts this package at the next boundary. -/
def latchReport (lead ready : Bool) (reason : Nat) (s : State) : State :=
  let s := holdTo lead ready s
  if lead = isLead s then onFwu (fun f => { f with latOwn := some ready }) s
  else
    onFwu (fun f => { f with
      latPartner := some ready,
      revertPend := if ready || f.st ≠ .activating then f.revertPend else some (f.revertPend.getD (reason, true)) }) s

/-- A follower's local conditions as latched (R393). -/
def latchLocal (l : FwuLocal) (s : State) : State := onFwu (fun f => { f with partner := some l }) s

/-- The revert (R398): the old image restarts; the sequencers stay held for 150 frames. -/
def fwuRevert (reason : Nat) (byPartner : Bool) (s : State) : State :=
  if s.fwu.st ≠ .activating && s.fwu.st ≠ .trial then onFwu (fun f => { f with revertPend := none }) s
  else
    let v : Vote := { group := groupId s.fwu, unit := unitIx s.fwu, attempt := BitVec.ofNat 8 s.fwu.attempt, fnAct := s.fwu.actFn,
                      go := false, revert := true }
    let s := onFwu (fun f => { f with revertPend := none, revertReason := reason, revertByPartner := byPartner, voteOut := some v }) s
    fwuGo .reverted (some 8) (coresRestart (!s.fwu.running) (s.fwu.resumeAt.getD (s.fn + 150)) s)

/-- A pending revert takes place at a boundary (R398). -/
def fwuRevertStep (s : State) : State := match s.fwu.revertPend with | some (r, p) => fwuRevert r p s | none => s

/-- FWU_AUTO_REVERT (R398). -/
def execFwuAutoRevert (s : State) : Ans := whenOn s.isl.ctl s fwuRevertStep

/-- FWU_REVERT_CMD (R398): in TRIAL, at the next boundary. -/
def fwuRevertCmd (s : State) : State :=
  if s.fwu.st = .trial then onFwu (fun f => { f with revertPend := some (4, false) }) s else s

/-- FWU_REVERT_CMD (R398). -/
def execFwuRevertCmd (s : State) : Ans := whenOn s.isl.ctl s fwuRevertCmd

/-- The commit frame (R399). -/
def commitFrame (f : Fwu) : Nat := f.actFn + 1000 * max 1 (field f.sched.toNat 0 16) - 1

/-- The boot record with the higher sequence (R391). -/
def bootRec (f : Fwu) : Option BootRec :=
  match f.rec0, f.rec1 with
  | some a, some b => if a.seq < b.seq then some b else some a
  | some a, none => some a
  | none, b => b

/-- FWU_COMMIT (R399): decided in the frame before FN_act + commit_delay, effective at its boundary. -/
def fwuCommit (s : State) : State :=
  if s.fwu.st ≠ .trial || s.fn ≠ commitFrame s.fwu then s else onFwu (fun f => { f with commitDue := true }) s

/-- A decided commit takes effect at a boundary, unless the unit reverts there: the boot record with pending-commit,
then RESEAL_COMMIT, whose end clears it (R399). -/
def fwuCommitStep (s : State) : State :=
  let due := s.fwu.commitDue
  let s := onFwu (fun f => { f with commitDue := false }) s
  if !due || s.fwu.st ≠ .trial then s
  else
    let m := (slotOf s.fwu s.fwu.running).manifest
    let old := bootRec s.fwu
    let fl := max s.fwu.floor (manNat m 12 4)
    let r : BootRec :=
      { slot := s.fwu.running, seq := ((old.map (·.seq)).getD 0) + 1, hash := hashBytes (Config.sha384 m), floor := fl, pendCommit := true }
    let low := match s.fwu.rec0, s.fwu.rec1 with | some a, some b => decide (b.seq ≤ a.seq) | some _, none => true | none, _ => false
    let s := onFwu (fun f => if low then { f with rec1 := some r } else { f with rec0 := some r }) s
    let s := onFwu (fun f => { f with floor := fl, commitFn := s.fn }) s
    fwuGo .idle (some 9) (hwdAsk 6 (dropStaged s))

/-- FWU_COMMIT (R399). -/
def execFwuCommit (s : State) : Ans := whenOn s.isl.ctl s fwuCommit

/-! ### Owner lock and operator key (R400) -/

/-- FWU_OWNER_LOCK (R400). -/
def execFwuOwnerLock (set : Bool) (s : State) : Ans := whenOn s.isl.ctl s (onFwu fun f => { f with ownerLock := set })

/-- FWU_OPKEY_WRITE (R400): the key, 96 bytes, then the signature by the current key. -/
def opkeyWrite (s : State) : State :=
  let buf := lndRead fwBase 192 s
  let key := buf.take 96
  let ok := s.fwu.opKey = [] || Config.ecdsaVerify s.fwu.opKey key (buf.drop 96)
  onFwu (fun f => if ok then { f with opKey := if key.all (· = 0) then [] else key, opKeyCrcBad := false, opKeyRefused := false }
                  else { f with opKeyRefused := true }) (eccRead fwBase 192 s)

/-- FWU_OPKEY_WRITE (R400). -/
def execFwuOpkeyWrite (s : State) : Ans := whenOn s.isl.ctl s opkeyWrite

end Sys2Proof.Machine
end

