-- ==== Sys2Proof/Machine/Tandem.lean ====
section
/-! DEFINITION. Tandem operation (chapter 11): markers, heartbeats and packets, the transitions of R281 found in step 7,
and what they do at the next boundary. -/

namespace Sys2Proof.Machine

/-- Change the block. -/
def onTdm (f : Tdm → Tdm) (s : State) : State := { s with tdm := f s.tdm }

/-- Set a bit of TDM_INT_STATUS, with the event of rank 3 that carries it (R281, R442). -/
def tdmEvent (b data : Nat) (s : State) : State :=
  raise (onTdm (fun t => { t with intStatus := setBit t.intStatus b }) s) { rank := 3, code := b + 1, data := data }

/-- The code of a state (R280). -/
def TSt.code : TSt → Nat
  | .single => 0 | .wait => 1 | .sync => 2 | .follow => 3 | .lead => 4 | .reseed => 5 | .isolated => 6 | .faulted => 7

/-- The package computes frames for the site: it holds a current state (R27, R280, R295, R428). -/
def computes (s : State) : Bool :=
  s.tdm.st = .single || s.tdm.st = .lead || s.tdm.st = .follow || ((s.tdm.st = .reseed || s.tdm.st = .sync) && s.tdm.reached)

/-- The preference in force: none where the straps conflict (R278, R279). (DEDUCED, entry 48.) -/
def prefOf (s : State) : Nat := if s.tdm.strapConflict then 0 else s.map.tandem.pref

/-- This package is preferred. -/
def preferred (s : State) : Bool := (prefOf s = 1 && !s.tdm.identity) || (prefOf s = 2 && s.tdm.identity)

/-- The hash of the active map as it goes out. -/
def ownHash (s : State) : List Byte := (s.smp.activeHash ++ List.replicate 48 0).take 48

/-- The measurement of the running firmware that PAIR carries: the hash over MEAS_0 to MEAS_7. -/
def ownMeas (s : State) : BitVec 384 := Config.sha384 (s.hwd.meas.toList.map fun m => (m ++ List.replicate 48 0).take 48).flatten

/-- The TANDEM payload as loaded. -/
def ownTandem (s : State) : List Byte := match s.smp.recs.find? (·.typ = 14) with | some r => r.pay | none => []

/-! ### The bytes of the snapshot (R24, R287, R486): no rule gives the layout of its parts -/

/-- The frame-level state. -/
opaque frameLayout : FrameState → List Byte
/-- The state of a channel unit. -/
opaque unitLayout : ChUnit → List Byte
/-- The summary that a port leaves of a frame. -/
opaque sumLayout : FrameSum → List Byte
/-- The registers of a snapshot. (DESIGN CHOICE, entry 92.) -/
opaque regLayout : Snap → List Byte
/-- A copy of the protocol state (R193). (DESIGN CHOICE, entry 11.) -/
opaque protoLayout : Proto → List Byte

/-- The enqueue log of a controller (R361). -/
opaque logLayout : List CanTx → List Byte

/-- What the digest covers (R287, R361): the frame-level state with the enqueue logs, then the unit state of CLU_00 to
CLU_11. -/
def digestBytes (f : FrameState) (q : Vector Can 8) (u : Vector ChUnit 96) : List Byte :=
  frameLayout f ++ (q.toList.map fun c => logLayout c.enqLog).flatten ++ (u.toList.map unitLayout).flatten

/-- A snapshot as bytes (R486): frame-level state, unit state, summaries of F−1, registers. (DESIGN CHOICE, entry 11.) (DESIGN CHOICE, entry 92.) -/
def snapBytes (x : Snap) : List Byte :=
  digestBytes x.fl x.can x.ctl.units ++ (x.ctl.ports.toList.map fun p => sumLayout p.prev).flatten ++ regLayout x

/-- The snapshot of a state at S_F (R486). (DESIGN CHOICE, entry 92.) -/
def snapOf (s : State) : Snap :=
  { fn := s.fn, fl := s.fl, nx := s.nx, ctl := s.ctl, alc := s.alc, osqR := s.osqR, cclR := s.cclR, can := s.can,
    link := s.vlk.map fun v => (v.cfg, v.linkCfg, v.sessCfg, v.sessLink), bilCfg := s.bilR.cfg, calMap := s.bilR.calMap,
    tamperCfg := s.met.tamperCfg }

/-- The PAIR packet of the package (R285, R297). (DESIGN CHOICE, entry 96.) -/
def ownPair (s : State) : PairInfo :=
  { serial := s.otp.serial, code := ownCode s, identity := !s.tdm.strapHigh, hash := BitVec.ofNat 384 (leNat (ownHash s)),
    meas := ownMeas s, sealBits := s.lat.levels.sealAcc, tandem := ownTandem s, enabled := s.map.tandem.enable }

/-! ### The link (R282 to R285) -/

/-- LINK_TRAINING (R282). -/
def execLinkTraining (s : State) : Ans :=
  whenOn s.isl.ctl s fun s =>
    if s.map.tandem.linkMode = 0 || s.tdm.linkUp then s else tdmEvent 7 0 (onTdm (fun t => { t with linkUp := true }) s)

/-- TANDEM_LINK_DOWN (R282). -/
def execTandemLinkDown (s : State) : Ans :=
  whenOn s.isl.ctl s fun s =>
    if s.tdm.linkUp then tdmEvent 6 0 (onTdm (fun t => { t with linkUp := false, timeLock := false }) s) else s

/-- The own marker for the frame that a boundary opens (R283). -/
def ownMarker (s : State) : Marker :=
  let t := s.tdm
  { fn := s.fn, identity := t.identity, lead := isLead s, state := BitVec.ofNat 3 t.st.code, fault := t.ownFault, claim := t.claim,
    grant := t.grant, joinReq := t.joinReq, strapConflict := t.strapConflict, matchRun := t.matchRun,
    leadAge := if isLead s then t.leadAge else 0, swapFn := BitVec.ofNat 32 t.swapFn,
    hash4 := BitVec.ofNat 32 (leNat ((ownHash s).take 4)) }

/-- A follower sets its boundary from a lead's marker (R284): the correction is the arrival after its own boundary less
the one-way delay; once the boundary is locked, one above 400 ns is not applied. (DEDUCED, entry 97.) -/
def timeStep (m : Marker) (arrival : Int) (t : Tdm) : Tdm :=
  let corr := arrival - (t.rtt / 2 : Nat)
  if !m.lead || !(t.st = .follow || t.st = .sync || t.st = .reseed) then t
  else if t.timeLock && decide (400 < corr.natAbs) then { t with lockErr := t.lockErr + 1 }
  else { t with timeLock := true, skew := corr }

/-- A marker for the frame, within 5 µs of the own boundary, or any while the package has no common FN (R283). -/
def markerIn (m : Marker) (arrival : Int) (s : State) : State :=
  if s.tdm.linkUp && ((m.fn = s.fn && decide (arrival ≤ 5000)) || s.tdm.st = .wait || s.tdm.st = .isolated) then
    onTdm (fun t => timeStep m arrival { t with got := some m, everMarker := true }) s
  else s

/-- MARKER_RECEIVE (R283): the marker and its arrival in nanoseconds after the own boundary. -/
def execMarkerReceive (m : MarkerIn) (s : State) : Ans := whenOn s.isl.ctl s (markerIn m.marker m.arrival)

/-- A frame without a marker is counted once. -/
def countMissing (s : State) : State :=
  if s.tdm.missNow then s else onTdm (fun t => { t with missNow := true, missRun := t.missRun + 1, cMiss := t.cMiss + 1 }) s

/-- MARKER_MISSING (R283). -/
def execMarkerMissing (s : State) : Ans :=
  whenOn s.isl.ctl s fun s => if s.tdm.st = .single || s.tdm.got.isSome then s else countMissing s

/-- DELAY_MEASURE (R284): the round trip, at training and every 1,000 frames. -/
def execDelayMeasure (roundTrip : Nat) (s : State) : Ans :=
  whenOn s.isl.ctl s (onTdm fun t => { t with rtt := roundTrip })

/-- The package has a heartbeat bus that can send (R292, R364). -/
def hbBus (s : State) : Option CanIx := if s.map.tandem.enable then s.map.tandem.hbCan else none

/-- The first byte of a heartbeat: byte 8 of the marker (R292). -/
def hbByte (s : State) : Byte :=
  let t := s.tdm
  BitVec.ofNat 8 (bit t.identity + 2 * bit (isLead s) + 4 * t.st.code + 32 * bit t.ownFault + 64 * bit t.claim + 128 * bit t.grant)

/-- HEARTBEAT_SEND (R292). -/
def execHeartbeatSend (s : State) : Ans :=
  whenOn s.isl.ctl s fun s =>
    if (hbBus s).isSome then
      onTdm (fun t => { t with hbSent := some { byte0 := hbByte s, fn := BitVec.ofNat 32 s.fn, missed := t.cMiss } }) s
    else s

/-- HEARTBEAT_RECEIVE (R292). -/
def execHeartbeatReceive (h : Heartbeat) (s : State) : Ans :=
  whenOn s.isl.ctl s fun s => if (hbBus s).isSome then onTdm (fun t => { t with hb := some h, hbLast := some h }) s else s

/-- Bytes of the copy window (R22): none counts above the maximum of its content. -/
def snapLen (x : Snap) : Nat := min (96 * 1024) (snapBytes x).length
def protoLen (p : Proto) : Nat := min (32 * 1024) (protoLayout p).length

/-- A snapshot received (R285): a reseeding package works from the first one, a joiner from the first one after the bulk
data (R27, R298). -/
def snapIn (x : Snap) (s : State) : State :=
  let keep := match s.tdm.st with
    | .reseed => s.tdm.snap.isSome
    | .sync => s.tdm.snap.isSome || !s.tdm.bulkDone
    | _ => false
  onTdm (fun t => { t with snap := if keep then t.snap else some x, bytesIn := t.bytesIn + snapLen x }) s

/-- SNAP_PACKET (R285). -/
def execSnapPacket (fn : Nat) (x : Snap) (s : State) : Ans :=
  whenOn s.isl.ctl s fun s => if s.tdm.linkUp && !isLead s then snapIn { x with fn := fn } s else s

/-- INSET_PACKET (R286): the lead's set, for the follower, or after a swap the old lead's (R299). -/
def execInsetPacket (i : InputSet) (s : State) : Ans :=
  whenOn s.isl.ctl s fun s =>
    if s.tdm.linkUp && (!isLead s || s.tdm.oldSets ≠ 0) then onTdm (fun t => { t with inset := some i }) s else s

/-- PROTO_PACKET (R193): the follower holds the copy. -/
def execProtoPacket (fn : Nat) (p : Proto) (s : State) : Ans :=
  whenOn s.isl.ctl s fun s =>
    if s.tdm.linkUp && !isLead s then
      takeProto p (onTdm (fun t => { t with proto := some (fn, p), bytesIn := t.bytesIn + protoLen p }) s)
    else s

/-- DIGEST_PACKET (R287). -/
def execDigestPacket (fn : Nat) (crc : BitVec 64) (s : State) : Ans :=
  whenOn s.isl.ctl s fun s =>
    if s.tdm.linkUp then onTdm (fun t => { t with pDigest := crc, pDigestFn := some fn }) s else s

/-! ### Pairing and joining (R297, R298, R375) -/

/-- TDM_PAIR_CHECK [5:0] (R301). -/
def pairCheck (p : PairInfo) (s : State) : BitVec 7 :=
  BitVec.ofNat 7 (bit (hashBytes p.hash = ownHash s) + 2 * bit (p.meas = ownMeas s) + 4 * bit (p.sealBits = s.lat.levels.sealAcc) +
    8 * bit (p.tandem = ownTandem s) + 16 * bit p.enabled + 32 * bit (p.serial ≠ s.otp.serial) + 64)

/-- The reason of a failed check, none where it passes. -/
def pairReason (b : BitVec 7) : Option Nat := [0, 1, 2, 3, 4].findSome? fun i => if b.getLsbD i then none else some (i + 1)

/-- PAIR_PACKET (R278, R297): the same strap level in both gives identity 0 to the lower serial. -/
def pairIn (p : PairInfo) (s : State) : State :=
  if !s.tdm.linkUp then s
  else
    let own := !s.tdm.strapHigh
    let conflict := p.identity = own
    let id := if conflict then !decide (s.otp.serial.toNat < p.serial.toNat) else own
    let s := onTdm (fun t => { t with pair := some p, strapConflict := conflict, identity := id }) s
    let b := pairCheck p s
    let s := onTdm (fun t => { t with pairBits := b }) s
    match pairReason b with
    | some r => if s.tdm.st = .wait || s.tdm.st = .sync then onTdm (fun t => { t with pend := some (.isolated, r) }) (tdmEvent 8 r s) else s
    | none => s

/-- PAIR_PACKET (R297). -/
def execPairPacket (p : PairInfo) (s : State) : Ans := whenOn s.isl.ctl s (pairIn p)

/-- The key under which the ledger key crosses (R375). -/
def transferKey (s : State) : List Byte :=
  let pub := match s.tdm.pair with | some p => Config.imkPublic p.serial | none => []
  Config.hkdf (Config.ecdh (imk s) pub) [] [] 32

/-- An entry of the lead's ledger: its tag was made under the lead's ledger key, which the joiner has by now (R375). -/
def ledgerIn (ix : Fin 1536) (e : Ledger) (s : State) : State :=
  onBilR (fun r => { r with
    ledger := r.ledger.set ix e
    ledgerTag := match ledgerKey s with
      | some k => (ix.val, k) :: r.ledgerTag.filter (·.1 ≠ ix.val)
      | none => r.ledgerTag.filter (·.1 ≠ ix.val)
    unusable := r.unusable.filter (· ≠ ix.val) }) s

/-- The ledger key of the lead goes into BBK_1 (R375). -/
def takeLedgerKey (k : List Byte) (s : State) : State :=
  hwdInt 5 (onHwd (fun h => { h with bbk := h.bbk.set 1 (some { typ := 1, key := k }) }) s)

/-- A BULK packet (R298): a joiner writes what it carries to its own MRAM; the ledger key also reaches a follower
(R375). -/
def bulkIn (b : Bulk) (s : State) : State :=
  match b with
  | .ledger ix e =>
    if s.tdm.st ≠ .sync then s
    else onTdm (fun t => { t with bulkLedger := t.bulkLedger + 1 }) (ledgerIn ix e s)
  | .ticket ix bs =>
    if s.tdm.st ≠ .sync then s
    else
      lndWrite (ticketBase + 576 * ix.val) bs
        (onTdm (fun t => { t with bulkTickets := t.bulkTickets + 1 }) (onBilR (fun r => { r with tickets := r.tickets.set ix bs }) s))
  | .welds f =>
    if s.tdm.st ≠ .sync then s
    else
      let w (o : Fin 32) (q : Osq) : Osq := { q with weld := f.getLsbD o.val }
      onTdm (fun t => { t with bulkWelds := true, bulkDone := true })
        { s with fl := { s.fl with osq := Vec.mapIx s.fl.osq w }, nx := { s.nx with osq := Vec.mapIx s.nx.osq w } }
  | .ledgerKey sealed statementOk keyless_ =>
    if s.tdm.st ≠ .sync && s.tdm.st ≠ .follow then s
    else
      let key := if !statementOk || keyless_ then none else Config.aesOpen (transferKey s) sealed
      match key with
      | some k => takeLedgerKey k s
      | none => if s.tdm.st = .sync then onTdm (fun t => { t with pend := some (.isolated, 7) }) s else s

/-- BULK_PACKET (R298). -/
def execBulkPacket (b : Bulk) (s : State) : Ans :=
  whenOn s.isl.ctl s fun s => if s.tdm.linkUp then bulkIn b s else s

/-- What the lead sends to a joiner in one frame of the transfer (R298): a sixteenth of the ledger and of the ticket ring,
the entries sent before and written since, and with the last frame the weld flags. -/
def bulkOf (k : Nat) (ref : Vector Ledger 1536 × Vector (List Byte) 256) (s : State) : List Bulk :=
  let l := (List.finRange 1536).filter fun i =>
    i.val / 96 = k || (decide (i.val / 96 < k) && decide (s.bilR.ledger[i] ≠ ref.1[i]))
  let t := (List.finRange 256).filter fun i =>
    i.val / 16 = k || (decide (i.val / 16 < k) && decide (s.bilR.tickets[i] ≠ ref.2[i]))
  let w : BitVec 32 := (List.finRange 32).foldl (fun (w : BitVec 32) o => cond s.fl.osq[o].weld (setBit w o.val) w) 0
  l.map (fun i => .ledger i s.bilR.ledger[i]) ++ t.map (fun i => .ticket i s.bilR.tickets[i]) ++
    (if k = 15 then [.welds w] else [])

/-- The ledger key on its way to a partner that does not have it (R375). (DEDUCED, entry 108.) -/
def keyBulk (has : Option (List Byte)) (s : State) : List Bulk :=
  match ledgerKey s with
  | some k => if has = some k then [] else [.ledgerKey (Config.aesSeal (transferKey s) s.fn k) true (keyless s)]
  | none => []

/-- The lead of a pair without a join request: a new ledger key goes to the follower at once (R375). -/
def bulkIdle (s : State) : State :=
  let has := if s.tdm.st = .lead && followed s then s.tdm.keySent else none
  let out := if s.tdm.st = .lead && followed s then keyBulk has s else []
  onTdm (fun t => { t with bulkNext := none, bulkRef := none, sentBulk := out, keySent := if out = [] then has else ledgerKey s }) s

/-- The BULK transfer of the lead, from the frame after a join request (R298). -/
def bulkStep (s : State) : State :=
  let asks := match s.tdm.last with | some m => m.joinReq && s.tdm.missRun = 0 | none => false
  if s.tdm.st ≠ .lead || !asks then bulkIdle s
  else
    let k := s.tdm.bulkNext.getD 0
    if 16 ≤ k then onTdm (fun t => { t with sentBulk := [], bulkRef := none }) s
    else
      let now := (s.bilR.ledger, s.bilR.tickets)
      let out := (if k = 0 then keyBulk none s else []) ++ bulkOf k (s.tdm.bulkRef.getD now) s
      onTdm (fun t => { t with bulkNext := some (k + 1), bulkRef := some now, sentBulk := out, keySent := ledgerKey s }) s

/-! ### Transitions in step 7 (R281) -/

/-- Find a transition, unless one is found already. -/
def tdmGo (st : TSt) (reason : Nat) (s : State) : State :=
  if s.tdm.pend.isSome then s else onTdm (fun t => { t with pend := some (st, reason) }) s

/-- JOIN_WAIT_EXPIRY (R281). -/
def joinWait (s : State) : State :=
  if s.tdm.st = .wait && !s.tdm.everMarker && decide (s.map.tandem.joinWait ≤ s.tdm.mapFrames) then
    if s.tdm.upSeen then tdmGo .isolated 10 s else tdmGo .lead 0 s
  else s

/-- JOIN_WAIT_EXPIRY (R281). -/
def execJoinWaitExpiry (s : State) : Ans := whenOn s.isl.ctl s joinWait

/-- JOIN_TIMEOUT (R281): the reason names what was not complete. -/
def joinTimeout (s : State) : State :=
  if s.tdm.st = .sync && decide (100 ≤ s.tdm.joinFrames) then tdmGo .isolated (if s.tdm.bulkDone then 8 else 7) s else s

/-- JOIN_TIMEOUT (R281). -/
def execJoinTimeout (s : State) : Ans := whenOn s.isl.ctl s joinTimeout

/-- The partner's heartbeat shows a lead without fault. -/
def hbLeads (h : Option Heartbeat) : Bool := match h with | some h => h.byte0.getLsbD 1 && !h.byte0.getLsbD 5 | none => false

/-- The partner's fault flag is on a path in this frame. -/
def faultSeen (s : State) : Bool :=
  (match s.tdm.got with | some m => m.fault | none => false) || (match s.tdm.hb with | some h => h.byte0.getLsbD 5 | none => false)

/-- The lead is lost on both paths (R292). -/
def leadLost (s : State) : Bool :=
  decide (2 ≤ s.tdm.missRun) && ((hbBus s).isNone || !(hbLeads s.tdm.hb || hbLeads s.tdm.hbPrev))

/-- TAKEOVER (R293): the lead is lost. -/
def takeover (s : State) : State :=
  if !leadLost s then s
  else if s.tdm.st = .follow then tdmGo .lead 0 (tdmEvent 4 0 s)
  else if s.tdm.st = .sync || s.tdm.st = .reseed then
    onTdm (fun t => { t with restart := true }) (tdmGo .lead 0 (tdmEvent 4 0 s))
  else s

/-- TAKEOVER (R293). -/
def execTakeover (s : State) : Ans := whenOn s.isl.ctl s takeover

/-- A swap of a kind becomes pending at S (R299). -/
def swapAt (fn : Nat) (k : SwapKind) (s : State) : State :=
  tdmEvent 1 fn (onTdm (fun t => { t with swap := some (fn, k), swapFn := fn }) s)

/-- The swap boundary opens the next frame: the roles change there (R299). -/
def roleSwap (s : State) : State :=
  match s.tdm.swap with
  | none => s
  | some (f, k) =>
    if s.fn + 1 ≠ f then s
    else if s.tdm.ownFault then tdmGo .faulted 0 s
    else if s.tdm.st = .lead && k ≠ .fault then tdmGo .follow 0 s
    else if s.tdm.st = .follow then tdmGo .lead 0 s
    else s

/-- ROLE_SWAP (R299). -/
def execRoleSwap (s : State) : Ans := whenOn s.isl.ctl s roleSwap

/-- The conditions that cancel a return or a request (R299). -/
def swapCancel (s : State) : State :=
  match s.tdm.swap with
  | some (_, .fault) => s
  | none => s
  | some _ =>
    let bad := s.tdm.got.isNone || faultSeen s || s.tdm.compared = some false ||
      (s.tdm.st = .lead && (match s.tdm.got with | some m => m.state ≠ 3 | none => true))
    if bad then onTdm (fun t => { t with swap := none, swapFn := 0, claim := false, grant := false }) s else s

/-- Claim, grant, fault flags and the pending swap of the frame (R299). -/
def swapStep (s : State) : State :=
  let s := swapCancel s
  let t := s.tdm
  -- an own fault goes out in the next marker
  let s := if t.ownFault && (t.st = .lead || t.st = .follow) && inStep s && (match t.swap with | some (_, .fault) => false | _ => true) then
      swapAt (s.fn + 2) .fault s else s
  let s := if faultSeen s && s.tdm.st = .follow then
      swapAt (s.fn + 1) .fault (onTdm (fun t => { t with partnerFault := true }) (tdmEvent 10 0 s))
    else if faultSeen s && s.tdm.st = .lead && !s.tdm.partnerFault then onTdm (fun t => { t with partnerFault := true }) (tdmEvent 10 0 s)
    else s
  match s.tdm.st, s.tdm.got with
  | .follow, some m =>
    if m.grant && s.tdm.swap.isNone then swapAt (s.fn / 2 ^ 32 * 2 ^ 32 + m.swapFn.toNat) .return_ s
    else if preferred s && decide (1000 ≤ s.tdm.matchRun) && s.tdm.swap.isNone then onTdm (fun t => { t with claim := true }) s
    else s
  | .lead, some m =>
    if m.claim && !s.tdm.ctrlHold && s.tdm.swap.isNone then
      onTdm (fun t => { t with grant := true }) (swapAt (s.fn + 1 + s.map.tandem.swapFrames) .return_ s)
    else s
  | _, _ => s

/-- Reseeds within the window of TDM_RESEED_CFG (R281). -/
def reseedsNow (s : State) : Nat :=
  let w := 1000 * max 1 (field s.tdm.reseedCfg.toNat 16 16)
  (s.tdm.reseeds.filter fun f => s.fn < f + w).length

/-- Samples per frame of the fastest cluster in use (R28). -/
def fastest (s : State) : Nat := (List.finRange 12).foldl (fun m k => if s.map.clu[k].enable then max m s.map.clu[k].n else m) 10

/-- From the frame of the snapshot to the first frame whose digest can match (R28): the follower transmits from the frame
after that. -/
def catchLag (n : Nat) : Nat := if n ≤ 67 then 1 else if n ≤ 89 then 2 else if n ≤ 99 then 3 else 4

/-- A package that recomputes has reached the live sample by the point that the digest of the frame covers (R28). -/
def caughtUp (s : State) : Bool :=
  s.tdm.reached && (match s.tdm.snap with | some x => decide (x.fn + catchLag (fastest s) ≤ s.fn) | none => true)

/-- The digest of the frame and its comparison (R24, R287, R288). -/
def digestStep (s : State) : State :=
  let d := crc64 (digestBytes s.nx s.can s.ctl.unitD)
  let s := onTdm (fun t => { t with digest := d, digestFn := some s.fn }) s
  let own := s.tdm.st = .follow || ((s.tdm.st = .reseed || s.tdm.st = .sync) && caughtUp s)
  let cmp := if s.tdm.pDigestFn = some s.fn && own then some (decide (d = s.tdm.pDigest)) else none
  let run := if s.tdm.st = .follow && cmp = some true then min 0xFFFF (s.tdm.matchRun + 1) else 0
  let s := onTdm (fun t => { t with compared := cmp, matchRun := run }) s
  if cmp = some false && s.tdm.st = .follow then
    tdmEvent 2 0 (onTdm (fun t => { t with cMismatch := t.cMismatch + 1, mismatchFn := s.fn }) s)
  else s

/-- What the frame received (R283, R292, R296). -/
def receiveStep (s : State) : State :=
  let s := match s.tdm.got with
    | none => onTdm (fun t => { t with leadRun := 0, waitRun := 0, markAge := satInc 16 t.markAge }) (countMissing s)
    | some m => onTdm (fun t => { t with
        last := some m, missRun := 0, markAge := 0, leadRun := if m.state = 4 || m.state = 0 then t.leadRun + 1 else 0,
        waitRun := if m.state = 1 then t.waitRun + 1 else 0 }) s
  let s := if s.tdm.hb.isSome then onTdm (fun t => { t with hbMiss := 0, hbAge := 0 }) s
    else if (hbBus s).isSome then onTdm (fun t => { t with hbMiss := t.hbMiss + 1, hbAge := satInc 16 t.hbAge, cHb := t.cHb + 1 }) s
    else onTdm (fun t => { t with hbAge := satInc 16 t.hbAge }) s
  let many := decide (4 ≤ ((List.range 96).filter fun i => s.tdm.upPartner.getLsbD i).length)
  onTdm (fun t => { t with upRun := if many then t.upRun + 1 else 0 }) s

/-- The pairing check passes. -/
def pairOk (s : State) : Bool := s.tdm.pair.isSome && s.tdm.pairBits = 0x7F

/-- A join is possible: the lead's FN is past FN_h (R428). -/
def mayJoin (s : State) : Bool := match s.tdm.last with | some m => decide (s.tdm.fnHigh < m.fn) | none => false

/-- A second lead (R296). -/
def secondLead (s : State) : State :=
  match s.tdm.got with
  | some m =>
    if m.state ≠ 4 then s
    else if s.tdm.leadAge < m.leadAge || (s.tdm.leadAge = m.leadAge && s.tdm.identity) then tdmGo .isolated 6 (tdmEvent 9 0 s)
    else tdmEvent 9 0 s
  | none =>
    if decide (2 ≤ s.tdm.missRun) && ((hbBus s).isNone || decide (2 ≤ s.tdm.hbMiss)) && decide (2 ≤ s.tdm.upRun) then
      if s.tdm.identity then tdmGo .isolated 6 (tdmEvent 9 0 s)
      else if s.tdm.dualLead then s else tdmEvent 9 0 (onTdm (fun t => { t with dualLead := true }) s)
    else s

/-- The transitions of the frame. -/
def tdmStates (s : State) : State :=
  match s.tdm.st with
  | .single => s
  | .faulted => s
  | .wait =>
    if decide (10 ≤ s.tdm.leadRun) && pairOk s then
      if mayJoin s then tdmGo .sync 0 (onTdm (fun t => { t with fnBehind := false }) s) else onTdm (fun t => { t with fnBehind := true }) s
    else if decide (10 ≤ s.tdm.waitRun) && (preferred s || (prefOf s = 0 && !s.tdm.identity)) then tdmGo .lead 0 s
    else joinWait s
  | .sync =>
    if s.tdm.bulkDone && s.tdm.reached && s.tdm.compared = some true then tdmGo .follow 0 s else joinTimeout (takeover s)
  | .reseed =>
    let max_ := max 1 (field s.tdm.reseedCfg.toNat 0 16)
    if decide (max_ ≤ reseedsNow s) then tdmGo .isolated 9 s
    else if s.tdm.reached && s.tdm.compared = some true then tdmGo .follow 0 s
    else takeover s
  | .follow =>
    let s := takeover (roleSwap s)
    if decide (2 ≤ s.tdm.missRun) && !leadLost s then tdmGo .isolated 11 s
    else if s.tdm.compared = some false || s.tdm.incomplete then tdmGo .reseed 0 s
    else s
  | .lead => secondLead (roleSwap s)
  | .isolated =>
    let barred := (s.tdm.reason = 6 || s.tdm.reason = 9) && !s.tdm.cmdRejoin
    if decide (10 ≤ s.tdm.leadRun) && decide (1000 ≤ s.tdm.stFrames) && !barred && pairOk s then
      if mayJoin s then tdmGo .sync 0 (onTdm (fun t => { t with fnBehind := false }) s) else onTdm (fun t => { t with fnBehind := true }) s
    else s

/-- A TDM_CTRL.yield of the frame (R299). -/
def yieldStep (s : State) : State :=
  let ok := s.tdm.cmdYield && s.tdm.st = .lead && s.tdm.swap.isNone &&
    (match s.tdm.last with | some m => m.state = 3 && decide (1000 ≤ m.matchRun) | none => false)
  let s := onTdm (fun t => { t with cmdYield := false }) s
  if ok then onTdm (fun t => { t with grant := true }) (swapAt (s.fn + 1 + s.map.tandem.swapFrames) .yield_ s) else s

/-- Step 7 of the frame (R281). -/
def tdmEval (s : State) : State :=
  if s.tdm.st = .single then s
  else tdmStates (yieldStep (swapStep (digestStep (receiveStep s))))

/-! ### The boundary -/

/-- The event of a transition (R281): a change of role, or the bit that names the new state. -/
def stEvent (old new : TSt) (reason : Nat) (s : State) : State :=
  let r (t : TSt) : Bool := t = .lead || t = .single
  let s := if r old ≠ r new then tdmEvent 0 new.code (onTdm (fun t => { t with cRole := t.cRole + 1 }) s) else s
  match new with
  | .isolated => tdmEvent 5 reason s
  | .follow => if old = .reseed then tdmEvent 3 0 s else if old = .lead then s else raise s { rank := 3, code := 0, data := new.code }
  | .lead => s
  | _ => if r old ≠ r new then s else raise s { rank := 3, code := 0, data := new.code }

/-- The number of the frame that the boundary opens (R428). -/
def nextFn (s : State) : Nat :=
  match s.tdm.pend, s.tdm.last with
  | some (.sync, _), some m => m.fn + 1
  | some (.lead, _), some m => if s.tdm.st = .wait then max (s.fn + 1) (m.fn + 1) else s.fn + 1
  | _, _ => s.fn + 1

/-- A change between lead and follow restarts the windows of metrology (R239, R244); a pulse in progress ends (R236). -/
def roleChange (s : State) : State :=
  let s := onMet (fun m => { m with pulse := Vector.replicate 33 none }) (witnessRestart s)
  { s with nx := { s.nx with met := { s.nx.met with winBad := true } } }

/-- The transition that takes effect is a swap (R299): the old lead's sets of S−1 and S still act. -/
def oldSetsOf (s : State) : Nat := match s.tdm.swap with | some (f, _) => if f = s.fn then 2 else 0 | none => 0

/-- The transition takes effect at the boundary that opens frame `s.fn`. -/
def tdmApply (s : State) : State :=
  match s.tdm.pend with
  | none => onTdm (fun t => { t with stFrames := t.stFrames + 1, joinFrames := t.joinFrames + 1,
                                     leadAge := if isLead s then min 0xFFFFFFFF (t.leadAge + 1) else 0 }) s
  | some (st, reason) =>
    let old := s.tdm.st
    let sets := oldSetsOf s
    let s := stEvent old st reason s
    let s := if (st = .lead || old = .lead) && old ≠ .single then roleChange s else s
    let s := if st = .reseed then onTdm (fun t => { t with reseeds := s.fn :: t.reseeds, cReseed := t.cReseed + 1 }) s else s
    onTdm (fun t => { t with
      pend := none, st := st, reason := reason, roleFn := s.fn, roleWas := old,
      keySent := if old = .follow && st = .lead then ledgerKey s else t.keySent, stFrames := 0, leadAge := 0, joinFrames := 0,
      joinReq := st = .sync, reached := false, snap := none, kept := [], oldSets := sets, lag := 0, matchRun := 0, claim := false, grant := false, swap := none, swapFn := 0,
      dualLead := t.dualLead && st = .lead, cmdRejoin := t.cmdRejoin && st = .isolated,
      bulkDone := false, bulkLedger := 0, bulkTickets := 0, bulkWelds := false, incomplete := false }) s

/-- The partner's words of the last frame are gone, its copy window is counted; the own marker goes out. -/
def tdmOpen (s : State) : State :=
  let s := onTdm (fun t => { t with
    got := none, missNow := false, hbPrev := t.hb, hb := none, hbSent := none, upPartner := 0, compared := none,
    mapFrames := t.mapFrames + 1, kbSent := t.bytesOut / 1024, kbRecv := t.bytesIn / 1024, bytesIn := 0, bytesOut := 0, retx := 0 }) s
  if s.tdm.st = .single then s else onTdm (fun t => { t with sent := some (ownMarker s) }) s

/-- The package sends its captured set (R21): the lead, or after a swap the old lead for one more frame (R299). -/
def sendsSet (s : State) : Bool := s.tdm.linkUp && (if s.tdm.st = .lead then s.tdm.oldSets = 0 else s.tdm.oldSets ≠ 0)

/-- What a follower sends besides its witness totals: its conditions while VERIFIED or SCHEDULED (R393), its report
until it is latched (R398). -/
def followOf (s : State) : List FollowMsg :=
  (if s.fwu.st = .verified || s.fwu.st = .scheduled then [.conditions (ownLocal s)] else []) ++
    (match s.fwu.report, s.fwu.latOwn with | some (r, n), none => [.report r n] | _, _ => [])

/-- What the package sends in the copy window of the frame (R17 step 5, R21, R22, R285), `n` being the bytes of the
captured set: the lead its snapshot, its set and its protocol state, the follower its conditions and its report (its
witness totals follow with WITNESS_SEND), a package that waits its PAIR packet. -/
def tdmSend (n : Nat) (x : Snap) (s : State) : State :=
  let lead := s.tdm.linkUp && s.tdm.st = .lead
  let set := sendsSet s
  let p := protoOf s
  let own : List FollowMsg := if s.tdm.linkUp && s.tdm.st = .follow then followOf s else []
  bulkStep (onTdm (fun t => { t with
    sentSnap := if lead then some x else none, sentInset := if set then some s.cap else none,
    sentProto := if lead then some p else none,
    sentPair := if t.linkUp && (t.st = .wait || t.st = .isolated || t.st = .sync || t.st = .lead) then some (ownPair s) else none,
    sentFollow := own, bytesOut := (if lead then snapLen x + protoLen p else 0) + (if set then n else 0) + 16 * own.length }) s)

/-- The protocol copy at the end of S−1, ahead of a planned swap (R299). -/
def swapProto (s : State) : State :=
  match s.tdm.swap with
  | some (f, k) =>
    if s.tdm.st = .lead && f = s.fn + 1 && decide (k ≠ SwapKind.fault) then onTdm (fun t => { t with sentProto := some (protoOf s) }) s else s
  | none => s

/-- What a follower latches from the lead (R286): the set, and whether it was incomplete. (DESIGN CHOICE, entry 77.) -/
def followSet (s : State) : InputSet × Bool :=
  match s.tdm.inset with
  | some i => if i.complete then (i, false) else (i, true)
  | none =>
    let e : InputSet := { s.lat with items := [], complete := false, empty := true }
    (e, s.tdm.missRun = 0)

/-- Merge the own captured sets of a take-over (R293): the last levels, and every item once in its order. -/
def mergeSets (base : InputSet) : List InputSet → InputSet
  | [] => base
  | x :: xs => mergeSets { x with items := base.items ++ x.items, complete := true } xs

/-- Latch the package's own set, with those held since the last one of the lead (R18, R293). -/
def latchOwn (own : InputSet) (s : State) : State :=
  let sets := s.tdm.held ++ [own]
  onTdm (fun t => { t with held := [], inset := none, oldSets := t.oldSets - 1 }) { s with lat := mergeSets { own with items := [] } sets }

/-- The set that the boundary latches, where `own` is the captured one (R18, R21, R286, R293). After a swap the sets that
the old lead captured at S−1 and S act in both packages (R299). -/
def latchSet (own : InputSet) (s : State) : State :=
  let old := s.tdm.oldSets ≠ 0
  let follows := s.tdm.st = .follow || s.tdm.st = .sync || s.tdm.st = .reseed
  if (follows && !old) || (s.tdm.st = .lead && old && s.tdm.inset.isSome) then
    let (i, bad) := followSet s
    let held := s.tdm.held ++ [own]
    let s := if bad || i.empty then overrun 0 s else s
    let s := if i.complete then onTdm (fun t => { t with held := held.filter fun x => i.fn < x.fn, lastSetFn := i.fn }) s
      else onTdm (fun t => { t with held := (held.drop (held.length - 16)), cEmpty := t.cEmpty + 1 }) s
    onTdm (fun t => { t with inset := none, incomplete := bad && follows, oldSets := t.oldSets - 1 }) { s with lat := i }
  else latchOwn own s

/-! ### Commands (R302) -/

/-- TDM_REJOIN (R302). -/
def tdmRejoin (s : State) : State := if s.tdm.st = .isolated then onTdm (fun t => { t with cmdRejoin := true }) s else s

/-- TDM_REJOIN (R302). -/
def execTdmRejoin (s : State) : Ans := whenOn s.isl.ctl s tdmRejoin

/-- TDM_YIELD (R299): ignored except in LEAD. -/
def tdmYield (s : State) : State := if s.tdm.st = .lead then onTdm (fun t => { t with cmdYield := true }) s else s

/-- TDM_YIELD (R299). -/
def execTdmYield (s : State) : Ans := whenOn s.isl.ctl s tdmYield

/-- TDM_HOLD_RETURN (R302). -/
def execTdmHoldReturn (s : State) : Ans := whenOn s.isl.ctl s (onTdm fun t => { t with ctrlHold := true })

/-- TDM_DECLARE_FAULT (R281). -/
def tdmDeclare (s : State) : State :=
  if (s.tdm.st = .lead || s.tdm.st = .follow) && inStep s then onTdm (fun t => { t with ownFault := true }) s else s

/-- TDM_DECLARE_FAULT (R281). -/
def execTdmDeclareFault (s : State) : Ans := whenOn s.isl.ctl s tdmDeclare

end Sys2Proof.Machine
end

