-- ==== Sys2Proof/Machine/Can.lean ====
section
/-! DEFINITION. Cabinet buses (chapter 14): receiving and the filters, the sensor mailbox, high-priority buffers, the
transmit queue, cooling frames and error states. -/

namespace Sys2Proof.Machine

/-- Change a controller. -/
def onCan (k : CanIx) (f : Can → Can) (s : State) : State := { s with can := Vec.upd s.can k f }

/-- Set a bit of CAN_INT_STATUS. -/
def canBit (k : CanIx) (b : Nat) (s : State) : State := onCan k (fun c => { c with intStatus := setBit c.intStatus b }) s

/-- An event of rank 12 (R364), ordered by controller index. -/
def canEvent (k : CanIx) (b data : Nat) (s : State) : State :=
  raise (canBit k b s) { rank := 12, code := b + 1, num := k.val, ord := k.val, data := data }

/-- The controller of a bus that is not OFF (R363). -/
def canOn (s : State) (k : CanIx) : Bool := s.isl.com && (s.map.can[k]).mode ≠ 0

/-- Restricted operation (R363): the follower's side of a LEAD_ONLY bus. -/
def canRestricted (s : State) (k : CanIx) : Bool := (s.map.can[k]).mode = 1 && !isLead s

/-- The controller sends its queue and its cooling frames (R280, R363, R364). -/
def canSends (s : State) (k : CanIx) : Bool := canOn s k && transmits s && !canRestricted s k && (s.can[k]).st ≠ 2

/-! ### Receiving (R352 to R357) -/

/-- The bytes of a quantity (R355). -/
def canWidth (q : Nat) : Nat := if q = 1 || q = 8 || q = 9 then 4 else if q = 15 then 16 else if q = 6 || q = 7 || q = 16 || q = 17 then 1 else 2

/-- A filter entry matches a frame (R352): the form always, then the identifier under the entry's form. -/
def filtMatch (e : FiltCfg) (f : CanFrame) : Bool :=
  e.enabled && (e.ext == f.ext) && (if e.q = 0 then (e.ident ^^^ f.ident) &&& e.mask = 0 else e.ident = f.ident)

/-- The value of a quantity entry, none where its bytes extend beyond the payload. -/
def filtValue (e : FiltCfg) (f : CanFrame) : Option Nat :=
  if e.start + canWidth e.q ≤ f.data.length then some (leNat ((f.data.drop e.start).take (canWidth e.q))) else none

/-- The frame received later fills the slot (R355). -/
def mailPut (m : MailSlot) (l : List MailSlot) : List MailSlot :=
  m :: l.filter fun x => !(x.q = m.q && x.num = m.num && x.sub = m.sub)

/-- A quantity entry acts: its mailbox slot and its high-priority buffer. -/
def filtQuantity (k : CanIx) (i : Nat) (e : FiltCfg) (f : CanFrame) (s : State) : State :=
  let s := match filtValue e f with
    | some v => { s with live := { s.live with
        mail := mailPut { q := e.q, num := e.num, sub := e.sub, can := k, entry := i, value := v, fn := s.fn, action := e.action } s.live.mail } }
    | none => s
  match e.buf with
  | some b => onCan k (fun c => { c with
      hp := c.hp.set b { valid := true, ident := f.ident, ext := f.ext, fd := f.fd, fn := s.fn, data := f.data },
      hpArrived := setBit c.hpArrived b.val }) s
  | none => s

/-- The matching entries with their indices. -/
def filtHits (s : State) (k : CanIx) (f : CanFrame) : List (Nat × FiltCfg) :=
  ((s.map.can[k]).filters.zipIdx.map fun (e, i) => (i, e)).filter fun x => filtMatch x.2 f

/-- The receive FIFO takes a frame (R354); with 64 entries unread it is discarded. -/
def canFifo (k : CanIx) (f : CanFrame) (us first : Nat) (s : State) : State :=
  if 64 ≤ (s.can[k]).unread then canEvent k 4 0 (onCan k (fun c => { c with overflow := c.overflow + 1 }) s)
  else
    let h := f.ident.toNat + 2 ^ 29 * bit f.ext + 2 ^ 30 * bit f.fd + 2 ^ 31 * bit f.brs
    let bs := leBytes 8 s.fn ++ leBytes 4 h ++ leBytes 1 f.data.length ++ leBytes 1 first ++ leBytes 2 us ++
      f.data ++ List.replicate (64 - f.data.length) 0
    canBit k 3 (onCan k (fun c => { c with rxWr := c.rxWr + 1, unread := c.unread + 1 })
      (lndWrite (canRxBase k + 80 * (s.can[k]).rxWr.toNat) bs s))

/-- A received frame: a remote one is discarded (R350), every matching entry acts (R352). -/
def canReceive (k : CanIx) (f : CanFrame) (us : Nat) (s : State) : State :=
  if !canOn s k || f.remote || decide (64 < f.data.length) then s
  else
    let hits := filtHits s k f
    let short := hits.any fun x => x.2.q ≠ 0 && (filtValue x.2 f).isNone
    let s := onCan k (fun c => { c with
      received := c.received + 1, short := if short then c.short + 1 else c.short,
      hits := hits.foldl (fun (v : Vector Word 128) x => match optFin 128 x.1 with | some i => Vec.upd v i (· + 1) | none => v) c.hits }) s
    let s := hits.foldl (fun s x => if x.2.q = 0 then s else filtQuantity k x.1 x.2 f s) s
    match hits with
    | [] => s
    | h :: _ => if hits.any fun x => x.2.q = 0 || x.2.copy then canFifo k f us h.1 s else s

/-- The first frame of a queue that a received one equals is gone. -/
def dropHeard (f : CanFrame) : List CanTx → List CanTx
  | [] => []
  | x :: xs => if x.ident = f.ident && x.ext == f.ext && decide (x.data = f.data) then xs else x :: dropHeard f xs

/-- The follower of a LEAD_ONLY bus keeps of the lead's queue what it has not received on the bus (R293). -/
def canHeard (k : CanIx) (f : CanFrame) (s : State) : State :=
  if canOn s k && canRestricted s k then onCan k (fun c => { c with queue := dropHeard f c.queue }) s else s

/-- CAN_RX_FRAME (R353). -/
def execCanRxFrame (k : CanIx) (f : CanFrame) (us : Nat) (s : State) : Ans := .next (canReceive k f us (canHeard k f s))

/-- The high-priority buffers whose action is active under a latched mailbox (R358). -/
def actionBufs (s : State) (k : CanIx) (l : Levels) : BitVec 8 :=
  (s.map.can[k]).filters.foldl (fun (w : BitVec 8) e =>
    match e.buf with
    | some b =>
      let act := match mailOf l 16 e.num e.sub with | some m => m.value ≠ 0 | none => false
      if e.enabled && e.q = 16 && e.action && act then setBit w b.val else w
    | none => w) 0

/-- The packs whose hardware action is active under a latched mailbox: pack and controller (R358). -/
def packActions (l : Levels) : List (Nat × CanIx) :=
  (List.range 8).filterMap fun j => (l.mail.find? fun m => m.q = 16 && m.num = j && m.action && m.value ≠ 0).map fun m => (j, m.can)

/-- The latch of a mailbox: each start and end of an action is an event (R358). -/
def latchActions (old : Levels) (s : State) : State :=
  let a := packActions old
  let b := packActions s.lat.levels
  let s := b.foldl (fun s x => if a.any (·.1 = x.1) then s else canEvent x.2 6 (2 * x.1 + 1) s) s
  let s := a.foldl (fun s x => if b.any (·.1 = x.1) then s else canEvent x.2 6 (2 * x.1) s) s
  { s with can := Vec.mapIx s.can fun k c => { c with hpAction := actionBufs s k s.lat.levels } }

/-! ### Transmitting (R359 to R362) -/

/-- A frame length that CAN FD has, at least `n` (R359). -/
def fdLen (n : Nat) : Nat :=
  if n ≤ 8 then n else if n ≤ 12 then 12 else if n ≤ 16 then 16 else if n ≤ 20 then 20 else if n ≤ 24 then 24
  else if n ≤ 32 then 32 else if n ≤ 48 then 48 else 64

/-- The next sequence byte of an identifier, none where none is known (R361). -/
def seqOf (c : Can) (ident : BitVec 29) (ext : Bool) : Option Byte := (c.seqs.find? fun x => x.1 = ident && x.2.1 = ext).map (·.2.2)

/-- Use the sequence byte. -/
def seqUse (ident : BitVec 29) (ext : Bool) (c : Can) : Byte × Can :=
  let q := (seqOf c ident ext).getD 0
  (q, { c with seqs := (ident, ext, q + 1) :: c.seqs.filter fun x => !(x.1 = ident && x.2.1 = ext) })

/-- A refused request: the host-port event of its command, and the count (R359, R361). (DEDUCED, entry 34.) -/
def canRefuse (k : CanIx) (s : State) : State :=
  refuse (0xD0020 + 0x1000 * k.val) (canBit k 5 (onCan k (fun c => { c with refused := c.refused + 1 }) s))

/-- Enqueue a frame (R361): a full queue drops its oldest unsent frame. -/
def canEnqueue (x : CanTx) (c : Can) : Can :=
  let full := decide (32 ≤ c.queue.length)
  let q := (if full then c.queue.drop 1 else c.queue) ++ [x]
  { c with queue := q, peak := max c.peak q.length, enqNow := c.enqNow + 1, enqLog := (x :: c.enqLog).take 32,
           dropped := if full then c.dropped + 1 else c.dropped }

/-- One request of 72 bytes (R359): no request is sent in another format than its own. (DEDUCED, entry 109.) -/
def canRequest (k : CanIx) (bs : List Byte) (s : State) : State :=
  let w := leNat (bs.take 4)
  let ident : BitVec 29 := BitVec.ofNat 29 w
  let ext := decide (field w 29 1 = 1)
  let fd := decide (field w 30 1 = 1)
  let len := leNat ((bs.drop 4).take 1)
  let cfg := s.map.can[k]
  let dual := cfg.mode = 2
  let total := len + bit dual
  let c := s.can[k]
  let brs := decide (field w 31 1 = 1)
  let bad := cfg.mode = 0 || (fd && !cfg.fd) || (brs && !(fd && cfg.brs)) || decide ((if fd then 64 else 8) < total) ||
    decide (32 < s.lat.levels.txFill[k] + c.enqNow + 1) || (dual && (seqOf c ident ext).isNone && decide (128 ≤ c.seqs.length))
  if bad then canRefuse k s
  else
    let pad (d : List Byte) : List Byte := d ++ List.replicate (fdLen total - d.length) 0
    let host := (bs.drop 8).take len
    onCan k (fun c =>
      let (q, c) := if dual then seqUse ident ext c else (0, c)
      canEnqueue { ident := ident, ext := ext, fd := fd, brs := brs, seq := if dual then some q else none,
                   data := pad (if dual then q :: host else host) } c) s

/-- The requests of a submit, in order, from the content of the window; a count above 8 names no window and is refused. -/
def canSubmit (k : CanIx) (count : Nat) (win : List Byte) (s : State) : State :=
  if 8 < count then canRefuse k s
  else (List.range count).foldl (fun s i => canRequest k ((win.drop (72 * i)).take 72) s) s

/-- A landing read that feeds a latch point (R406): poisoned data are absent for the latch, and in a pair in step the
package declares itself faulty. -/
def latchRead (a n : Nat) (f : List Byte → State → State) (s : State) : State :=
  let bad := lndPoison a n s
  let bs := lndRead a n s
  let s := eccRead a n s
  if bad then overrun a (tdmDeclare s) else f bs s

/-- CAN_TX_SUBMIT (R359). -/
def execCanTxSubmit (k : CanIx) (count : BitVec 4) (s : State) : Ans :=
  whenOn s.isl.com s fun s => latchRead (canTxBase k) 576 (canSubmit k count.toNat) s

/-- The cooling frame of one outlet enters its buffer (R362): an unsent one is replaced; none without a cable block
(R197). -/
def coolOne (k : CanIx) (s : State) (o : OutIx) : State :=
  let cfg := s.map.can[k]
  if !cfg.coolMask.getLsbD o.val || !cableOn s o then s
  else
    let ident : BitVec 29 := BitVec.ofNat 29 (cfg.coolId + o.val)
    let pf : List Byte := [BitVec.ofNat 8 (s.fl.ccl[o]).pump, BitVec.ofNat 8 (s.fl.ccl[o]).fan]
    onCan k (fun c =>
      if cfg.mode = 2 then
        let (q, c) := seqUse ident cfg.coolExt c
        { c with cool := c.cool.set o (some { ident := ident, ext := cfg.coolExt, seq := some q, data := q :: pf }) }
      else { c with cool := c.cool.set o (some { ident := ident, ext := cfg.coolExt, data := pf }) }) s

/-- The cooling frames of a bus, in ascending outlet order. -/
def coolingBus (k : CanIx) (s : State) : State :=
  if !canOn s k || !transmits s || canRestricted s k || (s.map.can[k]).slotTimer.isNone then s
  else (List.finRange 32).foldl (coolOne k) s

/-- COOLING_FRAME_TX (R362): in the frame after a thermal frame. -/
def execCoolingFrameTx (s : State) : Ans :=
  whenOn s.isl.com s fun s => if s.fn % 10 = 1 then (List.finRange 8).foldl (fun s k => coolingBus k s) s else s

/-- A frame was sent; with delay compensation the controller measured the transmitter delay, whose value is open. (DESIGN CHOICE, entry 33.) -/
def canSent (k : CanIx) (brs : Bool) (s : State) : State :=
  let s := onCan k (fun c => { c with sent := c.sent + 1 }) s
  if brs && (s.map.can[k]).tdc then
    let d := s.fresh
    onCan k (fun c => { c with delay := BitVec.ofNat 7 (Config.freeNat d.1) }) d.2
  else s

/-- CAN_TX_COMPLETE (R360). -/
def canTxComplete (k : CanIx) (src : TxSource) (s : State) : State :=
  match src with
  | .queue =>
    match (s.can[k]).queue with
    | [] => s
    | x :: xs => if canSends s k then canSent k x.brs (onCan k (fun c => { c with queue := xs }) s) else s
  | .heartbeat =>
    if canOn s k && !canRestricted s k && (s.can[k]).st ≠ 2 && hbBus s = some k && s.tdm.hbSent.isSome then canSent k false s else s
  | .cooling o =>
    if canSends s k && ((s.can[k]).cool[o]).isSome then canSent k false (onCan k (fun c => { c with cool := c.cool.set o none }) s) else s

/-- CAN_TX_COMPLETE (R360). -/
def execCanTxComplete (k : CanIx) (src : TxSource) (s : State) : Ans := .next (canTxComplete k src s)

/-! ### Error states (R364) -/

/-- CAN_BUS_OFF (R364). -/
def execCanBusOff (k : CanIx) (s : State) : Ans :=
  .next (if canOn s k && (s.can[k]).st ≠ 2 then canEvent k 0 0 (onCan k (fun c => { c with st := 2, busOffs := c.busOffs + 1 }) s) else s)

/-- The controller is error-active again with its counters at 0. -/
def canRecovered (k : CanIx) (s : State) : State := canEvent k 1 0 (onCan k (fun c => { c with st := 0, tec := 0, rec_ := 0 }) s)

/-- CAN_AUTO_RECOVERY (R364). -/
def execCanAutoRecovery (k : CanIx) (s : State) : Ans :=
  .next (if canOn s k && (s.can[k]).st = 2 && !(s.can[k]).manual then canRecovered k s else s)

/-- A latched recover (R364). -/
def canRecover (k : CanIx) (s : State) : State := if (s.can[k]).st = 2 && (s.can[k]).manual then canRecovered k s else s

/-- CAN_RECOVER (R364). -/
def execCanRecover (k : CanIx) (s : State) : Ans := whenOn s.isl.com s (canRecover k)

/-- The code of an error (R365). -/
def errCode : CanErrKind → Nat
  | .stuff => 1 | .form => 2 | .ack => 3 | .bit1 => 4 | .bit0 => 5 | .crc => 6

/-- CAN_BUS_ERROR (R364): the counters after the error; at 128 the controller is error-passive. (PRESUMED, entry 32.) -/
def canBusError (k : CanIx) (kind : CanErrKind) (tec rec_ : Nat) (s : State) : State :=
  if !canOn s k then s
  else
    let passive := decide (128 ≤ tec) || decide (128 ≤ rec_)
    let was := (s.can[k]).st
    let s := onCan k (fun c => { c with
      tec := min 255 tec, rec_ := min 255 rec_, lastErr := errCode kind, errs := c.errs + 1,
      st := if c.st = 2 then 2 else bit passive }) s
    if was = 0 && passive then canEvent k 2 0 s else s

/-- CAN_BUS_ERROR (R364). -/
def execCanBusError (k : CanIx) (kind : CanErrKind) (tec rec_ : Nat) (s : State) : Ans := .next (canBusError k kind tec rec_ s)

/-- A write of CAN_HP_SEL snapshots the buffer (R365). -/
def canHpSel (k : CanIx) (val : Word) (s : State) : State :=
  let b : BitVec 3 := val.setWidth 3
  onCan k (fun c => { c with hpSel := b, hpShown := c.hp[b.toFin] }) s

/-- CAN_HP_SEL_WRITE (R365). -/
def execCanHpSelWrite (k : CanIx) (val : Word) (s : State) : Ans := whenOn s.isl.com s (canHpSel k val)

end Sys2Proof.Machine
end

