-- ==== Sys2Proof/Machine/Switches.lean ====
section
/-! DEFINITION. Protected auxiliary switches (chapter 13): commands, inrush and hold, protection and restart, open load,
current sense and the package budget. -/

namespace Sys2Proof.Machine

/-- HS_k as a switch instance. -/
def hsIx (k : Fin 48) : SwIx := ⟨k.val, by omega⟩

/-- Aux-die time in µs (R333): 50 µs a cycle. -/
def auxTime (s : State) : Nat := 50 * s.fbk.t % 2 ^ 32

/-- Change a switch. -/
def onSw (k : SwIx) (f : Sw → Sw) (s : State) : State := { s with aux := { s.aux with sw := Vec.upd s.aux.sw k f } }

/-- A switch event (R349): trip 0, locked off 1, open load 2, shed 3, short to supply 4; at most once per switch per
frame in the control die. -/
def swEvent (k : SwIx) (b : Nat) (s : State) : State :=
  let again := (s.aux.sw[k]).raised.getLsbD b
  let s := onSw k (fun x => { x with events := setBit x.events b, raised := setBit x.raised b }) s
  if again then s
  else { s with arrived := s.arrived ++ [.asyncEvent { rank := 2, code := 12 + b, inst := k.val, stamp := auxTime s }] }

/-- The brake release switch of a brake is on (R319, R393). -/
def brakeHs (s : State) (b : Fin 8) : Bool :=
  (List.finRange 48).any fun k => (s.map.aux[hsIx k]).use = 6 && (s.map.aux[hsIx k]).target = some b.val && (s.aux.sw[hsIx k]).on

/-- A high-side switch of use 6 is on: the level that FWU reads. -/
def brakeLevel (s : State) : State :=
  let b := (List.finRange 48).any fun k => (s.map.aux[hsIx k]).use = 6 && (s.aux.sw[hsIx k]).on
  { s with live := { s.live with brakeOn := b } }

/-- The LS switch in series with a high side of use 2 or 6 (R324). -/
def seriesLs (s : State) (k : SwIx) : Option Nat :=
  let c := s.map.aux[k]
  if c.use = 2 then c.target else if c.use = 6 then c.target.map (· + 32) else none

/-! ### Turning on and off -/

/-- The inrush window of the low side in series begins when the coil's high side turns on (R335). -/
def lsInrush (k : SwIx) (s : State) : State :=
  match (if k.val < 48 then seriesLs s k else none).bind fun n => optFin 88 (48 + n) with
  | some j => onSw j (fun x => { x with inrush := x.on }) s
  | none => s

/-- The switch conducts, with a new inrush window (R339, R341). -/
def swStart (k : SwIx) (s : State) : State :=
  brakeLevel (lsInrush k (onSw k (fun x => { x with on := true, inrush := true, pwm := false, oc := false, trip := false, wait := false }) s))

/-- The switch stops conducting. -/
def swOff (k : SwIx) (s : State) : State :=
  brakeLevel (onSw k (fun x => { x with on := false, inrush := false, pwm := false, wait := false }) s)

/-- Nothing bars a turn-on: no temperature latch, not locked off, not shed. -/
def swFree (x : Sw) : Bool := !x.dt && !x.abs && !x.locked && !x.shed

/-- A turn-on by command: it waits for a latch that bars it (R341). -/
def swTurnOn (k : SwIx) (s : State) : State :=
  let x := s.aux.sw[k]
  if swFree x && !x.trip then swStart k s else onSw k (fun x => { x with wait := false }) s

/-- A turn-off by command (R341): a pending restart ends and retry_left is restored. -/
def swTurnOff (k : SwIx) (s : State) : State :=
  swOff k (onSw k (fun x => { x with retry := if x.trip then 8 else x.retry, trip := false }) s)

/-! ### Commands (R337, R338) -/

/-- A general switch with a granted timer is a pulse output (R337). -/
def isPulse (s : State) (k : SwIx) : Bool := (s.map.aux[k]).use = 1 && (s.map.aux[k]).timer.isSome

/-- What the control die commands of HS_k in this frame. -/
def hsCmd (s : State) (k : Fin 48) : Bool :=
  let c := s.map.aux[hsIx k]
  let x := s.aux.sw[hsIx k]
  let out : Option OutIx := c.target.bind (optFin 32)
  let seq (f : Osq → Bool) : Bool := match out with | some o => outEnabled s o && f s.fl.osq[o] | none => false
  transmits s && match c.use with
    | 1 => if isPulse s (hsIx k) then x.pulse else x.ctl
    | 2 => seq (·.kCmd)
    | 3 => seq (·.dscBus)
    | 4 => seq (·.dscCable)
    | 5 => seq (·.lock)
    | 6 => x.ctl
    | _ => false

/-- One switch takes its command: a rising one waits for its staggered start. -/
def takeCmd (s : State) (k : Fin 48) : State :=
  let want := hsCmd s k
  let x := s.aux.sw[hsIx k]
  if want = x.cmd then s
  else
    let s := onSw (hsIx k) (fun x => { x with cmd := want, wait := want }) s
    if want then s else swTurnOff (hsIx k) s

/-- The first switch that waits for its start. -/
def firstWait (s : State) : Option (Fin 48) := (List.finRange 48).find? fun k => (s.aux.sw[hsIx k]).wait

/-- An output driven from outside is the fault short_supply in a package that transmits, and only status in a silent one
(R342). -/
def shortStep (s : State) (k : SwIx) : State :=
  let x := s.aux.sw[k]
  if transmits s then (if x.ext && !x.short then swEvent k 4 (onSw k (fun x => { x with short := true }) s) else s)
  else if x.short then onSw k (fun x => { x with short := false }) s
  else s

/-- AUX_COMMAND_FRAME (R338): the commands of the frame; the lowest of the switches commanded on starts at once. -/
def commandFrame (s : State) : State :=
  let old := (firstWait s).isSome
  let s := (List.finRange 88).foldl shortStep s
  let s := (List.finRange 48).foldl takeCmd { s with aux := { s.aux with held := false } }
  match firstWait s with
  | some k => if old then s else swTurnOn (hsIx k) s
  | none => s

/-- AUX_COMMAND_FRAME (R338): a stopped control die sends none. -/
def execAuxCommandFrame (s : State) : Ans := whenOn s.isl.ctl s commandFrame

/-- AUX_STAGGERED_START (R338): ascending instances, 250 µs apart. -/
def execAuxStaggeredStart (k : SwIx) (s : State) : Ans :=
  .next (match firstWait s with | some j => if hsIx j = k then swTurnOn k s else s | none => s)

/-- AUX_ON (R337), latched in the frame in progress: for another use it is ignored with a host-port event; from the vote
frame on a brake release is refused (R395). -/
def auxOn (k : Fin 48) (on : Bool) (s : State) : State :=
  let off := 0xC0004 + 0x20 * k.val
  let u := (s.map.aux[hsIx k]).use
  if u ≠ 1 ∧ u ≠ 6 then refuse off s
  else if u = 6 && on && fwuHeld s then refuse off s
  else if isPulse s (hsIx k) then (if on then onSw (hsIx k) (fun x => { x with pulse := true }) s else s)
  else onSw (hsIx k) (fun x => { x with ctl := on }) s

/-- AUX_ON (R337). -/
def execAuxOn (k : Fin 48) (on : Bool) (s : State) : Ans := whenOn s.isl.ctl s (auxOn k on)

/-- AUX_CLEAR (R341, R345). -/
def auxClear (k : SwIx) (s : State) : State :=
  let s := onSw k (fun x => { x with retry := 8, locked := false, shed := false }) s
  let x := s.aux.sw[k]
  if x.cmd && !x.on && !x.wait && !x.trip && swFree x then swStart k s else s

/-- AUX_CLEAR (R341). -/
def execAuxClear (k : SwIx) (s : State) : Ans := whenOn s.isl.ctl s (auxClear k)

/-- AUX_PULSE_END (R337). -/
def execAuxPulseEnd (k : SwIx) (s : State) : Ans :=
  .next (if (s.aux.sw[k]).pulse then swTurnOff k (onSw k (fun x => { x with pulse := false, cmd := false }) s) else s)

/-- AUX_HOLD_START (R339). -/
def execAuxHoldStart (k : SwIx) (s : State) : Ans :=
  .next (if (s.aux.sw[k]).on && decide (k.val < 48) && (s.map.aux[k]).holdDuty ≠ 0 then onSw k (fun x => { x with pwm := true }) s else s)

/-- AUX_INRUSH_END (R335). -/
def execAuxInrushEnd (k : SwIx) (s : State) : Ans := .next (onSw k (fun x => { x with inrush := false }) s)

/-! ### Protection (R340, R341) -/

/-- A trip: off, with its event; without a retry left the switch is locked off. (DEDUCED, entry 47.) -/
def swTrip (k : SwIx) (f : Sw → Sw) (s : State) : State :=
  if !(s.aux.sw[k]).on then onSw k f s
  else
    let s := swEvent k 0 (swOff k (onSw k (fun x => { f x with trip := true }) s))
    if (s.aux.sw[k]).retry = 0 && !(s.aux.sw[k]).locked then swEvent k 1 (onSw k (fun x => { x with locked := true }) s) else s

/-- AUX_OVERCURRENT (R340). -/
def execAuxOvercurrent (k : SwIx) (s : State) : Ans :=
  .next (if (s.aux.sw[k]).on then swTrip k (fun x => { x with oc := true }) s else s)

/-- AUX_THERMAL_TRIP (R340): in current limitation, which begins at 9 A, oc is set too. -/
def execAuxThermalTrip (k : SwIx) (t : ThermTrip) (s : State) : Ans :=
  .next (swTrip k (fun x =>
    let x := { x with oc := x.oc || (x.on && decide (3600 ≤ x.sense)) }
    match t with | .deltaT => { x with dt := true } | .absolute => { x with abs := true }) s)

/-- AUX_THERMAL_LATCH_CLEAR (R340, R341): a switch commanded on during the latch turns on, uncounted. -/
def latchClear (k : SwIx) (t : ThermTrip) (s : State) : State :=
  let s := onSw k (fun x => match t with | .deltaT => { x with dt := false } | .absolute => { x with abs := false }) s
  let x := s.aux.sw[k]
  if x.cmd && !x.on && !x.wait && !x.trip && swFree x then swStart k s else s

/-- AUX_THERMAL_LATCH_CLEAR (R340). -/
def execAuxThermalLatchClear (k : SwIx) (t : ThermTrip) (s : State) : Ans := .next (latchClear k t s)

/-- The firebreak permits the switch: an LS switch restarts only while it does (R341). -/
def swPermitted (s : State) (k : SwIx) : Bool := k.val < 48 || s.fbk.ls.getLsbD (k.val - 48)

/-- AUX_RESTART (R341). -/
def execAuxRestart (k : SwIx) (s : State) : Ans :=
  let x := s.aux.sw[k]
  .next (if x.trip && x.cmd && swFree x && x.retry ≠ 0 && swPermitted s k then
      swStart k (onSw k (fun x => { x with retry := x.retry - 1 }) s)
    else s)

/-- AUX_RETRY_RESTORE (R341). -/
def execAuxRetryRestore (k : SwIx) (s : State) : Ans :=
  .next (if (s.aux.sw[k]).on then onSw k (fun x => { x with retry := 8 }) s else s)

/-! ### Open load, sense and budget (R342 to R345) -/

/-- On-state detection rests (R342). -/
def openRests (s : State) (k : SwIx) : Bool :=
  if k.val < 48 then match seriesLs s k with | some n => !s.fbk.ls.getLsbD n | none => false
  else !((List.finRange 48).any fun j => seriesLs s (hsIx j) = some (k.val - 48) && (s.aux.sw[hsIx j]).on)

/-- AUX_OPEN_LOAD (R342). -/
def openLoad (k : SwIx) (kind : OpenLoad) (s : State) : State :=
  let x := s.aux.sw[k]
  let m := (s.map.aux[k]).olMode
  match kind with
  | .onState =>
    let fine := m = 2 || m = 5
    let ok := x.on && !x.inrush && !openRests s k && (m = 1 || m = 4 || (fine && (s.map.aux[k]).holdDuty = 0))
    if ok && !x.openOn then swEvent k 2 (onSw k (fun x => { x with openOn := true }) s) else s
  | .offState =>
    if !x.on && decide (3 ≤ m) && decide (m ≤ 5) && !x.openOff then swEvent k 2 (onSw k (fun x => { x with openOff := true }) s) else s
  | .externallyDriven =>
    if x.on || !(decide (3 ≤ m) && decide (m ≤ 5)) then s
    else shortStep (onSw k (fun x => { x with ext := true }) s) k
  | .ended => onSw k (fun x => { x with openOn := false, openOff := false, ext := false, short := false }) s

/-- AUX_OPEN_LOAD (R342). -/
def execAuxOpenLoad (k : SwIx) (kind : OpenLoad) (s : State) : Ans := .next (openLoad k kind s)

/-- The sum of the high-side currents in 2.5 mA. -/
def hsSum (s : State) : Nat := (List.finRange 48).foldl (fun a k => a + (s.aux.sw[hsIx k]).sense) 0

/-- AUX_SENSE_CONVERT (R343). -/
def senseConvert (ma : List Nat) (s : State) : State :=
  let put (k : SwIx) (x : Sw) : Sw :=
    let v := ma.getD k.val 0
    { x with sense := min 4095 (2 * v / 5), fine := min 31 (2 * v) }
  let s := { s with aux := { s.aux with sw := Vec.mapIx s.aux.sw put } }
  { s with aux := { s.aux with sums := (hsSum s :: s.aux.sums).take 10 } }

/-- AUX_SENSE_CONVERT (R343). -/
def execAuxSenseConvert (milliAmps : List Nat) (s : State) : Ans := .next (senseConvert milliAmps s)

/-- The shedding order of a class (R345). -/
def shedRank (c : Nat) : Nat := if c = 0 then 0 else 6 - min 5 c

/-- Shed in order until the rest is within 24.0 A (9,600 steps). -/
def shedFrom : List (Fin 48) → Nat → State → State
  | [], _, s => s
  | k :: ks, sum, s =>
    if sum ≤ 9600 then s
    else
      let s' := swEvent (hsIx k) 3 (swOff (hsIx k) (onSw (hsIx k) (fun x => { x with shed := true }) s))
      shedFrom ks (sum - (s.aux.sw[hsIx k]).sense) s'

/-- AUX_BUDGET_SHED (R345): the mean of the last ten sums is above 24.0 A. -/
def budgetShed (s : State) : State :=
  if s.aux.sums.length < 10 || (s.aux.sums.foldl (· + ·) 0) ≤ 96000 then s
  else
    let le (a b : Fin 48) : Bool :=
      let ra := shedRank (s.map.aux[hsIx a]).cls
      let rb := shedRank (s.map.aux[hsIx b]).cls
      ra < rb || (ra = rb && b.val ≤ a.val)
    shedFrom (sortBy le ((List.finRange 48).filter fun k => (s.aux.sw[hsIx k]).on)) (hsSum s) s

/-- AUX_BUDGET_SHED (R345). -/
def execAuxBudgetShed (s : State) : Ans := .next (budgetShed s)

/-! ### Loss of the command frames (R166) -/

/-- AUX_COMMAND_LOSS (R166): every high side holds its last state. -/
def execAuxCommandLoss (s : State) : Ans := .next { s with aux := { s.aux with held := true } }

/-- Every high side is off. -/
def allHsOff (s : State) : State :=
  (List.finRange 48).foldl (fun s k => swTurnOff (hsIx k) (onSw (hsIx k) (fun x => { x with cmd := false, wait := false }) s)) s

/-- AUX_HOLD_EXPIRY (R166). -/
def execAuxHoldExpiry (s : State) : Ans :=
  .next (if s.aux.held then allHsOff { s with aux := { s.aux with held := false } } else s)

/-- AUX_SENSE_j (R344) in mV: the lowest switch that selects it, 0.25 V/A up to 2.0 V; 3.0 V stands for the 3.0 V or more of
a switch with a fault. -/
def auxSenseOut (s : State) (j : Fin 4) : Nat :=
  match (List.finRange 88).find? fun k => (s.aux.sw[k]).senseOut.toNat = j.val + 1 with
  | none => 0
  | some k =>
    let x := s.aux.sw[k]
    if x.oc || x.dt || x.abs || x.locked || x.openOn || x.openOff || x.short then 3000 else min 2000 (5 * x.sense / 8)

/-- AUX_STATUS, read live (R348). (DESIGN CHOICE, entry 18.) -/
def auxStatus (s : State) (k : SwIx) : Nat :=
  let x := s.aux.sw[k]
  let conflict := x.senseOut ≠ 0 && x.senseOut.toNat ≤ 4 &&
    (List.finRange 88).any fun j => j.val < k.val && (s.aux.sw[j]).senseOut = x.senseOut
  bit x.on + 2 * bit x.cmd + 4 * bit x.inrush + 8 * bit x.pwm + 16 * bit x.oc + 32 * bit x.dt + 64 * bit x.abs + 128 * bit x.locked +
    256 * x.retry + 4096 * bit x.openOn + 8192 * bit x.openOff + 16384 * bit x.ext + 32768 * bit x.short + 65536 * bit x.shed +
    131072 * bit (s.aux.held && decide (k.val < 48)) + 262144 * bit conflict + 2 ^ 24 * x.events.toNat

end Sys2Proof.Machine
end

