-- ==== Sys2Proof/Machine/Firebreak.lean ====
section
/-! DEFINITION. The firebreak (chapter 12): accepted inputs, the functions SF1 to SF5, its states, latch reset, the seal
and the brake test. An evaluation takes every effect that R308 gives one cycle of 50 µs. -/

namespace Sys2Proof.Machine

/-- Change the block. -/
def onFbk (f : Fbk → Fbk) (s : State) : State := { s with fbk := f s.fbk }

/-- The code of a state (R306). -/
def FSt.code : FSt → Nat
  | .start => 0 | .held => 1 | .run => 2 | .fault => 3

/-- The interrupt bit of an event (R331, R333). -/
def fbkIntBit (code : Nat) : Option Nat :=
  match code with
  | 1 => some 0 | 2 => some 0 | 3 => some 0 | 4 => some 0 | 5 => some 5 | 8 => some 6 | 10 => some 7 | 11 => some 1 | 12 => some 2
  | 13 => some 3 | 15 => some 4 | 16 => some 9 | 17 => some 8 | _ => none

/-- The outlet fields that act: the new ones, and the old ones while they wait (R330). -/
def outsOf (f : Fbk) (o : OutIx) : List FbkOut :=
  match f.img with
  | none => []
  | some i => i.outs[o] :: f.old[o]

/-- The safety function of an event that is a trip (R153, R311 to R315, R320): SF1 to SF5. -/
def eventFn (code : Nat) : Option Nat :=
  match code with
  | 1 => some 1 | 2 => some 1 | 3 => some 2 | 4 => some 3 | 5 => some 4 | 8 => some 5 | _ => none

/-- The outlets that a trip concerns: those of a zone or of a brake, or the one named. -/
def tripOuts (f : Fbk) (code inst : Nat) (o : OutIx) : Bool :=
  if code ≤ 2 then (outsOf f o).any fun x => x.zone.val = inst
  else if code = 8 then (outsOf f o).any fun x => match x.brake with | some b => b.val = inst | none => false
  else o.val = inst

/-- A trip of an outlet by function n, 0 a state; the first of a frame counts. -/
def markTrip (n : Nat) (s : State) (o : OutIx) : State :=
  if s.live.trips.getLsbD o.val then s
  else { s with
    fbkTripFn := s.fbkTripFn.set o n
    live := { s.live with trips := setBit s.live.trips o.val, tripsSf3 := putBit s.live.tripsSf3 o.val (n = 3) } }

/-- The trips that an event brings. -/
def eventTrips (code inst : Nat) (s : State) : State :=
  match eventFn code with
  | some n => (List.finRange 32).foldl (fun (s : State) o => if tripOuts s.fbk code inst o then markTrip n s o else s) s
  | none => s

/-- A firebreak event: the log of the die, and a non-loop input of rank 0 (R331). -/
def fbkEvent (code inst : Nat) (s : State) : State :=
  let f := s.fbk
  let e : FbkLog := { time := BitVec.ofNat 32 (auxTime s), code := code, inst := inst, seq := f.logSeq, ls := ~~~f.ls, stop := f.stop, st := f.st.code }
  let s := onFbk (fun f => { f with
    log := f.log.set f.logNext.toFin e, logNext := f.logNext + 1, logSeq := f.logSeq + 1,
    trips := if 1 ≤ code ∧ code ≤ 5 then f.trips + 1 else f.trips
    intStatus := match fbkIntBit code with | some b => setBit f.intStatus b | none => f.intStatus }) s
  let s := eventTrips code inst s
  { s with arrived := s.arrived ++ [.asyncEvent { rank := 0, code := code, inst := inst, stamp := auxTime s }] }

/-! ### Inputs -/

/-- The firebreak's own reading of K_n (R150, R308): open only where both poles are accepted open. (DEDUCED, entry 45.) -/
def fbkOpen (s : State) (o : OutIx) : Bool :=
  let f := s.fbk
  f.kPok.getLsbD o.val && f.kNok.getLsbD o.val && !f.kP.getLsbD o.val && !f.kN.getLsbD o.val

/-- Zone z takes part (R311). -/
def zoneOn (f : Fbk) (z : Fin 8) : Bool := f.acc.getLsbD (40 + z.val)

/-- Zone z blocks: disabled or latched. -/
def zoneBlocks (f : Fbk) (z : Fin 8) : Bool := !zoneOn f z || (f.zone[z]).latch

/-- The safety fields in force. -/
def fbkSafety (f : Fbk) : SafetyCfg := match f.img with | some i => i.safety | none => {}

/-- The guard of leaving HELD (R307). -/
def heldGuard (f : Fbk) : Bool := f.intact && f.sealValid && f.img.isSome && f.imgOk

/-- The image and the seal that let START go to HELD (R307). -/
def tryHeld (s : State) : State :=
  let f := s.fbk
  if f.st = .start && f.vaux && f.selfPass && f.sealValid && f.img.isSome then
    fbkEvent 16 1 (onFbk (fun f => { f with st := .held, fromStart := true }) s)
  else s

/-! ### Brakes (R317 to R320) -/

/-- Cycles in an hour. -/
def fbkHour : Nat := 72000000

/-- test_interval in cycles (R318, R322). -/
def testInterval (f : Fbk) : Nat :=
  let h := sealHours (field f.acc.toNat 52 4)
  fbkHour * (match (fbkSafety f).interval with | some i => min i h | none => h)

/-- Brake b is present (R317). -/
def brkPresent (f : Fbk) (b : Fin 8) : Bool := f.acc.getLsbD (32 + b.val)

/-- LS_(32+b) is open (R317). -/
def brkApplied (f : Fbk) (b : Fin 8) : Bool :=
  let x := f.brk[b]
  !brkPresent f b || (match (fbkSafety f).brakeZone[b] with | some z => zoneBlocks f z | none => true) || x.phase ≠ 0 || x.failed || x.overdue

/-- R317 holds the LS_n of a dependent outlet: an overdue test waits for K_n to read open. -/
def brkHolds (s : State) (b : Fin 8) (o : OutIx) : Bool :=
  let f := s.fbk
  let x := f.brk[b]
  !brkPresent f b || (match (fbkSafety f).brakeZone[b] with | some z => zoneBlocks f z | none => true) || x.phase ≠ 0 || x.failed ||
    (x.overdue && fbkOpen s o)

/-- Change a brake. -/
def onBrk (b : Fin 8) (g : FbkBrk → FbkBrk) (s : State) : State := onFbk (fun f => { f with brk := Vec.upd f.brk b g }) s

/-- The outlets that depend on a brake. -/
def brkOutlets (f : Fbk) (b : Fin 8) : List OutIx := (List.finRange 32).filter fun o => (outsOf f o).any fun x => x.brake = some b

/-- Due and overdue by time (R318). -/
def brkAge (f : Fbk) (b : Fin 8) : Bool × Bool :=
  let iv := testInterval f
  match (f.brk[b]).last with
  | none => (true, decide (iv ≤ f.t))
  | some p => (decide (p + iv ≤ f.t), decide (p + 2 * iv ≤ f.t))

/-- A test that becomes overdue is an event where the brake is present. -/
def brkLate (fresh : Bool) (b : Fin 8) (s : State) : State := if fresh && brkPresent s.fbk b then fbkEvent 10 b.val s else s

/-- The marks of a brake by time (R318). -/
def brkTimes (s : State) (b : Fin 8) : State :=
  let a := brkAge s.fbk b
  brkLate (a.2 && !(s.fbk.brk[b]).overdue) b (onBrk b (fun x => { x with due := x.due || a.1, overdue := x.overdue || a.2 }) s)

/-- What aborts a running test (R319): an SF1 demand of the zone, the release switch, or HELD. -/
def brkAborted (s : State) (b : Fin 8) : Bool :=
  let zone := match (fbkSafety s.fbk).brakeZone[b] with | some z => zoneOn s.fbk z && (s.fbk.zone[z]).dem | none => false
  (s.fbk.brk[b]).phase ≠ 0 && (s.fbk.st ≠ .run || zone || brakeHs s b)

/-- A running test is aborted (R319). -/
def brkAbort (s : State) (b : Fin 8) : State :=
  if brkAborted s b then fbkEvent 9 b.val (onBrk b (fun x => { x with phase := 0, aborts := x.aborts + 1, due := true }) s)
  else s

/-! ### The functions (R311 to R316) -/

/-- Change a zone. -/
def onZone (z : Fin 8) (g : FbkZone → FbkZone) (s : State) : State := onFbk (fun f => { f with zone := Vec.upd f.zone z g }) s

/-- A zone enters discrepancy (R312). -/
def zoneDisc (z : Fin 8) (s : State) : State :=
  let x := s.fbk.zone[z]
  if !zoneOn s.fbk z || x.disc then s
  else fbkEvent 2 z.val (onZone z (fun x => { x with disc := true, cyc := true, cycLow := false, latch := true, discs := x.discs + 1 }) s)

/-- A new demand of a zone is an event. -/
def zoneDemand (fresh : Bool) (z : Fin 8) (s : State) : State := if fresh then fbkEvent 1 z.val s else s

/-- Two inputs that differ for longer than the time of R312. -/
def zoneLate (run : Nat) (z : Fin 8) (s : State) : State :=
  if 200 * (fbkSafety s.fbk).discTime < run then zoneDisc z s else s

/-- SF1 on a zone. -/
def zoneEval (adv : Bool) (s : State) (z : Fin 8) : State :=
  let f := s.fbk
  let a := f.estopA.getLsbD z.val
  let b := f.estopB.getLsbD z.val
  let x := f.zone[z]
  let low := !a && !b
  let done := x.cyc && (x.cycLow || low) && a && b
  let run := if a = b then 0 else x.diffRun + bit adv
  let dem := !a || !b
  let fresh := dem && !x.dem
  if zoneOn f z then
    zoneLate run z (zoneDemand fresh z (onZone z (fun x => { x with
      latch := x.latch || dem, dem := dem, demands := if fresh then x.demands + 1 else x.demands, diffRun := run, disc := x.disc && a != b,
      cycLow := x.cyc && (x.cycLow || low) && !done, cyc := x.cyc && !done }) s))
  else onZone z (fun x => { x with dem := false, diffRun := 0 }) s

/-- SF2 on an outlet. -/
def sf2Eval (s : State) (o : OutIx) : State :=
  let f := s.fbk
  let n := o.val
  if (outsOf f o).any (·.enabled) && !f.otc.getLsbD n && !f.otcL.getLsbD n then
    fbkEvent 3 n (onFbk (fun f => { f with otcL := setBit f.otcL n }) s)
  else s

/-- SF3 on an outlet. -/
def sf3Eval (s : State) (o : OutIx) : State :=
  let f := s.fbk
  let n := o.val
  if !f.imd.getLsbD n && !fbkOpen s o && !f.imdL.getLsbD n then
    fbkEvent 4 n (onFbk (fun f => { f with imdL := setBit f.imdL n }) s)
  else s

/-- SF2 and SF3 on an outlet. -/
def sf23 (s : State) (o : OutIx) : State := sf3Eval (sf2Eval s o) o

/-- Set a weld latch (R315). -/
def weldLatch (o : OutIx) (s : State) : State :=
  if s.fbk.weldL.getLsbD o.val then s
  else fbkEvent 5 o.val (onFbk (fun f => { f with weldL := setBit f.weldL o.val, weldArm := clrBit f.weldArm o.val }) s)

/-- SF4 on an outlet: detection, and the run of "open" after an arm (R316). -/
def weldEval (adv : Bool) (s : State) (o : OutIx) : State :=
  let f := s.fbk
  let n := o.val
  let isOpen := fbkOpen s o
  let held := !f.ls.getLsbD n
  let run := if held && !isOpen then f.weldRun[o] + bit adv else 0
  let orun := if isOpen && f.weldArm.getLsbD n then f.openRun[o] + bit adv else 0
  let s := onFbk (fun f => { f with weldRun := f.weldRun.set o run, openRun := f.openRun.set o orun,
                                    weldArm := if !isOpen && f.openRun[o] ≠ 0 then clrBit f.weldArm n else f.weldArm }) s
  if 200 * (fbkSafety f).weldTime ≤ run then weldLatch o s else s

/-! ### Outputs (R306, R321, R324) -/

/-- LS_n is closed for an outlet. -/
def lsOutlet (s : State) (o : OutIx) : Bool :=
  let f := s.fbk
  let n := o.val
  f.st = .run && f.vaux && f.acc.getLsbD n && !f.otcL.getLsbD n && !f.imdL.getLsbD n && !f.weldL.getLsbD n &&
    (match outsOf f o with | [] => false | x :: _ => x.enabled) &&
    (outsOf f o).all fun x => !zoneBlocks f x.zone && (match x.brake with | some b => !brkHolds s b o | none => true)

/-- SAFE_STOP_c is at stop (R321). -/
def stopOf (f : Fbk) (c : Nat) : Bool :=
  f.st ≠ .run || !f.vaux || (List.finRange 8).any fun z =>
    zoneOn f z && (f.zone[z]).latch && ((fbkSafety f).zoneClusters[z]).getLsbD c

/-- Drive the low sides: each follows the firebreak and its own protection. -/
def lsDrive (want : BitVec 40) (s : State) : State :=
  let put (k : SwIx) (x : Sw) : Sw :=
    if k.val < 48 then x
    else
      let w := want.getLsbD (k.val - 48)
      if w = x.cmd then x
      else if w then { x with cmd := true, on := swFree x && !x.trip }
      else { x with cmd := false, on := false, inrush := false, retry := if x.trip then 8 else x.retry, trip := false }
  { s with aux := { s.aux with sw := Vec.mapIx s.aux.sw put } }

/-- The switch state that the control die latches for pass 4 (R18, R44): the accepted seal, and until a first one is accepted
after START the last valid read of the bank. -/
def sealLatched (f : Fbk) : BitVec 64 :=
  if f.st = .start || (f.st = .held && f.fromStart) then (if f.sealValid then f.sealRead else 0) else f.acc

/-- The copy of the firebreak's registers that the control die reads (R303). -/
def fbkCopy (s : State) : State :=
  let f := s.fbk
  let bits (p : Fin 32 → Bool) : BitVec 32 := (List.finRange 32).foldl (fun (w : BitVec 32) i => if p i then setBit w i.val else w) 0
  let okk (o : Fin 32) : Bool := f.kPok.getLsbD o.val && f.kNok.getLsbD o.val
  let closed : BitVec 40 := (List.range 40).foldl (fun (w : BitVec 40) i =>
    if (match optFin 88 (48 + i) with | some k => (s.aux.sw[k]).on | none => false) then setBit w i else w) 0
  { s with live := { s.live with
    fbkHeld := f.st ≠ .run, kfbP := bits fun o => if okk o then f.kP.getLsbD o.val else true,
    kfbN := bits fun o => okk o && f.kN.getLsbD o.val, lsClosed := closed, weldLatch := f.weldL, imdOk := f.imd,
    otcHot := ~~~f.otc, sealAcc := sealLatched f } }

/-- The low side of index i is closed: an outlet's, or a brake's. -/
def lsAsked (s : State) (i : Nat) : Bool :=
  match optFin 32 i, optFin 8 (i - 32) with
  | some o, _ => lsOutlet s o
  | none, some b => s.fbk.st = .run && s.fbk.vaux && !brkApplied s.fbk b
  | none, none => false

/-- LS_00 to LS_39 as the functions ask for them. -/
def lsWant (s : State) : BitVec 40 :=
  (List.range 40).foldl (fun (w : BitVec 40) i => cond (lsAsked s i) (setBit w i) w) 0

/-- SAFE_STOP_00 to SAFE_STOP_11. -/
def stopWant (f : Fbk) : BitVec 12 :=
  (List.range 12).foldl (fun (w : BitVec 12) c => cond (stopOf f c) (setBit w c) w) 0

/-- An LS_n that opens because the firebreak left RUN, or its supply went, is a trip of its outlet (R45, R307). -/
def lsTrip (want : BitVec 40) (s : State) (o : OutIx) : State :=
  if (s.fbk.st ≠ .run || !s.fbk.vaux) && s.fbk.ls.getLsbD o.val && !want.getLsbD o.val then markTrip 0 s o else s

/-- Form the outputs. -/
def fbkOutputs (s : State) : State :=
  let want := lsWant s
  let s := (List.finRange 32).foldl (lsTrip want) s
  fbkCopy (lsDrive want (onFbk (fun f => { f with ls := want, stop := stopWant f }) s))

/-- One evaluation; `adv` counts the cycle. (DEDUCED, entry 46.) -/
def fbkEval (adv : Bool) (s : State) : State :=
  if !s.fbk.vaux then fbkOutputs s
  else
    let s := if adv then onFbk (fun f => { f with t := f.t + 1 }) s else s
    -- the old fields of an amended outlet end when its contactor is open
    let s := onFbk (fun f => { f with old := Vec.mapIx f.old fun o x => if fbkOpen s o then [] else x }) s
    let active := s.fbk.st = .held || s.fbk.st = .run
    let s := if active then (List.finRange 32).foldl sf23 ((List.finRange 8).foldl (zoneEval adv) s) else s
    let s := (List.finRange 32).foldl (weldEval adv) s
    let s := (List.finRange 8).foldl (fun s b => brkAbort (brkTimes s b) b) s
    fbkOutputs s

/-- A step of the firebreak by itself, with the evaluation of its cycle. -/
def fbkDo (f : State → State) (s : State) : Ans := .next (fbkEval false (f s))

/-! ### States (R307) -/

/-- Leave HELD for RUN: the read seal becomes the accepted one, and the control die repeats passes 4 and 5 (R45, R328). -/
def toRun (s : State) : State :=
  let changed := s.fbk.acc ≠ s.fbk.sealRead
  let s := onFbk (fun f => { f with st := .run, acc := f.sealRead, fromStart := false, sealFault := false, sealChanged := false,
                                    sealEq := 0, thermal := false }) s
  let s := { s with smp := { s.smp with resealPending := true } }
  fbkEvent 16 2 (if changed then fbkEvent 14 0 s else s)

/-- RUN to HELD. -/
def toHeld (f : Fbk → Fbk) (s : State) : State :=
  if s.fbk.st = .run then fbkEvent 16 1 (onFbk (fun x => { f x with st := .held, fromStart := false }) s) else s

/-- Any state to FAULT. -/
def toFault (cause : Nat) (s : State) : State :=
  if s.fbk.st = .fault then s
  else fbkEvent 16 3 (fbkEvent 17 cause (onFbk (fun f => { f with st := .fault, cause := cause }) s))

/-- START with the automatic mode (R307). -/
def autoRun (s : State) : State :=
  if s.fbk.st = .held && s.fbk.fromStart && (fbkSafety s.fbk).startMode && heldGuard s.fbk then toRun s else s

/-- FBK_EVAL_CYCLE (R308). -/
def execFbkEvalCycle (s : State) : Ans := .next (fbkEval true (if s.fbk.vaux then autoRun s else s))

/-- AUTO_START_RUN (R307). -/
def execAutoStartRun (s : State) : Ans := fbkDo autoRun s

/-- FBK_SELF_TEST (R307). -/
def execFbkSelfTest (ok : Bool) (s : State) : Ans :=
  fbkDo (fun s =>
    if s.fbk.st ≠ .start then s
    else if ok then tryHeld (onFbk (fun f => { f with selfPass := true, cyclicOk := true }) s)
    else toFault 1 (onFbk (fun f => { f with lastFail := 1 }) s)) s

/-- The safety image that the control die sends (R330), from the map in force. -/
def buildImg (s : State) : FbkImg :=
  let c := s.map.safety
  let zc (z : Fin 8) : List Byte := leBytes 2 (c.zoneClusters[z]).toNat
  let bz (b : Fin 8) : List Byte := leBytes 1 (match c.brakeZone[b] with | some z => z.val | none => 0xFF)
  let pay := ((List.finRange 8).map zc).flatten ++ ((List.finRange 8).map bz).flatten ++ leBytes 1 (c.interval.getD (sealHours (field s.live.sealAcc.toNat 52 4))) ++
    leBytes 1 c.discTime ++ leBytes 1 c.imdFilter ++ leBytes 1 c.weldTime ++ leBytes 2 c.brkThreshold ++ leBytes 2 c.testTime ++
    leBytes 1 (bit c.startMode) ++ leBytes 1 c.brakeIdle ++ List.replicate 30 0
  { safety := c, pay := pay, outs := s.map.out.map fun o => { enabled := o.conn ≠ 0, zone := o.zone, brake := o.brake, mast := o.mast } }

/-- The image arrives; for an outlet whose contactor is not open the old fields act too (R330). -/
def imgLoad (s : State) : State :=
  let new := buildImg s
  let old (o : OutIx) (x : List FbkOut) : List FbkOut :=
    match s.fbk.img with
    | some i => if fbkOpen s o then [] else if i.outs[o] = new.outs[o] then x else i.outs[o] :: x
    | none => []
  tryHeld (onFbk (fun f => { f with img := some new, imgOk := true, old := Vec.mapIx f.old old }) s)

/-- SAFETY_IMAGE_LOAD (R330). -/
def execSafetyImageLoad (s : State) : Ans := fbkDo imgLoad s

/-- IMAGE_CRC_CHECK (R303, R307). -/
def execImageCrcCheck (ok : Bool) (s : State) : Ans :=
  fbkDo (fun s =>
    let s := onFbk (fun f => { f with imgOk := ok }) s
    if ok then s else toHeld id s) s

/-- LS_PULSE_TEST (R305): every closed LS_nn must read back. -/
def execLsPulseTest (readback : BitVec 40) (s : State) : Ans :=
  fbkDo (fun s =>
    if s.fbk.st ≠ .run then s
    else
      let s := onFbk (fun f => { f with offTests := f.offTests + 1 }) s
      if s.fbk.ls &&& ~~~readback = 0 then s
      else toFault 5 (onFbk (fun f => { f with cyclicOk := false, lastFail := 5 }) s)) s

/-- FBK_CHANNEL_DISCREPANCY (R305, R307). -/
def execFbkChannelDiscrepancy (kind : FbkFaultKind) (s : State) : Ans :=
  let c := match kind with | .discrepancy => 2 | .readback => 5 | .clockMonitor => 4
  fbkDo (fun s => toFault c (onFbk (fun f => { f with cyclicOk := false, lastFail := c }) s)) s

/-- A new START (R307, R308, R318, R320): only the image, the fail latches, the log and the counts stay. -/
def fbkStart (s : State) : State :=
  let f := s.fbk
  onFbk (fun _ => { img := f.img, imgOk := f.imgOk, log := f.log, logNext := f.logNext, logSeq := f.logSeq, logSel := f.logSel, logData := f.logData,
                    intStatus := f.intStatus, intEnable := f.intEnable, trips := f.trips, resets := f.resets, cause := f.cause,
                    ls := f.ls, brk := f.brk.map fun x => { failed := x.failed, again := x.failed, passes := x.passes, aborts := x.aborts } }) s

/-- VAUX_OUT_OF_WINDOW (R307): the outputs are unpowered; with the supply back the firebreak starts again. -/
def execVauxOutOfWindow (back : Bool) (s : State) : Ans :=
  fbkDo (fun s =>
    if back then (if s.fbk.vaux then s else fbkStart s)
    else allHsOff (onFbk (fun f => { f with vaux := false, cause := 3, st := .start }) s)) s

/-- FBK_THERMAL_HOLD (R307). -/
def execFbkThermalHold (s : State) : Ans := fbkDo (toHeld fun f => { f with thermal := true }) s

/-! ### Inputs and detections -/

/-- The level of an input is accepted. -/
def acceptIn (i : FbkIn) (v : Bool) (f : Fbk) : Fbk :=
  match i with
  | .estopA z => { f with estopA := putBit f.estopA z.val v }
  | .estopB z => { f with estopB := putBit f.estopB z.val v }
  | .otc n => { f with otc := putBit f.otc n.val v }
  | .imd n => { f with imd := putBit f.imd n.val v }
  | .kfbP n => { f with kP := putBit f.kP n.val v, kPok := setBit f.kPok n.val }
  | .kfbN n => { f with kN := putBit f.kN n.val v, kNok := setBit f.kNok n.val }
  | .reset => { f with resetIn := some v, jammed := if f.resetIn.isNone then v else f.jammed && v }
  | .sealIntact => { f with intact := v }

/-- FBK_INPUT_ACCEPT (R308); the seal contact going low is an event (R328). -/
def execFbkInputAccept (i : FbkIn) (level : Bool) (s : State) : Ans :=
  fbkDo (fun s =>
    if !s.fbk.vaux then s
    else
      let fell := i = .sealIntact && s.fbk.intact && !level
      let s := onFbk (acceptIn i level) s
      if fell then fbkEvent 15 1 s else s) s

/-- ZONE_DISCREPANCY (R312). -/
def execZoneDiscrepancy (z : Fin 8) (s : State) : Ans :=
  fbkDo (fun s => if s.fbk.estopA.getLsbD z.val != s.fbk.estopB.getLsbD z.val then zoneDisc z s else s) s

/-- WELD_DETECT (R315). -/
def execWeldDetect (o : OutIx) (s : State) : Ans :=
  fbkDo (fun s => if !s.fbk.ls.getLsbD o.val && !fbkOpen s o then weldLatch o s else s) s

/-- WELD_NOTIFY (R304): the notification of R160 sets the latch. -/
def execWeldNotify (o : OutIx) (s : State) : Ans :=
  fbkDo (fun s => weldLatch o { s with fbkWeldNote := clrBit s.fbkWeldNote o.val }) s

/-! ### Latch reset (R325, R326) -/

/-- What a reset edge pair clears in its cycle. -/
def resetAll (s : State) : State :=
  let f := s.fbk
  let z (i : Fin 8) (x : FbkZone) : FbkZone :=
    if f.estopA.getLsbD i.val && f.estopB.getLsbD i.val && !x.cyc then { x with latch := false, disc := false } else x
  let wt := 200 * (fbkSafety f).weldTime
  let freed (o : OutIx) : Bool := f.weldL.getLsbD o.val && f.weldArm.getLsbD o.val && decide (wt ≤ f.openRun[o])
  let b (_ : Fin 8) (x : FbkBrk) : FbkBrk := if x.failed && x.retestOk then { x with failed := false, repair := false, retestOk := false } else x
  let s := onFbk (fun f => { f with zone := Vec.mapIx f.zone z, otcL := f.otcL &&& ~~~f.otc, imdL := f.imdL &&& ~~~f.imd,
                                    brk := Vec.mapIx f.brk b }) s
  let s := (List.finRange 32).foldl (fun s o =>
    if freed o then fbkEvent 6 o.val (onFbk (fun f => { f with weldL := clrBit f.weldL o.val, weldArm := clrBit f.weldArm o.val }) s) else s) s
  if s.fbk.st = .held && heldGuard s.fbk then toRun s else s

/-- RESET_EDGE_PAIR (R325): a press of 50 ms to 3 s, released. -/
def execResetEdgePair (ms : Nat) (s : State) : Ans :=
  fbkDo (fun s =>
    let ok := decide (50 ≤ ms) && decide (ms ≤ 3000) && !s.fbk.jammed && (s.fbk.st = .held || s.fbk.st = .run)
    let s := onFbk (fun f => { f with resetLen := min 511 (ms / 10), resetAcc := ok, resetIn := some false, jammed := false }) s
    if ok then fbkEvent 11 0 (resetAll (onFbk (fun f => { f with resets := f.resets + 1 }) s)) else s) s

/-- RESET_JAMMED (R325). -/
def execResetJammed (s : State) : Ans :=
  fbkDo (fun s => if s.fbk.jammed then s else fbkEvent 12 0 (onFbk (fun f => { f with jammed := true, resetLen := 300, resetAcc := false }) s)) s

/-! ### Sealed switches (R327, R328) -/

/-- SEAL_READ (R327). -/
def sealRead (direct inverted : BitVec 64) (s : State) : State :=
  let f := s.fbk
  let incons := inverted ≠ ~~~direct
  let rsvd := field direct.toNat 56 8 ≠ 0
  let ok := !incons && !rsvd
  let eq := if !ok || direct = f.acc then 0 else if f.sealEq ≠ 0 && direct = f.sealRead then min 3 (f.sealEq + 1) else 1
  let bad := if ok then 0 else f.badRun + 1
  let s := onFbk (fun f => { f with
    sealRead := direct, sealValid := ok, sealIncons := incons, sealRsvd := rsvd, sealEq := eq, badRun := bad,
    badReads := if ok then f.badReads else f.badReads + 1 }) s
  if f.st = .run && eq = 3 then toHeld (fun f => { f with sealChanged := true }) (fbkEvent 13 0 s)
  else if f.st = .run && decide (3 ≤ bad) then toHeld (fun f => { f with sealFault := true }) (fbkEvent 15 0 s)
  else tryHeld s

/-- SEAL_READ (R327). -/
def execSealRead (direct inverted : BitVec 64) (s : State) : Ans :=
  fbkDo (fun s => if s.fbk.vaux then sealRead direct inverted s else s) s

/-! ### The brake test (R318 to R320) -/

/-- BRAKE_TEST_DUE (R318). -/
def execBrakeTestDue (b : Fin 8) (s : State) : Ans := fbkDo (onBrk b fun x => { x with due := true }) s

/-- BRAKE_TEST_OVERDUE (R318). -/
def execBrakeTestOverdue (b : Fin 8) (s : State) : Ans :=
  fbkDo (fun s => if (s.fbk.brk[b]).overdue then s else fbkEvent 10 b.val (onBrk b (fun x => { x with overdue := true }) s)) s

/-- The brake is idle but for its edges, which the start of a test presumes (R319). -/
def brkIdle (s : State) (b : Fin 8) : Bool := !brakeHs s b && (brkOutlets s.fbk b).all fun o => fbkOpen s o

/-- BRAKE_TEST_START (R319): a due test, or the retest of a repaired brake. -/
def execBrakeTestStart (b : Fin 8) (s : State) : Ans :=
  fbkDo (fun s =>
    let x := s.fbk.brk[b]
    if s.fbk.st = .run && brkPresent s.fbk b && x.phase = 0 && brkIdle s b && (if x.failed then x.again || (x.repair && !x.retestOk) else x.due) then
      onBrk b (fun x => { x with phase := 1 }) s
    else s) s

/-- BRAKE_TEST_TORQUE (R319). -/
def execBrakeTestTorque (b : Fin 8) (s : State) : Ans :=
  fbkDo (onBrk b fun x => if x.phase = 1 then { x with phase := 2 } else x) s

/-- BRAKE_TEST_RELEASE (R319). -/
def execBrakeTestRelease (b : Fin 8) (s : State) : Ans :=
  fbkDo (onBrk b fun x => if x.phase = 2 then { x with phase := 3 } else x) s

/-- BRAKE_TEST_EVALUATE (R319, R320). -/
def execBrakeTestEvaluate (b : Fin 8) (edges : Nat) (s : State) : Ans :=
  fbkDo (fun s =>
    let x := s.fbk.brk[b]
    if x.phase ≠ 3 then s
    else if edges ≤ (fbkSafety s.fbk).brkThreshold then
      fbkEvent 7 b.val (onBrk b (fun x => { x with
        phase := 0, edges := BitVec.ofNat 16 edges, last := some s.fbk.t, due := false, overdue := false, passes := x.passes + 1,
        retestOk := x.failed && x.repair, again := false }) s)
    else
      fbkEvent 8 b.val (onBrk b (fun x => { x with
        phase := 0, edges := BitVec.ofNat 16 edges, failed := true, repair := false, retestOk := false, again := false }) s)) s

/-! ### Host commands (R304, R333) -/

/-- Arm the weld release of an outlet (R316). -/
def weldArm (o : OutIx) (s : State) : State :=
  if s.fbk.weldL.getLsbD o.val then onFbk (fun f => { f with weldArm := setBit f.weldArm o.val, openRun := f.openRun.set o 0 }) s else s

/-- FBK_WELD_ARM (R316). -/
def execFbkWeldArm (o : OutIx) (s : State) : Ans := whenOn s.isl.ctl s fun s => fbkEval false (weldArm o s)

/-- FBK_BRK_TEST (R318). -/
def brkTestNow (b : Fin 8) (s : State) : State := onBrk b (fun x => { x with due := true }) s

/-- FBK_BRK_TEST (R318). -/
def execFbkBrkTest (b : Fin 8) (s : State) : Ans := whenOn s.isl.ctl s fun s => fbkEval false (brkTestNow b s)

/-- FBK_BRK_REPAIR (R320). -/
def brkRepair (b : Fin 8) (s : State) : State :=
  onBrk b (fun x => if x.failed then { x with repair := true, retestOk := false } else x) s

/-- FBK_BRK_REPAIR (R320). -/
def execFbkBrkRepair (b : Fin 8) (s : State) : Ans := whenOn s.isl.ctl s fun s => fbkEval false (brkRepair b s)

/-- A write of FBK_LOG_SEL snapshots the entry (R333). -/
def fbkLogSel (val : Word) (s : State) : State :=
  let k : BitVec 5 := val.setWidth 5
  onFbk (fun f => { f with logSel := k, logData := f.log[k.toFin] }) s

/-- FBK_LOG_SEL_WRITE (R333). -/
def execFbkLogSelWrite (val : Word) (s : State) : Ans := .next (fbkLogSel val s)

end Sys2Proof.Machine
end

