-- ==== Sys2Proof/Machine/StandMap.lean ====
section
/-! DEFINITION. The stand map in operation (chapter 2): the clamp report, loading, the seal re-application, amendments
and flash writes. -/

namespace Sys2Proof.Machine

/-- Change the block. -/
def onSmp (f : Smp → Smp) (s : State) : State := { s with smp := f s.smp }

/-- Set a bit of SMP_INT_STATUS, with the event of rank 4 that carries it (R442). -/
def smpEvent (b data : Nat) (s : State) : State :=
  raise (onSmp (fun m => { m with intStatus := setBit m.intStatus b }) s) { rank := 4, code := b + 1, data := data }

/-! ### The clamp report (R43) -/

/-- The entry is of a claim that fell to none (R48, R49); the cooling mask that a lost slot timer takes along is no claim. -/
def ClampEntry.lostClaim (e : ClampEntry) : Bool := (e.flags / 4 % 2 = 1 || e.flags / 16 % 2 = 1) && e.id ≠ 0x80D

/-- One entry: stored while there is room, counted, and journaled as an event of rank 4. -/
def addClamp (s : State) (e : ClampEntry) : State :=
  let s := onSmp (fun m => { m with
    report := if m.report.length < 256 then m.report ++ [e] else m.report, clampOver := m.clampOver || decide (256 ≤ m.report.length),
    clampCount := min 0xFFFFFFFF (m.clampCount + 1), claimsLost := if e.lostClaim then m.claimsLost + 1 else m.claimsLost,
    sealLimited := m.sealLimited || e.flags / 2 % 2 = 1 }) s
  raise s { rank := 4, code := 0, num := e.amend, data := e.off }

/-- Entries, in their order. -/
def addClamps (es : List ClampEntry) (s : State) : State := es.foldl addClamp s

/-- The bytes of an entry (R43). -/
def clampBytes (e : ClampEntry) : List Byte :=
  leBytes 4 e.off ++ leBytes 2 e.id ++ leBytes 1 (e.flags % 256 + (if e.given < 2 ^ 32 && e.applied < 2 ^ 32 then 0 else 1)) ++ leBytes 1 e.amend ++
    leBytes 4 e.given ++ leBytes 4 e.applied

/-- A write of SMP_CLAMP_SEL snapshots the entry (R55). -/
def clampSel (val : Word) (s : State) : State :=
  let k : BitVec 8 := val.setWidth 8
  onSmp (fun m => { m with
    clampSel := k, clampData := match m.report[k.toNat]? with | some e => clampBytes e | none => List.replicate 16 0 }) s

/-- CLAMP_SEL_WRITE (R55). -/
def execClampSelWrite (val : Word) (s : State) : Ans := whenOn s.isl.ctl s (clampSel val)

/-! ### Passes 2 to 5 and the map in force (R41) -/

/-- What passes 2 to 5 give from the records after pass 1. -/
structure Applied where
  recs : List Rec
  ents : List ClampEntry
  lost : List (Nat × Nat × Nat)
  own : List (Nat × Res)
  pulse : Vector (Option (Nat × Fin 16)) 33

/-- Passes 2 to 5 under a seal. -/
def runPasses (recs : List Rec) (sw : BitVec 64) (lost : List (Nat × Nat × Nat)) (kept : Vector (Option (Nat × Fin 16)) 33) : Applied :=
  let x := pass5 (pass4 (pass3 (pass2 { recs := recs })) sw) lost kept
  { recs := x.p.recs, ents := x.p.ents, lost := x.lost, own := x.own, pulse := x.pulse }

/-- The timers claimed, pulse outputs among them (R55). -/
def timersOf (a : Applied) : BitVec 16 :=
  a.own.foldl (fun (w : BitVec 16) x => match x.2 with | .timer t => setBit w t | _ => w) 0

/-- The granules that no area holds (R55). -/
def granulesFree (a : Applied) : Nat :=
  1024 - a.own.foldl (fun n x => match x.2 with | .granules _ sz => n + sz | _ => n) 0

/-- A channel that is settled or moving, and that a new map does not keep an OUTLET channel, keeps its old record until its
withdrawal ends (R52). -/
def keepsOld (old new : SiteMap) (hand : Vector Hand 96) (c : ChIx) : Bool :=
  let h := hand[c]
  (new.ch[c]).kind ≠ 2 && (old.ch[c]).kind = 2 && !(h.st = .out || h.st = .idle)

/-- The channels that leave service while their withdrawal runs (R52). -/
def keepGoing (old new : SiteMap) (hand : Vector Hand 96) : SiteMap :=
  { new with
    ch := Vec.mapIx new.ch fun c x => if keepsOld old new hand c then { old.ch[c] with going := true } else x
    chNext := Vec.mapIx new.ch fun c x => if keepsOld old new hand c then some x else none }

/-- The power-line modem cores in ascending outlet index (R172). -/
def modemsOf (m : SiteMap) : Vector (Option (Fin 16)) 32 :=
  Vector.ofFn fun o =>
    if m.out[o].conn ≠ 0 && m.out[o].link = 2 then
      optFin 16 ((List.finRange 32).filter fun p => p.val < o.val && m.out[p].conn ≠ 0 && m.out[p].link = 2).length
    else none

/-- The outlet is IDLE or OUT_OF_SERVICE. -/
def outletRests (s : State) (o : OutIx) : Bool := s.fl.osq[o].st = .idle || s.fl.osq[o].st = .outOfService

/-- A core that serves a busy outlet keeps its port (R172). -/
def modemHeld (s : State) (o : OutIx) : Bool := !outletRests s o && s.vlk[o].modem.isSome

/-- Put the cores in place: the free cores in ascending order to the other ports that are power-line. (DEDUCED, entry 87.) -/
def setModems (s : State) : State :=
  let held (k : Fin 16) : Bool := (List.finRange 32).any fun o => modemHeld s o && s.vlk[o].modem = some k
  let free := (List.finRange 16).filter fun k => !held k
  let wants (o : OutIx) : Bool := s.map.out[o].conn ≠ 0 && s.map.out[o].link = 2 && !modemHeld s o
  let core (o : OutIx) : Option (Fin 16) :=
    if modemHeld s o then s.vlk[o].modem
    else if wants o then free[((List.finRange 32).filter fun p => p.val < o.val && wants p).length]? else none
  { s with vlk := Vec.mapIx s.vlk fun o v => { v with modem := core o } }

/-- A map takes force: the block keeps what the registers show, and the changes against the run before are reported. -/
def takeMap (base : List Rec) (sw : BitVec 64) (a : Applied) (s : State) : State :=
  let before := s.smp.ents
  let s := onSmp (fun m => { m with
    recs := base, lost := a.lost, pulseTimer := a.pulse, timers := timersOf a, landingFree := granulesFree a, sealApplied := sw,
    ents := a.ents }) s
  addClamps (a.ents.diff before) s

/-- The hash over the full map and its amendments (R55). -/
def activeHashOf (m : Smp) : List Byte := hashBytes (Config.sha384 (m.hash ++ m.amendHashes.flatten))

/-! ### Loading (R39) -/

/-- The enrolled verification key, none where it does not match its row (R379). -/
def mapKey (s : State) : Option (List Byte) := if smpKeyOk s then some s.hwd.smpKey else none

/-- The structural checks of an image under the own serial and key. -/
def checkOwn (s : State) (img : List Byte) (readFail : Option Nat) (amendment : Bool) : Except (Nat × Nat) (List Rec) :=
  checkImage img readFail amendment (serialBytes s) (mapKey s)

/-- The records of an amendment carry its number, and replace the whole record of their type and number (R50). They stand
behind the records of the map and of earlier amendments in the order of R41. (DESIGN CHOICE, entry 85.) -/
def mergeRecs (base new : List Rec) : List Rec :=
  (base.filter fun r => !new.any fun x => x.typ = r.typ && x.num = r.num) ++ new

/-- The further checks of an amendment that need no frame (R50): the reason of the first that fails. (DEDUCED, entry 41.) -/
def amendFault (img : List Byte) (rs : List Rec) (applied : Nat) (base : List Byte) : Option Nat :=
  if getF img 88 4 ≠ applied + 1 then some 13
  else if rs.any fun r => r.typ = 2 || r.typ = 10 || r.typ = 12 || r.typ = 13 || r.typ = 14 then some 14
  else if (img.drop 32).take 48 ≠ base then some 15
  else if 64 ≤ applied then some 18
  else if 16384 < img.length then some 19
  else none

/-- A checked amendment: its records after pass 1, marked with its number, and the entries of pass 1. -/
def amendRecs (img : List Byte) (rs : List Rec) : List Rec × List ClampEntry :=
  let n := getF img 88 4
  let (rs, e1) := dropRange (rs.map fun r => { r with amend := n })
  let (rs, e2) := pass1All rs
  (rs, e1 ++ e2)

/-- One chain entry, from the loaded copy's chain or else from the other's (R52). -/
def chainEntry (s : State) (k : Nat) (own other : List (List Byte)) (base : List Byte) : Option (List Byte × List Rec) :=
  let ok (img : List Byte) : Option (List Byte × List Rec) :=
    match checkOwn s img none true with
    | .ok rs => if (amendFault img rs k base).isNone then some (img, rs) else none
    | .error _ => none
  let try_ (l : List (List Byte)) : Option (List Byte × List Rec) := match l[k]? with | some img => ok img | none => none
  match try_ own with
  | some x => some x
  | none => try_ other

/-- An amendment of the chain: the records with it merged in, the entries of its own pass 1, its hash and activation_fn. -/
structure ChainStep where
  recs : List Rec
  ents : List ClampEntry
  hash : List Byte
  fn : Nat

/-- The chain in order, and whether it was cut short: the loaded copy's own chain has an entry that fails. An entry that only
the other copy's longer chain holds is taken. (DESIGN CHOICE, entry 85.) -/
def chainRun (s : State) (own other : List (List Byte)) (base : List Byte) :
    Nat → Nat → List Rec → List ChainStep → List ChainStep × Bool
  | 0, _, _, acc => (acc, false)
  | n + 1, k, r, acc =>
    match chainEntry s k own other base with
    | none => (acc, decide (k < own.length))
    | some (img, rs) =>
      let (rs, e1) := amendRecs img rs
      let m := mergeRecs r rs
      chainRun s own other base n (k + 1) m (acc ++ [⟨m, e1, (img.drop 96).take 48, getF img 80 8⟩])

/-- Passes 2 to 5 of the map and then of each amendment in turn (R49, R52), with the entries in their order. (DESIGN CHOICE, entry 85.) -/
def chainPasses (sw : BitVec 64) (a : Applied) (es : List ClampEntry) (l : List ChainStep) : Applied × List ClampEntry :=
  l.foldl (fun (a, es) x =>
    let b := runPasses x.recs sw a.lost a.pulse
    (b, es ++ x.ents ++ b.ents.diff a.ents)) (a, es)

/-- What loading finds: the source, the image and its records, and the rejections. -/
def findMap (s : State) (failA failB : Option Nat) : Nat × List Byte × List Rec × (Nat × Nat) × (Nat × Nat) :=
  match checkOwn s s.flash.copyA failA false with
  | .ok rs => (1, s.flash.copyA, rs, (0, 0), (0, 0))
  | .error a =>
    match checkOwn s s.flash.copyB failB false with
    | .ok rs => (2, s.flash.copyB, rs, a, (0, 0))
    | .error b => (3, [], [], a, b)

/-- STAND_MAP_LOAD (R39): copy A, then B, then the minimal map; the chain; the passes; loaded. -/
def mapLoad (failA failB : Option Nat) (s : State) : State :=
  let (src, img, rs, rejA, rejB) := findMap s failA failB
  let base := (img.drop 96).take 48
  let (rs0, e0) := dropRange rs
  let (rs1, e1) := pass1All rs0
  let own := if src = 1 then s.flash.chainA else s.flash.chainB
  let other := if src = 1 then s.flash.chainB else s.flash.chainA
  let (steps, short) := if src = 3 then ([], false) else chainRun s own other base 64 0 rs1 []
  let sw := s.live.sealAcc
  let first := runPasses rs1 sw [] (Vector.replicate 33 none)
  let (a, es) := chainPasses sw first (e0 ++ e1 ++ first.ents) steps
  let hs := steps.map (·.hash)
  let s := onSmp (fun _ => {
    source := src, loaded := true, chainShort := short, length := img.length, recCount := rs.length, fmtVer := getF img 4 2, hash := base,
    amendHashes := hs, amendCount := hs.length, lastAmendFn := (steps.getLast?.map (·.fn)).getD 0, rejA := rejA.1, rejOffA := rejA.2, rejB := rejB.1, rejOffB := rejB.2,
    intEnable := s.smp.intEnable, intStatus := s.smp.intStatus }) s
  let s := onSmp (fun m => { m with ents := a.ents }) (addClamps es s)
  let s := takeMap ((steps.getLast?.map (·.recs)).getD rs1) sw a { s with map := if src = 3 then minimalMap else decodeMap a.recs }
  let s := onSmp (fun m => { m with activeHash := if src = 3 then [] else activeHashOf m }) s
  let s := if rejA.1 ≠ 0 && src = 2 then raise s { rank := 4, code := 0, data := rejA.1 } else s
  let s := smpEvent 0 src (setModems s)
  { s with live := { s.live with mail := [] }
           fl := { s.fl with ccl := Vec.mapIx s.fl.ccl fun o _ => cableStart s.map.out[o].cable s.map.out[o].iCeil s.fn }
           can := s.can.map fun c => { c with seqs := [] } }

/-! ### The seal (R45) -/

/-- The records after passes 2 to 5 under the accepted seal, and what follows where the map changes. -/
def refreshMap (recs : List Rec) (sw : BitVec 64) (s : State) : State :=
  let a := runPasses recs sw s.smp.lost s.smp.pulseTimer
  let old := s.map
  let new := keepGoing old (decodeMap a.recs) s.fl.hand
  let s := takeMap recs sw a { s with map := new }
  let start (o : OutIx) (x : Ccl) : Ccl := if old.out[o].conn = 0 && new.out[o].conn ≠ 0 then cableStart new.out[o].cable new.out[o].iCeil s.fn else x
  { s with fl := { s.fl with ccl := Vec.mapIx s.fl.ccl start }, nx := { s.nx with ccl := Vec.mapIx s.nx.ccl start } }

/-- SEAL_REAPPLY (R45): at the boundary at which the firebreak leaves HELD. (DEDUCED, entry 87.) -/
def sealReapply (s : State) : State :=
  if !s.smp.resealPending then s
  else
    let s := onSmp (fun m => { m with resealPending := false }) s
    if minimal s || !s.smp.loaded || s.live.sealAcc = s.smp.sealApplied then s
    else smpEvent 6 0 (fbkEval false (imgLoad (setModems (refreshMap s.smp.recs s.live.sealAcc s))))

/-! ### Amendments (R50 to R53) -/

/-- An amendment is validating or scheduled (R51). -/
def amendBusy (s : State) : Bool := s.smp.amState = 1 || s.smp.amState = 2

/-- A submission is latched. -/
def amendSubmit (s : State) : State :=
  if amendBusy s then refuse 0x100A0 s
  else onSmp (fun m => { m with amState := 1, amReason := 0, amClamps := 0, amImage := [], amLatchFn := s.fn }) s

/-- Its image is latched (R23). -/
def amendImage (img : List Byte) (s : State) : State :=
  if s.smp.amState = 1 && s.smp.amImage = [] then onSmp (fun m => { m with amImage := img, amLatchFn := s.fn, amFn := getF img 80 8 }) s else s

/-- AMEND_SUBMIT (R51). -/
def execAmendSubmit (s : State) : Ans :=
  whenOn s.isl.ctl s fun s =>
    if amendBusy s then refuse 0x100A0 s else latchRead stagingBase s.smp.amendLen.toNat (fun bs s => amendImage bs (amendSubmit s)) s

/-- The amendment is rejected with a reason. -/
def amendReject (r : Nat) (s : State) : State := smpEvent 4 r (onSmp (fun m => { m with amState := 5, amReason := r }) s)

/-- Validation (R50): the structural checks, then the further ones, then the time. -/
def amendValidate (s : State) : State :=
  if s.smp.amState ≠ 1 then s
  else
    let img := s.smp.amImage
    let fn := getF img 80 8
    match checkOwn s img none true with
    | .error e => amendReject e.1 s
    | .ok rs =>
      match amendFault img rs s.smp.amendCount s.smp.hash with
      | some r => amendReject r s
      | none =>
        if fn < s.smp.amLatchFn + 8 then amendReject 16 s
        else smpEvent 1 0 (onSmp (fun m => { m with amState := 2, amFn := fn }) s)

/-- AMEND_VALIDATED (R50). -/
def execAmendValidated (s : State) : Ans := whenOn s.isl.ctl s amendValidate

/-- A cancel latched before activation_fn (R52). -/
def amendCancel (s : State) : State :=
  if s.smp.amState = 2 && decide (s.fn < s.smp.amFn) then onSmp (fun m => { m with amState := 6 }) s else s

/-- AMEND_CANCEL (R52). -/
def execAmendCancel (s : State) : Ans := whenOn s.isl.ctl s amendCancel

/-- A METER record names the set of a busy outlet (R50, code 17). -/
def amendBusyMeter (rs : List Rec) (s : State) : Bool :=
  rs.any fun r => r.typ = 6 && match optFin 32 r.num with
    | some k => (match outOfSet s k with | some o => !outletRests s o | none => false)
    | none => false

/-- A modem core that serves a busy outlet would move to another (R50, code 20). (DEDUCED, entry 87.) -/
def amendMoves (rs : List Rec) (new : SiteMap) (s : State) : Bool :=
  (rs.any fun r => r.typ = 4) && (List.finRange 32).any fun o =>
    modemHeld s o && (modemsOf new)[o].isSome && s.vlk[o].modem ≠ (modemsOf new)[o]

/-- The residuals of the sets whose METER record is amended are 0 again (R226). -/
def clearResiduals (rs : List Rec) (s : State) : State :=
  let hit (k : Fin 33) : Bool := rs.any fun r => r.typ = 6 && r.num = k.val
  onMet (fun m => { m with resFwd := Vec.mapIx m.resFwd fun k x => if hit k then 0 else x,
                           resRev := Vec.mapIx m.resRev fun k x => if hit k then 0 else x }) s

/-- The tally counters whose record is amended restart at 0 (R443). -/
def clearTallies (rs : List Rec) (s : State) : State :=
  { s with hkp := { s.hkp with tly := Vec.mapIx s.hkp.tly fun k x => if rs.any (fun r => r.typ = 11 && r.num = k.val) then 0 else x } }

/-- An amendment of an outlet goes to the firebreak as a new safety image (R330). (DEDUCED, entry 43.) -/
def amendSend (rs : List Rec) (s : State) : State := if rs.any fun r => r.typ = 4 then fbkEval false (imgLoad s) else s

/-- What a map disables that another had enabled (R52). -/
def markOff (was : SiteMap) (s : State) : State :=
  let now := s.map
  let bits {n : Nat} (p : Fin n → Bool) : BitVec n := (List.finRange n).foldl (fun (w : BitVec n) i => cond (p i) (setBit w i.val) w) 0
  onSmp (fun m => { m with
    offOut := bits fun o => (was.out[o]).conn ≠ 0 && (now.out[o]).conn = 0
    offCh := bits fun c => (was.ch[c]).kind ≠ 0 && !(was.ch[c]).going && ((now.ch[c]).kind = 0 || (now.ch[c]).going)
    offAux := bits fun k => (was.aux[k]).use ≠ 0 && (now.aux[k]).use = 0
    offCan := bits fun k => (was.can[k]).mode ≠ 0 && (now.can[k]).mode = 0
    offMet := bits fun k => (was.met[k]).kind ≠ 0 && (now.met[k]).kind = 0 }) s

/-- The records of an amendment take effect. -/
def amendTake (img : List Byte) (rs recs : List Rec) (e1 : List ClampEntry) (s : State) : State :=
  let was := s.map
  let ents := s.smp.ents
  let s := onSmp (fun m => { m with
    amState := 3, amAppliedAt := s.fn, amendCount := m.amendCount + 1, lastAmendFn := s.fn,
    amendHashes := m.amendHashes ++ [(img.drop 96).take 48], toPersist := m.toPersist ++ [img] }) s
  let s := refreshMap recs s.smp.sealApplied (addClamps e1 s)
  let s := onSmp (fun m => { m with
    activeHash := activeHashOf m, amClamps := min 255 (e1.length + (m.ents.diff ents).length) }) (markOff was s)
  clearTallies rs (clearResiduals rs (if rs.any fun r => r.typ = 4 then setModems s else s))

/-- Apply a scheduled amendment (R52), in the frame in progress. -/
def amendNow (s : State) : State :=
  let img := s.smp.amImage
  match checkOwn s img none true with
  | .error e => amendReject e.1 s
  | .ok raw =>
    let x := amendRecs img raw
    let recs := mergeRecs s.smp.recs x.1
    let trial := decodeMap (runPasses recs s.smp.sealApplied s.smp.lost s.smp.pulseTimer).recs
    if amendBusyMeter x.1 s then amendReject 17 s
    else if amendMoves x.1 trial s then amendReject 20 s
    else smpEvent 2 0 (amendSend x.1 (amendTake img x.1 recs x.2 s))

/-- A scheduled amendment is due, in activation_fn or at the resume frame of a window (R52, R397). -/
def amendDue (s : State) : Bool :=
  s.smp.amState = 2 && decide (s.smp.amFn ≤ s.fn) && match s.fwu.window with | some w => decide (w ≤ s.fn) | none => true

/-- AMEND_APPLY (R52). -/
def execAmendApply (s : State) : Ans := whenOn s.isl.ctl s fun s => if amendDue s then amendNow s else s

/-- AMEND_PERSIST (R52): the oldest applied amendment that was not yet is in both chain areas. -/
def amendPersist (s : State) : State :=
  match s.smp.toPersist with
  | [] => s
  | img :: rest =>
    let s := { s with flash := { s.flash with chainA := s.flash.chainA ++ [img], chainB := s.flash.chainB ++ [img] } }
    smpEvent 3 0 (onSmp (fun m => { m with toPersist := rest, amState := if m.amState = 3 && rest = [] then 4 else m.amState }) s)

/-- AMEND_PERSIST (R52). -/
def execAmendPersist (s : State) : Ans := whenOn s.isl.ctl s amendPersist

/-! ### Flash writes (R54) -/

/-- SMP_FLASH_CTRL (R54): the staged image is checked before any flash is written; `b` copy B. From its start the write has
erased the copy, so that a cut leaves no image there. A request while a write runs changes nothing. (DESIGN CHOICE, entry 86.) -/
def flashWrite (b : Bool) (s : State) : State :=
  if s.smp.flashState = 1 then s
  else
    let n := min s.smp.flashLen.toNat 0x100000
    let img := lndRead stagingBase n s
    let s := eccRead stagingBase n s
    match checkOwn s img none false with
    | .error e => smpEvent 5 e.1 (onSmp (fun m => { m with flashState := 3, flashReason := e.1 }) s)
    | .ok _ =>
      let s := onSmp (fun m => { m with flashState := 1, flashReason := 0 }) s
      let f := { s.flash with writing := some b, image := img }
      { s with flash := if b then { f with copyB := [], chainB := [] } else { f with copyA := [], chainA := [] } }

/-- SMP_FLASH_WRITE_A (R54). -/
def execSmpFlashWriteA (s : State) : Ans := whenOn s.isl.ctl s (flashWrite false)

/-- SMP_FLASH_WRITE_B (R54). -/
def execSmpFlashWriteB (s : State) : Ans := whenOn s.isl.ctl s (flashWrite true)

/-- The write ends with its read-back (R54); a copy that does not read back holds no image. (DEDUCED, entry 42.) (DESIGN CHOICE, entry 86.) -/
def flashDone (ok : Bool) (s : State) : State :=
  match s.flash.writing with
  | none => s
  | some b =>
    let img := if ok then s.flash.image else []
    let s := { s with flash := { s.flash with writing := none, image := [], copyA := if b then s.flash.copyA else img,
                                              copyB := if b then img else s.flash.copyB } }
    smpEvent 5 0 (onSmp (fun m => { m with flashState := if ok then 2 else 3, flashReason := if ok then 0 else 1 }) s)

/-- SMP_FLASH_DONE (R54). -/
def execSmpFlashDone (ok : Bool) (s : State) : Ans := whenOn s.isl.ctl s (flashDone ok)

end Sys2Proof.Machine
end

