-- ==== Sys2Proof/Machine/Journal.lean ====
section
/-! DEFINITION. What the end of a frame writes: the event ring, the tally counters and the decision journal (R26, R415 to
R420, R443). -/

namespace Sys2Proof.Machine

/-! ### Events in total order (R29, R31) -/

/-- The events of the frame in their order, each with its sequence within the rank. -/
def numberEvents : (seq rank : Nat) → List Event → List (Nat × Event)
  | _, _, [] => []
  | seq, rank, e :: es =>
    let k := if e.rank = rank then seq else 0
    (k, e) :: numberEvents (k + 1) e.rank es

/-- The frame's events (R29, R30). -/
def orderedEvents (s : State) : List Event := sortBy eventLe s.evs

/-! ### Tally counters (R442, R443) -/

/-- An event matches a counter's record. -/
def tallyMatch (c : TallyCfg) (e : Event) : Bool :=
  let loc := c.code % 32
  c.code ≠ 0 && loc ≠ 0 && c.code / 32 = e.rank && (loc = 31 || loc = e.code) && (c.num = 255 || c.num = e.num)

/-- Every counter adds the matching events of the frame. -/
def tallyCount (s : State) : State :=
  let add (k : Fin 192) (v : Nat) : Nat :=
    let n := (s.evs.filter (tallyMatch s.map.tally[k])).length
    (v + if s.map.tally[k].frames then min 1 n else n) % 2 ^ 64
  { s with hkp := { s.hkp with tly := Vec.mapIx s.hkp.tly add } }

/-! ### The journal (R415, R417, R418) -/

/-- The coded message of a vehicle item as it entered the frame path: commands carry its content, not its EXI code. (DESIGN CHOICE, entry 11.) -/
opaque vehicleBytes : VehMsg → List Byte
/-- The value of a ball-input group (R418): 0 GLIM, 1 VSEL, 2 KFB, 3 pilot window, 4 sealed switches, 5 RTC. (DESIGN CHOICE, entry 11.) -/
opaque ballBytes : Nat → Levels → List Byte
/-- The message of a tandem input: 0 witness, 1 vote (R418), 2 and 3 the firmware items. (DESIGN CHOICE, entry 98.) -/
opaque tandemBytes : Nat → Item → List Byte
/-- Pad to a multiple of 8 bytes. -/
def pad8 (bs : List Byte) : List Byte := bs ++ List.replicate ((8 - bs.length % 8) % 8) 0

/-- An entry of INPUT (R418). -/
def jnlEntry (src num key : Nat) (v : List Byte) : List Byte :=
  leBytes 1 src ++ leBytes 1 num ++ leBytes 2 v.length ++ leBytes 4 key ++ pad8 v

/-- The entry of a decision: none where the value did not change (R418). (DESIGN CHOICE, entry 98.) -/
def decEntry (num off old new : Nat) : List Byte := if old = new then [] else jnlEntry 8 num off (leBytes 4 new)

/-- The decisions about an outlet: budget, current ceiling, sequencer state. -/
def outDecisions (a b : FrameState) (o : OutIx) : List Byte :=
  let x := a.plan.outs[o]
  let y := b.plan.outs[o]
  decEntry o.val (0x2011C + 0x40 * o.val) (unsigned 32 x.budget) (unsigned 32 y.budget) ++
    decEntry o.val (0x20120 + 0x40 * o.val) x.iCeil y.iCeil ++
    decEntry o.val (0x50000 + 0x100 * o.val) a.osq[o].st.code b.osq[o].st.code

/-- The decisions about a channel: handover state, pack set-point of a STORE channel, loop mode. -/
def chanDecisions (s : State) (c : ChIx) : List Byte :=
  let pack (f : FrameState) : Nat := match s.map.ch[c].kind, s.map.ch[c].pack with
    | 3, some j => unsigned 32 f.plan.packs[j]
    | _, _ => 0
  decEntry c.val 0x20068 s.fl.hand[c].st.code s.nx.hand[c].st.code ++
    decEntry c.val (0x30010 + 0x100 * c.val) (pack s.fl) (pack s.nx) ++
    decEntry c.val (0x30000 + 0x100 * c.val) s.ctl.unitS[c].mode.code s.ctl.units[c].mode.code

/-- The DECISION entries (R418): the values that F changed, by the register that shows each; the bus by the first
channel's. (DESIGN CHOICE, entry 98.) -/
def decisionBytes (s : State) : List Byte :=
  ((List.finRange 32).map (outDecisions s.fl s.nx)).flatten ++ ((List.finRange 96).map (chanDecisions s)).flatten ++
    decEntry 0 0x40000 s.fl.bus.st.code s.nx.bus.st.code

/-- The event entry (R419) of a captured event, as the frame wrote it. -/
def asyncBytes (fn : Nat) (es : List (Nat × Event)) (e : AsyncEvent) : List Byte :=
  let mine (x : Nat × Event) : Bool :=
    decide (x.2.rank = e.rank) && decide (x.2.code = e.code) && decide (x.2.num = e.inst) && decide (x.2.stamp = e.stamp)
  match es.find? mine with
  | some (k, x) => eventBytes fn k x
  | none => eventBytes fn 0 { rank := e.rank, code := e.code, num := e.inst, stamp := e.stamp }

/-- The entry of an item, `es` being the frame's numbered events. The image of an amendment goes by its submission,
firmware items as tandem inputs. (DESIGN CHOICE, entry 98.) -/
def itemEntry (fn : Nat) (es : List (Nat × Event)) (i : Item) : List Byte :=
  match i with
  | .hostCmd off v _ => jnlEntry 1 0 off.toNat (leBytes 4 v.toNat)
  | .vehicle n m _ => jnlEntry 3 n.val n.val (vehicleBytes m)
  | .cycle r => jnlEntry 5 0 r.seq.toNat (leBytes 8 r.fn)
  | .asyncEvent e => jnlEntry 6 e.inst (32 * e.rank + e.code) (asyncBytes fn es e)
  | .witness w => jnlEntry 7 0 0 (tandemBytes 0 (.witness w))
  | .vote v => jnlEntry 7 0 1 (tandemBytes 1 (.vote v))
  | .fwuLocal f => jnlEntry 7 0 2 (tandemBytes 2 (.fwuLocal f))
  | .fwuReport l r n => jnlEntry 7 0 3 (tandemBytes 3 (.fwuReport l r n))
  | .amendment img => jnlEntry 1 1 0x100A0 img

/-- The entry of a mailbox slot. -/
def mailEntry (m : MailSlot) : List Byte := jnlEntry 2 m.num (m.entry + 256 * m.can.val) (leBytes (canWidth m.q) m.value)

/-- The mailbox slots that changed since the last latched set; all of them in a key frame. -/
def mailEntries (key : Bool) (old new : Levels) : List Byte :=
  ((new.mail.filter fun m => key || !old.mail.contains m).map mailEntry).flatten

/-- The ball inputs that changed; all of them in a key frame. -/
def ballEntries (key : Bool) (old new : Levels) : List Byte :=
  ((List.range 6).map fun g =>
    if key || decide (ballBytes g old ≠ ballBytes g new) then jnlEntry 4 0 g (ballBytes g new) else []).flatten

/-- A section (R417). -/
def section_ (typ num : Nat) (data : List Byte) : List Byte :=
  leBytes 1 typ ++ leBytes 1 num ++ leBytes 2 0 ++ leBytes 4 data.length ++ pad8 data

/-- The STALE bits of a cluster: byte i holds sample i. -/
def staleBytes (s : State) (c : CluIx) : List Byte :=
  (List.range s.map.clu[c].n).map fun i =>
    (List.finRange 8).foldl (fun (b : Byte) j =>
      if ((s.ctl.ports[chanOf c j]).sum.stale).contains i then setBit b j.val else b) 0

/-- Bytes 0 to 13 of an uplink (R123), 14 zero bytes where absent. -/
def uplinkBytes (u : Option Uplink) : List Byte :=
  match u with
  | none => List.replicate 14 0
  | some u =>
    leBytes 2 u.echo.toNat ++ [u.status, u.fault] ++ leBytes 2 (unsigned 16 u.iOut) ++ leBytes 2 u.vOut ++ leBytes 2 u.vDc ++
      leBytes 2 (unsigned 16 u.tHs) ++ [u.fb, 0]

/-- The sections of the packet (R418). -/
def jnlSections (old : Levels) (es : List Event) (s : State) : List (List Byte) :=
  let key := s.fn % 10000 = 0
  let nums := numberEvents 0 0 es
  let input := section_ 1 0 (ballEntries key old s.lat.levels ++ mailEntries key old s.lat.levels ++ (s.lat.items.map (itemEntry s.fn nums)).flatten)
  let stale := (List.finRange 12).filterMap fun c =>
    if (List.finRange 8).any fun j => (s.ctl.ports[chanOf c j]).sum.stale ≠ [] then some (section_ 2 c.val (staleBytes s c)) else none
  let decision := section_ 3 0 (decisionBytes s)
  let events := section_ 4 0 (nums.map fun (k, e) => eventBytes s.fn k e).flatten
  let ups := (List.finRange 96).filterMap fun c =>
    if s.ctl.units[c].capture then some (section_ 5 c.val (((s.ctl.ports[c]).sum.ups.map uplinkBytes).flatten)) else none
  let digest := section_ 6 0 (leBytes 8 (crc64 (digestBytes s.nx s.can s.ctl.unitD)).toNat)
  let snap := if key || s.lnd.snapNow then [section_ 7 0 (snapBytes s.snapS)] else []
  [input] ++ stale ++ [decision, events] ++ ups ++ [digest] ++ snap

/-- The payload of the packet of the frame (R417). -/
def jnlPayload (old : Levels) (es : List Event) (s : State) : List Byte :=
  let secs := jnlSections old es s
  let fl := bit (isLead s) + 2 * bit s.tdm.identity + 4 * bit s.lat.empty + 8 * bit (!s.lat.complete) +
    16 * bit (s.fn % 10000 = 0) + 32 * bit (s.smp.amState ≥ 3 && s.smp.amState ≤ 4 && s.smp.amAppliedAt = s.fn)
  let body := leBytes 8 s.fn ++ leBytes 2 1 ++ leBytes 1 fl ++ leBytes 1 secs.length ++ leBytes 4 es.length ++ List.replicate 8 0 ++ secs.flatten
  body ++ leBytes 4 (crc32c body).toNat

/-- The segments of the journal in bytes. -/
def jnlSeg0 (s : State) : Nat := qBytes s 8
def jnlSize (s : State) : Nat := qBytes s 8 + qBytes s 10

/-- The landing offset of a logical one. -/
def jnlAddr (s : State) (off : Nat) : Nat :=
  if off < jnlSeg0 s then 65536 * s.map.fifo[(8 : Fin 64)].base + off
  else 65536 * s.map.fifo[(10 : Fin 64)].base + (off - jnlSeg0 s)

/-- The packets that the host has drained: those before LND_JNL_RD (R420). (DEDUCED, entry 64.) -/
def jnlDrained (l : Lnd) : Nat :=
  match l.jnl.findIdx? (·.off = l.jnlRd) with
  | some i => i
  | none => if l.jnlRd = l.q[(8 : Fin 64)].wr then l.jnl.length else 0

/-- Drop the oldest packets while they meet the bytes to be written. -/
def jnlDrop (a b : Nat) : Nat → Lnd → Lnd
  | 0, l => l
  | n + 1, l =>
    match l.jnl with
    | [] => l
    | p :: ps =>
      if p.off < b && a < p.off + p.len then
        let lost := jnlDrained l = 0 && !p.void
        jnlDrop a b n { l with
          jnl := ps, jnlLost := if lost then satInc 32 l.jnlLost else l.jnlLost, jnlOver := l.jnlOver || lost,
          intStatus := if lost then setBit l.intStatus 3 else l.intStatus }
      else l

/-- Write one slot with its payload at the write pointer; `need` bytes in all. -/
def jnlSlot (void : Bool) (need : Nat) (bs : List Byte) (s : State) : State :=
  let wr := s.lnd.q[(8 : Fin 64)].wr
  let before := s.lnd.jnlLost
  let s := onLnd (fun l => jnlDrop wr (wr + need) l.jnl.length l) s
  let s := if s.lnd.jnlLost ≠ before then raise s { rank := 15, code := 4, data := s.lnd.jnlLost } else s
  let len := if void then need - 8 else bs.length
  let slot := leBytes 4 (len + 2 ^ 30 * bit void + 2 ^ 31) ++ leBytes 4 s.lnd.jnlSeq.toNat
  let s := lndWrite (jnlAddr s wr) (slot ++ pad8 bs) s
  let nw := wr + need
  let wrap := jnlSize s ≤ nw
  onLnd (fun l => { l with
    jnl := l.jnl ++ [{ fn := s.fn, off := wr, len := need, void := void }], jnlSeq := l.jnlSeq + 1,
    q := Vec.upd l.q 8 fun x => { x with
      wr := if wrap then 0 else nw, wraps := if wrap then x.wraps + 1 else x.wraps, voidSeen := (x.voidSeen && !wrap) || void } }) s

/-- The fill of the journal above LND_JNL_RD, and its level interrupt (R420, R421). -/
def jnlLevelStep (s : State) : State :=
  let l := s.lnd
  let fill := (l.jnl.drop (jnlDrained l)).foldl (fun a p => a + p.len) 0
  let held := l.jnl.foldl (fun a p => a + p.len) 0
  let lvl := l.jnlCtrl ≠ 0 && decide (l.jnlCtrl.toNat * jnlSize s ≤ 16 * fill)
  let old := match l.jnl with | p :: _ => p.off | [] => l.q[(8 : Fin 64)].wr
  let s := onLnd (fun l => { l with jnlLevel := lvl, q := Vec.upd l.q 8 fun x => { x with rd := old, fill := held } }) s
  if lvl && !l.jnlLevel then lndEvent 2 0 s else s

/-- Write a packet (R415): it never crosses the end of a segment. -/
def jnlPut (bs : List Byte) (s : State) : State :=
  let need := 8 + (pad8 bs).length
  let wr := s.lnd.q[(8 : Fin 64)].wr
  let stop := if wr < jnlSeg0 s then jnlSeg0 s else jnlSize s
  if jnlSize s = 0 || jnlSeg0 s < need then s
  else
    let s := if stop < wr + need then jnlSlot true (stop - wr) [] s else s
    jnlLevelStep (jnlSlot false need bs s)

/-- JOURNAL_WRITE (R417): `old` are the levels latched for the frame before. -/
def jnlWrite (es : List Event) (s : State) : State :=
  let snap := s.fn % 10000 = 0 || s.lnd.snapNow
  let s := jnlPut (jnlPayload s.jnlOld es s) s
  onLnd (fun l => { l with snapNow := false, snapFn := if snap then BitVec.ofNat 32 s.fn else l.snapFn }) { s with jnlOld := s.lat.levels }

/-! ### The mailbox (R167, R168) -/

/-- Bytes 20 to 31 of an entry: one value where R168 names one, else as no rule lays out. (DESIGN CHOICE, entry 11.) -/
def mbxData (e : MbxEntry) : List Byte :=
  match e.code, e.data with
  | 4, [v] => leBytes 12 v
  | 11, [v] => leBytes 12 v
  | c, d => leBytes 12 (Config.mailboxData c d).toNat

/-- Write an entry into its outlet's ring; a full ring loses its oldest entry. -/
def mbxWrite (s : State) (e : MbxEntry) : State :=
  let r := s.osqR[e.o]
  let bs := leBytes 8 e.fn ++ leBytes 2 e.code ++ leBytes 1 (e.after.code + 16 * e.before.code) ++ leBytes 1 e.info ++ leBytes 1 e.retry ++
    leBytes 1 e.flags ++ leBytes 2 r.seq.toNat ++ leBytes 4 e.sess ++ mbxData e
  let s := lndWrite (mailboxBase e.o + 32 * r.wr.toNat) bs s
  { s with osqR := Vec.upd s.osqR e.o fun r => { r with
      wr := r.wr + 1, seq := r.seq + 1, lost := if r.unread = 64 then r.lost + 1 else r.lost, unread := min 64 (r.unread + 1) } }

/-! ### The end of a frame (R17 step 7) -/

/-- The mailbox entries of the frame. -/
def mbxAll (s : State) : State := { s.mbx.foldl mbxWrite s with mbx := [] }

/-- The counters add the events, which leave the frame. -/
def evsTake (s : State) : State := { tallyCount s with evs := [] }

/-- The events of the frame in the ring and in the journal. -/
def evsWrite (es : List Event) (s : State) : State := jnlWrite es (eventsPut s.fn 0 0 es (evsTake s))

/-- Write the mailbox entries, the events and the journal of the frame; the counters add its events. What this writing
itself raises is an event of the next frame (R29). (DESIGN CHOICE, entry 98.) -/
def endFrame (s : State) : State := evsWrite (orderedEvents (mbxAll s)) (mbxAll s)

/-- TALLY_RING_WRITE (R443): the snapshot as an entry of the tally ring, unless shed. -/
def tallyRing (s : State) : State :=
  if s.hkp.tlyEvery = 0 || s.hkp.level = 2 then s
  else
    let body := leBytes 8 s.fn ++ leBytes 2 192 ++ List.replicate 6 0 ++ (s.hkp.tlyShown.toList.map (leBytes 8)).flatten ++ List.replicate 44 0
    let k := s.hkp.tlyNext
    let last := decide (39 ≤ k)
    let s := lndWrite (tallyBase + 1600 * k) (body ++ leBytes 4 (crc32c body).toNat) s
    let next := if last then 0 else k + 1
    let s := { s with hkp := { s.hkp with tlyNext := next, tlyPasses := if last then s.hkp.tlyPasses + 1 else s.hkp.tlyPasses } }
    let s := onLnd (fun l => { l with q := Vec.upd l.q 2 fun x => { x with
      wr := 1600 * next, fill := min 64000 (x.fill + 1600), rd := if x.fill < 64000 then x.rd else 1600 * next,
      wraps := if last then x.wraps + 1 else x.wraps } }) s
    if last then raise s { rank := 15, code := 9 } else s

/-- TALLY_RING_WRITE (R443). -/
def execTallyRingWrite (s : State) : Ans := whenOn s.isl.ctl s tallyRing

end Sys2Proof.Machine
end

