-- ==== Sys2Proof/Machine/Health.lean ====
section
/-! DEFINITION. Clocks, housekeeping, temperature and the requests for a reset (chapter 18). -/

namespace Sys2Proof.Machine

/-- Change the block. -/
def onHkp (f : Hkp → Hkp) (s : State) : State := { s with hkp := f s.hkp }

/-- A health event with a local code of R441 and its bit of HKP_INT_STATUS. -/
def hkpEvent (code num data : Nat) (s : State) : State :=
  raise (onHkp (fun h => { h with intStatus := setBit h.intStatus (code - 1) }) s) { rank := 2, code := code, num := num, data := data }

/-! ### The housekeeping round (R429, R430) -/

/-- Full scale of a voltage input in mV. -/
def hkFull (i : Nat) : Nat :=
  if i ≤ 25 then 1800 else if i ≤ 29 then 1200 else if i ≤ 33 then 3600 else if i = 34 then 2400 else if i = 35 then 1800
  else if i = 36 then 45000 else if i = 37 then 4800 else 1800

/-- A reading lies between two voltages in mV. -/
def hkWithin (i : Nat) (x : HkIn) (lo hi : Nat) : Bool :=
  decide (lo * 4095 ≤ x.code * hkFull i) && decide (x.code * hkFull i ≤ hi * 4095)

/-- A supply input is in its window (R473): VDD_IO in either of its ranges, VBAT at 2.5 V or more. (DEDUCED, entry 78.) -/
def hkInWindow (i : Nat) (x : HkIn) : Bool :=
  if i ≤ 29 then hkWithin i x 776 840
  else if i ≤ 33 then hkWithin i x 1710 1890 || hkWithin i x 3135 3465
  else if i = 34 then hkWithin i x 1746 1854
  else if i = 35 then hkWithin i x 1067 1133
  else if i = 36 then hkWithin i x 18000 32000
  else decide (2500 * 4095 ≤ x.code * 4800)

/-- The inputs of a bit of HKP_SUPPLY. -/
def supplyInputs (b : Nat) : List (Fin 42) :=
  match b with
  | 0 => [26, 27, 28, 29] | 1 => [30, 31, 32, 33] | 2 => [34] | 3 => [35] | 4 => [36] | 5 => [37] | _ => []

/-- A bit of HKP_SUPPLY: every reading of the group is in its window, and there is one. -/
def supplyOk (v : Vector HkIn 42) (b : Nat) : Bool :=
  (supplyInputs b).any (fun i => v[i].seen) && (supplyInputs b).all fun i => !v[i].seen || hkInWindow i.val v[i]

/-- A group has a reading outside its window. -/
def supplyBad (v : Vector HkIn 42) (b : Nat) : Bool := (supplyInputs b).any fun i => v[i].seen && !hkInWindow i.val v[i]

/-- The temperature of a sensor, 0 before its first reading (R429, R444). -/
def dieTempOf (s : State) (v : Vector HkIn 42) (k : Fin 10) : Int :=
  let x := v[(⟨k.val, by omega⟩ : Fin 42)]
  if x.seen then Config.dieTemp s.otp.serial k.val x.code else 0

/-- The hottest sensor and its reading (R444): the lowest of equals. -/
def hottest (s : State) (v : Vector HkIn 42) : Nat × Int :=
  (List.finRange 10).foldl (fun (b : Nat × Int) k =>
    let t := dieTempOf s v k
    if k.val = 0 || decide (b.2 < t) then (k.val, t) else b) (0, 0)

/-- VBAT in mV. -/
def vbatOf (v : Vector HkIn 42) : Nat := v[(37 : Fin 42)].code * 4800 / 4095

/-- A reading of HK_IN_k against its window in HKP_HKIN_LIM (R430): back inside clears the condition of the alarm. -/
def hkTest (k : Fin 16) (code : Nat) (s : State) : State :=
  let w := s.hkp.lim[k].toNat
  if code < field w 0 12 || field w 16 12 < code then
    onHkp (fun h => { h with hkRun := Vec.upd h.hkRun k fun n => min 3 (n + 1) }) s
  else onHkp (fun h => { h with hkRun := h.hkRun.set k 0, hkCond := clrBit h.hkCond k.val }) s

/-- A conversion that lies one or two slots after a clamped one only marks its input as settling. -/
def hkSettles (i : Fin 42) (s : State) : Bool :=
  match s.hkp.clampAt with
  | some (f, k) => f = s.fn && decide (k < 1 + i.val % 7) && decide (1 + i.val % 7 ≤ k + 2)
  | none => false

/-- The reading of input i, clamped to 12 bits; a reading at either end is an overrange of its slot. -/
def hkStore (i : Fin 42) (c : Nat) (s : State) : State :=
  onHkp (fun h => { h with
    ins := h.ins.set i { code := c, seen := true, ovr := c = 0 || c = 4095, settle := false },
    clampAt := if c = 0 || c = 4095 then some (s.fn, 1 + i.val % 7) else h.clampAt }) s

/-- What the reading is used for: the meter's temperature, the battery voltage, the highest die temperature. -/
def hkUse (i : Fin 42) (s : State) : State :=
  let v := s.hkp.ins
  let s := if i.val = 7 then { s with met := { s.met with tempNow := dieTempOf s v 7 } } else s
  let s := if i.val = 37 then { s with live := { s.live with vbatMv := vbatOf v } } else s
  if i.val < 10 then
    onHkp (fun h => if h.peak < (hottest s v).2 then { h with peak := (hottest s v).2, peakAt := (hottest s v).1 } else h) s
  else s

/-- The tests of the reading: a supply that leaves its window, and HK_IN_k against its window. -/
def hkJudge (i : Fin 42) (c : Nat) (before : Vector HkIn 42) (s : State) : State :=
  let s := if (List.range 6).any fun b => supplyBad s.hkp.ins b && !supplyBad before b then hkpEvent 5 i.val 0 s else s
  match optFin 16 (i.val - 10) with
  | some k => if 10 ≤ i.val then hkTest k c s else s
  | none => s

/-- A conversion of input i in slot 1 + i mod 7 of its millisecond. (DEDUCED, entry 56.) -/
def hkConvert (i : Fin 42) (code : Nat) (s : State) : State :=
  if hkSettles i s then onHkp (fun h => { h with ins := Vec.upd h.ins i fun x => { x with settle := true } }) s
  else hkUse i (hkJudge i (min 4095 code) s.hkp.ins (hkStore i (min 4095 code) s))

/-- HK_ADC_SLOT (R429): input i is converted in the milliseconds with FN mod 10 = floor(i / 7). -/
def execHkAdcSlot (slot : Fin 42) (code : Nat) (s : State) : Ans :=
  whenOn s.isl.met s fun s => if slot.val / 7 = s.fn % 10 then hkConvert slot code s else s

/-- HK_IN_ALARM (R430): the third reading in a row outside the window, once until a reading comes back inside. -/
def execHkInAlarm (k : Fin 16) (s : State) : Ans :=
  whenOn s.isl.met s fun s =>
    if s.hkp.hkRun[k] < 3 || s.hkp.hkCond.getLsbD k.val then s
    else hkpEvent 9 k.val 0 (onHkp (fun h => { h with alarm := setBit h.alarm k.val, hkCond := setBit h.hkCond k.val }) s)

/-! ### Die temperature (R432 to R434) -/

/-- The level that a hottest reading `t` in 1/64 °C gives (R432): every sensor is read once in a round, so the release of
a level has held for a whole round where the hottest of the ten lies below it. (DEDUCED, entry 112.) -/
def thermTarget (level : Nat) (t : Int) : Nat :=
  if 7680 ≤ t || (level = 2 && decide (7360 ≤ t)) then 2
  else if 7040 ≤ t || (decide (1 ≤ level) && decide (6720 ≤ t)) then 1
  else 0

/-- The event of a change of level (R441). -/
def levelEvent (old new : Nat) (s : State) : State :=
  if new = 2 then hkpEvent 2 0 0 s
  else if old = 2 then hkpEvent 3 0 0 s
  else if new = 1 then hkpEvent 1 0 0 s
  else s

/-- THERMAL_LEVEL_CHANGE (R432, R433). -/
def execThermalLevelChange (lvl : Fin 3) (s : State) : Ans :=
  whenOn s.isl.met s fun s =>
    if s.hkp.level = lvl.val || thermTarget s.hkp.level (hottest s s.hkp.ins).2 ≠ lvl.val then s
    else
      levelEvent s.hkp.level lvl.val
        (onLnd (fun l => { l with throttled := lvl.val = 2 }) (onHkp (fun h => { h with level := lvl.val }) s))

/-- Every island but CLK_AON and CLK_AUX stops; the high sides hold (R166). -/
def stopAll (s : State) : State :=
  { s with isl := { ctl := false, com := false, met := false, lnd := false }, aux := { s.aux with held := true } }

/-- THERMAL_SHUTDOWN (R434). (DEDUCED, entry 76.) -/
def execThermalShutdown (sensor : Fin 10) (s : State) : Ans :=
  .next (if s.hkp.shutdown then s
    else
      let t := dieTempOf s s.hkp.ins sensor
      let s := onHkp (fun h => { h with
        shutdown := true, shutNote := true, shutRead := t, shutAt := sensor.val, shuts := h.shuts + 1 }) s
      stopAll (fbkEval false (toHeld (fun f => { f with thermal := true }) s)))

/-- A reset of the package is asked for: its cause, and what it will be (R438). (DEDUCED, entry 53.) -/
def askReset (cold : Bool) (cause : Nat) (s : State) : State :=
  onHkp (fun h => { h with cause := setBit h.cause cause, resetReq := some (cold || h.resetReq = some true) }) s

/-- The logic of a warm reset stops (R438): control, communication and metrology. -/
def stopWarm (s : State) : State :=
  { s with isl := { s.isl with ctl := false, com := false, met := false }, aux := { s.aux with held := true } }

/-- The auxiliary die is reset (R438): of the firebreak only the fail latches of the brakes stay (R320). -/
def auxReset (s : State) : State :=
  onFbk (fun f => { brk := f.brk.map fun x => { failed := x.failed, again := x.failed } }) { s with aux := {} }

/-- THERMAL_RELEASE (R434): a cold start follows, and the auxiliary die restarts in START. -/
def execThermalRelease (s : State) : Ans :=
  .next (if s.hkp.shutdown then
      askReset true 2 (fbkEval false (auxReset (onHkp (fun h => { h with shutdown := false }) s)))
    else s)

/-! ### Supplies (R435) -/

/-- POWER_FAIL_WARNING (R435). -/
def execPowerFailWarning (_rail : Rail) (s : State) : Ans :=
  .next (hkpEvent 5 0 1 (onBilR (fun r => { r with noSave := true })
    (onHkp (fun h => { h with supplyWarn := true, warnings := h.warnings + 1 }) s)))

/-- SUPPLY_RESET (R435): the package resets; a running boundary and every island are gone. -/
def execSupplyReset (s : State) : Ans := .next (askReset true 1 (stopAll s))

/-! ### Clocks (R424, R425) -/

/-- The bit of a PLL in HKP_CLK_STATUS [5:2]. -/
def pllBit : Pll → Nat
  | .control => 0 | .communication => 1 | .metrology => 2 | .landing => 3

/-- PLL_LOCK_LOSS (R424). (DEDUCED, entry 57.) -/
def execPllLockLoss (pll : Pll) (s : State) : Ans :=
  .next (hkpEvent 7 (pllBit pll) 0 (onHkp (fun h => { h with plls := clrBit h.plls (pllBit pll), lockLosses := h.lockLosses + 1 }) s))

/-- PLL_LOCK_TIMEOUT (R424): a warm reset follows. -/
def execPllLockTimeout (_pll : Option Pll) (s : State) : Ans := .next (askReset false 6 (stopWarm s))

/-- XTAL25_STOP (R424). -/
def execXtal25Stop (s : State) : Ans :=
  .next (onHkp (fun h => { h with xtal25 := false, xtalStopped := true })
    { s with isl := { s.isl with ctl := false, com := false }, aux := { s.aux with held := true } })

/-- XTAL25_RETURN (R424): a cold start follows. -/
def execXtal25Return (s : State) : Ans :=
  .next (if s.hkp.xtalStopped then askReset true 6 (stopAll (onHkp (fun h => { h with xtal25 := true, xtalStopped := false }) s)) else s)

/-- XTAL32K_STOP (R424): a clock tamper; the RTC holds. (DEDUCED, entry 58.) -/
def execXtal32kStop (s : State) : Ans :=
  .next (if !s.hkp.rtcHold then
      tamper .clock (onHkp (fun h => { h with xtal32 := false, rtcHold := true, xtal32Stops := h.xtal32Stops + 1 }) s)
    else s)

/-- VBAT_LOSS (R425): the always-on domain restarts. -/
def execVbatLoss (s : State) : Ans :=
  let s := onHkp (fun h => { h with
    cause := 0x80, colds := 0, warms := 0, shutRead := 0, shutAt := 0, shuts := 0, trim := 0, warnings := 0, savesAfter := 0, rtcValid := false }) s
  let s := onHwd (fun h => { h with
    bbk := Vector.replicate 8 none, bbkMask := 0, log := Vector.replicate 16 {}, logNext := 0, logSel := 0, logData := {}, cause := 0,
    tamperCfg := 0, tamperLock := false, pending := false }) s
  .next (onBilR (fun r => { r with fnAon := 0 }) { s with live := { s.live with rtc := 0 } })

/-- The ticks of CLK_AON that a minute gains (R425): they cancel −0.034 ppm/K² × (T − T0)² + HKP_RTC_TRIM, T and T0 in
1/64 °C and the trim in 1/64 ppm. A minute has 1,966,080 ticks. (DEDUCED, entry 113.) -/
def rtcTicks (dT trim : Int) : Int :=
  (34 * dT * dT - 64000 * trim) * 196608 / 409600000000 +
    if (34 * dT * dT - 64000 * trim) * 196608 % 409600000000 ≠ 0 && Config.rtcTickUp dT trim then 1 else 0

/-- The temperature of the crystal: sensor 7 while the package runs, else `temp` of the always-on domain (R425). -/
def rtcTemp (temp : Int) (s : State) : Int := if s.isl.met then dieTempOf s s.hkp.ins 7 else temp

/-- The trim, ±6,400 (R444). -/
def rtcTrim (s : State) : Int := max (-6400) (min 6400 s.hkp.trim.toInt)

/-- RTC_COMPENSATE (R425): ticks of CLK_AON, each 2 of the fraction, are added or removed. -/
def execRtcCompensate (temp : Int) (s : State) : Ans :=
  .next (if s.hkp.rtcHold then s
    else
      let n := rtcTicks (rtcTemp temp s - Config.rtcT0 s.otp.serial) (rtcTrim s)
      { s with live := { s.live with rtc := ((s.live.rtc : Int) + 2000 * n).toNat % (2 ^ 32 * 65536000) } })

/-- The value in HKP_RTC_SET_SEC and _FRAC in the unit of the model, 1/65,536,000 s. -/
def rtcSetValue (s : State) : Nat := 65536000 * s.hkp.setSec.toNat + 1000 * s.hkp.setFrac.toNat

/-- A latched rtc_set (R426), in its latch frame G: the running and the latched RTC take the value, and billing treats the
change (R256, R257). -/
def rtcSet (s : State) : State :=
  let v := rtcSetValue s
  let old := s.lat.levels.rtc
  let s := { s with live := { s.live with rtc := v }, lat := { s.lat with levels := { s.lat.levels with rtc := v } },
                    cap := { s.cap with levels := { s.cap.levels with rtc := v } } }
  let s := onHkp (fun h => { h with rtcValid := true, intStatus := setBit h.intStatus 12 }) s
  clockSet old v s

/-- RTC_SET (R426). -/
def execRtcSet (s : State) : Ans := whenOn s.isl.ctl s fun s => crossAll false false (rtcSet s)

/-! ### Core-island resets (R439) -/

/-- CORE_WATCHDOG (R439): the cores restart at the next boundary. -/
def execCoreWatchdog (s : State) : Ans := whenOn s.isl.ctl s (onHkp fun h => { h with coreReq := true })

/-- The restart at the boundary that opens frame `s.fn`; the third within 60,000 frames is a warm reset (R438). -/
def coreRestart (s : State) : State :=
  if !s.hkp.coreReq then s
  else
    let fns := s.fn :: s.hkp.coreFns.filter fun f => s.fn < f + 60000
    let s := hkpEvent 8 0 0 (onHkp (fun h => { h with coreReq := false, coreFns := fns, coreResets := h.coreResets + 1 }) s)
    if 3 ≤ fns.length then askReset false 5 (stopWarm s) else coresRestart s.fwu.running (s.fn + 150) s

/-! ### Host commands of the block (R444, R445) -/

/-- The key of HKP_CTRL. -/
def hkpKey : BitVec 16 := 0xA55A

/-- HKP_WARM_RESET (R445). -/
def hkpWarm (key : BitVec 16) (s : State) : State := if key = hkpKey then askReset false 4 (stopWarm s) else s

/-- HKP_WARM_RESET (R445). -/
def execHkpWarmReset (key : BitVec 16) (s : State) : Ans := whenOn s.isl.met s (hkpWarm key)

/-- HKP_COLD_RESET (R445). -/
def hkpCold (key : BitVec 16) (s : State) : State := if key = hkpKey then askReset true 3 (stopAll s) else s

/-- HKP_COLD_RESET (R445). -/
def execHkpColdReset (key : BitVec 16) (s : State) : Ans := whenOn s.isl.met s (hkpCold key)

/-- FN_h to 0, only in WAIT or ISOLATED (R428). -/
def hkpFnClear (key : BitVec 16) (s : State) : State :=
  if key = hkpKey && (s.tdm.st = .wait || s.tdm.st = .isolated) then onTdm (fun t => { t with fnHigh := 0 }) s else s

/-- HKP_FN_CLEAR (R428). -/
def execHkpFnClear (key : BitVec 16) (s : State) : Ans := whenOn s.isl.met s (hkpFnClear key)

/-- TLY_CLEAR (R443): at the next boundary. -/
def execTlyClear (s : State) : Ans := whenOn s.isl.ctl s (onHkp fun h => { h with tlyClear := true })

/-- The counters at the boundary (R443): cleared where asked, then snapshot. -/
def tallyShow (s : State) : State :=
  onHkp (fun h =>
    let v := if h.tlyClear then Vector.replicate 192 0 else h.tly
    { h with tly := v, tlyShown := v, tlyClear := false }) s

/-- A read of TLY_CNT_LO (R446): the lower half, and the upper half held. -/
def tlyLo (i : Fin 192) (s : State) : Nat × State :=
  let v := s.hkp.tlyShown[i]
  (v % 2 ^ 32, onHkp (fun h => { h with tlyHold := some (i, BitVec.ofNat 32 (v / 2 ^ 32)) }) s)

/-- The data of a completed read. -/
def readAnswer (ws : List Word) (ur : Bool) (s : State) : State := { s with hst := { s.hst with readData := ws, readUr := ur } }

/-- TLY_CNT_LO_READ (R446). -/
def execTlyCntLoRead (i : Fin 192) (s : State) : Ans :=
  .next (let r := tlyLo i s; readAnswer [BitVec.ofNat 32 r.1] false r.2)

/-- A read of HKP_RESET_CAUSE returns and clears it (R5, R445). -/
def causeRead (s : State) : Nat × State := (s.hkp.cause.toNat, onHkp (fun h => { h with causeRead := h.cause, cause := 0 }) s)

/-- RESET_CAUSE_READ (R445). -/
def execResetCauseRead (s : State) : Ans := .next (let r := causeRead s; readAnswer [BitVec.ofNat 32 r.1] false r.2)

end Sys2Proof.Machine
end

