-- ==== Sys2Proof/Machine/RegsSite.lean ====
section
/-! DEFINITION. The registers of the stand map, the yarder, the channel loops and the channel ports: what a read shows,
what a write does at once, which writes are host commands and what they do when latched (R55, R83, R114, R143). -/

namespace Sys2Proof.Machine

/-! ### Parts of words -/

/-- Word k of a byte string. -/
def wordOf (bs : List Byte) (k : Nat) : Nat := leNat ((bs.drop (4 * k)).take 4)

/-- The words of a register block from a list in ascending offset. -/
def regAt (l : List Nat) (off : Nat) : Nat := l.getD (off / 4) 0

/-- Bits 0 to n − 1 from a predicate. -/
def bitSum (n : Nat) (p : Nat → Bool) : Nat := (List.range n).foldl (fun a i => a + if p i then 2 ^ i else 0) 0

/-- The low word of a wider value, and the next one. -/
def lo32 (v : Nat) : Nat := v % 2 ^ 32
def hi32 (v : Nat) : Nat := v / 2 ^ 32 % 2 ^ 32

/-- The lower 16 bits of a signed value. -/
def s16 (v : Int) : Nat := unsigned 16 v

/-- Two 16-bit halves of a register. -/
def halves (lo hi : Nat) : Nat := lo % 2 ^ 16 + 2 ^ 16 * (hi % 2 ^ 16)

/-- The byte enables of a whole word. -/
def clrW1C (w val : Word) : Word := w &&& ~~~ val

/-! ### SMP (R55 to R57) -/

/-- SMP_STATUS (R56). -/
def smpStatus (s : State) : Nat :=
  let m := s.smp
  m.source + 4 * bit m.loaded + 8 * bit m.chainShort + 16 * bit m.clampOver + 32 * bit (m.claimsLost ≠ 0) + 64 * bit m.sealLimited

/-- The SMP block in ascending offset. -/
def smpRegs (s : State) : List Nat :=
  let m := s.smp
  [smpStatus s, m.fmtVer, m.length, m.recCount] ++ (List.range 12).map (wordOf m.hash) ++ (List.range 12).map (wordOf m.activeHash) ++
    [min m.clampCount 0xFFFFFFFF, m.clampSel.toNat] ++ (List.range 4).map (wordOf m.clampData) ++
    [m.rejA, m.rejB, m.rejOffA, m.rejOffB, stagingBase, m.amendLen.toNat, 0,
     m.amState + 16 * m.amReason + 4096 * m.amClamps, lo32 m.amFn, hi32 m.amFn, m.amendCount % 128, lo32 m.lastAmendFn, hi32 m.lastAmendFn,
     lo32 m.sealApplied.toNat, hi32 m.sealApplied.toNat, m.claimsLost, 0x400000, 0x600000, 0, m.flashLen.toNat,
     m.flashState + 256 * m.flashReason, m.intStatus.toNat, m.intEnable.toNat,
     (List.finRange 32).foldl (fun a o => a + if s.map.out[o].conn ≠ 0 then 2 ^ o.val else 0) 0] ++
    (List.range 3).map (fun k => (List.finRange 96).foldl (fun a c => a + if c.val / 32 = k && inService s c then 2 ^ (c.val % 32) else 0) 0) ++
    [m.timers.toNat, m.landingFree, 0x10001]

/-- A write that applies at once. -/
def smpNow (off : Nat) (v : Word) (s : State) : State :=
  match off with
  | 0x74 => clampSel v s
  | 0x9C => onSmp (fun m => { m with amendLen := v.setWidth 15 }) s
  | 0xD0 => if v.getLsbD 0 then flashWrite false s else if v.getLsbD 1 then flashWrite true s else s
  | 0xD4 => onSmp (fun m => { m with flashLen := v.setWidth 21 }) s
  | 0xDC => onSmp (fun m => { m with intStatus := clrW1C m.intStatus v }) s
  | 0xE0 => onSmp (fun m => { m with intEnable := v &&& 0x7F }) s
  | _ => s

/-- A host command of the block: submit and cancel (R51, R52). -/
def smpIsCmd (off : Nat) (v : Word) : Bool := off = 0xA0 && v &&& 3 ≠ 0

/-- The latched command. -/
def smpCmd (v : Word) (s : State) : State :=
  let s := if v.getLsbD 1 then amendCancel s else s
  if v.getLsbD 0 then amendSubmit s else s

/-! ### ALC (R83 to R87) -/

/-- An outlet index in six bits, 3Fh for none. -/
def outCode (o : Option OutIx) : Nat := match o with | some o => o.val | none => 0x3F

/-- ALC_STATUS (R84). -/
def alcStatus (s : State) : Nat :=
  let p := s.fl.plan
  let act := (List.finRange 96).filter fun c => (s.fl.hand[c].st).moving
  p.src + 4 * bit p.glimLoss + 8 * bit p.xfmrStale + 16 * bit (p.pDis ≠ 0) + 32 * bit (p.pChg ≠ 0) +
    64 * bit ((List.finRange 32).any fun o => p.outs[o].discharge) + 128 * bit p.exportLimited + 256 * min act.length 16 + 8192 * bit p.none_

/-- ALC_CH_STATE (R85). -/
def alcChState (s : State) : Nat :=
  match s.smp.loaded, optFin 96 s.alc.chSel.toNat with
  | true, some c =>
    let h := s.fl.hand[c]
    h.st.code + 8 * outCode h.outlet + 512 * outCode h.dest + 2 ^ 15 * ((h.word.getD 0) % 4) + 2 ^ 17 * min h.dwell 0x7FF +
      2 ^ 28 * h.cause + 2 ^ 31 * bit (lockedCh s c)
  | _, _ => 8 * 0x3F + 512 * 0x3F

/-- The global ALC registers in ascending offset. -/
def alcRegs (s : State) : List Nat :=
  let a := s.alc
  let p := s.fl.plan
  [alcStatus s, a.ctrl.toNat, p.limit, min p.xfmrAge 0xFFFFFFFF, if !s.smp.loaded then 0 else if s.map.site.present then s.map.site.imp else 0xFFFFFFFF, p.xfmrTerm, p.glimTerm,
   s.lat.levels.glim.raw, a.hostLimit.toNat, a.glimFallback.toNat, a.xfmrFallback, a.loss, a.house.toNat, a.exportLimit.toNat,
   a.reserve.toNat, a.hyst, p.net, p.pDis, p.pChg, p.v2g, unsigned 32 p.importPlan, hi32 p.level, lo32 p.level, lo32 p.fn, hi32 p.fn,
   a.chSel.toNat, alcChState s, 0, halves a.settled.toNat a.failed.toNat, a.intStatus.toNat, a.intEnable.toNat, 0x10040]

/-- ALC_OUT_URGENCY (R87). -/
def alcUrgency (p : OutPlan) : Nat :=
  min p.w 0xFFFF + 2 ^ 16 * (p.cls % 8) + 2 ^ 19 * bit p.override + 2 ^ 20 * bit p.energyHost + 2 ^ 21 * bit p.departHost +
    2 ^ 22 * bit p.overdue + 2 ^ 23 * bit p.discharge

/-- ALC_OUT_CHANNELS (R87). -/
def alcChannels (s : State) (o : OutIx) : Nat :=
  let n (f : Hand → Bool) : Nat := ((List.finRange 96).filter fun c => f s.fl.hand[c]).length % 64
  n (fun h => h.st = .settled && h.outlet = some o) + 64 * n (fun h => (h.st = .closing || h.st = .tracking) && h.dest = some o) +
    4096 * n (fun h => (h.st = .rampDown || h.st = .opening) && h.outlet = some o) +
    2 ^ 18 * ((s.fl.plan.outs[o]).requested % 64) + 2 ^ 24 * (s.fl.plan.outs[o]).binding

/-- The ALC registers of an outlet in ascending offset (R86). -/
def alcOutRegs (s : State) (o : OutIx) : List Nat :=
  let p := s.fl.plan.outs[o]
  [(s.alc.prio[o]).toNat, (s.alc.energy[o]).toNat, (s.alc.depart[o]).toNat, (s.alc.v2g[o]).toNat, p.dPlan, alcUrgency p, p.target,
   unsigned 32 p.budget, p.iCeil, alcChannels s o]

/-- A read in the block. -/
def alcRead (off : Nat) (s : State) : Nat :=
  if off < 0x80 then regAt (alcRegs s) off
  else match optFin 32 ((off - 0x100) / 0x40) with
    | some o => if off < 0x100 then 0 else regAt (alcOutRegs s o) (off % 0x40)
    | none => 0

/-- A write that applies at once. -/
def alcNow (off : Nat) (v : Word) (s : State) : State :=
  match off with
  | 0x64 => { s with alc := { s.alc with chSel := v.setWidth 7 } }
  | 0x74 => { s with alc := { s.alc with intStatus := clrW1C s.alc.intStatus v } }
  | 0x78 => { s with alc := { s.alc with intEnable := v &&& 0x3FF } }
  | _ => s

/-- The host commands of the block (R83). -/
def alcIsCmd (off : Nat) : Bool :=
  [0x04, 0x20, 0x24, 0x28, 0x2C, 0x30, 0x34, 0x38, 0x3C, 0x6C].contains off || (decide (0x100 ≤ off) && decide (off < 0x900) && decide (off % 0x40 < 0x10))

/-- A latched global command. -/
def alcCmd (off : Nat) (v : Word) (s : State) : State :=
  let on (f : Alc → Alc) : State := { s with alc := f s.alc }
  match off with
  | 0x04 => on fun a => { a with ctrl := v.setWidth 4 }
  | 0x20 => on fun a => { a with hostLimit := v }
  | 0x24 => on fun a => { a with glimFallback := v }
  | 0x28 => on fun a => { a with xfmrFallback := v.toNat % 1024 }
  | 0x2C => on fun a => { a with loss := v.toNat % 256 }
  | 0x30 => on fun a => { a with house := v }
  | 0x34 => on fun a => { a with exportLimit := v }
  | 0x38 => on fun a => { a with reserve := v.setWidth 15 &&& 0x7F7F }
  | 0x3C => on fun a => { a with hyst := v.toNat % 1024 }
  | 0x6C => match optFin 96 (field v.toNat 0 7) with
    | some c => if v.getLsbD 8 then routeFaultClear c s else s
    | none => s
  | _ => s

/-- A latched command of an outlet (R86): in the frame that returns the registers to reset it is discarded (R71). -/
def alcOutCmd (o : OutIx) (r : Nat) (v : Word) (s : State) : State :=
  if s.alc.fresh.getLsbD o.val then refuse (0x20100 + 0x40 * o.val + r) s
  else
    let on (f : Alc → Alc) : State := { s with alc := f s.alc }
    match r with
    | 0 => on fun a => { a with prio := a.prio.set o (v.setWidth 4) }
    | 4 => on fun a => { a with energy := a.energy.set o v }
    | 8 => on fun a => { a with depart := a.depart.set o v }
    | 12 => on fun a => { a with v2g := a.v2g.set o v }
    | _ => s

/-! ### LPE (R114 to R116) -/

/-- LPE_STATUS (R115), from the unit state of S_F. -/
def lpeStatus (s : State) (c : ChIx) : Nat :=
  let u := s.ctl.unitS[c]
  let p := s.ctl.portS[c].prev
  u.mode.code + 4 * bit u.rev + 8 * (u.winner % 8) + 64 * bit u.winnerValid + 128 * bit (p.samples ≠ 0 && p.stale.contains (p.samples - 1)) +
    256 * bit u.hold + 512 * bit u.limiting + 1024 * bit u.slewing + 2048 * bit u.innerSat + 4096 * ((loopOf s c).stages.length % 16)

/-- The stage that LPE_STAGE_SEL names: its template, none for the inner stage or an empty slot, and its block. -/
def lpeStage (s : State) (c : ChIx) : Option StageCfg × Block :=
  let sel := s.ctl.units[c].stageSel.toNat
  if 8 ≤ sel then (none, s.ctl.unitS[c].inner) else ((loopOf s c).stages[sel]?, s.ctl.unitS[c].stages.getD sel {})

/-- LPE_STAGE_CFG (R116). -/
def lpeStageCfg (s : State) (c : ChIx) : Nat :=
  let u := s.ctl.unitS[c]
  let sel := s.ctl.units[c].stageSel.toNat
  if 8 ≤ sel then 15 + 256 * ((loopOf s c).ec % 16) + 4096 * bit u.inner.idle
  else match lpeStage s c with
    | (some st, b) => st.kind + 16 * st.dir + 64 * st.pol + 256 * (st.ec % 16) + 4096 * bit b.idle + 8192 * bit (u.winnerValid && u.winner = sel)
    | (none, _) => 0

/-- LPE_INFO (R114). -/
def lpeInfo (s : State) (c : ChIx) : Nat :=
  if !s.smp.loaded then 0
  else
    c.val + 128 * (cluOf c).val + 2048 * (rgnOf (cluOf c)).val + 8192 * bit (s.ctl.clu[cluOf c]).onSpare + 2 ^ 16 * s.map.ch[c].loopT +
      2 ^ 24 * nOf s c

/-- The LPE registers of a channel in ascending offset. -/
def lpeRegs (s : State) (c : ChIx) : List Nat :=
  let u := s.ctl.unitS[c]
  let l := s.ctl.units[c]
  let inner : Bool := decide (8 ≤ l.stageSel.toNat)
  let b := (lpeStage s c).2
  [lpeStatus s c, bit l.capture, l.stageSel.toNat, lpeStageCfg s c, unsigned 32 (b.spw / 65536), unsigned 32 b.y, unsigned 8 b.e,
   unsigned 24 b.mi, unsigned 24 b.mf, if inner then unsigned 24 b.cand else unsigned 32 b.cand, s16 u.rRaw, s16 u.sMag,
   halves (s16 u.cmd) u.cmdSeq.toNat, halves (s16 u.meas.iOut) u.meas.vOut, halves u.meas.vDc (s16 u.meas.tHs),
   halves u.cntWin.toNat u.cntStale.toNat, halves u.cntInner.toNat u.cntMant.toNat, l.intStatus.toNat, l.intEnable.toNat, lpeInfo s c]

/-- Change a channel unit. -/
def onUnit (c : ChIx) (f : ChUnit → ChUnit) (s : State) : State :=
  { s with ctl := { s.ctl with units := Vec.upd s.ctl.units c f } }

/-- A write that applies at once. -/
def lpeNow (c : ChIx) (r : Nat) (v : Word) (s : State) : State :=
  match r with
  | 0x08 => onUnit c (fun u => { u with stageSel := v.setWidth 4 }) s
  | 0x44 => onUnit c (fun u => { u with intStatus := clrW1C u.intStatus v }) s
  | 0x48 => onUnit c (fun u => { u with intEnable := v &&& 0x3F }) s
  | _ => s

/-- A latched LPE_CTRL. -/
def lpeCmd (c : ChIx) (v : Word) (s : State) : State := onUnit c (fun u => { u with capture := v.getLsbD 0 }) s

/-! ### CHP (R143 to R147) -/

/-- CHP_STATUS (R144). -/
def chpStatus (s : State) (c : ChIx) : Nat :=
  let p := s.ctl.portS[c]
  let l := s.ctl.ports[c]
  let d : Downlink := p.tx.getD {}
  d.mode % 8 + 8 * bit p.silent + 16 * bit d.spread + 32 * bit l.wdogSeen + 64 * bit p.partner +
    128 * bit (p.prev.samples ≠ 0 && trackOk (nOf s c) p.prev) + 256 * s.fl.bus.st.code + 2048 * s.lat.levels.vsel.toNat +
    2 ^ 14 * bit p.mismatch + 2 ^ 16 * l.events.toNat

/-- The CHP registers of a channel in ascending offset. -/
def chpRegs (s : State) (c : ChIx) : List Nat :=
  let l := s.ctl.ports[c]
  let p := s.ctl.portS[c]
  [chpStatus s c, bit l.portOff + 2 * bit l.test + 2 ^ 16 * l.intEn.toNat, l.trackCfg.toNat,
   match optFin 8 c.val with | some k => s.ctl.busSet[k] | none => 0,
   halves p.cntCrc.toNat p.cntAbsent.toNat, halves p.cntPartner.toNat p.cntMismatch.toNat]

/-- Change a channel port. -/
def onPort (c : ChIx) (f : Port → Port) (s : State) : State := { s with ctl := { s.ctl with ports := Vec.upd s.ctl.ports c f } }

/-- A write that applies at once. -/
def chpNow (c : ChIx) (r : Nat) (v : Word) (s : State) : State :=
  match r with
  | 0x00 => onPort c (fun p => { p with events := p.events &&& ~~~ (v.extractLsb' 16 6) }) s
  | 0x04 => onPort c (fun p => { p with intEn := v.extractLsb' 16 6 }) s
  | _ => s

/-- A host command of the block. -/
def chpIsCmd (c : ChIx) (r : Nat) : Bool := r = 4 || r = 8 || (r = 12 && decide (c.val < 8))

/-- A latched command. -/
def chpCmd (c : ChIx) (r : Nat) (v : Word) (s : State) : State :=
  match r with
  | 0x04 =>
    let off := v.getLsbD 0
    let s := if off || s.ctl.ports[c].portOff then portOffWrite c off s else s
    let s := testWrite c (v.getLsbD 1) s
    if v.getLsbD 8 then busClear c s else s
  | 0x08 => onPort c (fun p => { p with trackCfg := v }) s
  | 0x0C => match optFin 8 c.val with
    | some k => { s with ctl := { s.ctl with busSet := s.ctl.busSet.set k (field v.toNat 0 16) } }
    | none => s
  | _ => s

end Sys2Proof.Machine
end

