-- ==== Sys2Proof/Machine/RegsOutlet.lean ====
section
/-! DEFINITION. The registers of the outlet sequencers, the vehicle links, the cables and metrology (R169, R195, R214,
R246). -/

namespace Sys2Proof.Machine

/-! ### OSQ (R169, R170) -/

/-- The codes of OSQ_PILOT.pilot_state. -/
def pilotCode : Pilot → Nat
  | .a => 0 | .b => 1 | .c => 2 | .d => 3 | .e => 4 | .f => 5 | .none => 6

/-- OSQ_STATE. -/
def osqState (s : State) (o : OutIx) : Nat :=
  let q := s.fl.osq[o]
  q.st.code + 16 * q.prev.code + 256 * bit (outEnabled s o && q.hostEnabled) + 512 * bit q.enPending + 1024 * bit q.faultPending +
    2048 * bit q.credit + 4096 * bit q.fast + 8192 * bit q.unbilled + 2 ^ 16 * min (s.fn - q.stFn) 0xFFFF

/-- OSQ_PILOT. -/
def osqPilot (s : State) (o : OutIx) : Nat :=
  let p := s.lat.levels.pilot[o]
  pilotCode p.state + 8 * bit p.fault + 16 * bit p.diode + 2 ^ 8 * p.high.toNat + 2 ^ 16 * p.low.toNat + 2 ^ 24 * p.duty.toNat

/-- OSQ_FAULT. -/
def osqFaultReg (s : State) (o : OutIx) : Nat :=
  let q := s.fl.osq[o]
  q.fault + 256 * q.stopCause + 2 ^ 16 * bit q.weld + 2 ^ 17 * bit q.weldUnver + 2 ^ 18 * bit q.disUnver

/-- OSQ_HOLD. -/
def osqHoldReg (s : State) (o : OutIx) : Nat :=
  let q := s.fl.osq[o]
  let left := if q.st = .hold then cdiv (1000 * (s.osqR[o]).retryDelay - (s.fn - q.stFn)) 1000 else 0
  q.hold.toNat + 32 * bit q.exhausted + 256 * min q.retryLeft 15 + 4096 * bit q.thermal + 8192 * bit q.counted + 2 ^ 16 * left

/-- OSQ_IO. -/
def osqIo (s : State) (o : OutIx) : Nat :=
  let l := s.lat.levels
  let q := s.fl.osq[o]
  bit (l.kfbP.getLsbD o.val) + 2 * bit (l.kfbN.getLsbD o.val) + 4 * bit (l.imdOk.getLsbD o.val) + 8 * bit (l.otcHot.getLsbD o.val) +
    16 * bit (lockFb s o) + 32 * bit (mastFb s o) + 64 * bit q.kCmd + 128 * bit (lsClosed s o) + 256 * bit q.dscBus +
    512 * bit q.dscCable + 1024 * bit q.lock + 2048 * bit (interlock s o)

/-- The OSQ registers of an outlet in ascending offset; before the stand map is loaded the RO fields read 0. -/
def osqRegs (s : State) (o : OutIx) : List Nat :=
  let r := s.osqR[o]
  let q := s.fl.osq[o]
  let ro (v : Nat) : Nat := if s.smp.loaded then v else 0
  [ro (osqState s o), 0, r.cfg.toNat, r.tmo.toNat, r.timing.toNat, r.therm.toNat, r.cc.toNat, ro (osqPilot s o), r.pilotCfg.toNat,
   ro (osqFaultReg s o), ro (osqHoldReg s o), ro (osqIo s o), ro (halves ((vCab s o).getD 0) ((vOb s o).getD 0)),
   ro (if q.sessCount = 0 then 0 else q.sessId o), ro (lo32 q.startFn), r.wr.toNat + 256 * r.rd.toNat + 2 ^ 16 * r.lost.toNat, r.intStatus.toNat, r.intEnable.toNat]

/-- Change the registers of an outlet. -/
def onOsqR (o : OutIx) (f : OsqReg → OsqReg) (s : State) : State := { s with osqR := Vec.upd s.osqR o f }

/-- A write that applies at once; the host has read every entry before its index (R167). -/
def osqNow (o : OutIx) (r : Nat) (v : Word) (s : State) : State :=
  match r with
  | 0x3C => onOsqR o (fun x =>
      let rd : BitVec 6 := v.extractLsb' 8 6
      let n := (x.wr - rd).toNat
      { x with rd := rd, unread := if n = 0 && x.unread = 64 && rd = x.rd then 64 else n }) s
  | 0x40 => onOsqR o (fun x => { x with intStatus := clrW1C x.intStatus v }) s
  | 0x44 => onOsqR o (fun x => { x with intEnable := v &&& 0x3FF }) s
  | _ => s

/-- A host command of the block. -/
def osqIsCmd (r : Nat) (v : Word) : Bool := (r = 4 && v &&& 0xFF ≠ 0) || [0x08, 0x0C, 0x10, 0x14, 0x18, 0x20].contains r

/-- A latched command: the bits of OSQ_CTRL wait for step 4 of the frame. -/
def osqCmd (o : OutIx) (r : Nat) (v : Word) (s : State) : State :=
  match r with
  | 0x04 => onOsqR o (fun x => { x with cmd := x.cmd ||| v.setWidth 8 }) s
  | 0x08 => onOsqR o (fun x => { x with cfg := v &&& 0x0FFFFFFF }) s
  | 0x0C => onOsqR o (fun x => { x with tmo := v }) s
  | 0x10 => onOsqR o (fun x => { x with timing := v }) s
  | 0x14 => onOsqR o (fun x => { x with therm := v }) s
  | 0x18 => onOsqR o (fun x => { x with cc := v &&& 0x00FFFFFF }) s
  | 0x20 => onOsqR o (fun x => { x with pilotCfg := v &&& 0x3FF }) s
  | _ => s

/-! ### VLK (R195, R196, R488) -/

/-- The code of VLK_STATUS.link (R488). -/
def vlkLink (s : State) (o : OutIx) : Nat :=
  let v := s.fl.veh[o]
  let plc : Bool := s.map.out[o].link = 2
  if v.linkLost then 7 else if v.degraded then 6 else if v.link.session then 5 else if v.link.tcp then 4
  else if plc && v.link.matched then 3 else if plc && v.link.slac then 2 else if v.link.up then 1 else 0

/-- The codes of VLK_STATUS.layer. -/
def Layer.codeOf : Layer → Nat
  | .none => 0 | .din70121 => 1 | .iso2 => 2 | .iso20 => 3

/-- VLK_STATUS. -/
def vlkStatus (s : State) (o : OutIx) : Nat :=
  let v := s.vlk[o]
  let l := (s.fl.veh[o]).link
  s.map.out[o].link + 4 * (match v.modem with | some m => m.val | none => 0) + 64 * bit v.modem.isSome + 128 * vlkLink s o +
    1024 * Layer.codeOf l.layer + 4096 * bit l.tls + 8192 * bit (s.fl.veh[o]).bpt + 2 ^ 14 * bit (s.fl.veh[o]).dynamic +
    2 ^ 15 * bit v.contract + 2 ^ 16 * bit v.takeover + 2 ^ 17 * bit l.slotOk

/-- A vehicle value in its register field. -/
def vehField (v : Option Nat) (div : Nat) : Nat := min (v.getD 0 / div) 0xFFFF

/-- The VLK registers of an outlet in ascending offset. -/
def vlkRegs (s : State) (o : OutIx) : List Nat :=
  let v := s.vlk[o]
  let x := (s.fl.veh[o]).v
  let ro (a : Nat) : Nat := if s.smp.loaded then a else 0
  [ro (vlkStatus s o), 2 ^ 16 * (v.intEnable.toNat % 1024), v.cfg.toNat, v.linkCfg.toNat,
   ro (v.slacBest + 2 ^ 10 * v.slacNext + 2 ^ 20 * v.slacWinner + 2 ^ 25 * v.slacResult + 2 ^ 28 * min v.attempts 15),
   (s.fl.veh[o]).retrans + 2 ^ 8 * (s.fl.veh[o]).decodeErr + 2 ^ 16 * v.degradedCnt + 2 ^ 24 * v.longGap,
   halves (vehField x.targetVolt 1) (vehField x.presentVolt 1), halves (vehField x.maxCurr 2) (vehField x.targetCurr 2),
   halves (vehField x.maxPower 100) (vehField x.maxDischarge 100), x.energyWh.getD 0xFFFFFFFF, (s.fl.veh[o]).departAt.getD 0,
   v.intStatus.toNat]

/-- A write that applies at once. -/
def vlkNow (o : OutIx) (r : Nat) (v : Word) (s : State) : State :=
  match r with
  | 0x04 => onVlk o (fun x => { x with intEnable := (v >>> 16) &&& 0x3FF }) s
  | 0x2C => onVlk o (fun x => { x with intStatus := clrW1C x.intStatus v }) s
  | _ => s

/-- A host command of the block. -/
def vlkIsCmd (r : Nat) (v : Word) : Bool := (r = 4 && v.getLsbD 0) || r = 8 || r = 12

/-- A latched command (R196). -/
def vlkCmd (o : OutIx) (r : Nat) (v : Word) (s : State) : State :=
  match r with
  | 0x04 => if v.getLsbD 0 then linkReset o s else s
  | 0x08 => onVlk o (fun x => { x with cfg := v &&& 0x0FFFFFFF }) s
  | 0x0C => onVlk o (fun x => { x with linkCfg := v &&& 0xFFFF }) s
  | _ => s

/-! ### CCL (R214, R215) -/

/-- A temperature of the observer in 1/64 °C, rounded half to even, in 16 bits. -/
def tempCode (t : Int) : Nat := s16 (sat16 (rheDiv t 1024))

/-- CCL_STATUS. -/
def cclStatus (s : State) (o : OutIx) : Nat :=
  let c := s.fl.ccl[o]
  bit (cableOn s o) + 2 * bit (cableOn s o && s.map.out[o].cable.cooled) + 4 * c.lost.toNat + 64 * bit c.stale1s + 128 * bit c.resFault +
    256 * bit c.pinFloor + 512 * bit c.binding + 1024 * bit c.decaying + 2048 * bit c.overLim + 4096 * bit c.manual +
    2 ^ 16 * (s.cclR[o]).events.toNat

/-- The CCL registers of an outlet in ascending offset; those of an outlet without a cable block read 0 (R197). -/
def cclRegs (s : State) (o : OutIx) : List Nat :=
  if !cableOn s o then [] else
  let c := s.fl.ccl[o]
  let r := s.cclR[o]
  [cclStatus s o, bit r.manual + 2 ^ 8 * r.manPump + 2 ^ 16 * r.manFan + 2 ^ 24 * r.intEn.toNat, halves (tempCode c.tc) (tempCode c.tw),
   halves (tempCode c.tj) (s16 c.tAllow), halves (s16 c.tIn) (s16 c.tOut), halves c.flow (s16 c.tPin),
   min c.iHr 0xFFFFF + 2 ^ 20 * min (c.age / 10) 0xFFF, c.pump + 2 ^ 8 * c.fan + 2 ^ 16 * s16 (sat16 c.resid)]

/-- Change the registers of a cable. -/
def onCclR (o : OutIx) (f : CclReg → CclReg) (s : State) : State := { s with cclR := Vec.upd s.cclR o f }

/-- A write that applies at once. -/
def cclNow (o : OutIx) (r : Nat) (v : Word) (s : State) : State :=
  match r with
  | 0x00 => onCclR o (fun x => { x with events := x.events &&& ~~~ (v.extractLsb' 16 6) }) s
  | 0x04 => onCclR o (fun x => { x with intEn := v.extractLsb' 24 6 }) s
  | _ => s

/-- A latched CCL_CTRL. -/
def cclCmd (o : OutIx) (v : Word) (s : State) : State :=
  let s := cclManual o (v.getLsbD 0) (field v.toNat 8 8) (field v.toNat 16 8) s
  if v.getLsbD 1 then onCclR o (fun r => { r with clearReq := (s.nx.ccl[o]).resFault }) s else s

/-! ### MET (R246, R247) -/

/-- MET_STATUS. -/
def metStatus (s : State) : Nat :=
  let m := s.fl.met
  let ro (b : Bool) : Nat := bit (s.smp.loaded && b)
  bit (siteOn s) + (if s.smp.loaded then 2 * m.last.phase.toNat else 0) + 8 * ro m.last.freqHold + 16 * bit m.neutral + 32 * bit m.bypass +
    64 * bit m.bypassSkip + 128 * bit m.witActive + 256 * bit m.witLost + 512 * ro (s.otp.orderK || s.otp.locked) + 1024 * ro s.otp.orderK +
    2048 * bit (capOn s) + 4096 * bit (m.last.site.ovr ≠ 0)

/-- The global MET registers in ascending offset. -/
def metRegs (s : State) : List Nat :=
  let m := s.met
  [metStatus s, bit m.capEn + 2 * bit m.capSite, s.fl.met.last.len, m.ringIx + 2 ^ 13 * m.ringWraps.toNat, m.capMask.toNat, m.tamperCfg.toNat,
   m.intStatus.toNat, m.intEnable.toNat]

/-- The MET registers of a converter. -/
def metCvRegs (s : State) (c : Fin 72) : List Nat :=
  let (a, ovr, st) := s.fl.met.last.cv.getD c.val (0, false, false)
  [unsigned 24 a + 2 ^ 24 * bit ovr + 2 ^ 25 * bit st + 2 ^ 26 * bit (s.smp.loaded && !cvOn s c), s.met.gain[c], unsigned 24 s.met.off[c]]

/-- The MET registers of a set. -/
def metSetRegs (s : State) (k : SetIx) : List Nat :=
  let x := s.fl.met.sets[(⟨k.val, by omega⟩ : Fin 33)]
  let c := s.map.met[k]
  let tgt := if s.smp.loaded then c.target.getD 0x7F else 0
  [c.kind % 4 + 4 * tgt + 512 * bit x.ovr + 1024 * bit x.settle + 2048 * bit x.lbSess + 4096 * bit x.reversed + 8192 * bit x.mismatch +
     2 ^ 14 * bit x.witFlag + 2 ^ 15 * bit x.backlog + 2 ^ 16 * (s.met.setEvents[k]).toNat,
   2 ^ 8 * (s.met.setIntEn[k]).toNat, halves (s16 x.devFwd) (s16 x.devRev)]

/-- A read in the block. -/
def metRead (off : Nat) (s : State) : Nat :=
  if off < 0x20 then regAt (metRegs s) off
  else if off < 0x100 then 0
  else if off < 0x580 then (match optFin 72 ((off - 0x100) / 16) with | some c => regAt (metCvRegs s c) (off % 16) | none => 0)
  else if off < 0x600 then 0
  else match optFin 32 ((off - 0x600) / 16) with | some k => regAt (metSetRegs s k) (off % 16) | none => 0

/-- The converter that an offset names. -/
def metCv (off : Nat) : Option (Fin 72) := if off < 0x100 || 0x580 ≤ off then none else optFin 72 ((off - 0x100) / 16)

/-- The set that an offset names. -/
def metSet (off : Nat) : Option SetIx := if off < 0x600 then none else optFin 32 ((off - 0x600) / 16)

/-- A write that applies at once. -/
def metNow (off : Nat) (v : Word) (s : State) : State :=
  match off, metSet off with
  | 0x18, _ => onMet (fun m => { m with intStatus := clrW1C m.intStatus v }) s
  | 0x1C, _ => onMet (fun m => { m with intEnable := v &&& 0xFFF }) s
  | _, some k =>
    if off % 16 = 0 then onMet (fun m => { m with setEvents := Vec.upd m.setEvents k fun e => e &&& ~~~ (v.extractLsb' 16 4) }) s
    else if off % 16 = 4 then onMet (fun m => { m with setIntEn := m.setIntEn.set k (v.extractLsb' 8 4) }) s
    else s
  | _, none => s

/-- A host command of the block. -/
def metIsCmd (off : Nat) (v : Word) : Bool :=
  off = 0x04 || off = 0x10 || off = 0x14 || ((metCv off).isSome && (off % 16 = 4 || off % 16 = 8)) ||
    ((metSet off).isSome && off % 16 = 4 && v &&& 3 ≠ 0)

/-- The command is package-local under R300: the calibration values, and cal_commit with nothing else set. -/
def metLocal (off : Nat) : Bool := (metCv off).isSome

/-- A latched MET_CTRL; on a package that takes no commands only cal_commit acts (R300). -/
def metCtrl (v : Word) (all : Bool) (s : State) : State :=
  let s := if all then onMet (fun m => { m with capEn := v.getLsbD 0, capSite := v.getLsbD 1 }) s else s
  let s := if v.getLsbD 2 then calCommit s else s
  let s := if all && v.getLsbD 3 then onMetF (fun m => { m with neutral := false }) s else s
  if all && v.getLsbD 4 then onMetF (fun m => { m with bypass := false }) s else s

/-- A latched command. -/
def metCmd (off : Nat) (v : Word) (s : State) : State :=
  match metCv off, metSet off with
  | some c, _ => calWrite c (off % 16 = 4) v s
  | _, some k =>
    let s := if v.getLsbD 0 then tamperClear k s else s
    if v.getLsbD 1 then witClear k s else s
  | none, none =>
    if off = 0x04 then metCtrl v true s
    else if off = 0x10 then onMet (fun m => { m with capMask := v }) s
    else if off = 0x14 then onMet (fun m => { m with tamperCfg := v &&& 0x00FFFFFF }) s
    else s

end Sys2Proof.Machine
end

