-- ==== Sys2Proof/Machine/RegsAccount.lean ====
section
/-! DEFINITION. The registers of billing and tandem operation (R276, R277, R301, R302). -/

namespace Sys2Proof.Machine

/-! ### BIL (R276, R277) -/

/-- A calendar is held: its local time is below its high-water mark (R256). -/
def calHeld (s : State) (k : Fin 4) : Bool :=
  s.map.tariff[k].present && match s.fl.bil.cal[k].hc with | some h => decide (localSec s.map.tariff[k] (rtcSec s) < h) | none => false

/-- BIL_STATUS. -/
def bilStatus (s : State) : Nat :=
  let b := s.fl.bil
  let good := if s.smp.loaded then goodSlots s else 0
  bit b.ok + 2 * bit (ledgerKeyOk s) + 4 * bit (decide (256 ≤ b.unacked)) + 8 * bit b.restored + 16 * bit b.empty + 32 * bit b.mapChanged +
    64 * bit ((List.finRange 4).any (calHeld s)) + 128 * good

/-- The UTC second of a local switch point of a calendar. -/
def utcOf (c : TariffCfg) (loc : Int) : Nat :=
  let late := loc - 60 * c.utcOff
  let early := late - 60 * c.shift
  if loc ≤ localSec c early.toNat then early.toNat else late.toNat

/-- The RTC second of the frame that the next save boundary opens (R252). (DEDUCED, entry 106.) -/
def nextSave (s : State) : Nat := (s.lat.levels.rtc + 65536 * (saveInt s - s.fn % saveInt s)) / 65536000

/-- BIL_NEXT_BOUNDARY: the next boundary of the three kinds of R252. -/
def nextBoundary (s : State) : Nat :=
  let b := s.fl.bil
  let dem := match b.hd with | some h => [(h / b.demLen + 1) * b.demLen] | none => []
  let cals := (List.finRange 4).filterMap fun k =>
    let c := s.map.tariff[k]
    match c.present, b.cal[k].hc with
    | true, some h => (crossed c h (h + 172800)).head?.map fun x => utcOf c x.1
    | _, _ => none
  match dem ++ cals ++ (if b.hd.isSome then [nextSave s] else []) with
  | [] => 0
  | x :: xs => xs.foldl min x

/-- A calendar in BIL_SEASON. -/
def seasonCode (s : State) (k : Fin 4) : Nat :=
  let c := s.map.tariff[k]
  if !c.present then 0
  else
    let day := localSec c (rtcSec s) / 86400
    let (y, m, d) := civil day
    seasonOf c m d % 4 + 4 * (profileIx c day % 16) + 64 * bit (specialOf c y m d).isSome

/-- CRC-32C of a TARIFF payload in force. -/
def calId (s : State) (k : Fin 4) : Nat :=
  if !s.map.tariff[k].present then 0
  else match s.smp.recs.find? fun r => r.typ = 7 && r.num = k.val with | some r => (crc32c r.pay).toNat | none => 0

/-- The entries in phases 1 to 3. -/
def ledgerUsed (s : State) : Nat := ((List.finRange 1536).filter fun i => (entryOf s i).phase ≠ 0).length

/-- The global BIL registers in ascending offset. -/
def bilRegs (s : State) : List Nat :=
  let b := s.fl.bil
  let r := s.bilR
  let site := b.m[(32 : Fin 33)]
  let sum4 (w : Nat) (f : Fin 4 → Nat) : Nat := (List.finRange 4).foldl (fun a k => a + 2 ^ (w * k.val) * f k) 0
  let bad := ((List.range 64).filter fun i => r.badSlots.getLsbD i).length
  [bilStatus s, 0, r.cfg.toNat, (r.calMap[(0 : Fin 3)]).toNat, (r.calMap[(1 : Fin 3)]).toNat, (r.calMap[(2 : Fin 3)]).toNat, r.sel.toNat,
   lo32 r.snap, hi32 r.snap, r.snap / 2 ^ 64 % 2 ^ 16 + 2 ^ 16 * r.snapFlags.toNat, r.snapTs, lo32 r.snapFn, hi32 r.snapFn,
   sum4 4 fun k => b.cal[k].shown + 8 * bit s.map.tariff[k].present, b.hd.getD 0, nextBoundary s, b.demOpen, lo32 b.demN,
   (if r.saveSeq = 0 then 0 else r.lastSlot) + 64 * (if s.smp.loaded then goodSlots s else 0), lo32 r.saveSeq, hi32 r.saveSeq,
   lo32 b.gapMs, b.gapSec, b.restores.toNat, b.ticketWr % 256, b.ticketRd.toNat, lo32 b.ticketSeq, 0x80000, r.ledgerSel.toNat, 0,
   lo32 r.ledgerId.toNat, hi32 r.ledgerId.toNat, lo32 (r.ledgerId.toNat / 2 ^ 64), hi32 (r.ledgerId.toNat / 2 ^ 64),
   r.ledgerLease.toNat, r.ledgerArg.toNat, b.ledgerResult + 16 * b.ledgerOp + 256 * bit b.ledgerDone,
   ledgerUsed s + 2 ^ 11 * r.unusable.length, 0xC0000, b.clockOld, b.clockNew, lo32 b.clockFn, b.skipped.toNat,
   lo32 b.ckptFn, hi32 b.ckptFn, 0x100000, r.intStatus.toNat, r.intEnable.toNat,
   site.maxF.w, site.maxF.ts, site.maxR.w, site.maxR.ts, site.lastF.w, site.lastR.w] ++
  (List.finRange 4).map (calId s) ++
  [sum4 8 (seasonCode s), bit (ticketKeyOk s) + 2 * bit (ledgerKeyOk s), min bad 63 + 2 ^ 16 * r.homeFails.toNat, b.bounds.toNat,
   b.lastSwitch, 0x10001]

/-- The BIL registers of a set. -/
def bilSetRegs (s : State) (k : SetIx) : List Nat :=
  let b := s.fl.bil
  let x := b.sess[k]
  let sess := x.flags.toNat + 2 ^ 16 * min x.gapCount 255 + 2 ^ 24 * bit x.isOpen
  match b.bind[k] with
  | some y =>
    [y.ix.val + 2 ^ 11 * bit y.confirmed + 2 ^ 12 * bit y.e.creditMode + 2 ^ 13 * bit (b.exh.getLsbD k.val) + 2 ^ 14 * bit y.forced,
     unsigned 32 (clampI (-2147483648) 2147483647 (tdiv y.e.credit 1000000)), sess]
  | none => [0x7FF, 0, sess]

/-- A read in the block. -/
def bilRead (off : Nat) (s : State) : Nat :=
  if off < 0x100 then regAt (bilRegs s) off
  else match optFin 32 ((off - 0x100) / 16) with | some k => regAt (bilSetRegs s k) (off % 16) | none => 0

/-- Put 32 bits into the identity of a ledger command. -/
def putId (v : BitVec 128) (k : Nat) (w : Word) : BitVec 128 :=
  (v &&& ~~~ ((0xFFFFFFFF : BitVec 128) <<< (32 * k))) ||| ((w.setWidth 128) <<< (32 * k))

/-- A write that applies at once. -/
def bilNow (off : Nat) (v : Word) (s : State) : State :=
  match off with
  | 0x18 => selWrite v s
  | 0x70 => onBilR (fun r => { r with ledgerSel := v &&& 0x003F07FF }) s
  | 0x78 => onBilR (fun r => { r with ledgerId := putId r.ledgerId 0 v }) s
  | 0x7C => onBilR (fun r => { r with ledgerId := putId r.ledgerId 1 v }) s
  | 0x80 => onBilR (fun r => { r with ledgerId := putId r.ledgerId 2 v }) s
  | 0x84 => onBilR (fun r => { r with ledgerId := putId r.ledgerId 3 v }) s
  | 0x88 => onBilR (fun r => { r with ledgerLease := v }) s
  | 0x8C => onBilR (fun r => { r with ledgerArg := v }) s
  | 0xB8 => onBilR (fun r => { r with intStatus := clrW1C r.intStatus v }) s
  | 0xBC => onBilR (fun r => { r with intEnable := v &&& 0x7FF }) s
  | _ => s

/-- A host command of the block. -/
def bilIsCmd (off : Nat) (v : Word) : Bool :=
  (off = 0x04 && v &&& 7 ≠ 0) || [0x08, 0x0C, 0x10, 0x14, 0x64].contains off || (off = 0x74 && v &&& 0xF ≠ 0)

/-- A latched command. -/
def bilCmd (off : Nat) (v : Word) (s : State) : State :=
  match off with
  | 0x04 =>
    let s := if v.getLsbD 0 then mdReset s else s
    let s := if v.getLsbD 1 then onBilR (fun r => { r with ckptReq := true }) s else s
    if v.getLsbD 2 then storeTicket s else s
  | 0x08 => onBilR (fun r => { r with cfg := v &&& 0xFFFF7F07 }) s
  | 0x0C => onBilR (fun r => { r with calMap := r.calMap.set 0 v }) s
  | 0x10 => onBilR (fun r => { r with calMap := r.calMap.set 1 v }) s
  | 0x14 => onBilR (fun r => { r with calMap := r.calMap.set 2 (v &&& 3) }) s
  | 0x64 => ticketAck v s
  | 0x74 => onBilR (fun r => { r with ledgerReq := r.ledgerReq ++ [field v.toNat 0 4] }) s
  | _ => s

/-! ### TDM (R301, R302) -/

/-- TDM_STATUS. -/
def tdmStatus (s : State) : Nat :=
  let t := s.tdm
  bit t.identity + 2 * bit (s.smp.loaded && isLead s) + 4 * t.st.code + 32 * bit (t.markAge = 0 && t.last.isSome) + 64 * bit t.linkUp +
    128 * bit (t.hbAge = 0 && t.hbLast.isSome) + 256 * bit (preferred s) + 512 * bit t.strapConflict + 1024 * bit t.swap.isSome +
    2048 * bit t.dualLead + 4096 * bit t.ownFault + 8192 * bit t.ctrlHold + 2 ^ 14 * t.reason

/-- TDM_CFG and the TANDEM record as applied. -/
def tdmCfg (s : State) : Nat :=
  let c := s.map.tandem
  if !s.smp.loaded then 0
  else
    bit c.enable + 2 * (c.pref % 4) + 8 * (c.linkMode % 4) + 32 * (c.opts % 8) +
      2 ^ 8 * (match c.hbCan with | some k => k.val | none => 0xFF) + 2 ^ 16 * (c.swapFrames % 2 ^ 16)

/-- Bytes 8 and 9 of a marker (R283). -/
def markerBytes (m : Marker) : Nat :=
  bit m.identity + 2 * bit m.lead + 4 * m.state.toNat + 32 * bit m.fault + 64 * bit m.claim + 128 * bit m.grant + 256 * bit m.joinReq +
    512 * bit m.strapConflict

/-- The progress of the bulk transfer in percent (R298): ledger entries and tickets held. -/
def bulkPercent (t : Tdm) : Nat := if t.bulkDone then 100 else min 99 (100 * (t.bulkLedger + t.bulkTickets) / 1792)

/-- The TDM block in ascending offset. -/
def tdmRegs (s : State) : List Nat :=
  let t := s.tdm
  let ser := match t.pair with | some p => p.serial.toNat | none => 0
  let h : List Nat := match t.pair with | some p => (List.range 12).map fun k => lo32 (p.hash.toNat / 2 ^ (32 * k)) | none => List.replicate 12 0
  let m : List Nat := match t.pair with | some p => (List.range 12).map fun k => lo32 (p.meas.toNat / 2 ^ (32 * k)) | none => List.replicate 12 0
  let seal_ := match t.pair with | some p => p.sealBits.toNat | none => 0
  [tdmStatus s, 4 * bit t.ctrlHold, tdmCfg s, if s.smp.loaded then s.map.tandem.hbId + 2 ^ 31 * bit s.map.tandem.hbExt else 0,
   bit t.linkUp + 2 * bit (t.linkUp && s.map.tandem.linkMode = 2) + 4 * bit t.linkUp + 8 * bit t.timeLock + 2 ^ 8 * min t.retx 255 +
     2 ^ 16 * t.lockErr.toNat,
   lo32 ser, hi32 ser, ser / 2 ^ 64,
   match t.last with | some x => markerBytes x + 2 ^ 16 * min x.matchRun 0xFFFF | none => 0,
   lo32 t.roleFn, hi32 t.roleFn, lo32 t.lastSetFn, hi32 t.lastSetFn, lo32 t.swapFn, hi32 t.swapFn,
   min t.matchRun 0xFFFF + 2 ^ 16 * min (reseedsNow s) 0xFFFF, lo32 t.mismatchFn, hi32 t.mismatchFn, lo32 t.digest.toNat,
   hi32 t.digest.toNat, lo32 t.pDigest.toNat, hi32 t.pDigest.toNat, halves (s16 t.skew) t.rtt, halves t.cMismatch.toNat t.cReseed.toNat,
   halves t.cRetx.toNat t.cMiss.toNat, halves t.cRole.toNat t.cIgnored.toNat, halves t.cHb.toNat t.cEmpty.toNat,
   halves (min t.kbSent 0xFFFF) (min t.kbRecv 0xFFFF), t.pairBits.toNat,
   bulkPercent t + 2 ^ 8 * min t.lag 255 + 2 ^ 16 * (if t.joinReq then min t.joinFrames 0xFFFF else 0), t.intStatus.toNat,
   t.intEnable.toNat] ++ h ++ m ++
  [lo32 seal_, hi32 seal_, t.leadAge, if s.smp.loaded then s.map.tandem.joinWait % 4096 else 0, t.reseedCfg.toNat, t.ignoredAddr.toNat,
   halves (min t.markAge 0xFFFF) (min t.hbAge 0xFFFF), 0x10001]

/-- A write, which applies at once (R301). -/
def tdmNow (off : Nat) (v : Word) (s : State) : State :=
  match off with
  | 0x04 =>
    let s := onTdm (fun t => { t with ctrlHold := v.getLsbD 2 }) s
    let s := if v.getLsbD 0 then tdmRejoin s else s
    let s := if v.getLsbD 1 then tdmYield s else s
    if v.getLsbD 3 then tdmDeclare s else s
  | 0x78 => onTdm (fun t => { t with intStatus := clrW1C t.intStatus v }) s
  | 0x7C => onTdm (fun t => { t with intEnable := v &&& 0xFFF }) s
  | 0xF0 => onTdm (fun t => { t with reseedCfg := v }) s
  | _ => s

end Sys2Proof.Machine
end

