-- ==== Sys2Proof/Machine/RegsDie.lean ====
section
/-! DEFINITION. The registers of the firebreak, the auxiliary switches, the cabinet buses and heartwood (R333, R334, R347,
R348, R365, R385, R386). -/

namespace Sys2Proof.Machine

/-! ### FBK (R333, R334) -/

/-- The bytes of the safety image that its CRC covers (R330): no rule lays out the outlet fields. (DESIGN CHOICE, entry 11.) -/
opaque safetyImageBytes : FbkImg → List Byte

/-- FBK_STATUS. -/
def fbkStatus (f : Fbk) : Nat :=
  f.st.code + 4 * bit (!f.intact) * bit (f.st ≠ .start) + 8 * bit f.sealFault + 16 * bit f.sealChanged + 32 * bit f.jammed +
    64 * bit (fbkSafety f).startMode + 128 * bit f.thermal + 256 * f.cause

/-- FBK_CAUSE. -/
def fbkCause (s : State) : Nat :=
  let f := s.fbk
  bit ((List.finRange 8).any fun z => (f.zone[z]).latch) + 2 * bit (f.otcL ≠ 0) + 4 * bit (f.imdL ≠ 0) + 8 * bit (f.weldL ≠ 0) +
    16 * bit ((List.finRange 8).any fun b => brkPresent f b && brkApplied f b) + 32 * bit f.sealChanged

/-- The low sides that read back closed. -/
def lsState (s : State) : Nat := bitSum 40 fun n => match optFin 88 (48 + n) with | some k => (s.aux.sw[k]).on | none => false

/-- FBK_SEAL_STATUS. -/
def fbkSealStatus (f : Fbk) : Nat :=
  bit f.sealValid + 2 * bit f.sealIncons + 4 * bit f.sealRsvd + 8 * bit f.intact + 16 * f.sealEq + 256 * f.badReads.toNat

/-- FBK_RESET_STATUS. -/
def fbkResetStatus (f : Fbk) : Nat := bit (f.resetIn = some true) + 2 * bit f.jammed + 4 * f.resetLen + 2048 * bit f.resetAcc

/-- The global FBK registers in ascending offset. -/
def fbkRegs (s : State) : List Nat :=
  let f := s.fbk
  let held : Nat := (~~~f.ls).toNat
  let kOpen := bitSum 32 fun n => match optFin 32 n with | some o => fbkOpen s o | none => false
  let d := f.logData
  [fbkStatus f, fbkCause s, lo32 held, hi32 held, lo32 (lsState s), hi32 (lsState s), f.stop.toNat, f.otc.toNat, f.imd.toNat, kOpen,
   f.otcL.toNat, f.imdL.toNat, f.weldL.toNat, f.weldArm.toNat, lo32 f.acc.toNat, hi32 f.acc.toNat, lo32 f.sealRead.toNat,
   hi32 f.sealRead.toNat, fbkSealStatus f, fbkResetStatus f,
   bit f.selfPass + 2 * bit f.cyclicOk + 256 * f.lastFail + 2 ^ 16 * f.offTests.toNat,
   (match f.img with | some i => (crc32c (safetyImageBytes i)).toNat | none => 0), f.logSel.toNat + 256 * f.logNext.toNat, d.time.toNat,
   d.code + 256 * d.inst + 2 ^ 16 * d.seq.toNat, lo32 d.ls.toNat, hi32 d.ls.toNat + 256 * d.stop.toNat + 2 ^ 20 * d.st,
   halves f.trips.toNat f.resets.toNat, f.intStatus.toNat, f.intEnable.toNat, auxTime s, 0x10001] ++
    (List.range 16).map fun k => match f.img with | some i => wordOf i.pay k | none => 0

/-- The FBK registers of a zone. -/
def fbkZoneRegs (f : Fbk) (z : Fin 8) : List Nat :=
  let x := f.zone[z]
  let a := f.estopA.getLsbD z.val
  let b := f.estopB.getLsbD z.val
  [bit (zoneOn f z) + 2 * bit a + 4 * bit b + 8 * bit ((!a || !b) && f.st ≠ .start) + 16 * bit x.latch + 32 * bit x.disc + 64 * bit x.cyc,
   halves x.demands.toNat x.discs.toNat]

/-- The FBK registers of a brake. -/
def fbkBrkRegs (s : State) (b : Fin 8) : List Nat :=
  let f := s.fbk
  let x := f.brk[b]
  let pr := brkPresent f b
  let zone := match f.img with | some i => (match i.safety.brakeZone[b] with | some z => 256 * z.val | none => 2048) | none => 0
  let mins := match x.last with | some p => min 0xFFFF ((f.t - p) / 1200000) | none => 0xFFFF
  [bit pr + 2 * bit (f.ls.getLsbD (32 + b.val)) + 4 * bit (x.due && f.st ≠ .start) + 8 * bit x.overdue + 16 * bit (x.phase ≠ 0) +
     32 * bit x.failed + 64 * bit x.repair + 128 * bit (f.st ≠ .start && brkIdle s b) + zone + 4096 * field f.acc.toNat 52 4,
   0, halves mins x.edges.toNat, halves x.passes.toNat x.aborts.toNat]

/-- A read in the block: live views. -/
def fbkRead (off : Nat) (s : State) : Nat :=
  if off < 0x100 then regAt (fbkRegs s) off
  else if off < 0x140 then (match optFin 8 ((off - 0x100) / 8) with | some z => regAt (fbkZoneRegs s.fbk z) (off % 8) | none => 0)
  else if off < 0x200 then 0
  else match optFin 8 ((off - 0x200) / 16) with | some b => regAt (fbkBrkRegs s b) (off % 16) | none => 0

/-- A write that applies at once. -/
def fbkNow (off : Nat) (v : Word) (s : State) : State :=
  match off with
  | 0x58 => fbkLogSel v s
  | 0x70 => onFbk (fun f => { f with intStatus := clrW1C f.intStatus v }) s
  | 0x74 => onFbk (fun f => { f with intEnable := v &&& 0x3FF }) s
  | _ => s

/-- The brake that a control register names. -/
def fbkBrkAt (off : Nat) : Option (Fin 8) := if 0x200 ≤ off && off % 16 = 4 then optFin 8 ((off - 0x200) / 16) else none

/-- A host command of the block. -/
def fbkIsCmd (off : Nat) (v : Word) : Bool := (off = 0x34 && v ≠ 0) || ((fbkBrkAt off).isSome && v &&& 3 ≠ 0)

/-- A latched command, with the evaluation of its cycle. -/
def fbkCmd (off : Nat) (v : Word) (s : State) : State :=
  fbkEval false (match fbkBrkAt off with
    | some b =>
      let s := if v.getLsbD 0 then brkTestNow b s else s
      if v.getLsbD 1 then brkRepair b s else s
    | none => if off = 0x34 then (List.finRange 32).foldl (fun s o => if v.getLsbD o.val then weldArm o s else s) s else s)

/-! ### AUX (R347, R348) -/

/-- AUX_STATUS: the temperature difference in 2 K is a live value that no command brings, a free one. -/
def auxStatusRead (k : SwIx) (s : State) : Nat × State :=
  let d := s.fresh
  (auxStatus s k + 2 ^ 19 * (Config.freeNat d.1 % 32), d.2)

/-- AUX_CTRL. -/
def auxCtrl (s : State) (k : SwIx) : Nat :=
  let x := s.aux.sw[k]
  bit (if isPulse s k then x.pulse else x.ctl) + 4 * x.senseOut.toNat + 256 * x.intEn.toNat

/-- AUX_SENSE: fine only in fine mode (R343). -/
def auxSense (s : State) (k : SwIx) : Nat :=
  let x := s.aux.sw[k]
  let m := (s.map.aux[k]).olMode
  x.sense + 4096 * (if m = 2 || m = 5 then x.fine else 0) + 2 ^ 17 * (hsSum s / 4 % 4096)

/-- A read in the block. -/
def auxRead (k : SwIx) (r : Nat) (s : State) : Nat × State :=
  match r with
  | 0 => auxStatusRead k s
  | 4 => (auxCtrl s k, s)
  | 8 => (auxSense s k, s)
  | _ => (0, s)

/-- A write that applies at once. -/
def auxNow (k : SwIx) (r : Nat) (v : Word) (s : State) : State :=
  match r with
  | 0 => onSw k (fun x => { x with events := x.events &&& ~~~ (v.extractLsb' 24 5) }) s
  | 4 => onSw k (fun x => { x with
      senseOut := if decide (field v.toNat 2 3 ≤ 4) then v.extractLsb' 2 3 else 0, intEn := v.extractLsb' 8 5 }) s
  | _ => s

/-- AUX_CTRL.on and clear are a host command. -/
def auxIsCmd (r : Nat) : Bool := r = 4

/-- A latched AUX_CTRL: on of another use raises its event where the write sets it (R348). -/
def auxCmd (k : SwIx) (v : Word) (s : State) : State :=
  let on := v.getLsbD 0
  let u := (s.map.aux[k]).use
  let s := match optFin 48 k.val with
    | some h => if u = 1 || u = 6 || on then auxOn h on s else s
    | none => if on then refuse (0xC0004 + 0x20 * k.val) s else s
  if v.getLsbD 1 then auxClear k s else s

/-! ### CAN (R365) -/

/-- Bytes 0 to 7 of a filter entry as applied (R352). -/
def filtBytes (e : FiltCfg) : List Byte :=
  let w0 := e.ident.toNat + 2 ^ 29 * bit e.ext + 2 ^ 30 * bit e.copy + 2 ^ 31 * bit e.enabled
  leBytes 4 w0 ++
    (if e.q = 0 then leBytes 4 e.mask.toNat
     else leBytes 1 e.q ++ leBytes 1 (e.num % 64 + 64 * (e.sub % 4)) ++ leBytes 1 e.start ++
       leBytes 1 ((match e.buf with | some b => b.val + 8 | none => 0) + 16 * bit e.action))

/-- The CAN registers of a controller in ascending offset. -/
def canRegs (s : State) (k : CanIx) : List Nat :=
  let c := s.can[k]
  let m := s.map.can[k]
  let on (v : Nat) : Nat := if s.smp.loaded then v else 0
  let flt := (m.filters.getD c.fltSel.toNat {})
  let hp := c.hpShown
  [on (m.mode + 4 * bit (canRestricted s k) + 8 * c.st + 32 * bit m.slotTimer.isSome), bit c.manual,
   on (m.nbrp - 1 + 2 ^ 9 * (m.ntseg1 - 1) + 2 ^ 17 * (m.ntseg2 - 1) + 2 ^ 24 * (m.nsjw - 1)),
   on (m.dbrp - 1 + 2 ^ 5 * (m.dtseg1 - 1) + 2 ^ 10 * (m.dtseg2 - 1) + 2 ^ 14 * (m.dsjw - 1) + 2 ^ 18 * (bit m.fd + 2 * bit m.brs + 4 * bit m.tdc)),
   on m.tdcOff + 256 * c.delay.toNat, c.tec + 256 * c.rec_ + 2 ^ 16 * c.lastErr, halves c.errs.toNat c.busOffs.toNat, canTxBase k, c.txCount.toNat,
   c.queue.length + 256 * c.peak + 2 ^ 16 * c.refused.toNat, halves c.sent.toNat c.dropped.toNat, canRxBase k,
   c.rxWr.toNat + 256 * c.rxRd.toNat + 2 ^ 16 * c.overflow.toNat, halves c.received.toNat c.short.toNat, c.fltSel.toNat,
   wordOf (filtBytes flt) 0, wordOf (filtBytes flt) 1, (c.hits[c.fltSel.toFin]).toNat, c.hpArrived.toNat + 256 * c.hpAction.toNat, c.hpSel.toNat,
   hp.ident.toNat + 2 ^ 29 * bit hp.ext + 2 ^ 30 * bit hp.fd, hp.fn % 2 ^ 24 + 2 ^ 24 * hp.data.length + 2 ^ 31 * bit hp.valid] ++
    (List.range 16).map (wordOf hp.data) ++ [c.intStatus.toNat, c.intEnable.toNat]

/-- A write that applies at once; the host has read every entry before its index (R354). -/
def canNow (k : CanIx) (r : Nat) (v : Word) (s : State) : State :=
  match r with
  | 0x04 => onCan k (fun c => { c with manual := v.getLsbD 0 }) s
  | 0x30 => onCan k (fun c =>
      let rd : BitVec 6 := v.extractLsb' 8 6
      let n := (c.rxWr - rd).toNat
      { c with rxRd := rd, unread := if n = 0 && c.unread = 64 && rd = c.rxRd then 64 else n }) s
  | 0x38 => onCan k (fun c => { c with fltSel := v.setWidth 7 }) s
  | 0x48 => onCan k (fun c => { c with hpArrived := c.hpArrived &&& ~~~ (v.setWidth 8) }) s
  | 0x4C => canHpSel k v s
  | 0x98 => onCan k (fun c => { c with intStatus := clrW1C c.intStatus v }) s
  | 0x9C => onCan k (fun c => { c with intEnable := v &&& 0xFFFF }) s
  | _ => s

/-- A host command of the block. -/
def canIsCmd (r : Nat) (v : Word) : Bool := (r = 4 && v.getLsbD 1) || r = 0x20

/-- A latched command; `win` is the window as captured, none where it was poisoned (R406, R409). -/
def canCmd (k : CanIx) (r : Nat) (v : Word) (win : List Byte) (s : State) : State :=
  match r with
  | 0x04 => canRecover k s
  | 0x20 =>
    let s := onCan k (fun c => { c with txCount := v.setWidth 4 }) s
    if v.getLsbD 4 then (if win = [] then s else canSubmit k (field v.toNat 0 4) win s) else s
  | _ => s

/-! ### HWD (R385, R386) -/

/-- HWD_STATUS. -/
def hwdStatus (s : State) : Nat :=
  let h := s.hwd
  bit h.ready + 2 * bit (keyless s) + 4 * bit h.zeroized + 8 * bit h.rootFault + 16 * bit h.exhausted +
    32 * bit (h.debug || h.exhausted || h.rootFault) + 64 * bit h.tamperLock

/-- HWD_SLOT_INFO of the selected slot. -/
def slotInfo (s : State) : Nat :=
  let k : Fin 128 := s.hwd.slotSel.toFin
  let bad := 2 ^ 27 * bit (s.hwd.bad.getLsbD k.val)
  match activeEntry s k with
  | some e => entTyp e % 4 + 4 * entUsage e + 2 ^ 10 * entMask e + 2 ^ 18 * entGen e + 2 ^ 26 * bit (s.hwd.active[k] = some true) + bad
  | none => bad

/-- Word k of a 128-bit map. -/
def word128 (v : BitVec 128) (k : Nat) : Nat := v.toNat / 2 ^ (32 * k) % 2 ^ 32

/-- HWD_BBK_STATUS. -/
def bbkStatus (h : Hwd) : Nat :=
  let typ (b : Fin 8) : Nat := match h.bbk[b] with | some k => k.typ | none => 0
  (List.finRange 8).foldl (fun a b => a + 2 ^ b.val * bit (h.bbk[b]).isSome) 0 +
    (List.finRange 8).foldl (fun a b => a + if b.val < 4 then 2 ^ (8 + 2 * b.val) * typ b else 0) 0

/-- The HWD registers in ascending offset. -/
def hwdRegs (s : State) : List Nat :=
  let h := s.hwd
  let target := match s.fwu.target with | some t => hashBytes (Config.sha384 t.toList.flatten) | none => []
  let rowHash := h.smpRows.getLast?.getD []
  [hwdStatus s, bit h.tamperLock, h.tamperCfg.toNat, h.tamperNow.toNat, h.tc + 32 * bit h.pending + 64 * bit h.exhausted, h.cause.toNat,
   h.logSel.toNat + 256 * h.logNext.toNat, h.logData.sec, h.logData.frac % 2 ^ 16 + 2 ^ 16 * h.logData.src + 2 ^ 24 * h.logData.st, 0, h.arg.toNat,
   bit h.busy.isSome + 2 * bit h.done + 16 * h.result + 256 * h.op, 0x180000, h.slotSel.toNat, slotInfo s] ++
    (List.range 4).map (word128 (validBits h.active)) ++ (List.range 4).map (word128 h.bad) ++
    [bbkStatus h, h.intStatus.toNat, h.intEnable.toNat, bit h.trngFail + 256 * h.trngFails.toNat,
     bit s.otp.locked + 2 * bit h.debug + 4 * (h.smpRows.length - 1) + 16 * bit (h.smpRows ≠ []),
     h.resealed + 256 * ((List.range 128).filter h.pendCommit.getLsbD).length + 2 ^ 16 * bit h.resealDone + 2 ^ 17 * bit h.committed,
     bit (h.smpRows ≠ [] && smpKeyOk s) + 2 * bit (h.smpRows ≠ [] && !smpKeyOk s), lo32 h.attFn, hi32 h.attFn, h.measSel.toNat] ++
    (List.range 12).map (wordOf h.meas[h.measSel.toFin]) ++ (List.range 12).map (fun k => if h.ready then wordOf (calHash s) k else 0) ++
    (List.range 12).map (wordOf rowHash) ++ (List.range 12).map (wordOf target) ++
    [(List.finRange 4).foldl (fun a g => a + 2 ^ (8 * g.val) * (h.glitch[g]).toNat) 0, halves h.ops.toNat h.aborts.toNat]

/-- A write, which applies at once on the package written. -/
def hwdNow (off : Nat) (v : Word) (s : State) : State :=
  match off with
  | 0x04 =>
    let s := if v.getLsbD 0 then onHwd (fun h => { h with tamperLock := true }) s else s
    if v.getLsbD 1 then lifecycleLock s else s
  | 0x08 => if s.hwd.tamperLock || s.otp.locked then s else onHwd (fun h => { h with tamperCfg := v &&& 0xFFFF }) s
  | 0x18 => logSel v s
  | 0x24 => if field v.toNat 0 4 = 0 then s else hwdStart (field v.toNat 0 4) s.hwd.arg s
  | 0x28 => onHwd (fun h => { h with arg := v &&& 0xFFFF07FF }) s
  | 0x34 => onHwd (fun h => { h with slotSel := v.setWidth 7 }) s
  | 0x60 => onHwd (fun h => { h with intStatus := clrW1C h.intStatus v }) s
  | 0x64 => onHwd (fun h => { h with intEnable := v &&& 0x3F }) s
  | 0x80 => onHwd (fun h => { h with measSel := v.setWidth 3 }) s
  | _ => s

/-- A read of HWD_TAMPER_CAUSE clears it. -/
def tamperCauseRc (s : State) : State := onHwd (fun h => { h with cause := 0 }) s

end Sys2Proof.Machine
end

