-- ==== Sys2Proof/Machine/RegsCore.lean ====
section
/-! DEFINITION. The registers of firmware update, the landing memory, health and the tally counters (R401, R402, R421, R422,
R444 to R446). -/

namespace Sys2Proof.Machine

/-! ### FWU (R401, R402) -/

/-- The manifest hash that FWU_HASH_SEL selects. -/
def fwuHash (f : Fwu) : List Byte :=
  let m := if f.hashSel.getLsbD 4 then (slotOf f f.running).manifest else f.manifest
  if m = [] then [] else hashBytes (Config.sha384 m)

/-- The FWU registers in ascending offset. -/
def fwuRegs (s : State) : List Nat :=
  let f := s.fwu
  let p := if isLead s then f.partner else some s.lat.levels.fwuOwn
  let r := bootRec f
  [fwuStatus f, 32 * bit f.ownerLock, f.svcIp.toNat, f.svcNet.toNat, bit f.svcUp + 2 * bit f.svcUp + 2 ^ 16 * f.svcDrops.toNat, fwuBlocks f, fwBase,
   halves f.crcErrs.toNat f.dups.toNat, manNat f.manifest 8 4, manNat (slotOf f f.running).manifest 8 4, f.floor,
   bit f.running + 2 * bit f.inactiveOk + (match r with | some r => 4 * bit r.pendCommit + 2 ^ 16 * (r.seq % 2 ^ 16) | none => 0),
   f.actLo.toNat, f.actHi.toNat, f.sched.toNat, f.group.toNat, f.refuse.toNat, f.attempt % 256 + 256 * f.limit, lo32 f.commitFn, hi32 f.commitFn,
   f.go.toNat + 256 * f.nogo.toNat + 2 ^ 16 * f.revertVotes.toNat, f.revertReason + 256 * bit f.revertByPartner, f.restartMs,
   bit f.ownerLock, bit (f.opKey ≠ []) + 2 * bit f.opKeyCrcBad + 4 * bit f.opKeyRefused, f.intStatus.toNat, f.intEnable.toNat, f.hashSel.toNat,
   wordOf (fwuHash f) (f.hashSel.toNat % 16),
   (match p with | some p => bit p.vbatLow + 2 * bit p.notVerified + 4 * bit p.notResealed | none => 0) + 8 * bit (f.latPartner = some true), s.lat.levels.vbatMv, 0x10001]

/-- A write that applies at once. -/
def fwuNow (off : Nat) (v : Word) (s : State) : State :=
  match off with
  | 0x04 =>
    let s := if v.getLsbD 0 then fwuWrite s else s
    let s := if v.getLsbD 1 then fwuDiscard s else s
    if v.getLsbD 6 then opkeyWrite s else s
  | 0x08 => onFwu (fun f => { f with svcIp := v }) s
  | 0x0C => onFwu (fun f => { f with svcNet := v &&& 0xFFFF003F }) s
  | 0x64 => onFwu (fun f => { f with intStatus := clrW1C f.intStatus v }) s
  | 0x68 => onFwu (fun f => { f with intEnable := v &&& 0x3FF }) s
  | 0x6C => onFwu (fun f => { f with hashSel := v.setWidth 5 }) s
  | _ => s

/-- A host command of the block; FWU_CTRL.owner_lock is RW, so every write of FWU_CTRL is one. -/
def fwuIsCmd (off : Nat) : Bool := [0x04, 0x30, 0x34, 0x38, 0x3C].contains off

/-- A latched command. -/
def fwuCmd (off : Nat) (v : Word) (s : State) : State :=
  match off with
  | 0x04 =>
    let s := onFwu (fun f => { f with ownerLock := v.getLsbD 5 }) s
    let s := if v.getLsbD 2 then fwuSchedule s else s
    let s := if v.getLsbD 3 then fwuCancel s else s
    if v.getLsbD 4 then fwuRevertCmd s else s
  | 0x30 => onFwu (fun f => { f with actLo := v }) s
  | 0x34 => onFwu (fun f => { f with actHi := v }) s
  | 0x38 => onFwu (fun f => { f with sched := v }) s
  | 0x3C => onFwu (fun f => { f with group := v &&& 0x003FFFFF }) s
  | _ => s

/-! ### LND (R421, R422) -/

/-- LND_STATUS. -/
def lndStatus (l : Lnd) : Nat := bit l.planLoaded + 2 * bit l.uncorr + 4 * bit l.scrubbing + 8 * bit l.throttled + 16 * bit l.jnlOver

/-- LND_Q_CFG of an instance. -/
def qCfg (s : State) (q : Fin 64) : Nat :=
  let f := s.map.fifo[q]
  f.kind + 4 * f.cls + (match f.next with | some n => 32 * n.val + 2 ^ 11 | none => 0) + 2 ^ 12 * bit f.hostWrite + 2 ^ 13 * f.irq

/-- The frame of the oldest and of the newest packet held. -/
def jnlOld (l : Lnd) : Nat := match l.jnl.find? fun p => !p.void with | some p => p.fn | none => 0
def jnlNew (l : Lnd) : Nat := match l.jnl.reverse.find? fun p => !p.void with | some p => p.fn | none => 0

/-- The global LND registers in ascending offset. -/
def lndRegs (s : State) : List Nat :=
  let l := s.lnd
  let q : Fin 64 := l.qSel.toFin
  let x := l.q[q]
  let f := s.map.fifo[q]
  [lndStatus l, 0, l.corrN, l.uncorrN, l.corrAddr.toNat, l.uncorrAddr.toNat, l.scrubCfg.toNat, l.scrubLine.toNat + 2 ^ 20 * l.scrubPasses.toNat,
   l.qSel.toNat, qCfg s q, f.base, f.size, x.wr % 2 ^ 25, x.rd % 2 ^ 25, x.wraps.toNat, lo32 (jnlOld l), hi32 (jnlOld l), lo32 (jnlNew l),
   hi32 (jnlNew l), l.jnlRd, (l.q[(8 : Fin 64)]).wr % 2 ^ 25, l.jnlCtrl.toNat, l.jnlLost, l.evtRd.toNat, halves l.evtWr.toNat l.evtPasses.toNat,
   halves l.arbMax.toNat l.arbLate.toNat, l.overrun.toNat, l.hostWr.toNat + 2 ^ 16 * l.hostGran.toNat, l.intStatus.toNat, l.intEnable.toNat,
   l.snapFn.toNat, 0x10001]

/-- LND_HOST_WMAP_k. -/
def hostWmap (s : State) (k : Nat) : Nat := if s.lnd.planLoaded then bitSum 32 fun n => granuleMay s (32 * k + n) else 0

/-- A read in the block: live views. -/
def lndRegRead (off : Nat) (s : State) : Nat :=
  if off < 0x80 then regAt (lndRegs s) off
  else if off < 0x100 then hostWmap s ((off - 0x80) / 4)
  else match optFin 64 ((off - 0x100) / 4) with | some q => qStatus s q | none => 0

/-- A write that applies at once. -/
def lndNow (off : Nat) (v : Word) (s : State) : State :=
  match off with
  | 0x18 => onLnd (fun l => { l with scrubCfg := v &&& 0x1FF }) s
  | 0x20 => onLnd (fun l => { l with qSel := v.setWidth 6 }) s
  | 0x4C => onLnd (fun l => { l with jnlRd := field v.toNat 0 25 }) s
  | 0x54 => onLnd (fun l => { l with jnlCtrl := v.setWidth 4 }) s
  | 0x5C => onLnd (fun l => { l with evtRd := v.setWidth 16 }) s
  | 0x70 => onLnd (fun l => { l with intStatus := clrW1C l.intStatus v }) s
  | 0x74 => onLnd (fun l => { l with intEnable := v &&& 0x7F }) s
  | _ => s

/-- A host command of the block. -/
def lndIsCmd (off : Nat) (v : Word) : Bool := off = 0x04 && v &&& 3 ≠ 0

/-- A latched LND_CTRL. -/
def lndCmd (v : Word) (s : State) : State :=
  let s := if v.getLsbD 0 then onLnd (fun l => { l with snapNow := true }) s else s
  if v.getLsbD 1 then onLnd (fun l => { l with scrubLine := 0, scrubbing := true }) s else s

/-! ### HKP (R444, R445) -/

/-- HKP_STATUS. -/
def hkpStatus (s : State) : Nat :=
  let h := s.hkp
  h.level + 4 * bit (h.level = 2) + 8 * bit h.supplyWarn + 16 * bit ((h.ins[(37 : Fin 42)]).seen && decide (s.live.vbatMv < 2600)) +
    32 * bit h.rtcValid + 64 * bit h.avail + 128 * bit s.tdm.fnBehind

/-- HKP_BOOT_TIME: FFFFh until the outlets are available; 0 before the first boundary. -/
def bootTime (h : Hkp) : Nat := if h.bootMs = 0 then 0 else halves (min h.bootMs 0xFFFF) (if h.avail then min h.availMs 0xFFFE else 0xFFFF)

/-- HKP_CLK_STATUS. -/
def clkStatus (h : Hkp) : Nat :=
  bit h.xtal25 + 2 * bit h.xtal32 + 4 * h.plls.toNat + 64 * bit h.tdmRef + 128 * bit h.auxGood

/-- HKP_PIPE. -/
def hkpPipe (s : State) : Nat :=
  (List.finRange 4).foldl (fun a r =>
    let x := s.ctl.rgn[r]
    a + 2 ^ (4 * r.val) * (bit x.spareUsed + 2 * bit x.spareUnavail + 4 * bit x.lost) + 2 ^ (16 + 4 * r.val) * x.failed.toNat) 0

/-- Half a register HKP_IN. -/
def hkpIn (x : HkIn) : Nat := x.code % 4096 + 4096 * bit x.ovr + 8192 * bit x.settle

/-- Input i as latched. -/
def hkpInAt (s : State) (i : Nat) : Nat := match optFin 42 i with | some i => hkpIn s.hkp.insLat[i] | none => 0

/-- HKP_TLY_SRC. -/
def tlySrc (s : State) : Nat :=
  match optFin 192 s.hkp.tlySel.toNat with
  | some i => let t := s.map.tally[i]; t.code + 2 ^ 16 * (if t.code = 0 then 0 else t.num) + 2 ^ 24 * bit t.frames + 2 ^ 25 * bit (t.code ≠ 0)
  | none => 0

/-- The HKP registers in ascending offset; HKP_RESET_CAUSE is read by `causeRead` where the read clears it. -/
def hkpRegs (s : State) : List Nat :=
  let h := s.hkp
  let hot := hottest s h.ins
  let shed := bit (h.level = 2)
  [hkpStatus s, 0, h.cause.toNat, halves h.colds.toNat h.warms.toNat, hot.1 + 16 * h.level + 2 ^ 16 * s16 (sat16 hot.2), s16 (sat16 h.peak) + 2 ^ 16 * h.peakAt,
   s16 (sat16 h.shutRead) + 2 ^ 16 * h.shutAt + 2 ^ 20 * h.shuts.toNat, (rtcParts s.lat.levels.rtc).1 % 2 ^ 32, (rtcParts s.lat.levels.rtc).2,
   h.setSec.toNat, h.setFrac.toNat, h.trim.toNat, lo32 s.fn, hi32 s.fn, lo32 h.startFn, hi32 h.startFn, bootTime h, clkStatus h,
   halves h.lockLosses.toNat h.xtal32Stops.toNat, halves h.warnings.toNat h.savesAfter.toNat,
   h.wdogFrames + 256 * min 255 (h.coreFns.filter fun f => s.fn < f + 60000).length, halves h.coreResets.toNat h.hostResets.toNat, h.throttled,
   h.tlySel.toNat, tlySrc s, 256 * h.tlyEvery, h.tlyNext + 2 ^ 16 * h.tlyPasses.toNat, h.intStatus.toNat, h.intEnable.toNat,
   bitSum 6 (supplyOk h.ins) + 256 * bit h.supplyWarn, hkpPipe s, 0x10001] ++
    (List.range 32).map (fun k => halves (hkpInAt s (2 * k)) (hkpInAt s (2 * k + 1))) ++
    (List.finRange 10).map (fun k => s16 (sat16 (dieTempOf s h.insLat k))) ++ h.lim.toList.map (·.toNat) ++
    [h.alarm.toNat, h.alarmEn.toNat, shed + 2 * shed + 4 * shed, lo32 s.bilR.fnAon, hi32 s.bilR.fnAon, s.lat.levels.vbatMv]

/-- The limit register that an offset names. -/
def hkpLim (off : Nat) : Option (Fin 16) := if off < 0x128 then none else optFin 16 ((off - 0x128) / 4)

/-- A write that applies at once on the package written. -/
def hkpNow (off : Nat) (v : Word) (s : State) : State :=
  match off with
  | 0x04 =>
    let key : BitVec 16 := v.extractLsb' 16 16
    let s := if v.getLsbD 3 then hkpFnClear key s else s
    let s := if v.getLsbD 1 then hkpWarm key s else s
    if v.getLsbD 2 then hkpCold key s else s
  | 0x24 => onHkp (fun h => { h with setSec := v }) s
  | 0x28 => onHkp (fun h => { h with setFrac := v.setWidth 16 }) s
  | 0x2C => onHkp (fun h => { h with trim := v.setWidth 16 }) s
  | 0x50 => onHkp (fun h => { h with wdogFrames := v.toNat % 256 }) s
  | 0x5C => onHkp (fun h => { h with tlySel := v.setWidth 8 }) s
  | 0x64 => onHkp (fun h => { h with tlyEvery := field v.toNat 8 8, tlyClear := h.tlyClear || v.getLsbD 0 }) s
  | 0x6C => onHkp (fun h => { h with intStatus := clrW1C h.intStatus v }) s
  | 0x70 => onHkp (fun h => { h with intEnable := v &&& 0x1FFF }) s
  | 0x168 => onHkp (fun h => { h with alarm := h.alarm &&& ~~~ (v.setWidth 16) }) s
  | 0x16C => onHkp (fun h => { h with alarmEn := v.setWidth 16 }) s
  | _ => match hkpLim off with
    | some k => onHkp (fun h => { h with lim := h.lim.set k (v &&& 0x0FFF0FFF) }) s
    | none => s

/-- A host command of the block. -/
def hkpIsCmd (off : Nat) (v : Word) : Bool := off = 0x04 && v.getLsbD 0

/-! ### TLY (R446) -/

/-- A read in the block: the lower half, or the upper half, held where the lower one of the same counter was read before. -/
def tlyRead (off : Nat) (s : State) : Nat × State :=
  match optFin 192 (off / 8) with
  | none => (0, s)
  | some i =>
    if off % 8 = 0 then tlyLo i s
    else match s.hkp.tlyHold with
      | some (j, w) => if i = j then (w.toNat, onHkp (fun h => { h with tlyHold := none }) s) else (hi32 s.hkp.tlyShown[i], s)
      | none => (hi32 s.hkp.tlyShown[i], s)

end Sys2Proof.Machine
end

