-- ==== Sys2Proof/Machine/Host.lean ====
section
/-! DEFINITION. The host port (chapter 19): the map of the blocks, register reads and writes, host commands, the quad-SPI
target and the interrupts. -/

namespace Sys2Proof.Machine

/-- Change the block. -/
def onHst (f : Hst → Hst) (s : State) : State := { s with hst := f s.hst }

/-- Set a bit of HST_INT_STATUS, with the event of rank 13 that carries it (R460); the events of commands come first
(R451). -/
def hstEvent (b data : Nat) (s : State) : State :=
  raise (onHst (fun h => { h with intStatus := setBit h.intStatus b }) s) { rank := 13, code := b + 1, ord := if b ≤ 1 then 0 else b, data := data }

/-! ### The map of the blocks (R452) -/

/-- The spans of the blocks in bytes, by index. -/
def blockSpan : List Nat :=
  [0xC0, 0x100, 0x900, 0x6000, 0x1800, 0x2000, 0x1000, 0x800, 0x800, 0x300] ++
  [0x100, 0x280, 0xB00, 0x8000, 0x180, 0x80, 0x200, 0x180, 0x600]

/-- An offset lies in a block's span. -/
def inSpan (off : Nat) : Bool := decide (off % 65536 < blockSpan.getD (off / 65536) 0)

/-- An offset lies in the MSI-X table, or in the pending-bit array (R448). -/
def inMsix (off : Nat) : Bool := decide (0x180000 ≤ off) && decide (off < 0x180200)
def inPba (off : Nat) : Bool := off = 0x181000

/-! ### Interrupts (R456, R457) -/

/-- The instances that HST_PEND shows, by block. -/
def pendLpe (s : State) (c : ChIx) : Bool := (s.ctl.units[c]).intStatus &&& (s.ctl.units[c]).intEnable ≠ 0
def pendChp (s : State) (c : ChIx) : Bool := (s.ctl.ports[c]).events &&& (s.ctl.ports[c]).intEn ≠ 0
def pendOsq (s : State) (o : OutIx) : Bool := (s.osqR[o]).intStatus &&& (s.osqR[o]).intEnable ≠ 0
def pendVlk (s : State) (o : OutIx) : Bool := (s.vlk[o]).intStatus &&& (s.vlk[o]).intEnable ≠ 0
def pendCcl (s : State) (o : OutIx) : Bool := (s.cclR[o]).events &&& (s.cclR[o]).intEn ≠ 0
def pendMet (s : State) (k : SetIx) : Bool := (s.met.setEvents[k]) &&& (s.met.setIntEn[k]) ≠ 0
def pendCan (s : State) (k : CanIx) : Bool :=
  let c := s.can[k]
  (c.intStatus &&& c.intEnable) &&& 0xFF ≠ 0 || c.hpArrived &&& c.intEnable.extractLsb' 8 8 ≠ 0
def pendAux (s : State) (k : SwIx) : Bool := (s.aux.sw[k]).events &&& (s.aux.sw[k]).intEn ≠ 0

/-- Source n is pending. -/
def srcPending (s : State) (n : Nat) : Bool :=
  match n with
  | 0 => (s.hst.intStatus &&& s.hst.intEnable) &&& 0x1FF ≠ 0
  | 1 => s.smp.intStatus &&& s.smp.intEnable ≠ 0
  | 2 => s.alc.intStatus &&& s.alc.intEnable ≠ 0
  | 3 => (List.finRange 96).any (pendLpe s)
  | 4 => (List.finRange 96).any (pendChp s)
  | 5 => (List.finRange 32).any (pendOsq s)
  | 6 => (List.finRange 32).any (pendVlk s)
  | 7 => (List.finRange 32).any (pendCcl s)
  | 8 => s.met.intStatus &&& s.met.intEnable ≠ 0 || (List.finRange 32).any (pendMet s)
  | 9 => s.bilR.intStatus &&& s.bilR.intEnable ≠ 0
  | 10 => s.tdm.intStatus &&& s.tdm.intEnable ≠ 0
  | 11 => s.fbk.intStatus &&& s.fbk.intEnable ≠ 0
  | 12 => (List.finRange 88).any (pendAux s)
  | 13 => (List.finRange 8).any (pendCan s)
  | 14 => s.hwd.intStatus &&& s.hwd.intEnable ≠ 0
  | 15 => s.fwu.intStatus &&& s.fwu.intEnable ≠ 0
  | 16 => s.lnd.intStatus &&& s.lnd.intEnable ≠ 0
  | 17 => s.hkp.intStatus &&& s.hkp.intEnable ≠ 0 || s.hkp.alarm &&& s.hkp.alarmEn ≠ 0
  | 19 => (s.hst.intStatus &&& s.hst.intEnable) &&& 0x200 ≠ 0
  | _ => false

/-- The vector of a source, none where HST_VEC_MAP gives none. -/
def vecOf (s : State) (n : Nat) : Option Nat :=
  match optFin 5 (n / 4) with
  | some k =>
    let b := field (s.hst.vecMap[k]).toNat (8 * (n % 4)) 8
    if b / 128 = 1 then none else some (b % 32)
  | none => none

/-- HST_VEC_PEND. -/
def vecPend (s : State) : BitVec 32 :=
  (List.range 20).foldl (fun (w : BitVec 32) n =>
    match vecOf s n with
    | some v => cond (srcPending s n) (setBit w v) w
    | none => w) 0

/-- The message of a vector can go out now: MSI-X and bus mastering are on and neither mask holds it. -/
def msgFree (h : Hst) (v : Fin 32) : Bool := h.msixEn && h.busMaster && !h.msixMask && !(h.msix[v]).mask

/-- A message goes out, or is held in the pending-bit array. -/
def msgSend (h : Hst) (v : Fin 32) : Hst :=
  if msgFree h v then { h with sent := h.sent ++ [v] } else { h with pba := setBit h.pba v.val }

/-- Send what the pending-bit array holds and no mask holds any more. -/
def msgRelease (h : Hst) : Hst :=
  (List.finRange 32).foldl (fun (h : Hst) v =>
    if h.pba.getLsbD v.val && msgFree h v then { h with pba := clrBit h.pba v.val, sent := h.sent ++ [v] } else h) h

/-- INTERRUPT_FIRE (R457): every armed vector with a pending source fires and is disarmed. -/
def intEval (s : State) : State :=
  let fire := vecPend s &&& s.hst.armed
  if fire = 0 then s
  else onHst (fun h =>
    (List.finRange 32).foldl (fun (h : Hst) v => if fire.getLsbD v.val then msgSend h v else h) { h with armed := h.armed &&& ~~~fire }) s

/-- Re-arm vectors: one that is still pending fires again. -/
def vecAck (val : Word) (s : State) : State := intEval (onHst (fun h => { h with armed := h.armed ||| val }) (intEval s))

/-- VECTOR_ACK (R457). -/
def execVectorAck (val : Word) (s : State) : Ans := whenOn s.isl.ctl s (vecAck val)

/-- MSIX_MASK_CLEAR (R457): the function mask, by a host that has enabled MSI-X, or the mask of a vector. -/
def maskClear (vec : Option (Fin 32)) (s : State) : State :=
  onHst (fun h =>
    let h := { h with msixEn := true, busMaster := true }
    msgRelease (match vec with
      | none => { h with msixMask := false }
      | some v => { h with msix := Vec.upd h.msix v fun e => { e with mask := false } })) s

/-- MSIX_MASK_CLEAR (R457). -/
def execMsixMaskClear (vec : Option (Fin 32)) (s : State) : Ans := whenOn s.isl.ctl s (maskClear vec)

/-! ### HST registers (R461, R462) -/

/-- HST_STATUS. -/
def hstStatus (s : State) : Nat :=
  let h := s.hst
  bit h.linkUp + 2 * bit h.busMaster + 4 * bit h.msixEn + 8 * bit h.msixMask + 16 * bit (!h.qspiDis) +
    32 * bit (s.smp.loaded && isLead s) + 64 * bit s.smp.loaded

/-- The HST_PEND register k of a block with n instances. -/
def pendWord (p : Nat → Bool) (n k : Nat) : Nat := bitSum 32 fun i => decide (32 * k + i < n) && p (32 * k + i)

/-- A predicate over an index type, as one over numbers. -/
def byIx (n : Nat) (p : Fin n → Bool) (i : Nat) : Bool := match optFin n i with | some i => p i | none => false

/-- The frame to which a write that completes now belongs (R451). -/
def cmdFn (s : State) : Nat := if s.hst.cmdCount < 1024 then s.fn else s.fn + 1

/-- The HST registers in ascending offset. -/
def hstRegs (s : State) : List Nat :=
  let h := s.hst
  let ser := s.otp.serial.toNat
  let up (v : Nat) : Nat := if h.linkUp then v else 0
  [0xB09632 + 2 ^ 24 * (orderByte s).toNat, 0x10001, lo32 ser, hi32 ser, ser / 2 ^ 64, hstStatus s, bit h.qspiDis + 2 * bit h.urUnmapped,
   h.intStatus.toNat, h.intEnable.toNat, bitSum 20 (srcPending s)] ++ h.vecMap.toList.map (·.toNat) ++
  [0, (vecPend s).toNat, h.tick.toNat, min h.cmdCount 2047 + 2 ^ 16 * h.withheld.toNat, lo32 (cmdFn s), hi32 (cmdFn s),
   halves h.cErr.toNat h.cUnmapped.toNat, h.cRefused.toNat, h.refusedAddr.toNat,
   up (1 + bit h.gen2 + 2 ^ 4 + 2 ^ 10) + 2 ^ 11 * bit h.inL1 + 2 ^ 16 * h.recoveries.toNat, halves h.linkDowns.toNat h.correctable.toNat,
   bit (!h.qspiDis) + 2 * bit h.csLow + 2 ^ 8 * h.framing.toNat + 2 ^ 16 * h.accesses.toNat, (h.scratch[(0 : Fin 2)]).toNat,
   (h.scratch[(1 : Fin 2)]).toNat] ++
  (List.range 3).map (pendWord (byIx 96 (pendLpe s)) 96) ++ (List.range 3).map (pendWord (byIx 96 (pendChp s)) 96) ++
  [pendWord (byIx 32 (pendOsq s)) 32 0, pendWord (byIx 32 (pendVlk s)) 32 0, pendWord (byIx 32 (pendCcl s)) 32 0,
   pendWord (byIx 32 (pendMet s)) 32 0, pendWord (byIx 8 (pendCan s)) 8 0] ++
  (List.range 3).map (pendWord (byIx 88 (pendAux s)) 88) ++ [lo32 s.fn, hi32 s.fn, h.errAddr.toNat, 0x0400001F, 0x180000]

/-- A write of an HST register, which applies at once. -/
def hstNow (off : Nat) (v : Word) (s : State) : State :=
  match off with
  | 0x18 => onHst (fun h => { h with qspiDis := h.qspiDis || v.getLsbD 0, urUnmapped := v.getLsbD 1 }) s
  | 0x1C => onHst (fun h => { h with intStatus := clrW1C h.intStatus v }) s
  | 0x20 => onHst (fun h => { h with intEnable := v &&& 0x3FF }) s
  | 0x28 => onHst (fun h => { h with vecMap := h.vecMap.set 0 (v &&& 0x9F9F9F9F) }) s
  | 0x2C => onHst (fun h => { h with vecMap := h.vecMap.set 1 (v &&& 0x9F9F9F9F) }) s
  | 0x30 => onHst (fun h => { h with vecMap := h.vecMap.set 2 (v &&& 0x9F9F9F9F) }) s
  | 0x34 => onHst (fun h => { h with vecMap := h.vecMap.set 3 (v &&& 0x9F9F9F9F) }) s
  | 0x38 => onHst (fun h => { h with vecMap := h.vecMap.set 4 (v &&& 0x9F9F9F9F) }) s
  | 0x3C => vecAck v s
  | 0x44 => onHst (fun h => { h with tick := v.setWidth 16 }) s
  | 0x6C => onHst (fun h => { h with scratch := h.scratch.set 0 v }) s
  | 0x70 => onHst (fun h => { h with scratch := h.scratch.set 1 v }) s
  | _ => s

/-- A word of the MSI-X table: address, upper address, data, mask. -/
def msixRead (off : Nat) (s : State) : Nat :=
  match optFin 32 ((off - 0x180000) / 16) with
  | some v =>
    let e := s.hst.msix[v]
    regAt [e.addrLo.toNat, e.addrHi.toNat, e.data.toNat, bit e.mask] (off % 16)
  | none => 0

/-- The write of one word of a table entry. -/
def msixPut (word : Nat) (v : Word) (e : MsixEntry) : MsixEntry :=
  match word with
  | 0 => { e with addrLo := v }
  | 4 => { e with addrHi := v }
  | 8 => { e with data := v }
  | _ => { e with mask := v.getLsbD 0 }

/-- A write of the MSI-X table. -/
def msixNow (off : Nat) (v : Word) (s : State) : State :=
  withFin 32 ((off - 0x180000) / 16) (fun i => onHst (fun h => msgRelease { h with msix := Vec.upd h.msix i (msixPut (off % 16) v) }) s) s

/-! ### Registers by block -/

/-- Read a register of block b at offset r; `clr` clears an RC register. (DEDUCED, entry 17.) (DEDUCED, entry 65.) -/
def blockRead (b r : Nat) (clr : Bool) (s : State) : Nat × State :=
  let ch (w : Nat) (f : ChIx → Nat → Nat) : Nat := match optFin 96 (r / w) with | some c => f c (r % w) | none => 0
  let ou (w : Nat) (f : OutIx → Nat → Nat) : Nat := match optFin 32 (r / w) with | some o => f o (r % w) | none => 0
  match b with
  | 0 => (regAt (hstRegs s) r, s)
  | 1 => (regAt (smpRegs s) r, s)
  | 2 => (alcRead r s, s)
  | 3 => (ch 0x100 fun c => regAt (lpeRegs s c), s)
  | 4 => (ch 0x40 fun c => regAt (chpRegs s c), s)
  | 5 => (ou 0x100 fun o => regAt (osqRegs s o), s)
  | 6 => (ou 0x80 fun o => regAt (vlkRegs s o), s)
  | 7 => (ou 0x40 fun o => regAt (cclRegs s o), s)
  | 8 => (metRead r s, s)
  | 9 => (bilRead r s, s)
  | 10 => (regAt (tdmRegs s) r, s)
  | 11 => (fbkRead r s, s)
  | 12 => match optFin 88 (r / 0x20) with | some k => auxRead k (r % 0x20) s | none => (0, s)
  | 13 => (match optFin 8 (r / 0x1000) with | some k => regAt (canRegs s k) (r % 0x1000) | none => 0, s)
  | 14 => (regAt (hwdRegs s) r, if r = 0x14 && clr then tamperCauseRc s else s)
  | 15 => (regAt (fwuRegs s) r, s)
  | 16 => (lndRegRead r s, s)
  | 17 => if r = 0x08 && clr then causeRead s else (regAt (hkpRegs s) r, s)
  | 18 => tlyRead r s
  | _ => (0, s)

/-- The part of a write that applies at once. -/
def blockNow (b r : Nat) (v : Word) (s : State) : State :=
  match b with
  | 0 => hstNow r v s
  | 1 => smpNow r v s
  | 2 => alcNow r v s
  | 3 => withFin 96 (r / 0x100) (fun c => lpeNow c (r % 0x100) v s) s
  | 4 => withFin 96 (r / 0x40) (fun c => chpNow c (r % 0x40) v s) s
  | 5 => withFin 32 (r / 0x100) (fun o => osqNow o (r % 0x100) v s) s
  | 6 => withFin 32 (r / 0x80) (fun o => vlkNow o (r % 0x80) v s) s
  | 7 => withFin 32 (r / 0x40) (fun o => cclNow o (r % 0x40) v s) s
  | 8 => metNow r v s
  | 9 => bilNow r v s
  | 10 => tdmNow r v s
  | 11 => fbkNow r v s
  | 12 => withFin 88 (r / 0x20) (fun k => auxNow k (r % 0x20) v s) s
  | 13 => withFin 8 (r / 0x1000) (fun k => canNow k (r % 0x1000) v s) s
  | 14 => hwdNow r v s
  | 15 => fwuNow r v s
  | 16 => lndNow r v s
  | 17 => hkpNow r v s
  | _ => s

/-- The write is a host command under R18 (R451). -/
def isCmd (b r : Nat) (v : Word) : Bool :=
  match b with
  | 1 => smpIsCmd r v
  | 2 => alcIsCmd r
  | 3 => decide (r / 0x100 < 96) && r % 0x100 = 4
  | 4 => match optFin 96 (r / 0x40) with | some c => chpIsCmd c (r % 0x40) | none => false
  | 5 => osqIsCmd (r % 0x100) v
  | 6 => vlkIsCmd (r % 0x80) v
  | 7 => r % 0x40 = 4
  | 8 => metIsCmd r v
  | 9 => bilIsCmd r v
  | 11 => fbkIsCmd r v
  | 12 => auxIsCmd (r % 0x20)
  | 13 => canIsCmd (r % 0x1000) v
  | 15 => fwuIsCmd r
  | 16 => lndIsCmd r v
  | 17 => hkpIsCmd r v
  | _ => false

/-- The instance that a command of an outlet or a channel block concerns. -/
def cmdOutlet (b r : Nat) : Option OutIx :=
  match b with
  | 2 => if 0x100 ≤ r then optFin 32 ((r - 0x100) / 0x40) else none
  | 5 => optFin 32 (r / 0x100)
  | 6 => optFin 32 (r / 0x80)
  | 7 => optFin 32 (r / 0x40)
  | _ => none
def cmdChannel (b r : Nat) : Option ChIx :=
  match b with
  | 3 => optFin 96 (r / 0x100)
  | 4 => optFin 96 (r / 0x40)
  | _ => none

/-- The amendment applied in this frame disabled the instance of a command (R52). -/
def cmdDisabled (s : State) (b r : Nat) : Bool :=
  let off {n : Nat} (w : BitVec n) (i : Option (Fin n)) : Bool := match i with | some k => w.getLsbD k.val | none => false
  s.smp.amendCount ≠ 0 && s.smp.amAppliedAt = s.fn &&
    (off s.smp.offOut (cmdOutlet b r) || off s.smp.offCh (cmdChannel b r) ||
     (b = 12 && off s.smp.offAux (optFin 88 (r / 0x20))) || (b = 13 && off s.smp.offCan (optFin 8 (r / 0x1000))) ||
     (b = 8 && off s.smp.offMet (metSet r)))

/-- The effect of a latched command. -/
def blockCmd (b r : Nat) (v : Word) (win : List Byte) (s : State) : State :=
  match b with
  | 1 => smpCmd v s
  | 2 => if r < 0x100 then alcCmd r v s else withFin 32 ((r - 0x100) / 0x40) (fun o => alcOutCmd o (r % 0x40) v s) s
  | 3 => withFin 96 (r / 0x100) (fun c => lpeCmd c v s) s
  | 4 => withFin 96 (r / 0x40) (fun c => chpCmd c (r % 0x40) v s) s
  | 5 => withFin 32 (r / 0x100) (fun o => osqCmd o (r % 0x100) v s) s
  | 6 => withFin 32 (r / 0x80) (fun o => vlkCmd o (r % 0x80) v s) s
  | 7 => withFin 32 (r / 0x40) (fun o => cclCmd o v s) s
  | 8 => if r = 0x04 then metCtrl (v &&& ~~~ 4) true s else metCmd r v s
  | 9 => bilCmd r v s
  | 11 => fbkCmd r v s
  | 12 => withFin 88 (r / 0x20) (fun k => auxCmd k v s) s
  | 13 => withFin 8 (r / 0x1000) (fun k => canCmd k (r % 0x1000) v win s) s
  | 15 => fwuCmd r v s
  | 16 => lndCmd v s
  | 17 => rtcSet s
  | _ => s

/-- A command that R300 keeps to the package written: calibration. -/
def isLocal (b r : Nat) (v : Word) : Bool := b = 8 && (metLocal r || (r = 4 && v.getLsbD 2))

/-- A latched command of the input set (R18, R52); calibration is not forwarded (R300). -/
def hostCmd (off : Nat) (v : Word) (win : List Byte) (s : State) : State :=
  let b := off / 65536
  let r := off % 65536
  if b = 8 && metLocal r then s
  else if cmdDisabled s b r then refuse off s
  else blockCmd b r v win s

/-- The package's own calibration commands, on their own timing (R300). -/
def localCmd (off : Nat) (v : Word) (s : State) : State :=
  let b := off / 65536
  let r := off % 65536
  if !isLocal b r v then s
  else if r = 4 then metCtrl (v &&& 4) false s
  else metCmd r v s

/-! ### Writes (R449, R451) -/

/-- A failed access: its count, its bit and its offset. -/
def accessError (bar2 : Bool) (off : Nat) (s : State) : State :=
  hstEvent 2 off (onHst (fun h => { h with cErr := h.cErr + 1, errAddr := BitVec.ofNat 32 (off % 2 ^ 26 + 2 ^ 31 * bit bar2) }) s)

/-- An unmapped access. -/
def unmapped (off : Nat) (s : State) : State :=
  hstEvent 3 off (onHst (fun h => { h with cUnmapped := h.cUnmapped + 1, errAddr := BitVec.ofNat 32 (off % 2 ^ 26) }) s)

/-- A host command on a package that takes none (R300). -/
def ignoreCmd (off : Nat) (s : State) : State :=
  let s := onTdm (fun t => { t with cIgnored := t.cIgnored + 1, ignoredAddr := BitVec.ofNat 21 off, intStatus := setBit t.intStatus 11 }) s
  hstEvent 1 off s

/-- A host command enters the capture of the frame; with 1,024 held it waits for the next boundary (R451). (DEDUCED, entry 59.) -/
def captureCmd (off : Nat) (v : Word) (s : State) : State :=
  if s.hst.cmdCount < 1024 then
    onHst (fun h => { h with cmdCount := h.cmdCount + 1 }) { s with arrived := s.arrived ++ [.hostCmd (BitVec.ofNat 21 off) v []] }
  else
    hstEvent 5 off (onHst (fun h => { h with waiting := h.waiting ++ [(BitVec.ofNat 21 off, v)], withheld := h.withheld + 1 }) s)

/-- A host command written. -/
def takeHostCmd (off : Nat) (v : Word) (s : State) : State :=
  let b := off / 65536
  let r := off % 65536
  if isLead s then captureCmd off v s
  else if !isLocal b r v then ignoreCmd off s
  else if metLocal r then captureCmd off v s
  else captureCmd off (v &&& 4) (if v = 4 then s else ignoreCmd off s)

/-- A whole-word write at an aligned offset of BAR0. (DESIGN CHOICE, entry 16.) -/
def regWrite (off : Nat) (v : Word) (s : State) : State :=
  if inMsix off then msixNow off v s
  else if inPba off then s
  else if inSpan off then
    let b := off / 65536
    let r := off % 65536
    let s := blockNow b r v s
    if isCmd b r v then takeHostCmd off v s else s
  else unmapped off s

/-- A BAR0 write with its access checks. -/
def bar0Write (off : Nat) (v : Word) (be : BitVec 4) (s : State) : State :=
  if be ≠ 0xF || off % 4 ≠ 0 then accessError false off s else regWrite off v s

/-- REGISTER_WRITE (R449, R451), one word or a longer request, which is discarded: what is pending fires
before the write and after it. -/
def execRegisterWrite (off : BitVec 21) (val : Word) (lanes : Lanes) (s : State) : Ans :=
  whenOn s.isl.ctl s fun s =>
    intEval ((if 4 < lanes.len then accessError false off.toNat else bar0Write off.toNat val lanes.be) (intEval s))

/-- QSPI_DISABLE (R455). -/
def execQspiDisable (s : State) : Ans := whenOn s.isl.ctl s (onHst fun h => { h with qspiDis := true })

/-! ### Reads (R449, R450) -/

/-- A read of one word of BAR0 at an aligned offset: the word, and whether it ends with Unsupported Request. -/
def regRead (off : Nat) (clr : Bool) (s : State) : Nat × Bool × State :=
  if inMsix off then (msixRead off s, false, s)
  else if inPba off then (s.hst.pba.toNat, false, s)
  else if inSpan off then
    let x := blockRead (off / 65536) (off % 65536) clr s
    (x.1, false, x.2)
  else (0, s.hst.urUnmapped, unmapped off s)

/-- A BAR0 read of `len` bytes with its access checks. (DEDUCED, entry 61.) -/
def bar0Read (off len : Nat) (be : BitVec 4) (s : State) : State :=
  if 4 < len then readAnswer [] true (accessError false off s)
  else
    let bad := be ≠ 0xF || off % 4 ≠ 0
    let s := if bad then accessError false off s else s
    let x := regRead (off - off % 4) (!bad) s
    if x.2.1 then readAnswer [] true x.2.2 else readAnswer [BitVec.ofNat 32 x.1] false x.2.2

/-- The words of a byte string. -/
def wordsOf (bs : List Byte) : List Word := (List.range (cdiv bs.length 4)).map fun k => BitVec.ofNat 32 (wordOf bs k)

/-- A BAR2 read (R450): the contents as stored, with the effects of their code check. -/
def bar2Read (off len : Nat) (s : State) : State :=
  let n := min len (landSize - off)
  readAnswer (wordsOf (lndRead off n s)) false (eccRead off n s)

/-- HOST_READ (R449, R450). -/
def execHostRead (bar : Bar) (off : BitVec 26) (len : Nat) (be : BitVec 4) (s : State) : Ans :=
  match bar with
  | .bar0 => whenOn s.isl.ctl s fun s => intEval (bar0Read off.toNat len be (intEval s))
  | .bar2 => whenOn s.isl.lnd s fun s => intEval (bar2Read off.toNat len (intEval s))

/-! ### The quad-SPI target (R454, R455) -/

/-- A transaction of the target, which answers only A5h once disabled. -/
def qspiCount (s : State) : State := onHst (fun h => { h with accesses := h.accesses + 1 }) s

/-- A transaction that ended inside a word, or whose data were not ready. -/
def qspiError (framing : Bool) (s : State) : State :=
  hstEvent 7 0 (onHst (fun h => { h with framing := if framing then h.framing + 1 else h.framing }) s)

/-- QSPI_READ (R454): `len` bytes clocked. -/
def qspiRead (bar : Bar) (off len : Nat) (ready : Bool) (s : State) : State :=
  let s := onHst (fun h => { h with lastNotReady := !ready }) (qspiCount s)
  let s := if !ready then readAnswer (List.replicate (cdiv len 4) 0xFFFFFFFF) false (qspiError false s)
    else match bar with
      | .bar0 => if len < 4 then readAnswer (wordsOf ((leBytes 4 (regRead (off - off % 4) false s).1).take len)) false s else bar0Read off len 0xF s
      | .bar2 => bar2Read off len s
  if len % 4 ≠ 0 then qspiError true s else s

/-- QSPI_READ (R454). -/
def execQspiRead (bar : Bar) (off : BitVec 26) (len : Nat) (ready : Bool) (s : State) : Ans :=
  whenOn (s.isl.ctl && !s.hst.qspiDis) s fun s => intEval (qspiRead bar off.toNat len ready (intEval s))

/-- The bytes of words. -/
def bytesOf (ws : List Word) : List Byte := (ws.map fun w => leBytes 4 w.toNat).flatten

/-- QSPI_WRITE (R454): the write. -/
def qspiPut (bar : Bar) (off : Nat) (ws : List Word) (s : State) : State :=
  match bar, ws with
  | .bar0, [w] => bar0Write off w 0xF s
  | .bar0, [] => s
  | .bar0, _ => accessError false off s
  | .bar2, ws => bar2Write off (bytesOf (ws.take 64)) s

/-- Whether some of it was discarded. -/
def qspiBad (bar : Bar) (off : Nat) (ws : List Word) (s : State) : Bool :=
  match bar, ws with
  | .bar0, [_] => off % 4 ≠ 0 || !(inSpan off || inMsix off || inPba off)
  | .bar0, _ => true
  | .bar2, [] => true
  | .bar2, ws => (List.range (4 * (ws.take 64).length)).any fun i => !hostMay s (off + i)

/-- QSPI_WRITE (R454), with the status bit of a discarded write. -/
def qspiWrite (bar : Bar) (off : Nat) (ws : List Word) (s : State) : State :=
  onHst (fun h => { h with lastDiscarded := qspiBad bar off ws s }) (qspiPut bar off ws (qspiCount s))

/-- A write that ends inside a word is discarded (R454). -/
def qspiCut (s : State) : State := onHst (fun h => { h with lastDiscarded := true }) (qspiError true (qspiCount s))

/-- QSPI_WRITE (R454): whole words and `tail` bytes of a further one. -/
def execQspiWrite (bar : Bar) (off : BitVec 26) (data : QspiData) (s : State) : Ans :=
  whenOn (s.isl.ctl && !s.hst.qspiDis) s fun s =>
    intEval ((if data.tail = 0 then qspiWrite bar off.toNat data.words else qspiCut) (intEval s))

/-- QSPI_STATUS (R454): the status byte. -/
def execQspiStatus (s : State) : Ans :=
  whenOn s.isl.ctl s fun s =>
    let h := s.hst
    readAnswer [BitVec.ofNat 32 (bit h.lastDiscarded + 2 * bit h.lastNotReady + 4 * bit h.qspiDis)] false (qspiCount s)

/-! ### The link and the island (R438, R459) -/

/-- HOST_ISLAND_RESET (R459): the HST registers return to their reset values but for HST_CTRL.qspi_dis; captured writes
stay. -/
def hostReset (kind : HostResetKind) (s : State) : State :=
  let h := s.hst
  let up := kind = .functionLevel && h.linkUp
  onHkp (fun k => { k with hostResets := k.hostResets + 1 })
    (onHst (fun _ =>
      { qspiDis := h.qspiDis, linkUp := up, gen2 := up && h.gen2, retrain := true,
        linkDowns := BitVec.ofNat 16 (bit (kind = .linkDown)), cmdCount := h.cmdCount }) s)

/-- HOST_ISLAND_RESET (R459). -/
def execHostIslandReset (kind : HostResetKind) (s : State) : Ans := whenOn s.isl.ctl s (hostReset kind)

/-- HOST_LINK_UP (R459): the link trains again; a link that was up recovered. (DEDUCED, entry 60.) -/
def hostLinkUp (gen2 : Bool) (s : State) : State :=
  let again := s.hst.linkUp && !s.hst.retrain
  let s := onHst (fun h => { h with linkUp := true, gen2 := gen2, retrain := false, inL1 := false,
                                    recoveries := if again then h.recoveries + 1 else h.recoveries }) s
  if again then s else hstEvent 6 0 s

/-- HOST_LINK_UP (R459). -/
def execHostLinkUp (gen2 : Bool) (s : State) : Ans := whenOn s.isl.ctl s (hostLinkUp gen2)

/-- SERVICE_ISLAND_RESET (R438): the update session closes, and the blocks are kept. -/
def execServiceIslandReset (s : State) : Ans :=
  whenOn s.isl.met s (onFwu fun f => { f with sess := none, svcUp := false })

end Sys2Proof.Machine
end

