-- ==== Sys2Proof/Machine/Frame.lean ====
section
/-! DEFINITION. The site frame (R17, R18, R23): the end of a frame, the boundary with its latch and capture, the
computation of a frame, and the pipelines' failures. -/

namespace Sys2Proof.Machine

/-! ### The end of a frame (R17 step 7) -/

/-- The winner event of a channel (R109), at the last sample of the frame. -/
def winnerStep (s : State) (c : ChIx) : State :=
  let u := s.ctl.units[c]
  match u.prevWinner with
  | some w =>
    if u.computed && decide (w ≠ u.winner) then
      lpeEvent c 0 (chOrd (nOf s c - 1) c)
        { s with ctl := { s.ctl with units := Vec.upd s.ctl.units c fun u => { u with cntWin := u.cntWin + 1 } } }
    else s
  | none => s

/-- The winner events of the frame. -/
def winners (s : State) : State := (List.finRange 96).foldl winnerStep s

/-! ### Pipelines (R10, R108) -/

/-- Change a region. -/
def onRgn (r : RgnIx) (f : Region → Region) (s : State) : State := { s with ctl := { s.ctl with rgn := Vec.upd s.ctl.rgn r f } }

/-- The cluster that a pipeline serves. -/
def cluOfPipe (s : State) (r : RgnIx) (p : Fin 4) : Option CluIx :=
  (List.finRange 12).find? fun k => rgnOf k = r && s.ctl.clu[k].pipe = some p

/-- A cluster moves to the spare: LPE_INT_STATUS [5] of its channels (R114). -/
def toSpare (k : CluIx) (q : Fin 4) (s : State) : State :=
  { s with ctl := { s.ctl with
      clu := Vec.upd s.ctl.clu k fun x => { x with pipe := some q, onSpare := true }
      units := Vec.mapIx s.ctl.units fun c u => if cluOf c = k then { u with intStatus := setBit u.intStatus 5 } else u } }

/-- A failed pipeline at the boundary: the spare takes its cluster over, or the cluster is lost; a spare that fails idle
is unavailable. (DESIGN CHOICE, entry 98.) -/
def pipeOut (s : State) (x : RgnIx × Fin 4) : State :=
  let (r, p) := x
  let g := s.ctl.rgn[r]
  if g.failed.getLsbD p.val then s
  else
    let s := onRgn r (fun g => { g with failed := setBit g.failed p.val }) s
    if g.spare = some p then hkpEvent 11 r.val 0 (onRgn r (fun g => { g with spare := none, spareUnavail := true }) s)
    else match cluOfPipe s r p, g.spare with
      | none, _ => s
      | some k, some q => hkpEvent 6 r.val k.val (toSpare k q (onRgn r (fun g => { g with spare := none, spareUsed := true }) s))
      | some k, none =>
        -- no code of R441 names it; it is journaled (R25; DESIGN CHOICE, entry 98)
        raise (tdmDeclare (onRgn r (fun g => { g with lost := true })
          { s with ctl := { s.ctl with clu := Vec.upd s.ctl.clu k fun x => { x with pipe := none } } }))
          { rank := 2, code := 0, num := r.val, data := k.val }

/-- The take-overs of the boundary. -/
def pipesOut (s : State) : State := s.ctl.pipeFail.foldl pipeOut { s with ctl := { s.ctl with pipeFail := [] } }

/-- PIPELINE_SELF_TEST_FAIL (R10): the pipeline serves for the rest of the frame. -/
def execPipelineSelfTestFail (r : RgnIx) (p : Fin 4) (s : State) : Ans :=
  whenOn s.isl.ctl s fun s => { s with ctl := { s.ctl with pipeFail := s.ctl.pipeFail ++ [(r, p)] } }

/-! ### The start of the site (R166 step 6, R271, R295) -/

/-- The accepted pilot state shows a vehicle. -/
def livePlugged (s : State) (o : OutIx) : Bool :=
  let p := (s.live.pilot[o]).state
  p = .b || p = .c || p = .d

/-- The frame-level state of a package that starts by itself in frame `s.fn`: billing restored, the outlets as R166
states, the bus OFF. (DEDUCED, entry 75.) -/
def siteStart (s : State) : State :=
  let welds : BitVec 32 := match bestSlot s with | some x => x.welds | none => 0
  let cut (o : OutIx) : Bool := match bestSlot s with
    | some x => (List.finRange 32).any fun k => (x.bil.sess[k]).isOpen && (x.bil.sess[k]).outlet = some o
    | none => false
  let osq : Vector Osq 32 := Vector.ofFn fun o => osqStart (outEnabled s o) (welds.getLsbD o.val) (livePlugged s o) (cut o) s.fn
  let f : FrameState := { osq := osq, bil := billStart s, ccl := Vector.ofFn fun o => cableStart s.map.out[o].cable s.map.out[o].iCeil s.fn }
  let note : BitVec 32 := (List.finRange 32).foldl (fun (w : BitVec 32) o => cond (osq[o]).weld (setBit w o.val) w) s.fbkWeldNote
  { s with fl := f, nx := f, fbkWeldNote := note }

/-! ### Before the latch -/

/-- A session that the new lead resumes from its last copied state (R194). (DEDUCED, entry 82.) -/
def linkTakeover (s : State) (o : OutIx) : State :=
  if s.vlk[o].session then vlkInt o 9 (onVlk o (fun v => { v with takeover := true }) s) else s

/-- A lead that has become faulted writes its checkpoint (R274, R299). -/
def roleOut (was : TSt) (s : State) : State :=
  if was = .lead && s.tdm.st = .faulted then checkpointAt (s.fn - 1) s else s

/-- A follower that has become lead takes the sessions over; the open SLAC runs are void (R194). -/
def roleIn (was : TSt) (s : State) : State :=
  if was = .follow && s.tdm.st = .lead then voidRuns ((List.finRange 32).foldl linkTakeover s) else s

/-- The role of F−1, and what its change brings. -/
def roleStep (s : State) : State := roleIn s.tdm.st (roleOut s.tdm.st (tdmApply s))

/-- The results of F−1 that concern the package as a whole: pipelines, role, FN, cores. -/
def openRole (s : State) : State :=
  let s := roleStep { pipesOut s with fn := nextFn s }
  let s := if s.tdm.restart then siteStart (onTdm (fun t => { t with restart := false }) s) else s
  coreRestart s

/-- The RTC advances by a frame unless it holds (R424, R425). (DESIGN CHOICE, entry 55.) -/
def rtcTick (s : State) : State :=
  if s.hkp.rtcHold then s else { s with live := { s.live with rtc := (s.live.rtc + 65536) % (2 ^ 32 * 65536000) } }

/-- The housekeeping of a boundary: PLLs have locked again, the counters are shown, the readings are captured and
latched (R424, R429, R433, R443). -/
def openHealth (s : State) : State :=
  onHkp (fun h => { h with
    plls := 0xF, throttled := if s.lnd.throttled then satInc 32 h.throttled else h.throttled, insLat := h.insCap, insCap := h.ins })
    (tallyShow s)

/-- What starts again with each frame: reference correction, event marks of switches and buses. -/
def openMarks (s : State) : State :=
  let s := onMet (fun m => { m with cref := m.crefNext, temp := m.tempNext }) (vCabTake s)
  { s with aux := { s.aux with sw := s.aux.sw.map fun x => { x with raised := 0 } },
           can := s.can.map fun c => { c with enqNow := 0 } }

/-- A VOTE goes out in V, V+1 and V+2, that of a revert in one frame (R395, R398). -/
def voteRest (s : State) : State :=
  onFwu (fun f => { f with voteOut := f.voteOut.filter fun v => !v.revert && decide (s.fn + 198 ≤ v.fnAct) }) s

/-- The pilot and diode faults clear when the square wave stops (R151). -/
def pilotRest (s : State) : State :=
  let rest (o : OutIx) (p : PilotIn) : PilotIn := if cpSquare s o then p else { p with fault := false, diode := false }
  { s with live := { s.live with pilot := Vec.mapIx s.live.pilot rest } }

/-- The host port at a boundary: withheld writes enter the capture, the tick (R451, R458). -/
def openHost (s : State) : State :=
  let now := s.hst.waiting.take 1024
  let s := onHst (fun h => { h with cmdCount := now.length, waiting := h.waiting.drop 1024, sent := [] })
    { s with arrived := s.arrived ++ now.map fun x => .hostCmd x.1 x.2 [] }
  if s.hst.tick ≠ 0 && s.fn % s.hst.tick.toNat = 0 then hstEvent 9 0 s else s

/-- Outlets available (R437), with the time since power came. (DEDUCED, entry 24.) -/
def openAvail (s : State) : State :=
  let ok := s.fbk.st = .run && s.fl.bus.st = .run && (List.finRange 32).all fun o => !outEnabled s o || s.fl.osq[o].st ≠ .outOfService
  if s.hkp.avail || !ok then s
  else onHkp (fun h => { h with avail := true, availMs := h.bootMs + (s.fn - h.startFn), intStatus := setBit h.intStatus 11 }) s

/-! ### The capture (R18, R23) -/

/-- The group of an item in the order of R23. Firmware items and reports stand with the votes. (DESIGN CHOICE, entry 14.) -/
def itemGroup : Item → Nat
  | .asyncEvent _ => 2
  | .cycle _ => 3
  | .hostCmd _ _ _ => 5
  | .vehicle _ _ _ => 6
  | .witness _ => 7
  | .vote _ => 7
  | .fwuLocal _ => 7
  | .fwuReport _ _ _ => 7
  | .amendment _ => 8

/-- A CAN submit whose window is captured with it (R359, R409). -/
def canSubmitOf (off : Nat) (v : Word) : Option CanIx :=
  if 0xD0000 ≤ off && off % 0x1000 = 0x20 && v.getLsbD 4 then optFin 8 ((off - 0xD0000) / 0x1000) else none

/-- An amendment submit (R51). -/
def amendSubmitOf (off : Nat) (v : Word) : Bool := off = 0x100A0 && v.getLsbD 0

/-- Round up to a multiple of 8. -/
def up8 (n : Nat) : Nat := cdiv n 8 * 8

/-- The bytes that an item counts with: the entry form of R418, whole records, messages, windows and images. (DESIGN CHOICE, entry 14.) -/
def itemSize (s : State) : Item → Nat
  | .asyncEvent _ => 24
  | .cycle _ => 584
  | .hostCmd off v _ => if (canSubmitOf off.toNat v).isSome then 592 else 16
  | .vehicle _ _ n => 8 + up8 n
  | .witness _ => 8 + up8 676
  | .vote _ => 24
  | .fwuLocal _ => 16
  | .fwuReport _ _ _ => 16
  | .amendment _ => 8 + up8 s.smp.amendLen.toNat

/-- The bytes of groups 1 and 4: the ball inputs, and the slots filled in the frame before. (DESIGN CHOICE, entry 14.) -/
def levelSize (s : State) : Nat :=
  352 + (s.live.mail.filter fun m => m.fn + 1 = s.fn).foldl (fun a m => a + 8 + up8 (canWidth m.q)) 0

/-- The order of vehicle items: by outlet. -/
def itemLe (a b : Item) : Bool :=
  itemGroup a < itemGroup b || (itemGroup a = itemGroup b &&
    match a, b with
    | .vehicle x _ _, .vehicle y _ _ => x.val ≤ y.val
    | _, _ => true)

/-- The items that arrived, in the order of R23; the image of a submitted amendment is an item of its own. -/
def arrivals (s : State) : List Item :=
  let am : List Item := if s.arrived.any fun i => match i with | .hostCmd off v _ => amendSubmitOf off.toNat v | _ => false
    then [.amendment []] else []
  sortBy itemLe (s.arrived ++ am)

/-- Take items until the next one does not fit. (DESIGN CHOICE, entry 14.) -/
def fitItems (s : State) : Nat → List Item → List Item × List Item
  | _, [] => ([], [])
  | room, i :: is =>
    if itemSize s i ≤ room then
      let r := fitItems s (room - itemSize s i) is
      (i :: r.1, r.2)
    else ([], i :: is)

/-- A landing window as the capture reads it: none where it is poisoned (R406). (DEDUCED, entry 15.) -/
def takeWindow (a n : Nat) (s : State) : Option (List Byte) × State :=
  let bad := lndPoison a n s
  let bs := lndRead a n s
  let s := eccRead a n s
  if bad then (none, overrun a (tdmDeclare s)) else (some bs, s)

/-- An item as it stands when the capture takes it (R409): the command of a poisoned window is absent. -/
def fillItem (x : List Item × State) (i : Item) : List Item × State :=
  let (l, s) := x
  match i with
  | .hostCmd off v w =>
    match canSubmitOf off.toNat v with
    | some k =>
      match takeWindow (canTxBase k) 576 s with
      | (some bs, s) => (l ++ [.hostCmd off v bs], s)
      | (none, s) => (l, s)
    | none => (l ++ [.hostCmd off v w], s)
  | .amendment _ =>
    match takeWindow stagingBase s.smp.amendLen.toNat s with
    | (some bs, s) => (l ++ [.amendment bs], s)
    | (none, s) => (l.filter (fun j => match j with | .hostCmd off v _ => !amendSubmitOf off.toNat v | _ => true), s)
  | i => (l ++ [i], s)

/-- Deferred items: their count and one event each (R23). -/
def deferItems (l : List Item) (s : State) : State :=
  l.foldl (fun (s : State) (i : Item) => overrun (itemGroup i) s) { s with deferred := l }

/-- The capture of the boundary that opens frame `s.fn` (R17 step 2). (DESIGN CHOICE, entry 14.) -/
def capture (s : State) : State :=
  let all := arrivals s
  let early := all.filter fun i => decide (itemGroup i ≤ 3)
  let late := s.deferred ++ all.filter fun i => decide (3 < itemGroup i)
  let used := early.foldl (fun a i => a + itemSize s i) (levelSize s)
  let (now, rest) := fitItems s (65536 - used) late
  let lv := { s.live with link := Vector.ofFn fun o => linkIn s o, txFill := s.can.map fun c => c.queue.length,
                          slotValid := validBits s.hwd.active, fwuOwn := ownLocal s }
  let (items, s) := (early ++ now).foldl fillItem ([], s)
  let s := deferItems rest { s with arrived := [] }
  { s with cap := { fn := s.fn, levels := lv, items := items }, live := { s.live with trips := 0, tripsSf3 := 0 } }

/-! ### The latch (R18, R52, R397) -/

/-- The set in force for the frame: the package's own captured one or the lead's. A follower whose RTC differs by more
than 2 ms reloads it (R426). -/
def latchInput (s : State) : State :=
  let s := latchSet s.cap s
  let d := ((s.live.rtc : Int) - s.lat.levels.rtc).natAbs
  if s.tdm.st = .follow && decide (131072 < d) then { s with live := { s.live with rtc := s.lat.levels.rtc } } else s

/-- The status bits that the frame before found (R17, R456). -/
def showLate (s : State) : State :=
  let l := s.late
  { s with
    late := {}
    osqR := Vec.mapIx s.osqR fun o r => { r with intStatus := r.intStatus ||| l.osq[o] }
    cclR := Vec.mapIx s.cclR fun o r => { r with events := r.events ||| l.ccl[o] }
    alc := { s.alc with intStatus := s.alc.intStatus ||| l.alc }
    met := { s.met with intStatus := s.met.intStatus ||| l.met, setEvents := Vec.mapIx s.met.setEvents fun k w => w ||| l.sets[k] }
    bilR := { s.bilR with intStatus := s.bilR.intStatus ||| l.bil }
    ctl := { s.ctl with ports := Vec.mapIx s.ctl.ports fun c p => { p with events := p.events ||| l.chp[c] } } }

/-- The results of F−1 take effect, with what a state that takes effect brings. (DEDUCED, entry 74.) -/
def takeEffect (s : State) : State :=
  let s := showLate { s with fl := s.nx }
  let idle : BitVec 32 := (List.finRange 32).foldl (fun (w : BitVec 32) o =>
    cond (decide (s.fl.osq[o].st = .idle) && decide (s.fl.osq[o].stFn = s.fn)) (setBit w o.val) w) 0
  let s : State := { s with alc := { s.alc with
    fresh := idle
    prio := Vec.mapIx s.alc.prio fun o x => if idle.getLsbD o.val then 0 else x
    energy := Vec.mapIx s.alc.energy fun o x => if idle.getLsbD o.val then 0xFFFFFFFF else x
    depart := Vec.mapIx s.alc.depart fun o x => if idle.getLsbD o.val then 0 else x
    v2g := Vec.mapIx s.alc.v2g fun o x => if idle.getLsbD o.val then 0 else x } }
  let gone (c : ChIx) (x : ChanCfg) : ChanCfg :=
    if x.going && decide ((s.fl.hand[c]).st = .out) then (s.map.chNext[c]).getD { x with kind := 0, going := false } else x
  let s := { s with map := { s.map with ch := Vec.mapIx s.map.ch gone } }
  (List.finRange 32).foldl (fun s o =>
    let s := sessionStart o s
    if s.fl.osq[o].st = .plugged ∧ s.fl.osq[o].stFn = s.fn then metPlug o s else s) s

/-- An item latched ahead of the commands: events, messages, votes and reports. -/
def latchItem (s : State) (i : Item) : State :=
  match i with
  | .asyncEvent e => raise s { rank := e.rank, code := e.code, num := e.inst, ord := e.stamp, stamp := e.stamp }
  | .vehicle o m n =>
    if s.fwu.window.isSome then onFwu (fun f => { f with heldItems := f.heldItems ++ [.vehicle o m n] }) s else latchVehicle o m s
  | .vote v => latchVote v s
  | .fwuLocal f => latchLocal f s
  | .fwuReport lead ready r => latchReport lead ready r s
  | .cycle _ => s
  | .hostCmd _ _ _ => s
  | .witness _ => s
  | .amendment _ => s

/-- A host command or an amendment image of the set, in its order. -/
def latchCmd (s : State) (i : Item) : State :=
  match i with
  | .hostCmd off v win => hostCmd off.toNat v win s
  | .amendment img => amendImage img s
  | _ => s

/-- The set holds a host command. -/
def anyCmd (l : InputSet) : Bool := l.items.any fun i => match i with | .hostCmd _ _ _ => true | _ => false

/-- Trips of a restart window wait (R397). -/
def holdTrips (s : State) : State :=
  if s.fwu.window.isNone then s
  else onFwu (fun f => { f with heldTrips := f.heldTrips ||| s.lat.levels.trips, heldSf3 := f.heldSf3 ||| s.lat.levels.tripsSf3 }) s

/-- The latched levels: high-priority actions, links and trips; `old` are those of the frame before. -/
def latchLevels (old : Levels) (s : State) : State :=
  let s := holdTrips (latchActions old s)
  if s.fwu.window.isSome then s else (List.finRange 32).foldl (fun s o => latchLink o s) s

/-- An amendment that was not validated by its row is validated in the fifth frame (R51). -/
def amendTimed (s : State) : State :=
  if s.smp.amState = 1 && decide (s.smp.amLatchFn + 5 ≤ s.fn) then amendValidate s else s

/-- The package's own calibration commands of a set, on its own timing (R300). -/
def localCmds (l : InputSet) (s : State) : State :=
  l.items.foldl (fun (s : State) (i : Item) => match i with | .hostCmd off v _ => localCmd off.toNat v s | _ => s) s

/-- An amendment that is due takes effect (R51, R52). -/
def applyDue (s : State) : State := if amendDue s then amendNow s else s

/-- The items that act ahead of the commands. -/
def latchItems (s : State) : State :=
  s.lat.items.foldl latchItem (onFwu (fun f => { f with partner := none }) s)

/-- The commands, in their order. -/
def latchCmds (s : State) : State := s.lat.items.foldl latchCmd s

/-- The results of a frame begin as the state that it found. -/
def openResults (s : State) : State := { s with nx := s.fl }

/-- The input set acts in frame `s.fn`: an amendment that is due first, then the inputs, then the commands. -/
def interpret (old : Levels) (own : InputSet) (s : State) : State :=
  let s := latchItems (amendTimed (latchLevels old (applyDue s)))
  let s := latchCmds (localCmds own (openResults s))
  if anyCmd s.lat then hstEvent 8 0 s else s

/-! ### Sample 0 and the snapshot (R17 step 1, R486) -/

/-- The summary of the last frame becomes the one that S_F shows (R131, R486). -/
def portOpen (u : ChUnit) (p : Port) : Port :=
  { p with
    prev := p.sum, sum := {}, wdogSeen := p.sum.wdog,
    spreadLeft := if u.holdEnded || p.wdogSeen then 100 else p.spreadLeft - 1 }

/-- The short windows start again at each entry into TRACK or a new situation (R141, R142). -/
def trackOpen (was : LMode) (s : State) (c : ChIx) : State :=
  let on := s.ctl.units[c].mode = .track
  let sit := if on then trackSit s c else 0
  let put (p : Port) : Port :=
    if !on then { p with trackFrames := 0, trackSit := 0, limRun := 0, stopHeld := false, winDone := false }
    else if was = .track && p.trackSit = sit then { p with trackFrames := p.trackFrames + 1 }
    else { p with trackFrames := 0, trackSit := sit, limRun := 0, winDone := false }
  windowTest { s with ctl := { s.ctl with ports := Vec.upd s.ctl.ports c put } } c

/-- A unit at its boundary; the hold of sample 0 is that of the mode it enters. -/
def unitStart (s : State) (c : ChIx) : State :=
  let was := s.ctl.units[c].mode
  holdTest 0 (trackOpen was { s with ctl := { s.ctl with units := Vec.upd s.ctl.units c (unitFrame s c) } } c) c

/-- φ0 at the entry into SOFT_START (R140). -/
def busPhase (s : State) : State :=
  if s.fl.bus.st = .softStart && s.fl.bus.entryFn = s.fn then
    let p := match s.ctl.lastVbm with | some v => if vBus s = 0 then 0 else min 65536 (v * 65536 / vBus s) | none => 0
    { s with fl := { s.fl with bus := { s.fl.bus with phi0 := p } }, nx := { s.nx with bus := { s.nx.bus with phi0 := p } } }
  else s

/-- The latch of sample 0 of every cluster, ahead of the snapshot. -/
def sampleZero (s : State) : State :=
  let c := s.ctl
  let s := { s with ctl := { c with
    ports := Vec.mapIx c.ports fun k p => portOpen c.units[k] p
    units := c.units.map unitOpen
    clu := c.clu.map fun x => { x with next := 0, latched := 0 }
    busPrev := c.busSum, busSum := {} } }
  (List.finRange 12).foldl testCluster ((List.finRange 12).foldl latchCluster s)

/-- The snapshot S_F (R486): units and ports as the RO registers show them, and the whole. -/
def snapshot (s : State) : State :=
  let s := busPhase (sampleZero s)
  let s := { s with ctl := { s.ctl with unitS := s.ctl.units, portS := s.ctl.ports } }
  { s with snapS := snapOf s }

/-- The start of every unit's frame, after the snapshot. -/
def unitsStart (s : State) : State :=
  let s := (List.finRange 32).foldl cableSum ((List.finRange 96).foldl unitStart s)
  { s with ctl := { s.ctl with unitD := s.ctl.units } }

/-! ### The computation of a frame (R17 steps 3, 4 and 7) -/

/-- The sequencers evaluate, but for a restart window (R148, R397). -/
def seqStep (s : State) : State := if s.fwu.window.isSome then s else (List.finRange 32).foldl osqEval s

/-- The responses of step 7 (R190). -/
def respStep (s : State) : State := if s.fwu.window.isSome then s else (List.finRange 32).foldl respond s

/-- The results of the frame, from the latched set and S_F. -/
def compute (s : State) : State :=
  if computes s then respStep (billStep (metStep (seqStep (busEval (packStep (yarder s)))))) else s

/-! ### Recomputation from a snapshot (R27, R298) -/

/-- A port with a snapshot's state, and what its own lane holds. -/
def putPort (x p : Port) : Port :=
  { x with
    rx := p.rx, tx := p.tx, silent := p.silent, absentRun := p.absentRun, zeroCmd := p.zeroCmd, partner := p.partner,
    cntCrc := p.cntCrc, cntAbsent := p.cntAbsent, cntPartner := p.cntPartner, cntMismatch := p.cntMismatch }

/-- The unit and port state of a snapshot, on the package's own pipelines. -/
def putCtl (x c : Ctl) : Ctl :=
  { x with
    ports := Vec.mapIx c.ports fun i p => putPort x.ports[i] p
    clu := Vec.mapIx c.clu fun k y => { y with next := x.clu[k].next, latched := x.clu[k].latched }
    rgn := c.rgn, pipeFail := c.pipeFail }

/-- The site limits of a snapshot, with the package's own GLIM samples. -/
def putAlc (x a : Alc) : Alc :=
  { x with
    glimLast := a.glimLast, glimRaw := a.glimRaw, lossRun := a.lossRun, goodRun := a.goodRun, glimLoss := a.glimLoss,
    glimGap := a.glimGap, glimEdge := a.glimEdge, glimPeriod := a.glimPeriod }

/-- The bus state of a snapshot, with what the package's own controller holds. -/
def putCan (x c : Can) : Can :=
  { c with queue := x.queue, enqLog := x.enqLog, seqs := x.seqs, cool := x.cool, hpAction := x.hpAction,
           manual := x.manual, intEnable := x.intEnable }

/-- Load a snapshot (R27 step 3). (DESIGN CHOICE, entry 92.) -/
def putSnap (x : Snap) (s : State) : State :=
  { s with
    fl := x.fl, nx := x.nx, ctl := putCtl x.ctl s.ctl, alc := putAlc x.alc s.alc, osqR := x.osqR, cclR := x.cclR
    can := Vec.mapIx s.can fun i c => putCan x.can[i] c
    vlk := Vec.mapIx s.vlk fun o v =>
      { v with cfg := x.link[o].1, linkCfg := x.link[o].2.1, sessCfg := x.link[o].2.2.1, sessLink := x.link[o].2.2.2 }
    bilR := { s.bilR with cfg := x.bilCfg, calMap := x.calMap }
    met := { s.met with tamperCfg := x.tamperCfg } }

/-- The frame in progress as a package retains it. -/
def keptNow (s : State) : Kept := { fn := s.fn, set := s.lat, ups := s.ctl.ports.map fun p => p.sum.ups }

/-- The uplinks of a frame wait again for their latches. -/
def rxAgain (k : Kept) (s : State) : State :=
  { s with ctl := { s.ctl with ports := Vec.mapIx s.ctl.ports fun c p => { p with rx := (k.ups[c]).filterMap id } } }

/-- The samples of a frame in the order of their starts, where cluster k makes `done[k]` of its n. -/
def sampleOrder (s : State) (done : Vector Nat 12) : List (Nat × CluIx) :=
  let all : List (Nat × CluIx) := ((List.finRange 12).map fun k => (List.range done[k]).map fun i => (i, k)).flatten
  sortBy (fun a b => a.1 * s.map.clu[b.2].n ≤ b.1 * s.map.clu[a.2].n) all

/-- The rest of a frame from its snapshot: the computation, the thermal frame and the samples. -/
def frameAgain (done : Vector Nat 12) (s : State) : State :=
  let s := compute (unitsStart s)
  let s := if s.fn % 10 = 0 then (List.finRange 32).foldl cableStep s else s
  (sampleOrder s done).foldl (fun (s : State) x => sampleStart x.2 s) s

/-- A later frame: the results of the frame before, the retained set, the sample-0 latch. -/
def nextAgain (k : Kept) (s : State) : State :=
  let old := s.lat.levels
  let s := rxAgain k { winners s with fn := k.fn, lat := k.set }
  snapshot (interpret old {} (takeEffect s))

/-- Recompute frame after frame (R27 step 4). -/
def replay (last : Nat) (now : Vector Nat 12) : List Kept → State → State
  | [], s => s
  | k :: ks, s =>
    let s := if k.fn = s.fn then rxAgain k { s with lat := k.set } else nextAgain k s
    replay last now ks (frameAgain (if k.fn = last then now else s.map.clu.map fun c => if c.enable then c.n else 0) s)

/-- Recompute from the lead's snapshot to the live sample: what the package holds outside the snapshot stays. -/
def catchUp (s : State) : State :=
  match s.tdm.snap with
  | none => s
  | some x =>
    let ks := (s.tdm.kept.filter fun k => x.fn ≤ k.fn) ++ [keptNow s]
    let t := onTdm (fun t => { t with reached := true }) { putSnap x s with fn := x.fn }
    let r := replay s.fn (s.ctl.clu.map (·.next)) ks t
    onTdm (fun t => { t with reached := true, kept := [], lag := 0 }) (putSnap (snapOf r) s)

/-- A package that reseeds or joins has a snapshot to recompute from. -/
def mayCatch (s : State) : Bool :=
  (s.tdm.st = .reseed || (s.tdm.st = .sync && s.tdm.bulkDone)) && !s.tdm.reached &&
    (match s.tdm.snap with | some x => decide (x.fn < s.fn) | none => false)

/-- RESEED_CATCHUP (R27 step 4): the live sample is reached in a frame after that of the snapshot. -/
def execReseedCatchup (s : State) : Ans :=
  whenOn s.isl.ctl s fun s => if s.tdm.st = .reseed && mayCatch s then catchUp s else s

/-- JOIN_COMPLETE (R298 step 4). -/
def execJoinComplete (s : State) : Ans :=
  whenOn s.isl.ctl s fun s =>
    if s.tdm.st = .sync && (s.tdm.reached || mayCatch s) then
      onTdm (fun t => { t with pend := some (.follow, 0) }) (if s.tdm.reached then s else catchUp s)
    else s

/-- The end of a frame that a package retains: it recomputes by the frame that R28 gives. -/
def retainFrame (s : State) : State :=
  if !retains s || s.tdm.reached || s.tdm.snap.isNone then s
  else
    let x := match s.tdm.snap with | some x => x.fn | none => 0
    if mayCatch s && decide (x + catchLag (fastest s) ≤ s.fn) then catchUp s
    else onTdm (fun t => { t with kept := t.kept ++ [keptNow s], lag := s.fn + 1 - x }) s

/-- Close the frame in progress: winners, the tandem evaluation, the mailbox, the events, the counters and the journal. -/
def closeFrame (s : State) : State := endFrame (tdmEval (swapProto (retainFrame (winners s))))

/-! ### The boundary -/

/-- The link gaps count on. -/
def gapTicks (s : State) : State := (List.finRange 32).foldl (fun s o => gapTick o s) s

/-- What precedes the latch in the boundary that opens a frame. -/
def openBefore (s : State) : State :=
  openAvail (openHost (pilotRest (sealReapply (fwuCommitStep (fwuRevertStep (voteRest
    (gapTicks (openMarks (openHealth (rtcTick (openRole s)))))))))))

/-- Open the frame `s.fn`: latch, capture, effect, snapshot, computation. -/
def openSet (s : State) : State :=
  let old := s.lat.levels
  let own := s.cap
  let s := takeEffect (capture (latchInput s))
  let s := snapshot (tdmOpen (interpret old own s))
  let n := s.cap.items.foldl (fun a i => a + itemSize s i) (levelSize s)
  intEval (compute (unitsStart (tdmSend n s.snapS s)))

/-- The boundary that ends the frame in progress and opens the next one; a reset that falls in it stops the package. (DEDUCED, entry 49.) -/
def boundary (s : State) : State :=
  let s := openBefore (closeFrame s)
  if s.isl.ctl then openSet s else s

/-- FRAME_BOUNDARY (R17). -/
def execFrameBoundary (s : State) : Ans := whenOn s.isl.ctl s boundary

/-! ### The resume frame of a restart (R397, R398) -/

/-- The state of the update at the resume frame: TRIAL where every report was ready in time, else the revert. -/
def fwuOutcome (s : State) : State :=
  if s.fwu.st ≠ .activating then s
  else if s.fwu.latOwn = some true && (!paired s || s.fwu.latPartner = some true) then fwuGo .trial (some 7) s
  else fwuRevert 3 false s

/-- The trips that the window held join those of the frame. -/
def heldTrips (s : State) : State :=
  let trips := s.fwu.heldTrips
  let sf3 := s.fwu.heldSf3
  onFwu (fun f => { f with heldItems := [], heldTrips := 0, heldSf3 := 0 })
    { s with lat := { s.lat with levels := { s.lat.levels with
      trips := s.lat.levels.trips ||| trips, tripsSf3 := s.lat.levels.tripsSf3 ||| sf3 } } }

/-- What the window held is applied (R397): the items in their order, then the trips with those of this frame. -/
def applyHeld (s : State) : State :=
  let s' := s.fwu.heldItems.foldl latchItem ((List.finRange 32).foldl (fun s o => latchLink o s) (heldTrips s))
  { s' with nx := { s'.nx with veh := s'.fl.veh } }

/-- The sequencers resume in the frame in progress. -/
def resume (s : State) : State :=
  let s := fwuOutcome (onFwu (fun f => { f with window := none }) s)
  if s.fwu.window.isSome then s else respStep (seqStep (applyHeld s))

/-- FWU_RESUME (R397). -/
def execFwuResume (s : State) : Ans :=
  whenOn s.isl.ctl s fun s => match s.fwu.window with
    | some w => if w ≤ s.fn then resume s else s
    | none => s

end Sys2Proof.Machine
end

