-- ==== Sys2Proof/Machine/Boot.lean ====
section
/-! DEFINITION. The start of the package (R436) and its warm reset (R438): what is kept, the boot, the map, billing and
the first boundary. -/

namespace Sys2Proof.Machine

/-! ### What a reset keeps (R425, R438) -/

/-- Antifuse, MRAM and the always-on part of heartwood. -/
def keepHwd (h : Hwd) : Hwd :=
  { root := h.root, rootSet := h.rootSet, rootFault := h.rootFault, tc := h.tc, pending := h.pending, exhausted := h.exhausted,
    bankA := h.bankA, bankB := h.bankB, bbk := h.bbk, bbkMask := h.bbkMask, tamperLock := h.tamperLock, tamperCfg := h.tamperCfg,
    cause := h.cause, log := h.log, logNext := h.logNext, logSel := h.logSel, smpRows := h.smpRows, smpKey := h.smpKey,
    pendCommit := h.pendCommit }

/-- The billing areas of MRAM and FN_AON. -/
def keepBil (b : BilReg) : BilReg :=
  { slots := b.slots, badSlots := b.badSlots, writing := b.writing, lastSlot := b.lastSlot, saveSeq := b.saveSeq, fnAon := b.fnAon,
    fnMram := b.fnMram, ledger := b.ledger, ledgerTag := b.ledgerTag, tickets := b.tickets }

/-- Flash and MRAM of the update block. -/
def keepFwu (f : Fwu) : Fwu :=
  { slot0 := f.slot0, slot1 := f.slot1, running := f.running, rec0 := f.rec0, rec1 := f.rec1, floor := f.floor,
    ownerLock := f.ownerLock, opKey := f.opKey, opKeyCrcBad := f.opKeyCrcBad, svcIp := f.svcIp, svcNet := f.svcNet }

/-- The calibration of the converters: from MRAM, or from OTP where the ordering code is K (R234). -/
def keepMet (k : Bool) (m : Met) : Met :=
  if k then { gain := m.gain, off := m.off }
  else match m.mram with
    | some (g, o) => { gain := g, off := o, mram := some (g, o) }
    | none => {}

/-- The always-on registers of the block (R444). -/
def keepHkp (h : Hkp) : Hkp :=
  { rtcValid := h.rtcValid, rtcHold := h.rtcHold, cause := h.cause, colds := h.colds, warms := h.warms, shutNote := h.shutNote,
    shutRead := h.shutRead, shutAt := h.shutAt, shuts := h.shuts, trim := h.trim, warnings := h.warnings, savesAfter := h.savesAfter }

/-- What the auxiliary die keeps while VAUX_IN holds; the host's registers of the switches return to reset. -/
def keepAux (a : Aux) : Aux :=
  { a with sw := a.sw.map fun x => { x with ctl := false, pulse := false, events := 0, raised := 0, intEn := 0 } }

/-- Events of the auxiliary die and of heartwood that wait for the first frame (R331, R382). (DEDUCED, entry 52.) -/
def keepEvents (l : List Item) : List Item :=
  l.filter fun i => match i with | .asyncEvent e => decide (e.rank ≤ 1) | _ => false

/-- The state after the reset logic has run, before the boot. -/
def resetBase (s : State) : State :=
  { pending := s.pending, freeIx := s.freeIx, otp := s.otp, flash := { s.flash with writing := none, image := [] },
    arrived := keepEvents s.arrived,
    live := { rtc := s.live.rtc, pilot := s.live.pilot, vsel := s.live.vsel },
    fbkWeldNote := s.fbkWeldNote, fbkTripFn := s.fbkTripFn,
    met := keepMet s.otp.orderK s.met, hwd := keepHwd s.hwd, bilR := keepBil s.bilR, fwu := keepFwu s.fwu,
    fbk := s.fbk, aux := keepAux s.aux, hkp := keepHkp s.hkp }

/-- What a warm reset keeps beyond that: the landing contents, the pipeline assignment, the disable of the quad-SPI
target and the sampled strap. -/
def warmBase (s : State) : State :=
  { resetBase s with
    lnd := { mem := s.lnd.mem, bad := s.lnd.bad }
    ctl := { clu := s.ctl.clu.map fun x => { x with next := 0 }, rgn := s.ctl.rgn }
    hst := { qspiDis := s.hst.qspiDis }
    tdm := { strapHigh := s.tdm.strapHigh } }

/-! ### The steps of the boot (R436) -/

/-- The root is drawn and burned at the first start (R366). -/
def rootProvision (ok : Bool) (s : State) : State :=
  if s.hwd.rootSet then s
  else
    let (ix, s) := s.fresh
    onHwd (fun h => { h with root := Config.trng ix, rootSet := true, rootFault := !ok }) s

/-- A pending burn is made before any derivation; the package then starts from a tamper boot (R263, R367, R377). -/
def pendingBurn (s : State) : State :=
  if s.hwd.pending then
    onBilR (fun r => { r with tamperBoot := true }) (onHwd (fun h => { h with pending := false, zeroized := true }) (burnFuse s))
  else s

/-- The boot record that the boot ROM obeys finds its image (R391). Without any record the package starts unmeasured. (DESIGN CHOICE, entry 51.) -/
def bootOk (s : State) : Bool :=
  match bootRec s.fwu with
  | some r => hashBytes (Config.sha384 (slotOf s.fwu r.slot).manifest) = r.hash
  | none => true

/-- The image starts: its measurements (R370, R391). -/
def bootImage (s : State) : State :=
  match bootRec s.fwu with
  | none => s
  | some r =>
    let m := (slotOf s.fwu r.slot).manifest
    let s := onFwu (fun f => { f with running := r.slot, floor := max f.floor r.floor }) s
    onHwd (fun h => { h with meas := if m = [] then h.meas else manMeas m }) s

/-- The commit that a cut left pending is completed before the firmware serves any request (R399). -/
def bootCommit (s : State) : State :=
  match bootRec s.fwu with
  | none => s
  | some r =>
    let done (x : BootRec) : BootRec := { x with pendCommit := false }
    if r.pendCommit then onFwu (fun f => { f with rec0 := f.rec0.map done, rec1 := f.rec1.map done }) (commitSlots s) else s

/-- Heartwood has checked the slots and is ready (R372). (DEDUCED, entry 54.) -/
def bootSlots (s : State) : State := bootCommit (onHwd (fun h => { h with ready := true }) (slotCheck s))

/-- The start-up pipeline test: the first three that pass serve, the fourth is spare (R436). -/
def pipeAssign (pass : BitVec 16) (s : State) : State :=
  let ok (r : RgnIx) : List (Fin 4) := (List.finRange 4).filter fun i => pass.getLsbD (4 * r.val + i.val)
  let clu : Vector Cluster 12 := Vector.ofFn fun k => { pipe := (ok (rgnOf k))[k.val % 3]? }
  let rgn : Vector Region 4 := Vector.ofFn fun r =>
    { spare := (ok r)[3]?, spareUnavail := (ok r).length = 3, failed := ~~~ (pass.extractLsb' (4 * r.val) 4), lost := decide ((ok r).length < 3) }
  { s with ctl := { s.ctl with clu := clu, rgn := rgn } }

/-- The stand map is loaded, the default plan of the landing memory with it, and the safety image goes out (R39, R330). -/
def bootMap (failA failB : Option Nat) (s : State) : State :=
  let s := mapLoad failA failB (fbkCopy s)
  brakeLevel (fbkEval false (imgLoad (onLnd (fun l => { l with planLoaded := true }) s)))

/-- FN_h (R427). -/
def fnHigh (s : State) : Nat :=
  let slot := match bestSlot s with | some x => x.fn | none => 0
  max slot (max s.bilR.fnAon s.bilR.fnMram)

/-- The time from the restored slot to the first boundary in ms, rounded up (R427). -/
def fnGap (s : State) : Nat :=
  match bestSlot s with
  | some x => if s.hkp.rtcValid then cdiv (s.live.rtc - x.rtc) 65536 else 0
  | none => 0

/-- FN_first. -/
def fnFirst (s : State) : Nat := fnHigh s + max 1001 (fnGap s)

/-- The RTC runs while the package starts. -/
def bootRtc (ms : Nat) (s : State) : State :=
  if s.hkp.rtcHold then s else { s with live := { s.live with rtc := (s.live.rtc + 65536 * ms) % (2 ^ 32 * 65536000) } }

/-- Clocks and the counters of starts. -/
def bootHealth (cold : Bool) (ms : Nat) (s : State) : State :=
  let s := onHkp (fun h => { h with
    xtal25 := true, xtal32 := !h.rtcHold, plls := 0xF, tdmRef := true, auxGood := true, bootMs := ms,
    colds := if cold then h.colds + 1 else h.colds, warms := if cold then h.warms else h.warms + 1, startFn := s.fn }) s
  if s.hkp.shutNote then hkpEvent 4 s.hkp.shutAt 0 (onHkp (fun h => { h with shutNote := false }) s) else s

/-- The first state of the tandem block: WAIT or SINGLE (R281, R436). -/
def bootTandem (s : State) : State :=
  onTdm (fun t => { t with
    identity := !t.strapHigh, st := if s.map.tandem.enable then .wait else .single, fnHigh := fnHigh s, roleFn := s.fn }) s

/-- Ages of entries that never came count from the first boundary (R63, R201). (DEDUCED, entry 81.) -/
def ageStart (s : State) : State := { s with alc := { s.alc with loadFn := s.fn } }

/-- The first boundary: billing and the outlets start, and the frame opens with the live inputs. -/
def firstBoundary (s : State) : State :=
  let s := siteStart (ageStart s)
  let set : InputSet := { fn := s.fn, levels := s.live }
  openSet { s with cap := set, lat := set, jnlOld := s.live }

/-- The boot from the start of the image to the first boundary. -/
def bootRun (cold : Bool) (failA failB : Option Nat) (ms : Nat) (s : State) : State :=
  let s := bootRtc ms (bootMap failA failB (bootSlots (bootImage s)))
  firstBoundary (bootTandem (bootHealth cold ms { s with fn := fnFirst s }))

/-- A start: the image runs where its hash matches; otherwise no island starts. -/
def bootStart (cold : Bool) (failA failB : Option Nat) (ms : Nat) (s : State) : State :=
  if bootOk s then bootRun cold failA failB ms s else stopAll s

/-- The auxiliary die over a cold start: FAULT of the firebreak is left (R307), and a failed brake test is due again with its
latch set (R320). (DEDUCED, entry 44.) -/
def coldFbk (s : State) : State :=
  if s.fbk.st = .fault then fbkStart s
  else onFbk (fun f => { f with brk := f.brk.map fun x => { x with due := x.due || x.failed, again := x.again || x.failed } }) s

/-- COLD_START (R436). (DESIGN CHOICE, entry 70.) -/
def coldStart (x : BootFacts) (s : State) : State :=
  let power := s.hkp.resetReq.isNone
  let s := coldFbk (resetBase s)
  let s := onHkp (fun h => { h with cause := if power then setBit h.cause 0 else h.cause }) (onTdm (fun t => { t with strapHigh := x.tdmPref }) s)
  bootStart true x.failA x.failB x.bootMs (pipeAssign x.pipesPass (pendingBurn (rootProvision x.burnOk s)))

/-- COLD_START (R436): not during a thermal shutdown or while the crystal stands (R424, R434). -/
def execColdStart (x : BootFacts) (s : State) : Ans := .next (if s.hkp.shutdown || s.hkp.xtalStopped then s else coldStart x s)

/-- WARM_RESET (R438). -/
def warmReset (ms : Nat) (s : State) : State := bootStart false none none ms (pendingBurn (warmBase s))

/-- WARM_RESET (R438): where a cold start is due, that one runs. -/
def execWarmReset (ms : Nat) (s : State) : Ans :=
  .next (if s.hkp.shutdown || s.hkp.xtalStopped || s.hkp.resetReq = some true then s else warmReset ms s)

end Sys2Proof.Machine
end

