-- ==== Sys2Proof/Machine/Dispatch.lean ====
section
/-! DEFINITION. The dispatch: one arm per command, each one direct call of the meaning of that command. -/

namespace Sys2Proof.Machine

def exec (i : Instr) (s : State) : Host.Outcome State Fault Refusal :=
  match i with
  | .coldStart facts => Sys2Proof.Machine.execColdStart facts s
  | .warmReset ms => Sys2Proof.Machine.execWarmReset ms s
  | .hkpWarmReset key => Sys2Proof.Machine.execHkpWarmReset key s
  | .hkpColdReset key => Sys2Proof.Machine.execHkpColdReset key s
  | .hkpFnClear key => Sys2Proof.Machine.execHkpFnClear key s
  | .coreWatchdog => Sys2Proof.Machine.execCoreWatchdog s
  | .hostIslandReset kind => Sys2Proof.Machine.execHostIslandReset kind s
  | .hostLinkUp gen2 => Sys2Proof.Machine.execHostLinkUp gen2 s
  | .serviceIslandReset => Sys2Proof.Machine.execServiceIslandReset s
  | .pllLockLoss pll => Sys2Proof.Machine.execPllLockLoss pll s
  | .pllLockTimeout pll => Sys2Proof.Machine.execPllLockTimeout pll s
  | .xtal25Stop => Sys2Proof.Machine.execXtal25Stop s
  | .xtal25Return => Sys2Proof.Machine.execXtal25Return s
  | .xtal32kStop => Sys2Proof.Machine.execXtal32kStop s
  | .vbatLoss => Sys2Proof.Machine.execVbatLoss s
  | .powerFailWarning rail => Sys2Proof.Machine.execPowerFailWarning rail s
  | .supplyReset => Sys2Proof.Machine.execSupplyReset s
  | .frameBoundary => Sys2Proof.Machine.execFrameBoundary s
  | .thermalFrame => Sys2Proof.Machine.execThermalFrame s
  | .pipelineSelfTestFail r p => Sys2Proof.Machine.execPipelineSelfTestFail r p s
  | .sampleStart c => Sys2Proof.Machine.execSampleStart c s
  | .staleHold ch => Sys2Proof.Machine.execStaleHold ch s
  | .uplinkReceive ch bytes => Sys2Proof.Machine.execUplinkReceive ch bytes s
  | .routeFeedbackTimeout ch => Sys2Proof.Machine.execRouteFeedbackTimeout ch s
  | .rampDownTimeout ch => Sys2Proof.Machine.execRampDownTimeout ch s
  | .trackingTimeout ch => Sys2Proof.Machine.execTrackingTimeout ch s
  | .dwellExpiry ch => Sys2Proof.Machine.execDwellExpiry ch s
  | .routeMismatch ch => Sys2Proof.Machine.execRouteMismatch ch s
  | .shortCurrentLimit ch => Sys2Proof.Machine.execShortCurrentLimit ch s
  | .shortWindowExpiry ch => Sys2Proof.Machine.execShortWindowExpiry ch s
  | .vselChange code => Sys2Proof.Machine.execVselChange code s
  | .glimSample raw => Sys2Proof.Machine.execGlimSample raw s
  | .glimSignalLoss => Sys2Proof.Machine.execGlimSignalLoss s
  | .glimSignalRestore => Sys2Proof.Machine.execGlimSignalRestore s
  | .xfmrStaleTimeout => Sys2Proof.Machine.execXfmrStaleTimeout s
  | .routeFaultClear ch => Sys2Proof.Machine.execRouteFaultClear ch s
  | .chpPortOff ch b => Sys2Proof.Machine.execChpPortOff ch b s
  | .chpTest ch b => Sys2Proof.Machine.execChpTest ch b s
  | .chpBusClear => Sys2Proof.Machine.execChpBusClear s
  | .pilotStateAccept o high low wave pp => Sys2Proof.Machine.execPilotStateAccept o high low wave pp s
  | .pilotFault o set => Sys2Proof.Machine.execPilotFault o set s
  | .diodeFault o set => Sys2Proof.Machine.execDiodeFault o set s
  | .assocTimeout o => Sys2Proof.Machine.execAssocTimeout o s
  | .authTimeout o => Sys2Proof.Machine.execAuthTimeout o s
  | .cableCheckPassed o => Sys2Proof.Machine.execCableCheckPassed o s
  | .ccTimeout o => Sys2Proof.Machine.execCcTimeout o s
  | .pcTimeout o => Sys2Proof.Machine.execPcTimeout o s
  | .contactorTimeout o => Sys2Proof.Machine.execContactorTimeout o s
  | .weldWindowExpiry o => Sys2Proof.Machine.execWeldWindowExpiry o s
  | .dischargeTimeout o => Sys2Proof.Machine.execDischargeTimeout o s
  | .holdRestart o => Sys2Proof.Machine.execHoldRestart o s
  | .thermalLatchClear o => Sys2Proof.Machine.execThermalLatchClear o s
  | .osqEnable o => Sys2Proof.Machine.execOsqEnable o s
  | .osqDisable o => Sys2Proof.Machine.execOsqDisable o s
  | .osqAuthorize o => Sys2Proof.Machine.execOsqAuthorize o s
  | .osqDeny o => Sys2Proof.Machine.execOsqDeny o s
  | .osqStop o => Sys2Proof.Machine.execOsqStop o s
  | .osqFaultClear o => Sys2Proof.Machine.execOsqFaultClear o s
  | .osqWeldClear o => Sys2Proof.Machine.execOsqWeldClear o s
  | .osqRetryGrant o => Sys2Proof.Machine.execOsqRetryGrant o s
  | .auxCommandLoss => Sys2Proof.Machine.execAuxCommandLoss s
  | .auxHoldExpiry => Sys2Proof.Machine.execAuxHoldExpiry s
  | .t1sLinkUp o => Sys2Proof.Machine.execT1sLinkUp o s
  | .t1sLinkDown o => Sys2Proof.Machine.execT1sLinkDown o s
  | .avlnLost o => Sys2Proof.Machine.execAvlnLost o s
  | .slacParmReq mac runId heard => Sys2Proof.Machine.execSlacParmReq mac runId heard s
  | .slacStartAtten mac runId announced => Sys2Proof.Machine.execSlacStartAtten mac runId announced s
  | .slacSound mac runId o groups => Sys2Proof.Machine.execSlacSound mac runId o groups s
  | .slacWindowClose mac runId => Sys2Proof.Machine.execSlacWindowClose mac runId s
  | .slacMatchReq o mac runId => Sys2Proof.Machine.execSlacMatchReq o mac runId s
  | .seccDiscovery o => Sys2Proof.Machine.execSeccDiscovery o s
  | .tcpConnect o => Sys2Proof.Machine.execTcpConnect o s
  | .tcpRetransmitLimit o => Sys2Proof.Machine.execTcpRetransmitLimit o s
  | .tlsHandshake o ok => Sys2Proof.Machine.execTlsHandshake o ok s
  | .supportedAppProtocolReq o offers => Sys2Proof.Machine.execSupportedAppProtocolReq o offers s
  | .sessionSetupReq o evccid => Sys2Proof.Machine.execSessionSetupReq o evccid s
  | .authorizationReq o chain signed => Sys2Proof.Machine.execAuthorizationReq o chain signed s
  | .chargeParameterDiscoveryReq o v ready err bpt dyn => Sys2Proof.Machine.execChargeParameterDiscoveryReq o v ready err bpt dyn s
  | .cableCheckReq o => Sys2Proof.Machine.execCableCheckReq o s
  | .preChargeReq o v => Sys2Proof.Machine.execPreChargeReq o v s
  | .powerDeliveryReq o start => Sys2Proof.Machine.execPowerDeliveryReq o start s
  | .sessionStopReq o => Sys2Proof.Machine.execSessionStopReq o s
  | .v2gRequest o req => Sys2Proof.Machine.execV2gRequest o req s
  | .linkDegraded o => Sys2Proof.Machine.execLinkDegraded o s
  | .linkLostTimeout o => Sys2Proof.Machine.execLinkLostTimeout o s
  | .vlkLinkReset o => Sys2Proof.Machine.execVlkLinkReset o s
  | .residualFault o => Sys2Proof.Machine.execResidualFault o s
  | .cclResidualClear o => Sys2Proof.Machine.execCclResidualClear o s
  | .cclManual o on pump fan => Sys2Proof.Machine.execCclManual o on pump fan s
  | .coolingFrameTx => Sys2Proof.Machine.execCoolingFrameTx s
  | .meterSubsample codes => Sys2Proof.Machine.execMeterSubsample codes s
  | .cycleEnd ones ovr siteOvr endUs => Sys2Proof.Machine.execCycleEnd ones ovr siteOvr endUs s
  | .freqHold => Sys2Proof.Machine.execFreqHold s
  | .pulseStart k => Sys2Proof.Machine.execPulseStart k s
  | .pulseEnd k => Sys2Proof.Machine.execPulseEnd k s
  | .bypassWindowCheck => Sys2Proof.Machine.execBypassWindowCheck s
  | .witnessSend => Sys2Proof.Machine.execWitnessSend s
  | .witnessLost => Sys2Proof.Machine.execWitnessLost s
  | .metCalWrite c gain val => Sys2Proof.Machine.execMetCalWrite c gain val s
  | .metCalCommit => Sys2Proof.Machine.execMetCalCommit s
  | .metCaptureEnable en site => Sys2Proof.Machine.execMetCaptureEnable en site s
  | .metNeutralClear => Sys2Proof.Machine.execMetNeutralClear s
  | .metBypassClear => Sys2Proof.Machine.execMetBypassClear s
  | .metTamperClear k => Sys2Proof.Machine.execMetTamperClear k s
  | .metWitClear k => Sys2Proof.Machine.execMetWitClear k s
  | .demandClose => Sys2Proof.Machine.execDemandClose s
  | .tariffSwitch k => Sys2Proof.Machine.execTariffSwitch k s
  | .save => Sys2Proof.Machine.execSave s
  | .saveWriteDone ok => Sys2Proof.Machine.execSaveWriteDone ok s
  | .ticketSigned => Sys2Proof.Machine.execTicketSigned s
  | .ticketAck ix => Sys2Proof.Machine.execTicketAck ix s
  | .ledgerBind => Sys2Proof.Machine.execLedgerBind s
  | .ledgerUnbind => Sys2Proof.Machine.execLedgerUnbind s
  | .ledgerLoadCredit => Sys2Proof.Machine.execLedgerLoadCredit s
  | .ledgerCreditMode => Sys2Proof.Machine.execLedgerCreditMode s
  | .ledgerRetire => Sys2Proof.Machine.execLedgerRetire s
  | .ledgerClear => Sys2Proof.Machine.execLedgerClear s
  | .ledgerRead => Sys2Proof.Machine.execLedgerRead s
  | .ledgerExport => Sys2Proof.Machine.execLedgerExport s
  | .ledgerForcedBind => Sys2Proof.Machine.execLedgerForcedBind s
  | .bilMdReset => Sys2Proof.Machine.execBilMdReset s
  | .bilCheckpoint => Sys2Proof.Machine.execBilCheckpoint s
  | .bilStoreTicket => Sys2Proof.Machine.execBilStoreTicket s
  | .bilSelSnapshot val => Sys2Proof.Machine.execBilSelSnapshot val s
  | .rtcSet => Sys2Proof.Machine.execRtcSet s
  | .rtcCompensate temp => Sys2Proof.Machine.execRtcCompensate temp s
  | .amendSubmit => Sys2Proof.Machine.execAmendSubmit s
  | .amendValidated => Sys2Proof.Machine.execAmendValidated s
  | .amendCancel => Sys2Proof.Machine.execAmendCancel s
  | .amendApply => Sys2Proof.Machine.execAmendApply s
  | .amendPersist => Sys2Proof.Machine.execAmendPersist s
  | .smpFlashWriteA => Sys2Proof.Machine.execSmpFlashWriteA s
  | .smpFlashWriteB => Sys2Proof.Machine.execSmpFlashWriteB s
  | .smpFlashDone ok => Sys2Proof.Machine.execSmpFlashDone ok s
  | .clampSelWrite val => Sys2Proof.Machine.execClampSelWrite val s
  | .linkTraining => Sys2Proof.Machine.execLinkTraining s
  | .markerReceive m => Sys2Proof.Machine.execMarkerReceive m s
  | .markerMissing => Sys2Proof.Machine.execMarkerMissing s
  | .delayMeasure roundTrip => Sys2Proof.Machine.execDelayMeasure roundTrip s
  | .heartbeatSend => Sys2Proof.Machine.execHeartbeatSend s
  | .heartbeatReceive h => Sys2Proof.Machine.execHeartbeatReceive h s
  | .snapPacket fn snap => Sys2Proof.Machine.execSnapPacket fn snap s
  | .insetPacket set => Sys2Proof.Machine.execInsetPacket set s
  | .protoPacket fn p => Sys2Proof.Machine.execProtoPacket fn p s
  | .witPacket m => Sys2Proof.Machine.execWitPacket m s
  | .digestPacket fn crc => Sys2Proof.Machine.execDigestPacket fn crc s
  | .bulkPacket b => Sys2Proof.Machine.execBulkPacket b s
  | .pairPacket p => Sys2Proof.Machine.execPairPacket p s
  | .joinWaitExpiry => Sys2Proof.Machine.execJoinWaitExpiry s
  | .reseedCatchup => Sys2Proof.Machine.execReseedCatchup s
  | .joinComplete => Sys2Proof.Machine.execJoinComplete s
  | .joinTimeout => Sys2Proof.Machine.execJoinTimeout s
  | .takeover => Sys2Proof.Machine.execTakeover s
  | .roleSwap => Sys2Proof.Machine.execRoleSwap s
  | .tdmRejoin => Sys2Proof.Machine.execTdmRejoin s
  | .tdmYield => Sys2Proof.Machine.execTdmYield s
  | .tdmHoldReturn => Sys2Proof.Machine.execTdmHoldReturn s
  | .tdmDeclareFault => Sys2Proof.Machine.execTdmDeclareFault s
  | .safetyImageLoad => Sys2Proof.Machine.execSafetyImageLoad s
  | .fbkSelfTest ok => Sys2Proof.Machine.execFbkSelfTest ok s
  | .fbkEvalCycle => Sys2Proof.Machine.execFbkEvalCycle s
  | .fbkInputAccept inp level => Sys2Proof.Machine.execFbkInputAccept inp level s
  | .zoneDiscrepancy z => Sys2Proof.Machine.execZoneDiscrepancy z s
  | .weldDetect o => Sys2Proof.Machine.execWeldDetect o s
  | .weldNotify o => Sys2Proof.Machine.execWeldNotify o s
  | .resetEdgePair ms => Sys2Proof.Machine.execResetEdgePair ms s
  | .resetJammed => Sys2Proof.Machine.execResetJammed s
  | .autoStartRun => Sys2Proof.Machine.execAutoStartRun s
  | .sealRead direct inverted => Sys2Proof.Machine.execSealRead direct inverted s
  | .imageCrcCheck ok => Sys2Proof.Machine.execImageCrcCheck ok s
  | .lsPulseTest readback => Sys2Proof.Machine.execLsPulseTest readback s
  | .fbkChannelDiscrepancy kind => Sys2Proof.Machine.execFbkChannelDiscrepancy kind s
  | .vauxOutOfWindow back => Sys2Proof.Machine.execVauxOutOfWindow back s
  | .fbkThermalHold => Sys2Proof.Machine.execFbkThermalHold s
  | .brakeTestDue b => Sys2Proof.Machine.execBrakeTestDue b s
  | .brakeTestOverdue b => Sys2Proof.Machine.execBrakeTestOverdue b s
  | .brakeTestStart b => Sys2Proof.Machine.execBrakeTestStart b s
  | .brakeTestTorque b => Sys2Proof.Machine.execBrakeTestTorque b s
  | .brakeTestRelease b => Sys2Proof.Machine.execBrakeTestRelease b s
  | .brakeTestEvaluate b edges => Sys2Proof.Machine.execBrakeTestEvaluate b edges s
  | .fbkWeldArm o => Sys2Proof.Machine.execFbkWeldArm o s
  | .fbkBrkTest b => Sys2Proof.Machine.execFbkBrkTest b s
  | .fbkBrkRepair b => Sys2Proof.Machine.execFbkBrkRepair b s
  | .fbkLogSelWrite val => Sys2Proof.Machine.execFbkLogSelWrite val s
  | .auxCommandFrame => Sys2Proof.Machine.execAuxCommandFrame s
  | .auxOn k on => Sys2Proof.Machine.execAuxOn k on s
  | .auxClear k => Sys2Proof.Machine.execAuxClear k s
  | .auxStaggeredStart k => Sys2Proof.Machine.execAuxStaggeredStart k s
  | .auxHoldStart k => Sys2Proof.Machine.execAuxHoldStart k s
  | .auxInrushEnd k => Sys2Proof.Machine.execAuxInrushEnd k s
  | .auxOvercurrent k => Sys2Proof.Machine.execAuxOvercurrent k s
  | .auxThermalTrip k t => Sys2Proof.Machine.execAuxThermalTrip k t s
  | .auxThermalLatchClear k t => Sys2Proof.Machine.execAuxThermalLatchClear k t s
  | .auxRestart k => Sys2Proof.Machine.execAuxRestart k s
  | .auxRetryRestore k => Sys2Proof.Machine.execAuxRetryRestore k s
  | .auxPulseEnd k => Sys2Proof.Machine.execAuxPulseEnd k s
  | .auxOpenLoad k kind => Sys2Proof.Machine.execAuxOpenLoad k kind s
  | .auxSenseConvert milliAmps => Sys2Proof.Machine.execAuxSenseConvert milliAmps s
  | .auxBudgetShed => Sys2Proof.Machine.execAuxBudgetShed s
  | .canRxFrame k f us => Sys2Proof.Machine.execCanRxFrame k f us s
  | .canTxSubmit k count => Sys2Proof.Machine.execCanTxSubmit k count s
  | .canTxComplete k src => Sys2Proof.Machine.execCanTxComplete k src s
  | .canBusOff k => Sys2Proof.Machine.execCanBusOff k s
  | .canAutoRecovery k => Sys2Proof.Machine.execCanAutoRecovery k s
  | .canRecover k => Sys2Proof.Machine.execCanRecover k s
  | .canHpSelWrite k val => Sys2Proof.Machine.execCanHpSelWrite k val s
  | .tamperDetect src => Sys2Proof.Machine.execTamperDetect src s
  | .trngHealthFail => Sys2Proof.Machine.execTrngHealthFail s
  | .trngRecover => Sys2Proof.Machine.execTrngRecover s
  | .bbkMaskRenew => Sys2Proof.Machine.execBbkMaskRenew s
  | .hwdGenerate arg => Sys2Proof.Machine.execHwdGenerate arg s
  | .hwdImport arg => Sys2Proof.Machine.execHwdImport arg s
  | .hwdPublic arg => Sys2Proof.Machine.execHwdPublic arg s
  | .hwdDelete arg => Sys2Proof.Machine.execHwdDelete arg s
  | .hwdReseal arg => Sys2Proof.Machine.execHwdReseal arg s
  | .hwdResealCommit arg => Sys2Proof.Machine.execHwdResealCommit arg s
  | .hwdAttest arg => Sys2Proof.Machine.execHwdAttest arg s
  | .hwdBbkGenerate arg => Sys2Proof.Machine.execHwdBbkGenerate arg s
  | .hwdEnrollSmp arg => Sys2Proof.Machine.execHwdEnrollSmp arg s
  | .hwdCommandDone => Sys2Proof.Machine.execHwdCommandDone s
  | .hwdTamperLock => Sys2Proof.Machine.execHwdTamperLock s
  | .hwdLifecycleLock => Sys2Proof.Machine.execHwdLifecycleLock s
  | .tamperCauseRead => Sys2Proof.Machine.execTamperCauseRead s
  | .hwdLogSelWrite val => Sys2Proof.Machine.execHwdLogSelWrite val s
  | .svcArp ip => Sys2Proof.Machine.execSvcArp ip s
  | .svcIcmpEcho ip payload => Sys2Proof.Machine.execSvcIcmpEcho ip payload s
  | .fwuOpen sess manLen blocks => Sys2Proof.Machine.execFwuOpen sess manLen blocks s
  | .fwuManifest sess image => Sys2Proof.Machine.execFwuManifest sess image s
  | .fwuBlock sess n q crc data => Sys2Proof.Machine.execFwuBlock sess n q crc data s
  | .fwuQuery sess => Sys2Proof.Machine.execFwuQuery sess s
  | .fwuClose sess => Sys2Proof.Machine.execFwuClose sess s
  | .fwuVoteReceive v => Sys2Proof.Machine.execFwuVoteReceive v s
  | .fwuSessionTimeout => Sys2Proof.Machine.execFwuSessionTimeout s
  | .fwuWrite => Sys2Proof.Machine.execFwuWrite s
  | .fwuWriteDone r => Sys2Proof.Machine.execFwuWriteDone r s
  | .fwuDiscard => Sys2Proof.Machine.execFwuDiscard s
  | .fwuSchedule => Sys2Proof.Machine.execFwuSchedule s
  | .fwuCancel => Sys2Proof.Machine.execFwuCancel s
  | .fwuRevertCmd => Sys2Proof.Machine.execFwuRevertCmd s
  | .fwuOwnerLock set => Sys2Proof.Machine.execFwuOwnerLock set s
  | .fwuOpkeyWrite => Sys2Proof.Machine.execFwuOpkeyWrite s
  | .fwuVote => Sys2Proof.Machine.execFwuVote s
  | .fwuDecision => Sys2Proof.Machine.execFwuDecision s
  | .fwuActivate => Sys2Proof.Machine.execFwuActivate s
  | .fwuReadyReport ready reason => Sys2Proof.Machine.execFwuReadyReport ready reason s
  | .fwuAutoRevert => Sys2Proof.Machine.execFwuAutoRevert s
  | .fwuResume => Sys2Proof.Machine.execFwuResume s
  | .fwuCommit => Sys2Proof.Machine.execFwuCommit s
  | .scrubStep => Sys2Proof.Machine.execScrubStep s
  | .lndSnapNow => Sys2Proof.Machine.execLndSnapNow s
  | .lndScrubNow => Sys2Proof.Machine.execLndScrubNow s
  | .bar2Write off bytes => Sys2Proof.Machine.execBar2Write off bytes s
  | .hkAdcSlot slot code => Sys2Proof.Machine.execHkAdcSlot slot code s
  | .hkInAlarm k => Sys2Proof.Machine.execHkInAlarm k s
  | .thermalLevelChange lvl => Sys2Proof.Machine.execThermalLevelChange lvl s
  | .thermalShutdown sensor => Sys2Proof.Machine.execThermalShutdown sensor s
  | .thermalRelease => Sys2Proof.Machine.execThermalRelease s
  | .tallyRingWrite => Sys2Proof.Machine.execTallyRingWrite s
  | .tlyClear => Sys2Proof.Machine.execTlyClear s
  | .tlyCntLoRead k => Sys2Proof.Machine.execTlyCntLoRead k s
  | .resetCauseRead => Sys2Proof.Machine.execResetCauseRead s
  | .vectorAck val => Sys2Proof.Machine.execVectorAck val s
  | .qspiDisable => Sys2Proof.Machine.execQspiDisable s
  | .qspiRead bar off len ready => Sys2Proof.Machine.execQspiRead bar off len ready s
  | .qspiWrite bar off data => Sys2Proof.Machine.execQspiWrite bar off data s
  | .qspiStatus => Sys2Proof.Machine.execQspiStatus s
  | .registerWrite off val lanes => Sys2Proof.Machine.execRegisterWrite off val lanes s
  | .tandemLinkDown => Sys2Proof.Machine.execTandemLinkDown s
  | .tcpConnectionClosed o => Sys2Proof.Machine.execTcpConnectionClosed o s
  | .debugSessionOpen => Sys2Proof.Machine.execDebugSessionOpen s
  | .debugSessionClose => Sys2Proof.Machine.execDebugSessionClose s
  | .canBusError k kind tec rec => Sys2Proof.Machine.execCanBusError k kind tec rec s
  | .hostRead bar off len be => Sys2Proof.Machine.execHostRead bar off len be s
  | .msixMaskClear vec => Sys2Proof.Machine.execMsixMaskClear vec s

end Sys2Proof.Machine
end

