-- ==== Sys2Proof/Safety.lean ====
section
/-! DEFINITION. What a safe run is: relations between a state and the state a command leaves, and properties of a state
that every command keeps. -/

namespace Sys2Proof.Machine

/-- The queue of commands, the fuses (R366, R378, R453) the tamper counter (R367) and FN (R20) are as before. -/
abbrev SameId (s t : State) : Prop := t.pending = s.pending ∧ t.otp = s.otp ∧ t.hwd.tc = s.hwd.tc ∧ t.fn = s.fn

/-- What nearly every operation leaves alone: besides those, the bytes of the landing memory (R403) and the firebreak
(R303). -/
abbrev Same (s t : State) : Prop :=
  t.pending = s.pending ∧ t.otp = s.otp ∧ t.hwd.tc = s.hwd.tc ∧ t.fn = s.fn ∧ t.lnd.mem = s.lnd.mem ∧ t.fbk = s.fbk

/-- The same of an operation that writes the landing memory: the memory stays in its canonical form. -/
abbrev SameW (s t : State) : Prop :=
  t.pending = s.pending ∧ t.otp = s.otp ∧ t.hwd.tc = s.hwd.tc ∧ t.fn = s.fn ∧ t.fbk = s.fbk ∧
    (Memory.wf s.lnd.mem = true → Memory.wf t.lnd.mem = true)

/-- The same of an operation of the firebreak. -/
abbrev SameF (s t : State) : Prop :=
  t.pending = s.pending ∧ t.otp = s.otp ∧ t.hwd.tc = s.hwd.tc ∧ t.fn = s.fn ∧ t.lnd.mem = s.lnd.mem

/-- The same of an operation that does both. -/
abbrev SameFW (s t : State) : Prop :=
  t.pending = s.pending ∧ t.otp = s.otp ∧ t.hwd.tc = s.hwd.tc ∧ t.fn = s.fn ∧
    (Memory.wf s.lnd.mem = true → Memory.wf t.lnd.mem = true)

/-- What every command keeps: the queue is not its own to change; the serial number and the gain order are fixed for the
life of a package (R453); a locked lifecycle stays locked (R378); the tamper count never falls (R367); the landing
memory stays in its canonical form. -/
structure Runs (s t : State) : Prop where
  queue : t.pending = s.pending
  serial : t.otp.serial = s.otp.serial
  order : t.otp.orderK = s.otp.orderK
  locked : s.otp.locked = true → t.otp.locked = true
  tc : s.hwd.tc ≤ t.hwd.tc
  mem : Memory.wf s.lnd.mem = true → Memory.wf t.lnd.mem = true

/-- The same of a command that leaves FN (R20) alone. -/
structure Keeps (s t : State) : Prop where
  queue : t.pending = s.pending
  serial : t.otp.serial = s.otp.serial
  order : t.otp.orderK = s.otp.orderK
  locked : s.otp.locked = true → t.otp.locked = true
  tc : s.hwd.tc ≤ t.hwd.tc
  mem : Memory.wf s.lnd.mem = true → Memory.wf t.lnd.mem = true
  fn : t.fn = s.fn

/-- The safe outputs of the firebreak: outside RUN, or without its supply, every contactor coil is off and every cluster
is held stopped (R306, R307, R321). -/
def SafeOut (s : State) : Prop := (s.fbk.st = .run ∧ s.fbk.vaux = true) ∨ (s.fbk.ls = 0 ∧ s.fbk.stop = 0xFFF)

/-- An operation keeps the safe outputs. -/
def Guards (s t : State) : Prop := SafeOut s → SafeOut t

/-- What an evaluation of the firebreak leaves of a brake (R317 to R320): the verdicts of its tests stand, its marks are set
and not cleared, and a running test goes on or is aborted. -/
structure BrkFrame (x y : FbkBrk) : Prop where
  failed : y.failed = x.failed
  passes : y.passes = x.passes
  repair : y.repair = x.repair
  retestOk : y.retestOk = x.retestOk
  again : y.again = x.again
  edges : y.edges = x.edges
  last : y.last = x.last
  due : x.due = true → y.due = true
  overdue : x.overdue = true → y.overdue = true
  phase : y.phase = x.phase ∨ (y.phase = 0 ∧ y.due = true)

/-- Both poles of K_n are accepted open (R150, R308). -/
def openBoth (f : Fbk) (n : Nat) : Bool := f.kPok.getLsbD n && f.kNok.getLsbD n && !f.kP.getLsbD n && !f.kN.getLsbD n

/-- What an evaluation of the firebreak (R308) can change within it: its cycle count, old image fields, latches and their
runs, the marks of the brakes, its outputs, trips, log and status bits. It sets latches
and clears none; the latches of SF2 and SF3 come of a demand; an armed weld release stays while K_n is open. -/
structure FbkFrame (f g : Fbk) : Prop where
  same : g = { f with
    t := g.t, old := g.old, zone := g.zone, otcL := g.otcL, imdL := g.imdL, weldL := g.weldL, weldArm := g.weldArm,
    weldRun := g.weldRun, openRun := g.openRun, brk := g.brk, ls := g.ls, stop := g.stop, trips := g.trips, log := g.log,
    logNext := g.logNext, logSeq := g.logSeq, intStatus := g.intStatus }
  brk : ∀ b : Fin 8, BrkFrame f.brk[b] g.brk[b]
  zone : ∀ z : Fin 8, (f.zone[z]).latch = true → (g.zone[z]).latch = true
  otcL : ∀ n : Nat, f.otcL.getLsbD n = true → g.otcL.getLsbD n = true
  imdL : ∀ n : Nat, f.imdL.getLsbD n = true → g.imdL.getLsbD n = true
  weldL : ∀ n : Nat, f.weldL.getLsbD n = true → g.weldL.getLsbD n = true
  otcNew : ∀ n : Nat, g.otcL.getLsbD n = true → f.otcL.getLsbD n = true ∨ f.otc.getLsbD n = false
  imdNew : ∀ n : Nat, g.imdL.getLsbD n = true → f.imdL.getLsbD n = true ∨ f.imd.getLsbD n = false
  arm : ∀ n : Nat, f.weldL.getLsbD n = true → f.weldArm.getLsbD n = true → openBoth f n = true → g.weldArm.getLsbD n = true

/-- What an evaluation of the firebreak can touch: the firebreak as above, its copy in the control die, the low sides, its
events, the function of the last trip. -/
structure EvalFrame (s t : State) : Prop where
  fbk : FbkFrame s.fbk t.fbk
  rest : t = { s with fbk := t.fbk, live := t.live, aux := t.aux, arrived := t.arrived, fbkTripFn := t.fbkTripFn }

/-- A row of R153 can act on an outlet in the frame in progress: the control island runs, no restart window stands, and the
sequencer has not moved in the frame (R148). -/
def OsqReady (s : State) (o : OutIx) : Prop :=
  s.isl.ctl = true ∧ s.fwu.window = none ∧ (s.nx.osq[o]).moved = false ∧ (s.nx.osq[o]).st = (s.fl.osq[o]).st

/-- A sequencer takes one transition (R148, R152, R167), effective at the next boundary, with one mailbox entry of a code and
the status bits of a state change and of a mailbox entry for that boundary; no other outlet and no other block changes but
the weld notification. -/
structure OsqMoves (o : OutIx) (x : OSt) (code : Nat) (s t : State) : Prop where
  st : (t.nx.osq[o]).st = x
  moved : (t.nx.osq[o]).moved = true
  prev : (t.nx.osq[o]).prev = (s.nx.osq[o]).st
  lock : (t.nx.osq[o]).lock = x.locked
  since : x ≠ (s.nx.osq[o]).st → (t.nx.osq[o]).stFn = s.fn + 1
  entry : ∃ e : MbxEntry, t.mbx = s.mbx ++ [e] ∧ e.o = o ∧ e.code = code ∧ e.before = (s.nx.osq[o]).st ∧ e.after = x
  bits : (t.late.osq[o]).getLsbD 1 = true ∧ (x ≠ (s.nx.osq[o]).st → (t.late.osq[o]).getLsbD 0 = true)
  others : ∀ p : OutIx, p ≠ o → t.nx.osq[p] = s.nx.osq[p] ∧ t.osqR[p] = s.osqR[p] ∧ t.late.osq[p] = s.late.osq[p]
  rest : t = { s with
    nx := { s.nx with osq := t.nx.osq }, osqR := t.osqR, mbx := t.mbx, evs := t.evs, fbkWeldNote := t.fbkWeldNote,
    late := { s.late with osq := t.late.osq } }

/-- The commands that open a frame or start the package: FN (R20) changes with no other. -/
def opensFrames : Instr → Bool
  | .frameBoundary => true
  | .coldStart _ => true
  | .warmReset _ => true
  | _ => false

/-- The commands that may change the firebreak: its own rows, what enters or leaves a shutdown or a start, an amendment
that is sent to it, and the writes of a host and the boundary that carry one of these. -/
def touchesFirebreak : Instr → Bool
  | .frameBoundary => true
  | .coldStart _ => true
  | .warmReset _ => true
  | .registerWrite _ _ _ => true
  | .qspiWrite _ _ _ => true
  | .amendApply => true
  | .safetyImageLoad => true
  | .fbkSelfTest _ => true
  | .fbkEvalCycle => true
  | .fbkInputAccept _ _ => true
  | .zoneDiscrepancy _ => true
  | .weldDetect _ => true
  | .weldNotify _ => true
  | .resetEdgePair _ => true
  | .resetJammed => true
  | .autoStartRun => true
  | .sealRead _ _ => true
  | .imageCrcCheck _ => true
  | .lsPulseTest _ => true
  | .fbkChannelDiscrepancy _ => true
  | .vauxOutOfWindow _ => true
  | .fbkThermalHold => true
  | .brakeTestDue _ => true
  | .brakeTestOverdue _ => true
  | .brakeTestStart _ => true
  | .brakeTestTorque _ => true
  | .brakeTestRelease _ => true
  | .brakeTestEvaluate _ _ => true
  | .fbkWeldArm _ => true
  | .fbkBrkTest _ => true
  | .fbkBrkRepair _ => true
  | .fbkLogSelWrite _ => true
  | .thermalShutdown _ => true
  | .thermalRelease => true
  | _ => false

/-- The commands that may store into the landing memory. -/
def writesLanding : Instr → Bool
  | .frameBoundary => true
  | .coldStart _ => true
  | .warmReset _ => true
  | .registerWrite _ _ _ => true
  | .qspiWrite _ _ _ => true
  | .meterSubsample _ => true
  | .cycleEnd _ _ _ _ => true
  | .ticketSigned => true
  | .ledgerBind => true
  | .ledgerUnbind => true
  | .ledgerLoadCredit => true
  | .ledgerCreditMode => true
  | .ledgerRetire => true
  | .ledgerClear => true
  | .ledgerRead => true
  | .ledgerExport => true
  | .ledgerForcedBind => true
  | .bilCheckpoint => true
  | .bulkPacket _ => true
  | .canRxFrame _ _ _ => true
  | .hwdCommandDone => true
  | .fwuBlock _ _ _ _ _ => true
  | .fwuResume => true
  | .bar2Write _ _ => true
  | .tallyRingWrite => true
  | _ => false

/-- The commands that may change the OTP: the lifecycle lock, by its row or by a register write. -/
def writesOtp : Instr → Bool
  | .hwdLifecycleLock => true
  | .registerWrite _ _ _ => true
  | .qspiWrite _ _ _ => true
  | _ => false

/-- The commands of the firebreak that end in an evaluation (R308). -/
def firebreakRow : Instr → Bool
  | .safetyImageLoad => true
  | .fbkSelfTest _ => true
  | .fbkEvalCycle => true
  | .fbkInputAccept _ _ => true
  | .zoneDiscrepancy _ => true
  | .weldDetect _ => true
  | .weldNotify _ => true
  | .resetEdgePair _ => true
  | .resetJammed => true
  | .autoStartRun => true
  | .sealRead _ _ => true
  | .imageCrcCheck _ => true
  | .lsPulseTest _ => true
  | .fbkChannelDiscrepancy _ => true
  | .vauxOutOfWindow _ => true
  | .fbkThermalHold => true
  | .brakeTestDue _ => true
  | .brakeTestOverdue _ => true
  | .brakeTestStart _ => true
  | .brakeTestTorque _ => true
  | .brakeTestRelease _ => true
  | .brakeTestEvaluate _ _ => true
  | _ => false

end Sys2Proof.Machine
end

