-- ==== Sys2Proof/WellFormed.lean ====
section
/-! DEFINITION. Which commands can arrive: the sizes and ranges that the rules give the operands of a row. A meaning is
total all the same: what an operand outside these ranges would do is of no account. -/

namespace Sys2Proof

/-- A received CAN frame: at most 8 bytes of data, or one of the CAN FD sizes; no remote frame in CAN FD (R353, R354). -/
def CanFrame.wf (f : CanFrame) : Bool :=
  if f.fd then !f.remote && [0, 1, 2, 3, 4, 5, 6, 7, 8, 12, 16, 20, 24, 32, 48, 64].contains f.data.length
  else !f.brs && decide (f.data.length ≤ 8)

/-- The operands of a command are within what its row can carry. -/
def Instr.wf : Instr → Bool
  | .uplinkReceive _ bytes => bytes.length == 16
  | .glimSample raw =>
    decide (raw.code < 4096) && raw.edges.all (fun e => decide (e < 400000)) && decide (raw.edges.Pairwise (· < ·))
  | .pilotStateAccept _ _ _ _ pp => decide (pp < 4096)
  | .slacSound _ _ _ groups => groups.length == 58 && groups.all fun g => decide (g < 256)
  | .sessionSetupReq _ evccid => decide (evccid.length ≤ 64)
  | .meterSubsample codes =>
    codes.length == 72 && codes.all fun c => decide (-(2 ^ 23 : Int) ≤ c) && decide (c < (2 ^ 23 : Int))
  | .cycleEnd ones _ _ endUs => ones.length == 72 && ones.all (fun n => decide (n ≤ 91022)) && decide (endUs < 1000)
  | .auxSenseConvert ma => ma.length == 88
  | .canRxFrame _ f us => f.wf && decide (us < 1000)
  | .canBusError _ _ tec rec => decide (tec < 256) && decide (rec < 256)
  | .svcIcmpEcho _ payload => decide (payload.length ≤ 1472)
  | .fwuOpen _ manLen blocks => decide (manLen < 65536) && decide (blocks ≤ 4096)
  | .fwuManifest _ image => decide (image.length < 65536)
  | .fwuBlock _ n _ _ data => decide (n < 4096) && data.length == 1024
  | .bar2Write off bytes => decide (0 < bytes.length) && decide (off.toNat + bytes.length ≤ 2 ^ 26)
  | .hkAdcSlot _ code => decide (code < 4096)
  | .hostRead _ _ len _ => decide (0 < len)
  | .qspiRead _ _ len _ => decide (0 < len)
  | .registerWrite _ _ lanes => decide (0 < lanes.len)
  | _ => true

end Sys2Proof
end

