-- ==== Sys2Proof/Certificates/Slice0/Obligations.lean ====
section
/-! DEFINITION. The statements for the provers: what the rules of the manual say that the commands do. -/

open Sys2Proof Sys2Proof.Machine

/-- The queue: a step takes the front command and runs it on the state with the rest; an empty queue idles (the model's
choice, entry 2). -/
def Obligations.StepRunsTheFrontCommand : Prop :=
  (∀ (c : Instr) (rest : List Instr) (s : State), step { s with pending := c :: rest } = exec c { s with pending := rest }) ∧
  (∀ s : State, s.pending = [] → step s = .next s)

/-- No command changes the queue, and every command answers a next state. -/
def Obligations.EveryCommandAnswersAndKeepsTheQueue : Prop :=
  ∀ (c : Instr) (s : State), ∃ t, exec c s = .next t ∧ t.pending = s.pending

/-- What is fixed for the life of a package (R453, R378, R367) and the form of the landing memory outlast every step. -/
def Obligations.StepKeepsIdentityFusesAndMemory : Prop :=
  ∀ s t : State, step s = .next t →
    t.otp.serial = s.otp.serial ∧ t.otp.orderK = s.otp.orderK ∧ (s.otp.locked = true → t.otp.locked = true) ∧
      s.hwd.tc ≤ t.hwd.tc ∧ (Memory.wf s.lnd.mem = true → Memory.wf t.lnd.mem = true)

/-- Outside RUN, or without its supply, the firebreak holds every contactor coil off and every cluster stopped, and every
step keeps it so (R306, R307, R321). -/
def Obligations.StepKeepsTheSafeOutputs : Prop :=
  ∀ s t : State, SafeOut s → step s = .next t → SafeOut t

/-- FN (R20) changes at a frame boundary and at a start, with no other command. -/
def Obligations.OnlyBoundariesAndStartsMoveFn : Prop :=
  ∀ (c : Instr) (s t : State), opensFrames c = false → exec c s = .next t → t.fn = s.fn

/-- The firebreak (R303) answers to its own commands, to the shutdown, to an image sent by an amendment, and to what a host
writes; no other command changes anything of it. -/
def Obligations.OtherCommandsLeaveTheFirebreak : Prop :=
  ∀ (c : Instr) (s t : State), touchesFirebreak c = false → exec c s = .next t → t.fbk = s.fbk

/-- Every byte of the landing memory reads as before after a command that stores nothing there. -/
def Obligations.OtherCommandsLeaveTheLandingMemory : Prop :=
  ∀ (c : Instr) (s t : State), writesLanding c = false → exec c s = .next t →
    ∀ a : Nat, memRead t.lnd.mem a = memRead s.lnd.mem a

/-- The OTP and its lifecycle fuse (R378, R453) change with the lifecycle lock only. -/
def Obligations.OnlyTheLifecycleLockWritesTheOtp : Prop :=
  ∀ (c : Instr) (s t : State), writesOtp c = false → exec c s = .next t → t.otp = s.otp

/-- The state after reset: the invariants hold, and what the manual states of reset. -/
def Obligations.ResetIsSafe : Prop :=
  SafeOut State.reset ∧ Memory.wf State.reset.lnd.mem = true ∧ State.reset.pending = [] ∧
    State.reset.fbk.st = .start ∧ State.reset.fbk.ls = 0 ∧ State.reset.fbk.stop = 0xFFF ∧
    (∀ o : OutIx, (State.reset.fl.osq[o]).st = State.reset.fl.osq[(0 : OutIx)].st) ∧
    State.reset.hkp.cause = 0 ∧ State.reset.hkp.intStatus = 0 ∧ State.reset.lnd.intStatus = 0 ∧ State.reset.hst.intStatus = 0 ∧
    State.reset.hwd.cause = 0 ∧ State.reset.fwu.sess = none

/-- What asks for a reset stops its islands and leaves its cause in HKP_RESET_CAUSE (R424, R434, R435, R438, R445). -/
def Obligations.ResetRequests : Prop :=
  (∀ s : State, s.isl.met = true → exec (.hkpColdReset 0xA55A) s = .next { s with
      isl := { ctl := false, com := false, met := false, lnd := false }, aux := { s.aux with held := true },
      hkp := { s.hkp with cause := s.hkp.cause ||| 8, resetReq := some true } }) ∧
  (∀ s : State, s.isl.met = true → exec (.hkpWarmReset 0xA55A) s = .next { s with
      isl := { s.isl with ctl := false, com := false, met := false }, aux := { s.aux with held := true },
      hkp := { s.hkp with cause := s.hkp.cause ||| 16, resetReq := if s.hkp.resetReq = some true then some true else some false } }) ∧
  (∀ (key : BitVec 16) (s : State), key ≠ 0xA55A →
      exec (.hkpColdReset key) s = .next s ∧ exec (.hkpWarmReset key) s = .next s ∧ exec (.hkpFnClear key) s = .next s) ∧
  (∀ s : State, s.isl.met = true → s.tdm.st = .wait ∨ s.tdm.st = .isolated →
      exec (.hkpFnClear 0xA55A) s = .next { s with tdm := { s.tdm with fnHigh := 0 } }) ∧
  (∀ s : State, exec .supplyReset s = .next { s with
      isl := { ctl := false, com := false, met := false, lnd := false }, aux := { s.aux with held := true },
      hkp := { s.hkp with cause := s.hkp.cause ||| 2, resetReq := some true } }) ∧
  (∀ (p : Option Pll) (s : State), exec (.pllLockTimeout p) s = .next { s with
      isl := { s.isl with ctl := false, com := false, met := false }, aux := { s.aux with held := true },
      hkp := { s.hkp with cause := s.hkp.cause ||| 64, resetReq := if s.hkp.resetReq = some true then some true else some false } }) ∧
  (∀ s : State, s.hkp.xtalStopped = true → exec .xtal25Return s = .next { s with
      isl := { ctl := false, com := false, met := false, lnd := false }, aux := { s.aux with held := true },
      hkp := { s.hkp with xtal25 := true, xtalStopped := false, cause := s.hkp.cause ||| 64, resetReq := some true } }) ∧
  (∀ s : State, s.hkp.shutdown = true → ∃ t, exec .thermalRelease s = .next t ∧
      t.hkp.shutdown = false ∧ t.hkp.cause = s.hkp.cause ||| 4 ∧ t.hkp.resetReq = some true ∧ t.fbk.st = .start ∧
      t.fbk.ls = 0 ∧ t.fbk.stop = 0xFFF ∧ (∀ b : Fin 8, (t.fbk.brk[b]).failed = (s.fbk.brk[b]).failed) ∧
      t = { s with fbk := t.fbk, live := t.live, aux := t.aux, arrived := t.arrived, fbkTripFn := t.fbkTripFn, hkp := t.hkp })

/-- Failures of clocks and supplies that the package counts and outlives (R424, R425, R426, R435). -/
def Obligations.ClocksAndSupplies : Prop :=
  (∀ s : State, exec (.pllLockLoss .communication) s = .next { s with
      hkp := { s.hkp with plls := s.hkp.plls &&& 0xD, lockLosses := s.hkp.lockLosses + 1, intStatus := s.hkp.intStatus ||| 0x40 },
      evs := s.evs ++ [{ rank := 2, code := 7, num := 1, data := 0 }] }) ∧
  (∀ (p : Pll) (s : State), exec (.pllLockLoss p) s = .next { s with
      hkp := { s.hkp with plls := clrBit s.hkp.plls (pllBit p), lockLosses := s.hkp.lockLosses + 1, intStatus := s.hkp.intStatus ||| 0x40 },
      evs := s.evs ++ [{ rank := 2, code := 7, num := pllBit p, data := 0 }] }) ∧
  (∀ s : State, exec .xtal25Stop s = .next { s with
      isl := { s.isl with ctl := false, com := false }, aux := { s.aux with held := true },
      hkp := { s.hkp with xtal25 := false, xtalStopped := true } }) ∧
  (∀ s : State, s.hkp.rtcHold = false → ∃ t, exec .xtal32kStop s = .next t ∧
      t.hkp = { s.hkp with xtal32 := false, rtcHold := true, xtal32Stops := s.hkp.xtal32Stops + 1 } ∧
      t.live.rtc = s.live.rtc ∧ t.fbk = s.fbk ∧ t.lnd = s.lnd ∧ t.fl = s.fl ∧
      t.hwd.bbk = Vector.replicate 8 none) ∧
  (∀ s : State, ∃ t, exec .vbatLoss s = .next t ∧
      t.live.rtc = 0 ∧ t.hkp.rtcValid = false ∧ t.hkp.cause = 0x80 ∧ t.bilR.fnAon = 0 ∧ t.hwd.bbk = Vector.replicate 8 none ∧
      t.hwd.log = Vector.replicate 16 {} ∧
      t = { s with live := { s.live with rtc := 0 }, hkp := t.hkp, hwd := t.hwd, bilR := { s.bilR with fnAon := 0 } }) ∧
  (∀ (r : Rail) (s : State), exec (.powerFailWarning r) s = .next { s with
      bilR := { s.bilR with noSave := true },
      hkp := { s.hkp with supplyWarn := true, warnings := s.hkp.warnings + 1, intStatus := s.hkp.intStatus ||| 0x10 },
      evs := s.evs ++ [{ rank := 2, code := 5, num := 0, data := 1 }] }) ∧
  (∀ (temp : Int) (s : State), s.hkp.rtcHold = false → ∃ t, exec (.rtcCompensate temp) s = .next t ∧
      (∀ k : Int, k = rtcTicks (rtcTemp temp s - Config.rtcT0 s.otp.serial) (rtcTrim s) → 0 ≤ (s.live.rtc : Int) + 2000 * k →
        (s.live.rtc : Int) + 2000 * k < 2 ^ 32 * 65536000 → (t.live.rtc : Int) = s.live.rtc + 2000 * k) ∧
      t = { s with live := { s.live with rtc := t.live.rtc } }) ∧
  (∀ (temp : Int) (s : State), s.hkp.rtcHold = true → exec (.rtcCompensate temp) s = .next s) ∧
  (∀ s : State, s.isl.ctl = true → ∃ t, exec .rtcSet s = .next t ∧
      t.live.rtc = 65536000 * s.hkp.setSec.toNat + 1000 * s.hkp.setFrac.toNat ∧ t.lat.levels.rtc = t.live.rtc ∧
      t.hkp.rtcValid = true ∧ t.fbk = s.fbk ∧ t.lnd = s.lnd ∧ t.hwd = s.hwd)

/-- Housekeeping conversions (R429, R430): input i is converted in the milliseconds with FN mod 10 = floor(i / 7); the
reading is clamped to 12 bits and marks its input; the other inputs stay; an input in one of the two slots after a clamp
keeps its value. The third reading of HK_IN_k in a row outside its window is an alarm. -/
def Obligations.HousekeepingConversions : Prop :=
  (∀ (i : Fin 42) (code : Nat) (s : State), s.isl.met = true → i.val / 7 = s.fn % 10 →
    (∀ k : Nat, s.hkp.clampAt = some (s.fn, k) → 1 + i.val % 7 ≤ k ∨ k + 2 < 1 + i.val % 7) →
    ∃ t, exec (.hkAdcSlot i code) s = .next t ∧
      t.hkp.ins[i] = { code := min 4095 code, seen := true, ovr := decide (code = 0) || decide (4095 ≤ code), settle := false } ∧
      (∀ j : Fin 42, j ≠ i → t.hkp.ins[j] = s.hkp.ins[j]) ∧
      t = { s with hkp := t.hkp, evs := t.evs, met := { s.met with tempNow := t.met.tempNow },
                   live := { s.live with vbatMv := t.live.vbatMv } }) ∧
  (∀ (i : Fin 42) (code k : Nat) (s : State), s.isl.met = true → i.val / 7 = s.fn % 10 → s.hkp.clampAt = some (s.fn, k) →
    k < 1 + i.val % 7 → 1 + i.val % 7 ≤ k + 2 → exec (.hkAdcSlot i code) s = .next { s with
      hkp := { s.hkp with ins := s.hkp.ins.set i { s.hkp.ins[i] with settle := true } } }) ∧
  (∀ (i : Fin 42) (code : Nat) (s : State), i.val / 7 ≠ s.fn % 10 → exec (.hkAdcSlot i code) s = .next s) ∧
  (∀ (k : Fin 16) (s : State), s.isl.met = true → 3 ≤ s.hkp.hkRun[k] → s.hkp.hkCond.getLsbD k.val = false →
    exec (.hkInAlarm k) s = .next { s with
      hkp := { s.hkp with alarm := setBit s.hkp.alarm k.val, hkCond := setBit s.hkp.hkCond k.val,
                          intStatus := s.hkp.intStatus ||| 0x100 },
      evs := s.evs ++ [{ rank := 2, code := 9, num := k.val, data := 0 }] }) ∧
  (∀ (k : Fin 16) (s : State), s.hkp.hkRun[k] < 3 ∨ s.hkp.hkCond.getLsbD k.val = true → exec (.hkInAlarm k) s = .next s)

/-- Die temperature (R432 to R434): a change of level throttles the landing die at level 2 and is an event; a shutdown stops
every island, holds the high sides and takes a running firebreak to HELD. A level is taken where the hottest sensor trips it
or has left the level above (the reading of a round is the model's, entry 112). -/
def Obligations.DieTemperature : Prop :=
  (∀ (lvl : Fin 3) (s : State), s.isl.met = true → s.hkp.level ≠ lvl.val →
    thermTarget s.hkp.level (hottest s s.hkp.ins).2 = lvl.val → ∃ t, exec (.thermalLevelChange lvl) s = .next t ∧
      t.hkp.level = lvl.val ∧ t.lnd = { s.lnd with throttled := decide (lvl.val = 2) } ∧
      t = { s with hkp := { s.hkp with level := lvl.val, intStatus := t.hkp.intStatus }, lnd := t.lnd, evs := t.evs } ∧
      (lvl.val = 2 → t.hkp.intStatus = s.hkp.intStatus ||| 2 ∧ t.evs = s.evs ++ [{ rank := 2, code := 2, num := 0, data := 0 }]) ∧
      (s.hkp.level = 2 → t.hkp.intStatus = s.hkp.intStatus ||| 4 ∧ t.evs = s.evs ++ [{ rank := 2, code := 3, num := 0, data := 0 }]) ∧
      (s.hkp.level = 0 → lvl.val = 1 →
        t.hkp.intStatus = s.hkp.intStatus ||| 1 ∧ t.evs = s.evs ++ [{ rank := 2, code := 1, num := 0, data := 0 }])) ∧
  (∀ (lvl : Fin 3) (s : State), s.hkp.level = lvl.val ∨ thermTarget s.hkp.level (hottest s s.hkp.ins).2 ≠ lvl.val →
    exec (.thermalLevelChange lvl) s = .next s) ∧
  (∀ (t : Int) (lv : Nat), lv ≤ 2 → (thermTarget lv t = 2 ↔ 7680 ≤ t ∨ (lv = 2 ∧ 7360 ≤ t)) ∧
    (thermTarget lv t = 0 ↔ t < 6720 ∨ (lv = 0 ∧ t < 7040))) ∧
  (∀ (k : Fin 10) (s : State), s.hkp.shutdown = false → ∃ t, exec (.thermalShutdown k) s = .next t ∧
      t.isl = { ctl := false, com := false, met := false, lnd := false } ∧ t.aux.held = true ∧
      t.hkp = { s.hkp with shutdown := true, shutNote := true, shutRead := dieTempOf s s.hkp.ins k, shutAt := k.val,
                           shuts := s.hkp.shuts + 1 } ∧
      (s.fbk.st = .run → t.fbk.st = .held ∧ t.fbk.thermal = true ∧ t.fbk.ls = 0 ∧ t.fbk.stop = 0xFFF) ∧
      (s.fbk.st ≠ .run → t.fbk.st = s.fbk.st ∧ t.fbk.thermal = s.fbk.thermal) ∧
      t.lnd = s.lnd ∧ t.hwd = s.hwd ∧ t.fl = s.fl ∧ t.nx = s.nx)

/-- Reads with a side effect and commands of HKP and TLY (R5, R439, R443, R445, R446): the counters read in two halves, and
HKP_RESET_CAUSE returns its bits and clears them. -/
def Obligations.HealthReadsAndCommands : Prop :=
  (∀ s : State, exec .resetCauseRead s = .next { s with
      hkp := { s.hkp with causeRead := s.hkp.cause, cause := 0 },
      hst := { s.hst with readData := [BitVec.ofNat 32 s.hkp.cause.toNat], readUr := false } }) ∧
  (∀ (i : Fin 192) (s : State), exec (.tlyCntLoRead i) s = .next { s with
      hkp := { s.hkp with tlyHold := some (i, BitVec.ofNat 32 (s.hkp.tlyShown[i] / 2 ^ 32)) },
      hst := { s.hst with readData := [BitVec.ofNat 32 (s.hkp.tlyShown[i] % 2 ^ 32)], readUr := false } }) ∧
  (∀ s : State, s.isl.ctl = true → exec .tlyClear s = .next { s with hkp := { s.hkp with tlyClear := true } }) ∧
  (∀ s : State, s.isl.ctl = true → exec .coreWatchdog s = .next { s with hkp := { s.hkp with coreReq := true } }) ∧
  (∀ (r : RgnIx) (p : Fin 4) (s : State), s.isl.ctl = true → exec (.pipelineSelfTestFail r p) s =
      .next { s with ctl := { s.ctl with pipeFail := s.ctl.pipeFail ++ [(r, p)] } }) ∧
  (∀ s : State, tallyShow s = { s with hkp := { s.hkp with
      tly := if s.hkp.tlyClear then Vector.replicate 192 0 else s.hkp.tly,
      tlyShown := if s.hkp.tlyClear then Vector.replicate 192 0 else s.hkp.tly, tlyClear := false } })

/-- Every firebreak command leaves the low sides and the stop lines as R324, R317 and R321 form them from what the firebreak then
holds: LS_n is closed in RUN exactly while every condition of R324 holds, LS_(32+b) while nothing of R317 applies the brake, and
SAFE_STOP_c is at permit while no enabled, latched zone names the cluster. -/
def Obligations.FirebreakOutputs : Prop :=
  ∀ (c : Instr) (s : State), firebreakRow c = true → ∃ t, exec c s = .next t ∧
    (∀ o : OutIx, t.fbk.ls.getLsbD o.val = true ↔ (t.fbk.st = .run ∧ t.fbk.vaux = true ∧ t.fbk.acc.getLsbD o.val = true ∧
      (∃ i, t.fbk.img = some i ∧ (i.outs[o]).enabled = true) ∧
      t.fbk.otcL.getLsbD o.val = false ∧ t.fbk.imdL.getLsbD o.val = false ∧ t.fbk.weldL.getLsbD o.val = false ∧
      ∀ x ∈ outsOf t.fbk o, zoneOn t.fbk x.zone = true ∧ (t.fbk.zone[x.zone]).latch = false ∧
        ∀ b, x.brake = some b → brkHolds t b o = false)) ∧
    (∀ b : Fin 8, t.fbk.ls.getLsbD (32 + b.val) = true ↔ (t.fbk.st = .run ∧ t.fbk.vaux = true ∧ brkPresent t.fbk b = true ∧
      (∃ z, (fbkSafety t.fbk).brakeZone[b] = some z ∧ zoneOn t.fbk z = true ∧ (t.fbk.zone[z]).latch = false) ∧
      (t.fbk.brk[b]).phase = 0 ∧ (t.fbk.brk[b]).failed = false ∧ (t.fbk.brk[b]).overdue = false)) ∧
    ∀ k : CluIx, t.fbk.stop.getLsbD k.val = false ↔ (t.fbk.st = .run ∧ t.fbk.vaux = true ∧
      ∀ z : Fin 8, zoneOn t.fbk z = true → (t.fbk.zone[z]).latch = true → ((fbkSafety t.fbk).zoneClusters[z]).getLsbD k.val = false)

/-- The states of the firebreak (R303 to R307): what leads to HELD, RUN and FAULT, with the causes. -/
def Obligations.FirebreakStates : Prop :=
  (∀ s : State, s.fbk.st = .start → s.fbk.vaux = true → s.fbk.sealValid = true → s.fbk.img.isSome = true →
    ∃ t, exec (.fbkSelfTest true) s = .next t ∧ t.fbk.st = .held ∧ t.fbk.fromStart = true ∧ t.fbk.selfPass = true ∧
      t.fbk.cyclicOk = true) ∧
  (∀ s : State, s.fbk.st = .start → ∃ t, exec (.fbkSelfTest false) s = .next t ∧ t.fbk.st = .fault ∧ t.fbk.cause = 1 ∧
      t.fbk.lastFail = 1) ∧
  (∀ s : State, ∃ t, exec (.imageCrcCheck true) s = .next t ∧ t.fbk.imgOk = true ∧ t.fbk.st = s.fbk.st) ∧
  (∀ s : State, s.fbk.st = .run → ∃ t, exec (.imageCrcCheck false) s = .next t ∧ t.fbk.imgOk = false ∧ t.fbk.st = .held) ∧
  (∀ (r : BitVec 40) (s : State), s.fbk.st = .run → s.fbk.ls &&& ~~~r = 0 → ∃ t, exec (.lsPulseTest r) s = .next t ∧
      t.fbk.st = .run ∧ t.fbk.offTests = s.fbk.offTests + 1 ∧ t.fbk.cyclicOk = s.fbk.cyclicOk) ∧
  (∀ (r : BitVec 40) (s : State), s.fbk.st = .run → s.fbk.ls &&& ~~~r ≠ 0 → ∃ t, exec (.lsPulseTest r) s = .next t ∧
      t.fbk.st = .fault ∧ t.fbk.cause = 5 ∧ t.fbk.cyclicOk = false ∧ t.fbk.lastFail = 5) ∧
  (∀ (k : FbkFaultKind) (s : State), s.fbk.st ≠ .fault → ∃ t, exec (.fbkChannelDiscrepancy k) s = .next t ∧
      t.fbk.st = .fault ∧ t.fbk.cyclicOk = false ∧
      t.fbk.cause = (match k with | .discrepancy => 2 | .readback => 5 | .clockMonitor => 4)) ∧
  (∀ s : State, ∃ t, exec (.vauxOutOfWindow false) s = .next t ∧ t.fbk.st = .start ∧ t.fbk.vaux = false ∧ t.fbk.cause = 3 ∧
      t.fbk.ls = 0 ∧ t.fbk.stop = 0xFFF) ∧
  (∀ s : State, s.fbk.vaux = false → ∃ t, exec (.vauxOutOfWindow true) s = .next t ∧ t.fbk.st = .start ∧ t.fbk.vaux = true ∧
      t.fbk.img = s.fbk.img ∧ t.fbk.selfPass = false ∧ t.fbk.sealValid = false ∧
      ∀ b : Fin 8, (t.fbk.brk[b]).failed = (s.fbk.brk[b]).failed ∧ (t.fbk.brk[b]).last = none) ∧
  (∀ s : State, s.fbk.st = .run → ∃ t, exec .fbkThermalHold s = .next t ∧ t.fbk.st = .held ∧ t.fbk.thermal = true) ∧
  (∀ s : State, s.fbk.st = .held → s.fbk.fromStart = true → (fbkSafety s.fbk).startMode = true → heldGuard s.fbk = true →
    ∃ t, exec .autoStartRun s = .next t ∧ t.fbk.st = .run ∧ t.fbk.acc = s.fbk.sealRead ∧ t.smp.resealPending = true) ∧
  (∀ s : State, s.fbk.st ≠ .held → ∃ t, exec .fbkEvalCycle s = .next t ∧ t.fbk.st = s.fbk.st ∧ EvalFrame s t) ∧
  (∀ s : State, s.fbk.st ≠ .start → ∃ t, exec .safetyImageLoad s = .next t ∧ t.fbk.img = some (buildImg s) ∧
      t.fbk.imgOk = true ∧ t.fbk.st = s.fbk.st)

/-- Accepted inputs (R308): the level of each kind of input is taken as it is accepted, and nothing but the evaluation
follows. -/
def Obligations.FirebreakInputs : Prop :=
  ∀ (i : FbkIn) (v : Bool) (s : State), s.fbk.vaux = true → ∃ t, exec (.fbkInputAccept i v) s = .next t ∧
    (i ≠ .sealIntact → EvalFrame { s with fbk := acceptIn i v s.fbk } t) ∧
    match i with
    | .estopA z => t.fbk.estopA = putBit s.fbk.estopA z.val v ∧ t.fbk.estopB = s.fbk.estopB
    | .estopB z => t.fbk.estopB = putBit s.fbk.estopB z.val v ∧ t.fbk.estopA = s.fbk.estopA
    | .otc n => t.fbk.otc = putBit s.fbk.otc n.val v
    | .imd n => t.fbk.imd = putBit s.fbk.imd n.val v
    | .kfbP n => t.fbk.kP = putBit s.fbk.kP n.val v ∧ t.fbk.kPok = setBit s.fbk.kPok n.val
    | .kfbN n => t.fbk.kN = putBit s.fbk.kN n.val v ∧ t.fbk.kNok = setBit s.fbk.kNok n.val
    | .reset => t.fbk.resetIn = some v
    | .sealIntact => t.fbk.intact = v

/-- Latches (R304, R312, R315, R316): a discrepancy latches its zone, a detection or a notification latches the weld of its
outlet and opens its LS_n, and an arm stands only for a latched weld. -/
def Obligations.FirebreakLatches : Prop :=
  (∀ (z : Fin 8) (s : State), s.fbk.estopA.getLsbD z.val ≠ s.fbk.estopB.getLsbD z.val → zoneOn s.fbk z = true →
    (s.fbk.zone[z]).disc = false → ∃ t, exec (.zoneDiscrepancy z) s = .next t ∧ (t.fbk.zone[z]).latch = true ∧
      t = { s with fbk := t.fbk, live := t.live, aux := t.aux, arrived := t.arrived, fbkTripFn := t.fbkTripFn }) ∧
  (∀ (o : OutIx) (s : State), s.fbk.ls.getLsbD o.val = false → fbkOpen s o = false → ∃ t, exec (.weldDetect o) s = .next t ∧
      t.fbk.weldL.getLsbD o.val = true ∧ t.fbk.ls.getLsbD o.val = false) ∧
  (∀ (o : OutIx) (s : State), ∃ t, exec (.weldNotify o) s = .next t ∧ t.fbk.weldL.getLsbD o.val = true ∧
      t.fbk.ls.getLsbD o.val = false ∧ t.fbkWeldNote = clrBit s.fbkWeldNote o.val) ∧
  (∀ (o : OutIx) (s : State), s.isl.ctl = true → s.fbk.weldL.getLsbD o.val = true → openBoth s.fbk o.val = true →
    ∃ t, exec (.fbkWeldArm o) s = .next t ∧ t.fbk.weldArm.getLsbD o.val = true ∧ t.fbk.weldL.getLsbD o.val = true)

/-- Latch reset (R325, R326): an accepted press counts, clears the latches of SF2 and SF3 whose input is in order, and those
of zones whose inputs are; a press that is too short or too long does nothing but show its length. -/
def Obligations.FirebreakReset : Prop :=
  (∀ (ms : Nat) (s : State), 50 ≤ ms → ms ≤ 3000 → s.fbk.jammed = false → s.fbk.st = .run → ∃ t, exec (.resetEdgePair ms) s = .next t ∧
      t.fbk.resets = s.fbk.resets + 1 ∧ t.fbk.resetAcc = true ∧ t.fbk.resetLen = min 511 (ms / 10) ∧ t.fbk.st = .run ∧
      (∀ n : Nat, s.fbk.otc.getLsbD n = true → t.fbk.otcL.getLsbD n = false) ∧
      (∀ n : Nat, s.fbk.imd.getLsbD n = true → t.fbk.imdL.getLsbD n = false)) ∧
  (∀ (ms : Nat) (s : State), 50 ≤ ms → ms ≤ 3000 → s.fbk.jammed = false → s.fbk.st = .held → heldGuard s.fbk = true →
    ∃ t, exec (.resetEdgePair ms) s = .next t ∧ t.fbk.st = .run ∧ t.fbk.acc = s.fbk.sealRead ∧ t.smp.resealPending = true) ∧
  (∀ (ms : Nat) (s : State), ms < 50 ∨ 3000 < ms ∨ s.fbk.jammed = true → ∃ t, exec (.resetEdgePair ms) s = .next t ∧
      t.fbk.resets = s.fbk.resets ∧ t.fbk.resetAcc = false ∧ t.fbk.resetLen = min 511 (ms / 10) ∧ t.fbk.jammed = false ∧
      (∀ n : Nat, s.fbk.weldL.getLsbD n = true → t.fbk.weldL.getLsbD n = true) ∧
      (∀ z : Fin 8, (s.fbk.zone[z]).latch = true → (t.fbk.zone[z]).latch = true)) ∧
  (∀ s : State, s.fbk.jammed = false → ∃ t, exec .resetJammed s = .next t ∧ t.fbk.jammed = true ∧
      t.fbk.resetAcc = false ∧ t.fbk.resets = s.fbk.resets)

/-- The sealed switches (R327): a read whose inverted copy agrees and whose reserved bits are 0 is valid; any other counts as
a bad read. The third bad read in a row, or the third equal new value, takes RUN to HELD. -/
def Obligations.SealReads : Prop :=
  (∀ (d : BitVec 64) (s : State), s.fbk.vaux = true → s.fbk.st ≠ .start → d.toNat / 2 ^ 56 = 0 → d = s.fbk.acc →
    ∃ t, exec (.sealRead d (~~~d)) s = .next t ∧ t.fbk.sealRead = d ∧ t.fbk.sealValid = true ∧ t.fbk.badRun = 0 ∧
      t.fbk.badReads = s.fbk.badReads ∧ t.fbk.st = s.fbk.st ∧ t.fbk.acc = s.fbk.acc) ∧
  (∀ (d n : BitVec 64) (s : State), s.fbk.vaux = true → s.fbk.st = .run → n ≠ ~~~d → s.fbk.badRun = 2 →
    ∃ t, exec (.sealRead d n) s = .next t ∧ t.fbk.sealValid = false ∧ t.fbk.badReads = s.fbk.badReads + 1 ∧
      t.fbk.st = .held ∧ t.fbk.sealFault = true) ∧
  (∀ (d : BitVec 64) (s : State), s.fbk.vaux = true → s.fbk.st = .run → d.toNat / 2 ^ 56 = 0 → d ≠ s.fbk.acc →
    s.fbk.sealEq = 2 → s.fbk.sealRead = d → ∃ t, exec (.sealRead d (~~~d)) s = .next t ∧ t.fbk.st = .held ∧
      t.fbk.sealChanged = true ∧ t.fbk.acc = s.fbk.acc)

/-- The brake test (R318 to R320): its marks, its phases and its verdict. -/
def Obligations.BrakeTest : Prop :=
  (∀ (b : Fin 8) (s : State), ∃ t, exec (.brakeTestDue b) s = .next t ∧ (t.fbk.brk[b]).due = true) ∧
  (∀ (b : Fin 8) (s : State), ∃ t, exec (.brakeTestOverdue b) s = .next t ∧ (t.fbk.brk[b]).overdue = true) ∧
  (∀ (b : Fin 8) (s : State), s.isl.ctl = true → ∃ t, exec (.fbkBrkTest b) s = .next t ∧ (t.fbk.brk[b]).due = true) ∧
  (∀ (b : Fin 8) (s : State), s.isl.ctl = true → (s.fbk.brk[b]).failed = true → ∃ t, exec (.fbkBrkRepair b) s = .next t ∧
      (t.fbk.brk[b]).failed = true ∧ (t.fbk.brk[b]).repair = true ∧ (t.fbk.brk[b]).retestOk = false) ∧
  (∀ (b : Fin 8) (s : State), s.fbk.st = .run → brkPresent s.fbk b = true → (s.fbk.brk[b]).phase = 0 → brkIdle s b = true →
    (s.fbk.brk[b]).failed = false → (s.fbk.brk[b]).due = true → ∃ t, exec (.brakeTestStart b) s = .next t ∧
      ((t.fbk.brk[b]).phase = 1 ∨ ((t.fbk.brk[b]).phase = 0 ∧ (t.fbk.brk[b]).due = true))) ∧
  (∀ (b : Fin 8) (s : State), (s.fbk.brk[b]).phase = 1 → ∃ t, exec (.brakeTestTorque b) s = .next t ∧
      ((t.fbk.brk[b]).phase = 2 ∨ ((t.fbk.brk[b]).phase = 0 ∧ (t.fbk.brk[b]).due = true))) ∧
  (∀ (b : Fin 8) (s : State), (s.fbk.brk[b]).phase = 2 → ∃ t, exec (.brakeTestRelease b) s = .next t ∧
      ((t.fbk.brk[b]).phase = 3 ∨ ((t.fbk.brk[b]).phase = 0 ∧ (t.fbk.brk[b]).due = true))) ∧
  (∀ (b : Fin 8) (n : Nat) (s : State), (s.fbk.brk[b]).phase = 3 → n ≤ (fbkSafety s.fbk).brkThreshold →
    ∃ t, exec (.brakeTestEvaluate b n) s = .next t ∧ (t.fbk.brk[b]).passes = (s.fbk.brk[b]).passes + 1 ∧
      (t.fbk.brk[b]).last = some s.fbk.t ∧ (t.fbk.brk[b]).failed = (s.fbk.brk[b]).failed ∧
      (t.fbk.brk[b]).edges = BitVec.ofNat 16 n ∧ (t.fbk.brk[b]).phase = 0) ∧
  (∀ (b : Fin 8) (n : Nat) (s : State), (s.fbk.brk[b]).phase = 3 → (fbkSafety s.fbk).brkThreshold < n →
    ∃ t, exec (.brakeTestEvaluate b n) s = .next t ∧ (t.fbk.brk[b]).failed = true ∧ (t.fbk.brk[b]).repair = false ∧
      (t.fbk.brk[b]).passes = (s.fbk.brk[b]).passes ∧ (t.fbk.brk[b]).phase = 0 ∧
      ∀ c : Fin 8, c ≠ b → (t.fbk.brk[c]).failed = (s.fbk.brk[c]).failed) ∧
  (∀ (v : Word) (s : State), exec (.fbkLogSelWrite v) s = .next { s with
      fbk := { s.fbk with logSel := v.setWidth 5, logData := s.fbk.log[(v.setWidth 5 : BitVec 5).toFin] } })

/-- The fail latch of a brake (R320): a failed test sets it and disarms the repair; while it stands the brake stays applied and
its dependent outlets open; no command clears it but a reset edge pair after a passed retest; a supply cycle or a cold start
makes the test due again. -/
def Obligations.BrakeFailLatch : Prop :=
  (∀ (b : Fin 8) (n : Nat) (s : State), (s.fbk.brk[b]).phase = 3 → (fbkSafety s.fbk).brkThreshold < n →
    ∃ t, exec (.brakeTestEvaluate b n) s = .next t ∧ (t.fbk.brk[b]).failed = true ∧ (t.fbk.brk[b]).repair = false ∧
      (t.fbk.brk[b]).retestOk = false) ∧
  (∀ (c : Instr) (b : Fin 8) (s t : State), firebreakRow c = true → exec c s = .next t → (t.fbk.brk[b]).failed = true →
    t.fbk.ls.getLsbD (32 + b.val) = false ∧
      ∀ o : OutIx, (∃ x ∈ outsOf t.fbk o, x.brake = some b) → t.fbk.ls.getLsbD o.val = false) ∧
  (∀ (c : Instr) (b : Fin 8) (s t : State), exec c s = .next t → (s.fbk.brk[b]).failed = true → (t.fbk.brk[b]).failed = true ∨
    ((s.fbk.brk[b]).retestOk = true ∧ ∃ ms : Nat, c = .resetEdgePair ms ∧ 50 ≤ ms ∧ ms ≤ 3000)) ∧
  (∀ (b : Fin 8) (s : State), s.fbk.vaux = false → (s.fbk.brk[b]).failed = true → ∃ t, exec (.vauxOutOfWindow true) s = .next t ∧
    (t.fbk.brk[b]).failed = true ∧ (t.fbk.brk[b]).due = true ∧ (t.fbk.brk[b]).again = true) ∧
  (∀ (x : BootFacts) (b : Fin 8) (s : State), s.hkp.shutdown = false → s.hkp.xtalStopped = false → (s.fbk.brk[b]).failed = true →
    ∃ t, exec (.coldStart x) s = .next t ∧ (t.fbk.brk[b]).failed = true ∧ (t.fbk.brk[b]).due = true) ∧
  (∀ (b : Fin 8) (s : State), s.isl.ctl = true → (s.fbk.brk[b]).failed = true → ∃ t, exec (.fbkBrkRepair b) s = .next t ∧
    (t.fbk.brk[b]).failed = true ∧ (t.fbk.brk[b]).repair = true ∧ (t.fbk.brk[b]).retestOk = false) ∧
  (∀ (b : Fin 8) (s : State), s.fbk.st = .run → brkPresent s.fbk b = true → (s.fbk.brk[b]).phase = 0 → brkIdle s b = true →
    (s.fbk.brk[b]).failed = true → (s.fbk.brk[b]).retestOk = false →
    ((s.fbk.brk[b]).repair = true ∨ (s.fbk.brk[b]).again = true → ∃ t, exec (.brakeTestStart b) s = .next t ∧
      ((t.fbk.brk[b]).phase = 1 ∨ ((t.fbk.brk[b]).phase = 0 ∧ (t.fbk.brk[b]).due = true))) ∧
    ((s.fbk.brk[b]).repair = false → (s.fbk.brk[b]).again = false → ∃ t, exec (.brakeTestStart b) s = .next t ∧ (t.fbk.brk[b]).phase = 0)) ∧
  (∀ (b : Fin 8) (n : Nat) (s : State), (s.fbk.brk[b]).phase = 3 → (s.fbk.brk[b]).failed = true → n ≤ (fbkSafety s.fbk).brkThreshold →
    ∃ t, exec (.brakeTestEvaluate b n) s = .next t ∧ (t.fbk.brk[b]).failed = true ∧
      (t.fbk.brk[b]).retestOk = (s.fbk.brk[b]).repair) ∧
  (∀ (ms : Nat) (b : Fin 8) (s : State), 50 ≤ ms → ms ≤ 3000 → s.fbk.jammed = false → s.fbk.st = .held ∨ s.fbk.st = .run →
    (s.fbk.brk[b]).failed = true → (s.fbk.brk[b]).retestOk = true → ∃ t, exec (.resetEdgePair ms) s = .next t ∧
      (t.fbk.brk[b]).failed = false)

/-- A sample start (R88, R107) is the next sample of its cluster: it counts the sample and leaves every other cluster's
count; a frame has n samples, and a further start in it has no effect. -/
def Obligations.SampleStarts : Prop :=
  (∀ (k : CluIx) (s : State), s.isl.ctl = true → (s.ctl.clu[k]).next < (s.map.clu[k]).n → ∃ t, exec (.sampleStart k) s = .next t ∧
      (t.ctl.clu[k]).next = (s.ctl.clu[k]).next + 1 ∧ (∀ j : CluIx, j ≠ k → (t.ctl.clu[j]).next = (s.ctl.clu[j]).next) ∧
      (∀ j : CluIx, (t.ctl.clu[j]).pipe = (s.ctl.clu[j]).pipe) ∧ t.ctl.rgn = s.ctl.rgn ∧ t.fl = s.fl ∧ t.nx = s.nx ∧ t.map = s.map ∧
      t.fbk = s.fbk ∧ t.aux = s.aux ∧ t.hwd = s.hwd ∧ t.lnd.mem = s.lnd.mem ∧ t.live = s.live) ∧
  (∀ (k : CluIx) (s : State), (s.map.clu[k]).n ≤ (s.ctl.clu[k]).next → exec (.sampleStart k) s = .next s)

/-- An uplink frame (R123, R125) of sixteen bytes with a good check sum waits for the latch; one with a bad check sum is
counted and is an event; any other length is dropped. -/
def Obligations.UplinkFrames : Prop :=
  (∀ (c : ChIx) (bs : List Byte) (s : State), s.isl.ctl = true → bs.length = 16 → crcOk bs = true →
    exec (.uplinkReceive c bs) s = .next { s with ctl := { s.ctl with
      ports := Vec.upd s.ctl.ports c fun p => { p with rx := parseUplink bs :: p.rx } } }) ∧
  (∀ (c : ChIx) (bs : List Byte) (s : State), s.isl.ctl = true → bs.length = 16 → crcOk bs = false →
    ∃ t, exec (.uplinkReceive c bs) s = .next t ∧ (t.ctl.ports[c]).cntCrc = (s.ctl.ports[c]).cntCrc + 1 ∧
      (t.ctl.ports[c]).rx = (s.ctl.ports[c]).rx ∧ (t.ctl.ports[c]).events = setBit (s.ctl.ports[c]).events 1 ∧
      (∀ d : ChIx, d ≠ c → t.ctl.ports[d] = s.ctl.ports[d]) ∧
      t = { s with ctl := { s.ctl with ports := t.ctl.ports }, evs := t.evs }) ∧
  (∀ (c : ChIx) (bs : List Byte) (s : State), bs.length ≠ 16 → exec (.uplinkReceive c bs) s = .next s)

/-- A downlink frame (R118, R120) has sixteen bytes, closes with the check sum of the first fourteen, and carries its sample
number and command little-endian. -/
def Obligations.DownlinkBytes : Prop :=
  ∀ d : Downlink, (Machine.Downlink.bytes d).length = 16 ∧ crcOk (Machine.Downlink.bytes d) = true ∧ leAt (Machine.Downlink.bytes d) 0 2 = d.seq.toNat ∧
    leAt (Machine.Downlink.bytes d) 4 2 = unsigned 16 d.cmd % 65536 ∧ leAt (Machine.Downlink.bytes d) 6 2 = d.limit % 65536

/-- Events of a channel (R105, R134, R138, R141): the hold, a short, a route mismatch (every frame of it counts, the first is
an event), and a new VSEL code. -/
def Obligations.ChannelEvents : Prop :=
  (∀ (c : ChIx) (s : State), s.isl.ctl = true → (s.ctl.units[c]).mode = .active ∨ (s.ctl.units[c]).mode = .ramp →
    (s.ctl.units[c]).hold = false → (s.ctl.units[c]).evHold = false → ∃ t, exec (.staleHold c) s = .next t ∧
      (t.ctl.units[c]).hold = true ∧ (t.ctl.units[c]).intStatus = setBit (s.ctl.units[c]).intStatus 1 ∧
      (t.ctl.units[c]).cmd = (s.ctl.units[c]).cmd ∧ (∀ d : ChIx, d ≠ c → t.ctl.units[d] = s.ctl.units[d]) ∧
      t = { s with ctl := { s.ctl with units := t.ctl.units }, evs := t.evs }) ∧
  (∀ (c : ChIx) (s : State), s.isl.ctl = true → shortSit s c = true → (s.ctl.ports[c]).stopHeld = false →
    ∃ t, exec (.shortCurrentLimit c) s = .next t ∧ (t.ctl.ports[c]).stopHeld = true ∧ (t.ctl.ports[c]).sum.shorted = true ∧
      (t.ctl.ports[c]).events = setBit (s.ctl.ports[c]).events 0 ∧ (∀ d : ChIx, d ≠ c → t.ctl.ports[d] = s.ctl.ports[d]) ∧
      t = { s with ctl := { s.ctl with ports := t.ctl.ports, busSum := t.ctl.busSum }, evs := t.evs }) ∧
  (∀ (c : ChIx) (s : State), s.isl.ctl = true → shortSit s c = true → (s.ctl.ports[c]).stopHeld = false →
    ∃ t, exec (.shortWindowExpiry c) s = .next t ∧ (t.ctl.ports[c]).stopHeld = true ∧ (t.ctl.ports[c]).sum.shorted = true ∧
      (t.ctl.ports[c]).events = setBit (s.ctl.ports[c]).events 0 ∧ (∀ d : ChIx, d ≠ c → t.ctl.ports[d] = s.ctl.ports[d]) ∧
      t = { s with ctl := { s.ctl with ports := t.ctl.ports, busSum := t.ctl.busSum }, evs := t.evs }) ∧
  (∀ (c : ChIx) (s : State), s.isl.ctl = true → (s.ctl.ports[c]).mismatch = false →
    ((s.map.ch[c]).kind = 2 ∧ ((s.fl.hand[c]).st = .settled ∨ (s.fl.hand[c]).st = .idle ∨ (s.fl.hand[c]).st = .out)) ∨
      ((s.map.ch[c]).kind = 0 ∧ (s.fl.hand[c]).st = .out) → ∃ t, exec (.routeMismatch c) s = .next t ∧
      (t.ctl.ports[c]).mismatch = true ∧ (t.ctl.ports[c]).cntMismatch = (s.ctl.ports[c]).cntMismatch + 1 ∧
      (t.ctl.ports[c]).events = (s.ctl.ports[c]).events ∧ (∀ d : ChIx, d ≠ c → t.ctl.ports[d] = s.ctl.ports[d]) ∧
      t = { s with ctl := { s.ctl with ports := t.ctl.ports }, evs := t.evs,
                   late := { s.late with chp := Vec.upd s.late.chp c fun w => setBit w 3 } }) ∧
  (∀ (c : ChIx) (s : State), s.isl.ctl = true → (s.ctl.ports[c]).mismatch = true → (s.map.ch[c]).kind = 2 →
    (s.fl.hand[c]).st = .settled ∨ (s.fl.hand[c]).st = .idle ∨ (s.fl.hand[c]).st = .out → exec (.routeMismatch c) s = .next { s with
      ctl := { s.ctl with ports := Vec.upd s.ctl.ports c fun p => { p with mismatch := true, cntMismatch := p.cntMismatch + 1 } } }) ∧
  (∀ (v : BitVec 3) (s : State), s.isl.ctl = true → exec (.vselChange v) s = .next { s with
      live := { s.live with vsel := v }, cap := { s.cap with levels := { s.cap.levels with vsel := v } } })

/-- Commands of the channel ports (R122, R131, R139, R145): a port_off write is taken only from a channel that is OUT and is
refused otherwise; bus_clear takes an aborted bus to OFF. -/
def Obligations.PortCommands : Prop :=
  (∀ (c : ChIx) (b : Bool) (s : State), s.isl.ctl = true → chOut s c = true → exec (.chpPortOff c b) s =
      .next { s with ctl := { s.ctl with ports := Vec.upd s.ctl.ports c fun p => { p with portOff := b } } }) ∧
  (∀ (c : ChIx) (b : Bool) (s : State), s.isl.ctl = true → chOut s c = false → ∃ t, exec (.chpPortOff c b) s = .next t ∧
      t.ctl = s.ctl ∧ t.hst.cRefused = s.hst.cRefused + 1 ∧ t.hst.refusedAddr = BitVec.ofNat 21 (0x40004 + 0x40 * c.val) ∧
      t = { s with hst := t.hst, evs := t.evs }) ∧
  (∀ (c : ChIx) (b : Bool) (s : State), s.isl.ctl = true → exec (.chpTest c b) s =
      .next { s with ctl := { s.ctl with ports := Vec.upd s.ctl.ports c fun p => { p with test := b } } }) ∧
  (∀ (c : ChIx) (s : State), s.isl.ctl = true → frontLow s = some c → (s.map.ch[c]).kind = 1 → s.fl.bus.st = .aborted →
    s.nx.bus.st = .aborted → ∃ t, exec .chpBusClear s = .next t ∧
      t.nx = { s.nx with bus := { st := .off, entryFn := s.fn + 1, phi0 := 0 } } ∧
      t = { s with nx := t.nx, late := { s.late with chp := Vec.upd s.late.chp c fun w => setBit w 5 }, evs := t.evs }) ∧
  (∀ s : State, s.fl.bus.st ≠ .aborted → exec .chpBusClear s = .next s)

/-- GLIM (R64, R65): in the pulse modes the frequency is that of the mean period of the edges of the last millisecond, that of
the last complete period where it has none, and 0 after 100 ms without an edge; a sample enters the median of three and moves the runs of loss and good samples; three in a row turn the
loss on or off, as its two rows do. -/
def Obligations.GlimSamples : Prop :=
  (∀ (raw r : Nat) (edges : List Nat) (p : PinCfg) (s : State), s.isl.ctl = true → glimPin s = some p →
    r = (if p.glimMode ≤ 2 then raw else (glimEdges edges s).1) → (glimConvert p r).2.2 = false →
    ∃ t, exec (.glimSample ⟨raw, edges⟩) s = .next t ∧ t.alc.glimLast = ((glimConvert p r).2.1 :: s.alc.glimLast).take 3 ∧
      t.alc.lossRun = 0 ∧ t.alc.goodRun = min (s.alc.goodRun + 1) 3 ∧ (2 ≤ s.alc.goodRun → t.alc.glimLoss = false) ∧
      t.live.glim.loss = t.alc.glimLoss ∧ t.live.glim.value = glimMedian t.alc.glimLast) ∧
  (∀ (raw r : Nat) (edges : List Nat) (p : PinCfg) (s : State), s.isl.ctl = true → glimPin s = some p →
    r = (if p.glimMode ≤ 2 then raw else (glimEdges edges s).1) → (glimConvert p r).2.2 = true →
    ∃ t, exec (.glimSample ⟨raw, edges⟩) s = .next t ∧ t.alc.goodRun = 0 ∧ t.alc.lossRun = min (s.alc.lossRun + 1) 3 ∧
      (2 ≤ s.alc.lossRun → t.alc.glimLoss = true) ∧ t.live.glim.loss = t.alc.glimLoss) ∧
  (∀ (raw : Nat) (edges : List Nat) (s : State), glimPin s = none → exec (.glimSample ⟨raw, edges⟩) s = .next s) ∧
  (∀ (x n : Nat) (s : State), 0 < n → s.alc.glimEdge = true → (glimEdges [x, x + n] s).1 = glimFreq 2 (s.alc.glimGap + x + n) ∧
    (glimEdges [x, x + n] s).2.alc.glimPeriod = some n) ∧
  (∀ s : State, 100 * glimMs ≤ s.alc.glimGap + glimMs → (glimEdges [] s).1 = 0) ∧
  (∀ (n : Nat) (s : State), s.alc.glimGap + glimMs < 100 * glimMs → s.alc.glimPeriod = some n →
    (glimEdges [] s).1 = glimFreq 1 n) ∧
  (∀ (p : PinCfg) (s : State), s.isl.ctl = true → glimPin s = some p → ∃ t, exec .glimSignalLoss s = .next t ∧
      t.alc.glimLoss = true ∧ t.live.glim.loss = true ∧ t = { s with alc := t.alc, live := { s.live with glim := t.live.glim } }) ∧
  (∀ (p : PinCfg) (s : State), s.isl.ctl = true → glimPin s = some p → ∃ t, exec .glimSignalRestore s = .next t ∧
      t.alc.glimLoss = false ∧ t.live.glim.loss = false ∧
      t = { s with alc := t.alc, live := { s.live with glim := t.live.glim } }) ∧
  (∀ s : State, s.isl.ctl = true → exec .xfmrStaleTimeout s = .next { s with alc := { s.alc with xfmrForced := s.fn } })

/-- Handover timeouts (R80, R81, R134): RAMP_DOWN and OPENING end in ROUTE_FAULT with causes 1 and 2, CLOSING and TRACKING
open every route again, and a dwell ends; a route-fault clear goes to IDLE where the feedback shows every route open and is refused
otherwise. The states change from the next boundary. -/
def Obligations.HandoverTimeoutsAndClear : Prop :=
  (∀ (c : ChIx) (s : State), s.isl.ctl = true → (s.fl.hand[c]).st = .rampDown → (s.nx.hand[c]).st = .rampDown →
    exec (.rampDownTimeout c) s = .next { s with
      nx := { s.nx with hand := s.nx.hand.set c { s.nx.hand[c] with
        st := .routeFault, stFn := s.fn + 1, fresh := false, dest := none, cause := 1, pendFault := false, trackFail := false } },
      alc := { s.alc with failed := s.alc.failed + 1 }, late := { s.late with alc := setBit s.late.alc 5 },
      evs := s.evs ++ [{ rank := 8, code := 6, num := c.val, ord := c.val }] }) ∧
  (∀ (c : ChIx) (s : State), s.isl.ctl = true → (s.fl.hand[c]).st = .opening → (s.nx.hand[c]).st = .opening →
    exec (.routeFeedbackTimeout c) s = .next { s with
      nx := { s.nx with hand := s.nx.hand.set c { s.nx.hand[c] with
        st := .routeFault, stFn := s.fn + 1, fresh := false, dest := none, cause := 2, pendFault := false, trackFail := false } },
      alc := { s.alc with failed := s.alc.failed + 1 }, late := { s.late with alc := setBit s.late.alc 5 },
      evs := s.evs ++ [{ rank := 8, code := 6, num := c.val, ord := c.val }] }) ∧
  (∀ (c : ChIx) (s : State), s.isl.ctl = true → (s.fl.hand[c]).st = .closing → (s.nx.hand[c]).st = .closing →
    exec (.routeFeedbackTimeout c) s = .next { s with
      nx := { s.nx with hand := s.nx.hand.set c { s.nx.hand[c] with
        st := .opening, stFn := s.fn + 1, fresh := false, dest := none, pendFault := true, word := none } } }) ∧
  (∀ (c : ChIx) (s : State), s.isl.ctl = true → (s.fl.hand[c]).st = .tracking → (s.nx.hand[c]).st = .tracking →
    exec (.trackingTimeout c) s = .next { s with
      nx := { s.nx with hand := s.nx.hand.set c { s.nx.hand[c] with
        st := .opening, stFn := s.fn + 1, fresh := false, dest := none, trackFail := true, word := none } },
      late := { s.late with alc := setBit s.late.alc 6 },
      evs := s.evs ++ [{ rank := 8, code := 7, num := c.val, ord := c.val }] }) ∧
  (∀ (c : ChIx) (s : State), s.isl.ctl = true → (s.fl.hand[c]).st = .settled → (s.nx.hand[c]).st = .settled →
    exec (.dwellExpiry c) s = .next { s with nx := { s.nx with hand := s.nx.hand.set c { s.nx.hand[c] with dwell := 0 } } }) ∧
  (∀ (c : ChIx) (s : State), (s.fl.hand[c]).st = .idle → exec (.rampDownTimeout c) s = .next s ∧
      exec (.trackingTimeout c) s = .next s ∧ exec (.dwellExpiry c) s = .next s ∧ exec (.routeFeedbackTimeout c) s = .next s) ∧
  (∀ (c : ChIx) (s : State), s.isl.ctl = true → (s.fl.hand[c]).st = .routeFault → (s.nx.hand[c]).st = .routeFault →
    allOpen (s.ctl.portS[c]).prev = true → (s.fl.hand[c]).leaving = false → inService s c = true →
    ∃ t, exec (.routeFaultClear c) s = .next t ∧ (t.nx.hand[c]).st = .idle ∧ (t.nx.hand[c]).cause = 0 ∧ (t.nx.hand[c]).word = none ∧
      (∀ d : ChIx, d ≠ c → t.nx.hand[d] = s.nx.hand[d]) ∧
      t = { s with nx := { s.nx with hand := t.nx.hand }, evs := t.evs }) ∧
  (∀ (c : ChIx) (s : State), s.isl.ctl = true → (s.fl.hand[c]).st = .routeFault → (s.nx.hand[c]).st = .routeFault →
    allOpen (s.ctl.portS[c]).prev = false → ∃ t, exec (.routeFaultClear c) s = .next t ∧ t.nx = s.nx ∧
      t.hst.cRefused = s.hst.cRefused + 1 ∧ t = { s with hst := t.hst, evs := t.evs }) ∧
  (∀ (c : ChIx) (s : State), (s.fl.hand[c]).st ≠ .routeFault → exec (.routeFaultClear c) s = .next s)

/-- Pilot (R151): the accepted state is classified from the plateau, and the two faults are taken while the square wave
runs. -/
def Obligations.PilotInputs : Prop :=
  (∀ (o : OutIx) (h l d : BitVec 8) (per pp : Nat) (s : State), s.isl.com = true → exec (.pilotStateAccept o h l ⟨d, per⟩ pp) s =
      .next { s with live := { s.live with pilot := Vec.upd s.live.pilot o fun p => { p with
        state := classifyPilot s.map.out[o] h.toNat pp, high := h, low := l, duty := d, period := per, pp := pp } } }) ∧
  (∀ (o : OutIx) (b : Bool) (s : State), s.isl.com = true → cpSquare s o = true → exec (.pilotFault o b) s =
      .next { s with live := { s.live with pilot := Vec.upd s.live.pilot o fun p => { p with fault := b } } }) ∧
  (∀ (o : OutIx) (b : Bool) (s : State), s.isl.com = true → cpSquare s o = true → exec (.diodeFault o b) s =
      .next { s with live := { s.live with pilot := Vec.upd s.live.pilot o fun p => { p with diode := b } } }) ∧
  (∀ (o : OutIx) (b : Bool) (s : State), cpSquare s o = false →
      exec (.pilotFault o b) s = .next s ∧ exec (.diodeFault o b) s = .next s)

/-- Timeouts of a sequencer (R153 to R155, R158): what each ends in, with its stop cause and hold bit. -/
def Obligations.OutletTimeouts : Prop :=
  (∀ (o : OutIx) (s : State), OsqReady s o → (s.nx.osq[o]).st = .plugged → (s.nx.osq[o]).faultPending = false →
    (s.nx.osq[o]).disableLatched = false → unplugged s o = false → plugged s o = true →
    ∃ t, exec (.assocTimeout o) s = .next t ∧ OsqMoves o .hold 7 s t ∧ (t.nx.osq[o]).stopCause = 7 ∧
      (t.nx.osq[o]).hold = setBit (s.nx.osq[o]).hold 2 ∧ (t.nx.osq[o]).kCmd = false) ∧
  (∀ (o : OutIx) (s : State), OsqReady s o → (s.nx.osq[o]).st = .associated → (s.nx.osq[o]).authFn.isSome = true →
    (s.nx.osq[o]).faultPending = false → (s.nx.osq[o]).disableLatched = false → (s.nx.osq[o]).hold = 0 → unplugged s o = false →
    ∃ t, exec (.authTimeout o) s = .next t ∧ OsqMoves o .unplugWait 5 s t ∧ (t.nx.osq[o]).stopCause = 10 ∧
      (t.nx.osq[o]).sessOpen = false) ∧
  (∀ (o : OutIx) (s : State), OsqReady s o → (s.nx.osq[o]).st = .cableCheck → ∃ t, exec (.cableCheckPassed o) s = .next t ∧
      OsqMoves o .precharge 5 s t ∧ (t.nx.osq[o]).kCmd = false ∧ (t.nx.osq[o]).dscCable = true ∧ (t.nx.osq[o]).mayClose = false) ∧
  (∀ (o : OutIx) (s : State), OsqReady s o → (s.nx.osq[o]).st = .cableCheck → ∃ t, exec (.ccTimeout o) s = .next t ∧
      OsqMoves o .rampDown 6 s t ∧ (t.nx.osq[o]).stopCause = 8 ∧ (t.nx.osq[o]).hold = setBit (s.nx.osq[o]).hold 3 ∧
      (t.nx.osq[o]).fast = false) ∧
  (∀ (o : OutIx) (s : State), OsqReady s o → (s.nx.osq[o]).st = .precharge → ∃ t, exec (.pcTimeout o) s = .next t ∧
      OsqMoves o .rampDown 6 s t ∧ (t.nx.osq[o]).stopCause = 9 ∧ (t.nx.osq[o]).hold = setBit (s.nx.osq[o]).hold 4 ∧
      (t.nx.osq[o]).fast = false) ∧
  (∀ (o : OutIx) (s : State), OsqReady s o → (s.nx.osq[o]).st = .hold → restartGuard s o s.nx.osq[o] = true →
    ∃ t, exec (.holdRestart o) s = .next t ∧ OsqMoves o .authorized 8 s t ∧ (t.nx.osq[o]).causes = 0 ∧ (t.nx.osq[o]).hold = 0 ∧
      (t.nx.osq[o]).retryLeft = if (s.nx.osq[o]).counted then (s.nx.osq[o]).retryLeft - 1 else (s.nx.osq[o]).retryLeft) ∧
  (∀ (o : OutIx) (s : State), (s.nx.osq[o]).moved = true → exec (.assocTimeout o) s = .next s ∧ exec (.authTimeout o) s = .next s ∧
      exec (.cableCheckPassed o) s = .next s ∧ exec (.ccTimeout o) s = .next s ∧ exec (.pcTimeout o) s = .next s ∧
      exec (.contactorTimeout o) s = .next s ∧ exec (.weldWindowExpiry o) s = .next s ∧ exec (.dischargeTimeout o) s = .next s ∧
      exec (.holdRestart o) s = .next s)

/-- Contactor feedback (R150, R153, R160, R161): a contactor that does not close is fault 4; one that does not open is a weld,
out of service, with the firebreak notified; an expired discharge is fault 5 where there is a metering set. -/
def Obligations.ContactorFailures : Prop :=
  (∀ (o : OutIx) (s : State), OsqReady s o → (s.nx.osq[o]).st = .cableCheck ∨
      ((s.nx.osq[o]).st = .precharge ∧ (s.nx.osq[o]).kCmd = true) → ∃ t, exec (.contactorTimeout o) s = .next t ∧
      OsqMoves o .fault 9 s t ∧ (t.nx.osq[o]).fault = 4 ∧ (t.nx.osq[o]).kCmd = false ∧ (t.nx.osq[o]).dscBus = true ∧
      (t.nx.osq[o]).dscCable = true ∧ t.fbkWeldNote = s.fbkWeldNote) ∧
  (∀ (o : OutIx) (s : State), OsqReady s o → (s.nx.osq[o]).st = .weldCheck ∨ (s.nx.osq[o]).st = .fault ∨
      ((s.nx.osq[o]).st = .precharge ∧ (s.nx.osq[o]).kCmd = false) → ∃ t, exec (.contactorTimeout o) s = .next t ∧
      OsqMoves o .outOfService 10 s t ∧ (t.nx.osq[o]).weld = true ∧ (t.nx.osq[o]).kCmd = false ∧
      t.fbkWeldNote = setBit s.fbkWeldNote o.val) ∧
  (∀ (o : OutIx) (s : State), OsqReady s o → (s.nx.osq[o]).st = .weldCheck → ∃ t, exec (.weldWindowExpiry o) s = .next t ∧
      OsqMoves o .outOfService 10 s t ∧ (t.nx.osq[o]).weld = true ∧ t.fbkWeldNote = setBit s.fbkWeldNote o.val) ∧
  (∀ (o : OutIx) (s : State), OsqReady s o → (s.nx.osq[o]).st = .discharge → (s.map.out[o]).met.isSome = true →
    ∃ t, exec (.dischargeTimeout o) s = .next t ∧ OsqMoves o .fault 9 s t ∧ (t.nx.osq[o]).fault = 5) ∧
  (∀ (o : OutIx) (s : State), s.isl.ctl = true → exec (.thermalLatchClear o) s =
      .next { s with nx := { s.nx with osq := s.nx.osq.set o { s.nx.osq[o] with thermal := false } } })

/-- Host commands of an outlet (R153 to R156, R160, R163, R164): each where the rules give it an effect. -/
def Obligations.OutletCommands : Prop :=
  (∀ (o : OutIx) (s : State), OsqReady s o → (s.nx.osq[o]).st = .outOfService → outEnabled s o = true → (s.nx.osq[o]).weld = false →
    kOpen s o = true → ∃ t, exec (.osqEnable o) s = .next t ∧ OsqMoves o .idle 5 s t ∧ (t.nx.osq[o]).hostEnabled = true ∧
      (t.nx.osq[o]).disableLatched = false) ∧
  (∀ (o : OutIx) (s : State), OsqReady s o → (s.nx.osq[o]).st = .unplugWait → unplugged s o = false →
    ∃ t, exec (.osqDisable o) s = .next t ∧ OsqMoves o .outOfService 5 s t ∧ (t.nx.osq[o]).hostEnabled = false ∧
      (t.nx.osq[o]).disableLatched = true) ∧
  (∀ (o : OutIx) (s : State), OsqReady s o → (s.nx.osq[o]).st = .associated → causesNow s o s.nx.osq[o] 4 = [] →
    creditOut s o = false → billAvail s o = true → ∃ t, exec (.osqAuthorize o) s = .next t ∧ OsqMoves o .authorized 5 s t ∧
      (t.nx.osq[o]).unbilled = false ∧ (t.nx.osq[o]).billed = true) ∧
  (∀ (o : OutIx) (s : State), OsqReady s o → (s.nx.osq[o]).st = .associated → causesNow s o s.nx.osq[o] 4 = [] →
    creditOut s o = false → billAvail s o = false → (s.map.out[o]).unbilled = false → ∃ t, exec (.osqAuthorize o) s = .next t ∧
      t.nx = s.nx ∧ t.hst.cRefused = s.hst.cRefused + 1 ∧ t.hst.refusedAddr = BitVec.ofNat 21 (0x50004 + 0x100 * o.val)) ∧
  (∀ (o : OutIx) (s : State), OsqReady s o → (s.nx.osq[o]).st = .associated → causesNow s o s.nx.osq[o] 8 = [(10, 0)] →
    (s.nx.osq[o]).faultPending = false → (s.nx.osq[o]).disableLatched = false → (s.nx.osq[o]).hold = 0 → unplugged s o = false →
    ∃ t, exec (.osqDeny o) s = .next t ∧ OsqMoves o .unplugWait 5 s t ∧ (t.nx.osq[o]).stopCause = 10) ∧
  (∀ (o : OutIx) (s : State), OsqReady s o → (s.nx.osq[o]).st = .energy → causesNow s o s.nx.osq[o] 16 = [(10, 0)] →
    ∃ t, exec (.osqStop o) s = .next t ∧ OsqMoves o .rampDown 6 s t ∧ (t.nx.osq[o]).stopCause = 10 ∧ (t.nx.osq[o]).fast = false) ∧
  (∀ (o : OutIx) (s : State), OsqReady s o → (s.nx.osq[o]).st = .fault → kOpen s o = true → faultClearGuard s o = true →
    ∃ t, exec (.osqFaultClear o) s = .next t ∧ OsqMoves o (if unplugged s o then .idle else .unplugWait) 5 s t ∧
      (t.nx.osq[o]).dscBus = false ∧ (t.nx.osq[o]).dscCable = false) ∧
  (∀ (o : OutIx) (s : State), OsqReady s o → (s.nx.osq[o]).st = .outOfService → weldClearGuard s o s.nx.osq[o] = true →
    ∃ t, exec (.osqWeldClear o) s = .next t ∧ OsqMoves o .outOfService 5 s t ∧ (t.nx.osq[o]).weld = false) ∧
  (∀ (o : OutIx) (s : State), OsqReady s o → (s.nx.osq[o]).st = .energy → causesNow s o s.nx.osq[o] 128 = [] →
    ∃ t, exec (.osqRetryGrant o) s = .next t ∧ t.nx.osq[o] = { s.nx.osq[o] with retryLeft := (s.osqR[o]).retryMax } ∧
      t = { s with nx := { s.nx with osq := s.nx.osq.set o t.nx.osq[o] } }) ∧
  (∀ (o : OutIx) (s : State), s.isl.ctl = true → s.fwu.window.isSome = true → exec (.osqStop o) s =
      .next { s with osqR := Vec.upd s.osqR o fun r => { r with cmd := setBit r.cmd 4 } })

/-- The medium of a port and its link gap (R174, R185, R193, R196): the T1S link goes up and down, a lost AVLN ends the match, each
loss closes what it carries and sends a link loss towards the latch, the gap passes its two limits, and the host resets the
link. A follower captures the loss and leaves the protocol state to the lead. A port without a medium takes no row. -/
def Obligations.LinkMedium : Prop :=
  (∀ (o : OutIx) (s : State), s.isl.com = true → portOn s o = true → (s.map.out[o]).link = 1 → exec (.t1sLinkUp o) s =
      .next { s with vlk := Vec.upd s.vlk o fun v => { v with t1sUp := true } }) ∧
  (∀ (o : OutIx) (s : State), s.isl.com = true → portOn s o = true → (s.map.out[o]).link = 1 → exec (.t1sLinkDown o) s =
      .next { s with vlk := Vec.upd s.vlk o fun v => { v with t1sUp := false } }) ∧
  (∀ (o : OutIx) (s : State), s.isl.com = true → isLead s = true → portOn s o = true →
    (s.map.out[o]).link = 2 ∨ (s.vlk[o]).t1sUp = false → ∃ t n, exec (.avlnLost o) s = .next t ∧ 1 ≤ n ∧ n ≤ 8192 ∧ t = { s with
      vlk := Vec.upd s.vlk o fun v => { v with matched := false, tcp := false, tls := false, session := false, layer := .none },
      slac := s.slac.filter fun r => r.bound ≠ some o,
      arrived := s.arrived ++ [.vehicle o .linkLost n], freeIx := s.freeIx + 1 }) ∧
  (∀ (o : OutIx) (s : State), s.isl.com = true → isLead s = false → portOn s o = true →
    (s.map.out[o]).link = 2 ∨ (s.vlk[o]).t1sUp = false → ∃ t n, exec (.avlnLost o) s = .next t ∧ 1 ≤ n ∧ n ≤ 8192 ∧
      t = { s with arrived := s.arrived ++ [.vehicle o .linkLost n], freeIx := s.freeIx + 1 }) ∧
  (∀ (o : OutIx) (s : State), portOn s o = false → exec (.t1sLinkUp o) s = .next s ∧ exec (.t1sLinkDown o) s = .next s ∧
      exec (.avlnLost o) s = .next s ∧ exec (.seccDiscovery o) s = .next s ∧ exec (.tcpConnect o) s = .next s ∧
      exec (.cableCheckReq o) s = .next s ∧ exec (.sessionStopReq o) s = .next s ∧ exec (.v2gRequest o none) s = .next s) ∧
  (∀ (o : OutIx) (s : State), s.isl.com = true → portOn s o = true → (s.fl.osq[o]).st.linked = true →
    (exec (.linkDegraded o) s = .next { s with vlk := Vec.upd s.vlk o fun v => { v with gap := max v.gap 2001 } }) ∧
    ∃ t, exec (.linkLostTimeout o) s = .next t ∧ seqMs t.vlk[o] < (t.vlk[o]).gap ∧ (s.vlk[o]).gap ≤ (t.vlk[o]).gap ∧
      t = { s with vlk := Vec.upd s.vlk o fun v => { v with gap := (t.vlk[o]).gap } }) ∧
  (∀ (o : OutIx) (s : State), s.isl.com = true → ∃ t, exec (.vlkLinkReset o) s = .next t ∧ (t.vlk[o]).tcp = false ∧
      (t.vlk[o]).tls = false ∧ (t.vlk[o]).session = false ∧ (t.fl.veh[o]).linkLost = true ∧ (t.nx.veh[o]).linkLost = true ∧
      (∀ p : OutIx, p ≠ o → t.vlk[p] = s.vlk[p] ∧ t.fl.veh[p] = s.fl.veh[p] ∧ t.nx.veh[p] = s.nx.veh[p]) ∧
      t = { s with vlk := t.vlk, fl := { s.fl with veh := t.fl.veh }, nx := { s.nx with veh := t.nx.veh }, evs := t.evs })

/-- Joint association (R179 to R183, R194): only candidate ports answer, every power-line port records the sounds, and the close sends
the attenuation values towards the latch. With two ports taking part the run binds to the one whose attenuation lies at least
6 dB below the other's, where that port is a candidate and its pilot state is B; short of that margin no port is bound, and a
run that was open at a take-over (R194) binds none. -/
def Obligations.SlacRuns : Prop :=
  (∀ (mac : BitVec 48) (id : BitVec 64) (heard : BitVec 32) (s : State), s.isl.com = true → isLead s = true →
    ∃ t, exec (.slacParmReq mac id heard) s = .next t ∧ t = { s with slac := t.slac } ∧
      (∀ o : OutIx, heard.getLsbD o.val = true → slacCand s o = true →
        ∃ r, runOf t mac id = some r ∧ r.cands.getLsbD o.val = true) ∧
      (∀ (o : OutIx) (r : SlacRun), heard.getLsbD o.val = false ∨ slacCand s o = false → runOf t mac id = some r →
        r.cands.getLsbD o.val = true → ∃ q, runOf s mac id = some q ∧ q.cands.getLsbD o.val = true)) ∧
  (∀ (mac : BitVec 48) (id : BitVec 64) (n : Nat) (s : State), s.isl.com = true → ∃ t r, exec (.slacStartAtten mac id n) s = .next t ∧
      t = { s with slac := t.slac } ∧ runOf t mac id = some r ∧ r.opened = true ∧
      ((runOf s mac id = none ∨ ∃ q, runOf s mac id = some q ∧ q.opened = false) → r.announced = n)) ∧
  (∀ (mac : BitVec 48) (id : BitVec 64) (o : OutIx) (g : List Nat) (r : SlacRun) (s : State), s.isl.com = true → portOn s o = true →
    plc s o = true → g.length = 58 → runOf s mac id = some r → r.opened = true → r.closed = false →
    ∃ t q, exec (.slacSound mac id o g) s = .next t ∧ t = { s with slac := t.slac } ∧ runOf t mac id = some q ∧
      q.sounds[o] = ((r.sounds[o]).1 + 1, (r.sounds[o]).2 + g.sum) ∧ (∀ p : OutIx, p ≠ o → q.sounds[p] = r.sounds[p]) ∧
      q.cands = r.cands ∧ q.announced = r.announced) ∧
  (∀ (mac : BitVec 48) (id : BitVec 64) (r : SlacRun) (s : State), s.isl.com = true → runOf s mac id = some r → r.opened = true →
    r.closed = false → ∃ t o n att, exec (.slacWindowClose mac id) s = .next t ∧
      (∀ (p : OutIx) (a : Nat), (p, a) ∈ att ↔ attenOf r p = some a) ∧ 1 ≤ n ∧ n ≤ 8192 ∧
      runOf t mac id = some { r with closed := true } ∧
      t = { s with slac := t.slac, arrived := s.arrived ++ [.vehicle o (.slacClosed mac id att) n], freeIx := s.freeIx + 1 }) ∧
  (∀ (mac : BitVec 48) (id : BitVec 64) (s : State), runOf s mac id = none → exec (.slacWindowClose mac id) s = .next s) ∧
  (∀ (mac : BitVec 48) (id : BitVec 64) (w p : OutIx) (a b : Nat) (r : SlacRun) (s : State), runOf s mac id = some r →
    r.void = false → r.excl.getLsbD w.val = false → r.excl.getLsbD p.val = false → slacCand s w = true → pilotOf s w = .b → a + 24 ≤ b → b < 1023 →
    ∃ q, runOf (slacDecide mac id [(w, a), (p, b)] s) mac id = some q ∧ q.bound = some w ∧
      ((slacDecide mac id [(w, a), (p, b)] s).vlk[w]).slacResult = 1 ∧ ((slacDecide mac id [(w, a), (p, b)] s).vlk[w]).slacBest = a ∧
      ((slacDecide mac id [(w, a), (p, b)] s).vlk[w]).slacNext = b ∧ ((slacDecide mac id [(w, a), (p, b)] s).vlk[w]).slacWinner = w.val) ∧
  (∀ (mac : BitVec 48) (id : BitVec 64) (w p : OutIx) (a b : Nat) (r : SlacRun) (s : State), runOf s mac id = some r →
    r.excl.getLsbD w.val = false → r.excl.getLsbD p.val = false → a ≤ b → b < a + 24 →
    runOf (slacDecide mac id [(w, a), (p, b)] s) mac id = none) ∧
  (∀ (mac : BitVec 48) (id : BitVec 64) (w p : OutIx) (a b : Nat) (r : SlacRun) (s : State), runOf s mac id = some r →
    r.void = true → runOf (slacDecide mac id [(w, a), (p, b)] s) mac id = none) ∧
  (∀ (mac : BitVec 48) (id : BitVec 64) (o : OutIx) (r : SlacRun) (s : State), s.isl.com = true → portOn s o = true →
    runOf s mac id = some r → r.bound = some o → ∃ t n, exec (.slacMatchReq o mac id) s = .next t ∧ 1 ≤ n ∧ n ≤ 8192 ∧
      t = { s with arrived := s.arrived ++ [.vehicle o (.slacMatch mac id) n], freeIx := s.freeIx + 1 }) ∧
  (∀ (mac : BitVec 48) (id : BitVec 64) (o : OutIx) (r : SlacRun) (s : State), runOf s mac id = some r → r.bound ≠ some o →
    exec (.slacMatchReq o mac id) s = .next s)

/-- Transport (R186, R187, R192), which the lead's port does: discovery answers with the port's address and TCP port, one
connection is open at a time, TLS needs a valid slot and a chain and uses the key of its slot, and a session takes the first
layer that both sides offer, ISO 15118-20 in TLS and the others without it. -/
def Obligations.Transport : Prop :=
  (∀ (o : OutIx) (s : State), s.isl.com = true → isLead s = true → portOn s o = true → linkReady s o = true →
    exec (.seccDiscovery o) s =
      .next { s with vlk := Vec.upd s.vlk o fun v => { v with
        sdp := some (portIp s o, 52000 + o.val, v.sessCfg.getLsbD 26 && tlsReady s o) } }) ∧
  (∀ (o : OutIx) (s : State), s.isl.com = true → isLead s = true → portOn s o = true → linkReady s o = true →
    (s.vlk[o]).tcp = false → exec (.tcpConnect o) s = .next { s with vlk := Vec.upd s.vlk o fun v => { v with tcp := true } }) ∧
  (∀ (o : OutIx) (s : State), s.isl.com = true → isLead s = true → portOn s o = true → (s.vlk[o]).tcp = true →
    ∃ t n, exec (.tcpRetransmitLimit o) s = .next t ∧ 1 ≤ n ∧ n ≤ 8192 ∧ t = { s with
      vlk := Vec.upd s.vlk o fun v => { v with
        retrans := v.retrans + 4, tcp := false, tls := false, session := false, layer := .none },
      arrived := s.arrived ++ [.vehicle o .linkLost n], freeIx := s.freeIx + 1 }) ∧
  (∀ (o : OutIx) (s : State), s.isl.com = true → isLead s = true → portOn s o = true → (s.vlk[o]).tcp = true →
    ∃ t n, exec (.tcpConnectionClosed o) s = .next t ∧ 1 ≤ n ∧ n ≤ 8192 ∧ t = { s with
      vlk := Vec.upd s.vlk o fun v => { v with tcp := false, tls := false, session := false, layer := .none },
      arrived := s.arrived ++ [.vehicle o .linkLost n], freeIx := s.freeIx + 1 }) ∧
  (∀ (o : OutIx) (k : Fin 128) (e : List Byte) (s : State), s.isl.com = true → isLead s = true → portOn s o = true →
    (s.vlk[o]).tcp = true → tlsReady s o = true → tlsEntry s o = some (k, e) → ∃ t, exec (.tlsHandshake o true) s = .next t ∧
      t = { s with vlk := Vec.upd s.vlk o fun v => { v with tls := true }, hwd := { s.hwd with cache := t.hwd.cache } } ∧
      (t.hwd.cache.head?.map (·.1)) = some k ∧ t.hwd.cache.length ≤ 8) ∧
  (∀ (o : OutIx) (ok : Bool) (s : State), s.isl.com = true → isLead s = true → portOn s o = true → (s.vlk[o]).tcp = true →
    ok = false ∨ tlsReady s o = false ∨ tlsEntry s o = none → ∃ t n, exec (.tlsHandshake o ok) s = .next t ∧ (t.vlk[o]).tcp = false ∧
      (t.vlk[o]).tls = false ∧ (t.vlk[o]).intStatus = setBit (s.vlk[o]).intStatus 7 ∧
      t.arrived = s.arrived ++ [.vehicle o .linkLost n] ∧
      t = { s with vlk := t.vlk, arrived := t.arrived, freeIx := s.freeIx + 1, evs := t.evs }) ∧
  (∀ (o : OutIx) (ls : List Layer) (s : State), s.isl.com = true → isLead s = true → portOn s o = true → (s.vlk[o]).tcp = true →
    ∃ t, exec (.supportedAppProtocolReq o ls) s = .next t ∧ (t.vlk[o]).gap = 0 ∧
      t = { s with vlk := t.vlk, evs := t.evs } ∧ (∀ p : OutIx, p ≠ o → t.vlk[p] = s.vlk[p]) ∧
      (.iso20 ∈ offered s o → .iso20 ∈ ls → (s.vlk[o]).tls = true → (t.vlk[o]).layer = .iso20) ∧
      ((s.vlk[o]).tls = false → .iso2 ∈ offered s o → .iso2 ∈ ls → (t.vlk[o]).layer = .iso2) ∧
      ((s.vlk[o]).tls = false → (.iso2 ∉ offered s o ∨ .iso2 ∉ ls) → .din70121 ∈ offered s o → .din70121 ∈ ls →
        (t.vlk[o]).layer = .din70121) ∧
      ((∀ l ∈ offered s o, l ∉ ls) → (t.vlk[o]).layer = (s.vlk[o]).layer))

/-- Requests (R188 to R191, R193, R490): each complete request on an open connection with an agreed layer resets the link gap
and enters the path of R18 as its message, in a follower too; one that does not decode, or a contract chain in a layer without
contracts, is answered FAILED and closes the link. Its coded length is free (R188 gives its bound alone). -/
def Obligations.VehicleRequests : Prop :=
  (∀ (o : OutIx) (v : VehReq) (chain sg : List Byte) (b1 b2 b3 b4 : Bool) (s : State), s.isl.com = true → portOn s o = true →
    (s.vlk[o]).tcp = true → (s.vlk[o]).layer ≠ .none → chain = [] ∨ (s.vlk[o]).layer = .iso20 →
    ∀ c m, (c, m) ∈ ([(.authorizationReq o chain sg, .authorization chain sg),
      (.chargeParameterDiscoveryReq o v b1 b2 b3 b4, .chargeParameters v b1 b2 b3 b4), (.cableCheckReq o, .cableCheck),
      (.preChargeReq o v, .preCharge v), (.powerDeliveryReq o b1, .powerDelivery b1), (.sessionStopReq o, .sessionStop),
      (.v2gRequest o (some (v, b1)), .other v b1)] : List (Instr × VehMsg)) →
    ∃ t n, exec c s = .next t ∧ 1 ≤ n ∧ n ≤ 8192 ∧ t = { s with
      vlk := Vec.upd s.vlk o fun x => { x with gap := 0 }, arrived := s.arrived ++ [.vehicle o m n], freeIx := s.freeIx + 1 }) ∧
  (∀ (o : OutIx) (id : List Byte) (s : State), s.isl.com = true → isLead s = true → portOn s o = true → (s.vlk[o]).tcp = true →
    (s.vlk[o]).layer ≠ .none → ∃ t n, exec (.sessionSetupReq o id) s = .next t ∧ 1 ≤ n ∧ n ≤ 8192 ∧ t = { s with
      vlk := Vec.upd s.vlk o fun v => { v with gap := 0, session := true },
      arrived := s.arrived ++ [.vehicle o (.sessionSetup id) n], freeIx := s.freeIx + 1 }) ∧
  (∀ (o : OutIx) (id : List Byte) (s : State), s.isl.com = true → isLead s = false → portOn s o = true → (s.vlk[o]).tcp = true →
    (s.vlk[o]).layer ≠ .none → ∃ t n, exec (.sessionSetupReq o id) s = .next t ∧ 1 ≤ n ∧ n ≤ 8192 ∧ t = { s with
      vlk := Vec.upd s.vlk o fun v => { v with gap := 0 },
      arrived := s.arrived ++ [.vehicle o (.sessionSetup id) n], freeIx := s.freeIx + 1 }) ∧
  (∀ (o : OutIx) (chain sg : List Byte) (s : State), s.isl.com = true → isLead s = true → portOn s o = true →
    (s.vlk[o]).tcp = true → (s.vlk[o]).layer ≠ .none → (s.vlk[o]).layer ≠ .iso20 → chain ≠ [] →
    ∃ t n, exec (.authorizationReq o chain sg) s = .next t ∧ (t.vlk[o]).tcp = false ∧ (t.vlk[o]).resp.kind = .failed ∧
      (t.vlk[o]).resp.fn = s.fn ∧ (t.vlk[o]).decodeErr = (s.vlk[o]).decodeErr + 1 ∧
      t.arrived = s.arrived ++ [.vehicle o .linkLost n]) ∧
  (∀ (o : OutIx) (s : State), s.isl.com = true → isLead s = true → portOn s o = true → (s.vlk[o]).tcp = true →
    ∃ t n, exec (.v2gRequest o none) s = .next t ∧ (t.vlk[o]).tcp = false ∧ (t.vlk[o]).layer = .none ∧
      ((s.vlk[o]).layer ≠ .none → (t.vlk[o]).resp.kind = .failed ∧ (t.vlk[o]).resp.fn = s.fn) ∧
      (t.vlk[o]).decodeErr = (s.vlk[o]).decodeErr + 1 ∧ (t.vlk[o]).intStatus = setBit (s.vlk[o]).intStatus 8 ∧
      t.arrived = s.arrived ++ [.vehicle o .linkLost n])

/-- The cable block (R205, R207, R210, R215): the fault of 3,000 residuals out of limit, its clear request and the manual drive;
the headroom current never passes the ceiling of the outlet, and the cooling loop keeps its integrator, its pump and its fan
in range. -/
def Obligations.CableBlock : Prop :=
  (∀ (o : OutIx) (s : State), s.isl.ctl = true → cableOn s o = true → (s.nx.ccl[o]).resFault = false →
    ∃ t, exec (.residualFault o) s = .next t ∧
      t.nx.ccl[o] = { s.nx.ccl[o] with resFault := true, resRun := max (s.nx.ccl[o]).resRun 3000 } ∧
      (∀ p : OutIx, p ≠ o → t.nx.ccl[p] = s.nx.ccl[p]) ∧
      t = { s with nx := { s.nx with ccl := t.nx.ccl }, late := { s.late with ccl := Vec.upd s.late.ccl o fun w => setBit w 2 },
                   evs := s.evs ++ [{ rank := 7, code := 4, num := o.val, ord := 8 * o.val + 4 }] }) ∧
  (∀ (o : OutIx) (s : State), cableOn s o = false ∨ (s.nx.ccl[o]).resFault = true → exec (.residualFault o) s = .next s) ∧
  (∀ (o : OutIx) (s : State), s.isl.ctl = true → exec (.cclResidualClear o) s =
      .next { s with cclR := Vec.upd s.cclR o fun r => { r with clearReq := (s.nx.ccl[o]).resFault } }) ∧
  (∀ (o : OutIx) (on : Bool) (pump fan : BitVec 8) (s : State), s.isl.ctl = true → ∃ t, exec (.cclManual o on pump fan) s = .next t ∧
      (t.cclR[o]).manual = on ∧ (t.cclR[o]).manPump ≤ 200 ∧ (t.cclR[o]).manFan ≤ 200 ∧
      (pump.toNat ≤ 200 → (t.cclR[o]).manPump = pump.toNat) ∧ (fan.toNat ≤ 200 → (t.cclR[o]).manFan = fan.toNat) ∧
      (∀ p : OutIx, p ≠ o → t.cclR[p] = s.cclR[p]) ∧ t = { s with cclR := t.cclR }) ∧
  (∀ (c : CableCfg) (ceil : Nat) (tc gf tin : Rat), iCalc c ceil tc gf tin ≤ ceil) ∧
  (∀ (c : CableCfg) (ceil : Nat) (i2 tc : Rat) (x : Int), -65536 ≤ x → x ≤ 65536 → c.pumpMin ≤ 200 → c.fanMin ≤ 200 →
    -65536 ≤ (coolLoop c ceil i2 tc x).1 ∧ (coolLoop c ceil i2 tc x).1 ≤ 65536 ∧
      c.pumpMin ≤ (coolLoop c ceil i2 tc x).2.1 ∧ (coolLoop c ceil i2 tc x).2.1 ≤ 200 ∧
      c.fanMin ≤ (coolLoop c ceil i2 tc x).2.2 ∧ (coolLoop c ceil i2 tc x).2.2 ≤ 200) ∧
  (∀ (c : CableCfg) (ceil : Nat) (i2 tc : Rat) (x : Int), c.pumpMin ≤ 200 →
    (coolLoop c ceil i2 tc x).2.2 > c.fanMin → (coolLoop c ceil i2 tc x).2.1 = 200)

/-- Cooling frames (R211, R361, R362): in the frame after a thermal frame each outlet with a cable block in a bus's mask has its
frame in its own buffer, in place of an unsent one: pump and fan on a LEAD_ONLY bus, the sequence byte of its identifier, pump and
fan on a DUAL bus. A bus without a slot timer, one that this package does not send on, an outlet outside the mask or without a
cable block keeps what it has, and of every bus nothing else changes. In any other frame nothing is sent. -/
def Obligations.CoolingFrames : Prop :=
  (∀ s : State, s.isl.com = true → s.fn % 10 = 1 → ∃ t, exec .coolingFrameTx s = .next t ∧ t = { s with can := t.can } ∧
    ∀ k : CanIx, t.can[k] = { s.can[k] with cool := (t.can[k]).cool, seqs := (t.can[k]).seqs } ∧
      ((s.map.can[k]).mode ≠ 2 → (t.can[k]).seqs = (s.can[k]).seqs) ∧
      ∀ o : OutIx,
      (canOn s k = true → transmits s = true → canRestricted s k = false → (s.map.can[k]).slotTimer ≠ none →
        (s.map.can[k]).coolMask.getLsbD o.val = true → cableOn s o = true →
        ((s.map.can[k]).mode = 1 → (t.can[k]).cool[o] = some {
          ident := BitVec.ofNat 29 ((s.map.can[k]).coolId + o.val), ext := (s.map.can[k]).coolExt,
          data := [BitVec.ofNat 8 (s.fl.ccl[o]).pump, BitVec.ofNat 8 (s.fl.ccl[o]).fan] }) ∧
        ((s.map.can[k]).mode = 2 →
          ∃ q : Byte, q = (seqOf s.can[k] (BitVec.ofNat 29 ((s.map.can[k]).coolId + o.val)) (s.map.can[k]).coolExt).getD 0 ∧
          seqOf t.can[k] (BitVec.ofNat 29 ((s.map.can[k]).coolId + o.val)) (s.map.can[k]).coolExt = some (q + 1) ∧
          (t.can[k]).cool[o] = some {
            ident := BitVec.ofNat 29 ((s.map.can[k]).coolId + o.val), ext := (s.map.can[k]).coolExt, seq := some q,
            data := [q, BitVec.ofNat 8 (s.fl.ccl[o]).pump, BitVec.ofNat 8 (s.fl.ccl[o]).fan] })) ∧
      (canOn s k = false ∨ transmits s = false ∨ canRestricted s k = true ∨ (s.map.can[k]).slotTimer = none ∨
        (s.map.can[k]).coolMask.getLsbD o.val = false ∨ cableOn s o = false → (t.can[k]).cool[o] = (s.can[k]).cool[o])) ∧
  (∀ s : State, s.fn % 10 ≠ 1 → exec .coolingFrameTx s = .next s)

/-- Receiving (R350, R352 to R356): a frame that one quantity entry takes fills its mailbox slot with the frame FN; one that an
entry copies to the FIFO is stored at the write pointer, and nothing outside its 80 bytes changes. The follower of a LEAD_ONLY
bus keeps of its queue what it has not heard (R293). -/
def Obligations.CanReceive : Prop :=
  (∀ (k : CanIx) (f : CanFrame) (us : Nat) (s : State), canOn s k = false ∨ (f.remote = true ∧ canRestricted s k = false) →
    exec (.canRxFrame k f us) s = .next s) ∧
  (∀ (k : CanIx) (f : CanFrame) (us : Nat) (s : State), canOn s k = true → f.remote = false → f.data.length ≤ 64 →
    filtHits s k f = [] → exec (.canRxFrame k f us) s =
      .next { s with can := Vec.upd s.can k fun c => { c with
        queue := if canRestricted s k then dropHeard f c.queue else c.queue, received := c.received + 1 } }) ∧
  (∀ (k : CanIx) (f : CanFrame) (us i v : Nat) (e : FiltCfg) (s : State), canOn s k = true → f.remote = false → f.data.length ≤ 64 →
    filtHits s k f = [(i, e)] → e.q ≠ 0 → e.copy = false → filtValue e f = some v → ∃ t, exec (.canRxFrame k f us) s = .next t ∧
      mailOf t.live e.q e.num e.sub =
        some { q := e.q, num := e.num, sub := e.sub, can := k, entry := i, value := v, fn := s.fn, action := e.action } ∧
      (∀ q n u : Nat, ¬(q = e.q ∧ n = e.num ∧ u = e.sub) → mailOf t.live q n u = mailOf s.live q n u) ∧
      (t.can[k]).received = (s.can[k]).received + 1 ∧ (∀ j : CanIx, j ≠ k → t.can[j] = s.can[j]) ∧
      t = { s with live := { s.live with mail := t.live.mail }, can := t.can }) ∧
  (∀ (k : CanIx) (f : CanFrame) (us i : Nat) (e : FiltCfg) (s : State), canOn s k = true → f.remote = false → f.data.length ≤ 64 →
    filtHits s k f = [(i, e)] → e.q = 0 → (s.can[k]).unread < 64 → Memory.wf s.lnd.mem = true → ∃ t, exec (.canRxFrame k f us) s = .next t ∧
      (t.can[k]).rxWr = (s.can[k]).rxWr + 1 ∧ (t.can[k]).unread = (s.can[k]).unread + 1 ∧
      memReadBytes t.lnd.mem (canRxBase k + 80 * (s.can[k]).rxWr.toNat) 13 = leBytes 8 s.fn ++
        leBytes 4 (f.ident.toNat + 2 ^ 29 * bit f.ext + 2 ^ 30 * bit f.fd + 2 ^ 31 * bit f.brs) ++ leBytes 1 f.data.length ∧
      memReadBytes t.lnd.mem (canRxBase k + 80 * (s.can[k]).rxWr.toNat + 16) f.data.length = f.data ∧
      ∀ a : Nat, a < canRxBase k + 80 * (s.can[k]).rxWr.toNat ∨ canRxBase k + 80 * (s.can[k]).rxWr.toNat + 80 ≤ a →
        memRead t.lnd.mem a = memRead s.lnd.mem a)

/-- Sending (R359 to R361): the requests of a submit are taken from the window of the bus; on a bus of one package a request
that fits joins the queue, on a DUAL bus with the next sequence byte of its identifier ahead of its data, one that would raise the fill above 32 is refused and counted, and a sent frame leaves. -/
def Obligations.CanTransmit : Prop :=
  (∀ (k : CanIx) (count : BitVec 4) (s : State), s.isl.com = true → lndBad (canTxBase k) 576 s = [] →
    exec (.canTxSubmit k count) s = .next (canSubmit k count.toNat (lndRead (canTxBase k) 576 s) s)) ∧
  (∀ (k : CanIx) (count : Nat) (win : List Byte) (s : State), 8 < count → ∃ t, canSubmit k count win s = t ∧
      (t.can[k]).queue = (s.can[k]).queue ∧ (t.can[k]).refused = (s.can[k]).refused + 1 ∧ t.hst.cRefused = s.hst.cRefused + 1) ∧
  (∀ (k : CanIx) (bs : List Byte) (s : State), bs.length = 72 → (s.map.can[k]).mode = 1 → field (leNat (bs.take 4)) 30 1 = 0 →
    field (leNat (bs.take 4)) 31 1 = 0 → leNat ((bs.drop 4).take 1) ≤ 8 → s.lat.levels.txFill[k] + (s.can[k]).enqNow < 32 → (s.can[k]).queue.length < 32 →
    ∃ x, (canRequest k bs s).can[k] = { s.can[k] with
        queue := (s.can[k]).queue ++ [x], peak := max (s.can[k]).peak ((s.can[k]).queue.length + 1),
        enqNow := (s.can[k]).enqNow + 1, enqLog := (x :: (s.can[k]).enqLog).take 32 } ∧
      x.ident = BitVec.ofNat 29 (leNat (bs.take 4)) ∧ x.seq = none ∧ x.fd = false ∧ x.brs = false ∧
      x.data = (bs.drop 8).take (leNat ((bs.drop 4).take 1)) ∧ canRequest k bs s = { s with can := (canRequest k bs s).can }) ∧
  (∀ (k : CanIx) (bs : List Byte) (s : State), bs.length = 72 → (s.map.can[k]).mode = 2 → field (leNat (bs.take 4)) 30 1 = 0 →
    field (leNat (bs.take 4)) 31 1 = 0 → leNat ((bs.drop 4).take 1) ≤ 7 → s.lat.levels.txFill[k] + (s.can[k]).enqNow < 32 →
    (s.can[k]).queue.length < 32 → (s.can[k]).seqs.length < 128 → ∃ x q,
      q = (seqOf s.can[k] (BitVec.ofNat 29 (leNat (bs.take 4))) (decide (field (leNat (bs.take 4)) 29 1 = 1))).getD 0 ∧
      ((canRequest k bs s).can[k]).queue = (s.can[k]).queue ++ [x] ∧ x.ident = BitVec.ofNat 29 (leNat (bs.take 4)) ∧
      x.seq = some q ∧ x.data = q :: (bs.drop 8).take (leNat ((bs.drop 4).take 1))) ∧
  (∀ (k : CanIx) (bs : List Byte) (s : State), 32 ≤ s.lat.levels.txFill[k] + (s.can[k]).enqNow →
    ((canRequest k bs s).can[k]).queue = (s.can[k]).queue ∧ ((canRequest k bs s).can[k]).refused = (s.can[k]).refused + 1 ∧
      (canRequest k bs s).hst.cRefused = s.hst.cRefused + 1) ∧
  (∀ (k : CanIx) (x : CanTx) (xs : List CanTx) (s : State), canSends s k = true → (s.can[k]).queue = x :: xs → ∃ t,
    exec (.canTxComplete k .queue) s = .next t ∧ (t.can[k]).queue = xs ∧ (t.can[k]).sent = (s.can[k]).sent + 1 ∧
      (∀ j : CanIx, j ≠ k → t.can[j] = s.can[j]) ∧ t = { s with can := t.can, freeIx := t.freeIx }) ∧
  (∀ (k : CanIx) (o : OutIx) (x : CanTx) (s : State), canSends s k = true → (s.can[k]).cool[o] = some x →
    exec (.canTxComplete k (.cooling o)) s = .next { s with can := Vec.upd s.can k fun c =>
      { c with cool := c.cool.set o none, sent := c.sent + 1 } }) ∧
  (∀ (k : CanIx) (src : TxSource) (s : State), canOn s k = false → exec (.canTxComplete k src) s = .next s)

/-- Error states (R364): a controller in bus-off sends nothing; both recoveries; the events of bus-off, recovery, error-passive
and overflow; the counters of an error, and the buffer shown (R365). -/
def Obligations.CanErrorStates : Prop :=
  (∀ (k : CanIx) (s : State), canOn s k = true → (s.can[k]).st ≠ 2 → ∃ t, exec (.canBusOff k) s = .next t ∧
      t.can[k] = { s.can[k] with st := 2, busOffs := (s.can[k]).busOffs + 1, intStatus := setBit (s.can[k]).intStatus 0 } ∧
      t = { s with can := t.can, evs := s.evs ++ [{ rank := 12, code := 1, num := k.val, ord := k.val }] }) ∧
  (∀ (k : CanIx) (s : State), canOn s k = true → (s.can[k]).st = 2 → (s.can[k]).manual = false →
    ∃ t, exec (.canAutoRecovery k) s = .next t ∧ (t.can[k]).st = 0 ∧ (t.can[k]).queue = (s.can[k]).queue ∧
      (∀ j : CanIx, j ≠ k → t.can[j] = s.can[j]) ∧
      t = { s with can := t.can, evs := s.evs ++ [{ rank := 12, code := 2, num := k.val, ord := k.val }] }) ∧
  (∀ (k : CanIx) (s : State), s.isl.com = true → (s.can[k]).st = 2 → (s.can[k]).manual = true → ∃ t, exec (.canRecover k) s = .next t ∧
      exec (.canAutoRecovery k) s = .next s ∧ (t.can[k]).st = 0 ∧ (t.can[k]).queue = (s.can[k]).queue ∧
      (∀ j : CanIx, j ≠ k → t.can[j] = s.can[j]) ∧
      t = { s with can := t.can, evs := s.evs ++ [{ rank := 12, code := 2, num := k.val, ord := k.val }] }) ∧
  (∀ (k : CanIx) (s : State), (s.can[k]).st ≠ 2 → exec (.canAutoRecovery k) s = .next s ∧ exec (.canRecover k) s = .next s) ∧
  (∀ (k : CanIx) (kind : CanErrKind) (tec rc : Nat) (s : State), canOn s k = true → (s.can[k]).st ≠ 2 → ∃ t,
    exec (.canBusError k kind tec rc) s = .next t ∧ (t.can[k]).errs = (s.can[k]).errs + 1 ∧ (t.can[k]).lastErr = errCode kind ∧
      (t.can[k]).tec = min 255 tec ∧ ((t.can[k]).st = 1 ↔ (128 ≤ tec ∨ 128 ≤ rc)) ∧ (t.can[k]).queue = (s.can[k]).queue ∧
      (∀ j : CanIx, j ≠ k → t.can[j] = s.can[j]) ∧ t = { s with can := t.can, evs := t.evs } ∧
      ((s.can[k]).st = 0 → (t.can[k]).st = 1 → t.evs = s.evs ++ [{ rank := 12, code := 3, num := k.val, ord := k.val }]) ∧
      ((s.can[k]).st = 1 ∨ (t.can[k]).st = 0 → t.evs = s.evs)) ∧
  (∀ (k : CanIx) (src : TxSource) (s : State), (s.can[k]).st = 2 → exec (.canTxComplete k src) s = .next s) ∧
  (∀ (k : CanIx) (f : CanFrame) (us i : Nat) (e : FiltCfg) (s : State), canOn s k = true → f.remote = false → f.data.length ≤ 64 →
    filtHits s k f = [(i, e)] → e.q = 0 → 64 ≤ (s.can[k]).unread → ∃ t, exec (.canRxFrame k f us) s = .next t ∧
      (t.can[k]).overflow = (s.can[k]).overflow + 1 ∧ (t.can[k]).unread = (s.can[k]).unread ∧ t.lnd = s.lnd ∧
      t.evs = s.evs ++ [{ rank := 12, code := 5, num := k.val, ord := k.val, data := 0 }]) ∧
  (∀ (k : CanIx) (v : Word) (s : State), s.isl.com = true → exec (.canHpSelWrite k v) s = .next { s with
      can := Vec.upd s.can k fun c => { c with hpSel := v.setWidth 3, hpShown := c.hp[(v.setWidth 3 : BitVec 3).toFin] } })

/-- The metering hardware (R222 to R229): a sub-sample adds its power to the direction of its sign, and waits where the cycle may
have ended before it; a crossing lies between its two sub-samples at the nearest clock, the earlier one on a tie. The end of a
cycle, at its crossing or in a hold at the nominal length, forms the energies of the record and keeps their fractions, so that no
energy is lost, and stores one ring entry. What a crossing needs beside the words of R222 is the model's reading (entry 101). -/
def Obligations.MeteringCycle : Prop :=
  (∀ (codes : List Int) (s : State), s.isl.met = true → ∃ t, exec (.meterSubsample codes) s = .next t ∧ t.met.vN = s.met.vN + 1 ∧
    t.met.clk = s.met.clk + 256 ∧ t = { s with met := t.met, lnd := t.lnd, evs := t.evs } ∧
    t.met.cross = crossIn s.met (fun p => (subWords codes s).getD (64 + p.val) 0 - (subWords codes s).getD 67 0) ∧
    (t.met.cross ≠ none ∨ (nominalLen s : Int) < s.met.clk + 256 → t.met.n = s.met.n ∧ t.met.tail = s.met.tail ++ [sampOf codes s] ∧
      t.met.sFwd = s.met.sFwd ∧ t.met.sRev = s.met.sRev) ∧
    (t.met.cross = none → s.met.clk + 256 ≤ (nominalLen s : Int) → t.met.n = s.met.n + 1 ∧ t.met.tail = s.met.tail ∧
      ∀ k : SetIx,
      (metOn s k = true → t.met.sFwd[k.val] = s.met.sFwd[k.val] +
          max 0 (corrected s.met ⟨2 * k.val, by omega⟩ (clampI (-8388608) 8388607 (codes.getD (2 * k.val) 0)) (-52) *
            corrected s.met ⟨2 * k.val + 1, by omega⟩ (clampI (-8388608) 8388607 (codes.getD (2 * k.val + 1) 0)) (-52)) ∧
        t.met.sRev[k.val] = s.met.sRev[k.val] +
          max 0 (-(corrected s.met ⟨2 * k.val, by omega⟩ (clampI (-8388608) 8388607 (codes.getD (2 * k.val) 0)) (-52) *
            corrected s.met ⟨2 * k.val + 1, by omega⟩ (clampI (-8388608) 8388607 (codes.getD (2 * k.val + 1) 0)) (-52)))) ∧
      (metOn s k = false → t.met.sFwd[k.val] = s.met.sFwd[k.val] ∧ t.met.sRev[k.val] = s.met.sRev[k.val]))) ∧
  (∀ a b : Int, a < 0 → 0 ≤ b → 2 * (256 * -a) - (b - a) ≤ 2 * crossOff a b * (b - a) ∧
    2 * crossOff a b * (b - a) < 2 * (256 * -a) + (b - a)) ∧
  (∀ (m : Met) (ln : Fin 3 → Int) (l : Nat), m.cross = none → crossIn m ln = some l → 63016 ≤ l ∧ l ≤ 91022 ∧
    ∃ p : Fin 3, p.val = m.phase ∧ m.ln[p] < 0 ∧ 0 ≤ ln p ∧ m.low.getLsbD p.val = true) ∧
  (∀ (len us : Nat) (x : Bool) (ones : List Nat) (ov : BitVec 64) (sv : BitVec 8) (s : State), s.isl.met = true → cycleLen s = some (len, x) →
    ∃ t r, exec (.cycleEnd ones ov sv us) s = .next t ∧ t.arrived = s.arrived ++ [.cycle r] ∧ r.fn = s.fn ∧ r.seq = s.met.seq ∧
      r.len = len ∧ (r.freqHold = !x) ∧ t.met.seq = s.met.seq + 1 ∧ t.met.cross = none ∧ t.met.tail = [] ∧
      t.met.clk = s.met.clk - len ∧
      ((∀ y ∈ s.met.tail, y.clk ≤ (len : Int)) →
        t.met.n = 0 ∧ t.met.sFwd = Vector.replicate 33 0 ∧ t.met.sRev = Vector.replicate 33 0) ∧
      (∀ k : SetIx, metOn s k = true →
        2 ^ 80 * ((r.sets[k]).eFwd : Int) + t.met.resFwd[k.val] =
          s.met.resFwd[k.val] + ((s.met.sFwd[k.val] +
            ((s.met.tail.filter fun y => decide (y.clk ≤ (len : Int))).map fun y : Samp => max 0 y.pw[k.val]).sum) *
              ksOf (s.map.met[k]).divider (s.map.met[k]).shunt).toNat ∧
        t.met.resFwd[k.val] < 2 ^ 80) ∧
      (∀ k : SetIx, metOn s k = false → (r.sets[k]).unassigned = true ∧ (r.sets[k]).eFwd = 0 ∧ (r.sets[k]).eRev = 0) ∧
      (Memory.wf s.lnd.mem = true → ∀ a : Nat, a < cycleBase + 576 * s.met.ringIx ∨ cycleBase + 576 * s.met.ringIx + 576 ≤ a →
        memRead t.lnd.mem a = memRead s.lnd.mem a) ∧
      t = { s with met := t.met, lnd := t.lnd, evs := t.evs, arrived := t.arrived }) ∧
  (∀ (l : Nat) (s : State), s.met.cross = some l → cycleLen s = some (l, true)) ∧
  (∀ s : State, s.met.cross = none → s.met.hold = true → (nominalLen s : Int) < s.met.clk + 256 →
    cycleLen s = some (nominalLen s, false)) ∧
  (∀ (us : Nat) (ones : List Nat) (ov : BitVec 64) (sv : BitVec 8) (s : State), s.met.cross = none →
    s.met.hold = false ∨ s.met.clk + 256 ≤ (nominalLen s : Int) → exec (.cycleEnd ones ov sv us) s = .next s) ∧
  (∀ s : State, s.isl.met = true → s.met.cross = none → exec .freqHold s = .next { s with met := { s.met with hold := true } }) ∧
  (∀ (l : Nat) (s : State), s.met.cross = some l → exec .freqHold s = .next s)

/-- Pulses (R235, R236): an applied record leaves every micro-watt-hour in the accumulator or the backlog; a start takes one
pulse of the backlog, and the lead drives it. The thermal frame (R197, R233) runs once in a frame with FN mod 10 = 0. -/
def Obligations.PulsesAndThermalFrames : Prop :=
  (∀ (k : Fin 33) (r : CycleRec) (s : State), pulseOn s k = true →
    ((pulseStep k r s).nx.met.sets[k]).acc < pulseQ (pulseMode s k) ∧
    ((pulseStep k r s).nx.met.sets[k]).acc + pulseQ (pulseMode s k) * ((pulseStep k r s).nx.met.sets[k]).b =
      (s.nx.met.sets[k]).acc + pulseQ (pulseMode s k) * (s.nx.met.sets[k]).b +
        (if pulseMode s k ≤ 3 then (recEnergy r k).fwd else (recEnergy r k).rev)) ∧
  (∀ (k : Fin 33) (s : State), s.isl.met = true → pulseOn s k = true → (s.nx.met.sets[k]).b ≠ 0 → (s.fl.met.sets[k]).b ≠ 0 →
    (s.fl.met.sets[k]).nxt ≤ s.fn → s.met.pulse[k] = none → ∃ t, exec (.pulseStart k) s = .next t ∧
      (t.nx.met.sets[k]).b + 1 = (s.nx.met.sets[k]).b ∧ (t.nx.met.sets[k]).acc = (s.nx.met.sets[k]).acc ∧
      (isLead s = true → t.met.pulse[k] = some (if 4 ≤ (s.fl.met.sets[k]).s then 4 else (s.fl.met.sets[k]).s)) ∧
      (isLead s = false → t.met = s.met) ∧ (∀ j : Fin 33, j ≠ k → t.met.pulse[j] = s.met.pulse[j]) ∧
      (∀ j : Fin 33, j ≠ k → t.nx.met.sets[j] = s.nx.met.sets[j]) ∧
      t = { s with nx := { s.nx with met := { s.nx.met with sets := t.nx.met.sets } }, met := { s.met with pulse := t.met.pulse } }) ∧
  (∀ (k : Fin 33) (s : State), (s.nx.met.sets[k]).b = 0 ∨ s.met.pulse[k] ≠ none → exec (.pulseStart k) s = .next s) ∧
  (∀ (k : Fin 33) (s : State), s.isl.met = true → exec (.pulseEnd k) s =
      .next { s with met := { s.met with pulse := s.met.pulse.set k none } }) ∧
  (∀ s : State, s.fn % 10 = 0 → s.thermFn ≠ some s.fn → ∃ t, exec .thermalFrame s = .next t ∧ t.thermFn = some s.fn ∧
    exec .thermalFrame t = .next t ∧ (s.isl.met = true → t.met.tempNext = s.met.tempNow) ∧ (s.isl.met = false → t.met = s.met) ∧
    (∀ o : OutIx, s.isl.ctl = true → cableOn s o = true → (t.nx.ccl[o]).ran = true ∧
      (t.nx.ccl[o]).iHr ≤ max (s.map.out[o]).iCeil (s.nx.ccl[o]).iHr) ∧
    (∀ o : OutIx, s.isl.ctl = false ∨ cableOn s o = false → t.nx.ccl[o] = s.nx.ccl[o] ∧ t.cclR[o] = s.cclR[o] ∧
      t.late.ccl[o] = s.late.ccl[o]) ∧
    t = { s with thermFn := some s.fn, nx := { s.nx with ccl := t.nx.ccl }, cclR := t.cclR, met := t.met,
                 late := { s.late with ccl := t.late.ccl }, evs := t.evs }) ∧
  (∀ s : State, s.fn % 10 ≠ 0 → exec .thermalFrame s = .next s)

/-- Checks and commands of metrology (R230, R234, R239, R241 to R243, R393): the bypass window, the messages of the witness, the
tamper flags, and the calibration, whose values only an unlocked SN9632-A takes. The ordering code in a witness message, and a
commit after the lock, are the model's choices (entries 96 and 102). -/
def Obligations.MetrologyCommands : Prop :=
  (∀ s : State, s.isl.ctl = true → s.fn % 900000 = 899999 → (s.map.site.tamper % 2 = 1) → siteOn s = true → s.nx.met.winBad = true →
    ∃ t, exec .bypassWindowCheck s = .next t ∧ t.nx.met = { s.nx.met with bypassSkip := true } ∧
      t = { s with nx := { s.nx with met := t.nx.met }, evs := t.evs }) ∧
  (∀ s : State, s.isl.ctl = true → s.fn % 900000 = 899999 → (s.map.site.tamper % 2 = 1) → siteOn s = true → s.nx.met.winBad = false →
    ∃ t, exec .bypassWindowCheck s = .next t ∧ t.nx.met.bypassSkip = false ∧ (s.nx.met.bypass = true → t.nx.met.bypass = true) ∧
      (s.nx.met.bypass = false → (t.nx.met.bypass = true ↔
        s.nx.met.winFwd * field s.met.tamperCfg.toNat 0 8 / 1000 + field s.met.tamperCfg.toNat 8 8 * 1000000000 <
          (s.nx.met.winSite - s.nx.met.winDc -
            ((s.nx.met.winDc.natAbs * lossOf s / 1000 + s.alc.house.toNat * 250000 : Nat) : Int)).natAbs)) ∧
      t = { s with nx := { s.nx with met := { s.nx.met with bypassSkip := false, bypass := t.nx.met.bypass } },
                   late := { s.late with met := t.late.met }, evs := t.evs }) ∧
  (∀ s : State, s.fn % 900000 ≠ 899999 → exec .bypassWindowCheck s = .next s) ∧
  (∀ s : State, s.isl.ctl = true → s.tdm.st = .follow → s.fn % 1000 = 0 → exec .witnessSend s = .next { s with
      met := { s.met with witSent := some {
        fn := s.fn, code := if s.otp.orderK then 0x4B else 0x41, serial := s.otp.serial, totals := s.met.own } },
      tdm := { s.tdm with bytesOut := s.tdm.bytesOut + 676 } }) ∧
  (∀ s : State, s.tdm.st ≠ .follow ∨ s.fn % 1000 ≠ 0 → exec .witnessSend s = .next s) ∧
  (∀ (m : FollowMsg) (s : State), s.isl.ctl = true → s.tdm.linkUp = true → exec (.witPacket m) s =
      .next { s with arrived := s.arrived ++ [match m with
        | .totals w => .witness w | .conditions f => .fwuLocal f | .report ok reason => .fwuReport false ok reason] }) ∧
  (∀ (m : FollowMsg) (s : State), s.tdm.linkUp = false → exec (.witPacket m) s = .next s) ∧
  (∀ s : State, s.tdm.st = .single ∨ s.nx.met.witLost = true → exec .witnessLost s = .next s) ∧
  (∀ s : State, s.isl.ctl = true → s.tdm.st ≠ .single → s.nx.met.witLost = false → ∃ t, exec .witnessLost s = .next t ∧ t.nx.met.witLost = true ∧
      t.nx.met.witActive = false ∧ t.nx.met.hist = [] ∧ t.nx.met.lead = s.nx.met.lead ∧ t.nx.met.foll = s.nx.met.foll ∧
      t.nx.met.sets = s.nx.met.sets ∧ t.met = s.met ∧ t.late.met = setBit s.late.met 7) ∧
  (∀ s : State, s.isl.ctl = true →
      exec .metNeutralClear s = .next { s with nx := { s.nx with met := { s.nx.met with neutral := false } } } ∧
      exec .metBypassClear s = .next { s with nx := { s.nx with met := { s.nx.met with bypass := false } } }) ∧
  (∀ (k : SetIx) (s : State), s.isl.ctl = true →
    (∃ t, exec (.metTamperClear k) s = .next t ∧ t.nx.met.sets[k.val] =
        { s.nx.met.sets[k.val] with reversed := false, mismatch := false } ∧
      (∀ j : Fin 33, j.val ≠ k.val → t.nx.met.sets[j] = s.nx.met.sets[j]) ∧
      t = { s with nx := { s.nx with met := { s.nx.met with sets := t.nx.met.sets } } }) ∧
    (∃ t, exec (.metWitClear k) s = .next t ∧ t.nx.met.sets[k.val] = { s.nx.met.sets[k.val] with witFlag := false } ∧
      (∀ j : Fin 33, j.val ≠ k.val → t.nx.met.sets[j] = s.nx.met.sets[j]) ∧
      t = { s with nx := { s.nx with met := { s.nx.met with sets := t.nx.met.sets } } })) ∧
  (∀ (c : Fin 72) (v : Word) (s : State), s.isl.met = true → s.otp.orderK = false → s.otp.locked = false →
    (∃ t, exec (.metCalWrite c true v) s = .next t ∧ 0x20000000 ≤ t.met.gain[c] ∧ t.met.gain[c] ≤ 0x60000000 ∧
      (0x20000000 ≤ v.toNat → v.toNat ≤ 0x60000000 → t.met.gain[c] = v.toNat) ∧ t.met.off = s.met.off ∧
      (∀ d : Fin 72, d ≠ c → t.met.gain[d] = s.met.gain[d]) ∧
      (t.met.gain[c] ≠ s.met.gain[c] → t.late.met = setBit s.late.met 10)) ∧
    (∃ t, exec (.metCalWrite c false v) s = .next t ∧ t.met.off[c] = signed 24 v.toNat ∧ t.met.gain = s.met.gain ∧
      ∀ d : Fin 72, d ≠ c → t.met.off[d] = s.met.off[d]) ∧
    exec .metCalCommit s = .next { s with met := { s.met with mram := some (s.met.gain, s.met.off) } }) ∧
  (∀ (c : Fin 72) (g : Bool) (v : Word) (s : State), s.isl.met = true → s.otp.orderK = true ∨ s.otp.locked = true →
    ∃ t, exec (.metCalWrite c g v) s = .next t ∧ t.met = s.met ∧ t.hst.cRefused = s.hst.cRefused + 1 ∧
      t = { s with hst := t.hst, evs := t.evs }) ∧
  (∀ s : State, s.isl.met = true → s.otp.orderK = true → ∃ t, exec .metCalCommit s = .next t ∧ t.met = s.met ∧
      t.hst.cRefused = s.hst.cRefused + 1) ∧
  (∀ (en site : Bool) (s : State), s.isl.met = true → exec (.metCaptureEnable en site) s =
      .next { s with met := { s.met with capEn := en, capSite := site } })

/-- Demand (R255): the demand of an interval is floor(E × 36 / (10 × N)) W for every meter, its sums start again, and it
replaces a smaller maximum where N is at least 60,000; a boundary test crosses every interval that has passed (R252). -/
def Obligations.DemandIntervals : Prop :=
  (∀ (ts n : Nat) (fl : BitVec 5) (m : Fin 33) (s : State), metOn33 s m = true →
    ∃ x, (closeDemand ts n fl s).nx.bil.m[m] = x ∧ x.dem = {} ∧ x.a = (s.nx.bil.m[m]).a ∧ x.t = (s.nx.bil.m[m]).t ∧
      x.lastF = { w := (s.nx.bil.m[m]).dem.fwd * 36 / (10 * n), ts := ts, flags := fl } ∧
      x.lastR = { w := (s.nx.bil.m[m]).dem.rev * 36 / (10 * n), ts := ts, flags := fl } ∧
      (n < 60000 → x.maxF = (s.nx.bil.m[m]).maxF ∧ x.maxR = (s.nx.bil.m[m]).maxR) ∧
      (60000 ≤ n → x.maxF.w = max (s.nx.bil.m[m]).maxF.w x.lastF.w ∧
        ((s.nx.bil.m[m]).maxF.w < x.lastF.w → x.maxF.ts = ts) ∧
        (x.lastF.w ≤ (s.nx.bil.m[m]).maxF.w → x.maxF = (s.nx.bil.m[m]).maxF))) ∧
  (∀ (h : Nat) (s : State), s.isl.ctl = true → s.nx.bil.hd = some h → rtcSec s / s.nx.bil.demLen * s.nx.bil.demLen ≤ h →
    exec .demandClose s = .next s) ∧
  (∀ (h : Nat) (s : State), s.isl.ctl = true → s.nx.bil.hd = some h → h < rtcSec s / s.nx.bil.demLen * s.nx.bil.demLen →
    ∃ t, exec .demandClose s = .next t ∧ t.nx.bil.hd = some (rtcSec s / s.nx.bil.demLen * s.nx.bil.demLen) ∧
      t.nx.bil.demN = 1 ∧ t.nx.bil.demLen = cfgLen s ∧ t.nx.bil.demCross.isSome = true ∧
      t.nx.bil.skipped = s.nx.bil.skipped +
        BitVec.ofNat 32 ((rtcSec s / s.nx.bil.demLen * s.nx.bil.demLen - h) / s.nx.bil.demLen - 1) ∧
      t.nx.bil.m = s.nx.bil.m ∧ t = { s with nx := { s.nx with bil := t.nx.bil } }) ∧
  (∀ (k : Fin 4) (s : State), s.isl.ctl = true → ∃ t, exec (.tariffSwitch k) s = .next t ∧
    t.nx.bil.hist.head? = some (s.fn, s.lat.levels.rtc, t.nx.bil.cal.toList.map (·.tariff)) ∧ t.nx.bil.hist.length ≤ 4 ∧
    (∀ j : Fin 4, (s.map.tariff[j]).present = false → (t.nx.bil.cal[j]).hc = none) ∧
    (∀ (j : Fin 4) (h : Int), (s.map.tariff[j]).present = true → (s.nx.bil.cal[j]).hc = some h → s.smp.amAppliedAt ≠ s.fn →
      crossed s.map.tariff[j] h (localSec s.map.tariff[j] (rtcSec s)) = [] → t.nx.bil.cal[j] = s.nx.bil.cal[j]) ∧
    t.nx.bil.m = s.nx.bil.m ∧ t = { s with nx := { s.nx with bil := t.nx.bil } }) ∧
  (∀ s : State, s.isl.ctl = true → ∃ t, exec .bilMdReset s = .next t ∧
    (∀ m : Fin 33, t.nx.bil.m[m] = { s.nx.bil.m[m] with maxF := {}, maxR := {} }) ∧
    t = { s with nx := { s.nx with bil := { s.nx.bil with m := t.nx.bil.m } } })

/-- Saves, checkpoints and tickets (R264, R268, R270, R274, R276): what each writes, and that nothing outside the bytes it
stores changes in the landing memory. -/
def Obligations.SavesAndTickets : Prop :=
  (∀ (k : Fin 64) (h : Nat × Nat × List Nat) (s : State), s.isl.ctl = true → s.fn % saveInt s = 0 → s.bilR.noSave = false →
    s.bilR.writing = none → nextSlot s = some k → s.fl.bil.hist.find? (fun h => h.1 + 1 = s.fn) = some h →
    ∃ t x, exec .save s = .next t ∧ t.bilR.writing = some (k, x) ∧ x.seq = s.bilR.saveSeq + 1 ∧ x.fn + 1 = s.fn ∧ x.rtc = h.2.1 ∧
      x.hash = s.smp.activeHash ∧ x.bil = s.fl.bil ∧ t.bilR.fnAon + 1 = s.fn ∧ t.bilR.slots = s.bilR.slots ∧
      t.bilR.ledger = s.bilR.ledger ∧ t = { s with bilR := t.bilR }) ∧
  (∀ s : State, s.fn % saveInt s ≠ 0 ∨ s.bilR.noSave = true ∨ s.bilR.writing ≠ none → exec .save s = .next s) ∧
  (∀ (k : Fin 64) (x : SaveSlot) (s : State), s.bilR.writing = some (k, x) →
    (∃ t, exec (.saveWriteDone true) s = .next t ∧ t.bilR.writing = none ∧ t.bilR.slots[k] = some x ∧ t.bilR.saveSeq = x.seq ∧
      (∀ j : Fin 64, j ≠ k → t.bilR.slots[j] = s.bilR.slots[j]) ∧ t.bilR.badSlots = s.bilR.badSlots ∧
      t.bilR.ledger = s.bilR.ledger) ∧
    (∃ t, exec (.saveWriteDone false) s = .next t ∧ t.bilR.writing = none ∧ t.bilR.slots[k] = none ∧
      t.bilR.badSlots = setBit s.bilR.badSlots k.val ∧ (∀ j : Fin 64, j ≠ k → t.bilR.slots[j] = s.bilR.slots[j]) ∧
      t.bilR.saveSeq = s.bilR.saveSeq ∧ nextSlot t ≠ some k)) ∧
  (∀ s : State, s.isl.ctl = true → Memory.wf s.lnd.mem = true → ∃ t, exec .bilCheckpoint s = .next t ∧ t.nx.bil.ckptFn = s.fn ∧
    memReadBytes t.lnd.mem checkpointBase 4 = [0x42, 0x53, 0x41, 0x56] ∧
    memReadBytes t.lnd.mem (checkpointBase + 12) 8 = leBytes 8 s.fn ∧
    ∀ a : Nat, a < checkpointBase ∨ checkpointBase + 32768 ≤ a → memRead t.lnd.mem a = memRead s.lnd.mem a) ∧
  (∀ (tk : Ticket) (ts : List Ticket) (i : Fin 256) (s : State), s.isl.ctl = true → s.nx.bil.toSign = tk :: ts → tk.ix = some i.val →
    Memory.wf s.lnd.mem = true → ∃ t, exec .ticketSigned s = .next t ∧ t.nx.bil.toSign = ts ∧ t.bilR.tickets[i] = ticketBytes s tk ∧
      memReadBytes t.lnd.mem (ticketBase + 576 * i.val) (ticketBytes s tk).length = ticketBytes s tk ∧
      (∀ j : Fin 256, j ≠ i → t.bilR.tickets[j] = s.bilR.tickets[j]) ∧
      ∀ a : Nat, a < ticketBase + 576 * i.val ∨ ticketBase + 576 * i.val + (ticketBytes s tk).length ≤ a →
        memRead t.lnd.mem a = memRead s.lnd.mem a) ∧
  (∀ s : State, s.nx.bil.toSign = [] → exec .ticketSigned s = .next s) ∧
  (∀ (ix : Word) (s : State), s.isl.ctl = true → ∃ t, exec (.ticketAck ix) s = .next t ∧ t.nx.bil.ticketRd = ix.setWidth 8 ∧
    t.nx.bil.unacked = s.nx.bil.unacked - ((ix.setWidth 8 : BitVec 8) - s.nx.bil.ticketRd).toNat ∧
    t.nx.bil.toSign = s.nx.bil.toSign ∧ t = { s with nx := { s.nx with bil := t.nx.bil } }) ∧
  (∀ (k : SetIx) (s : State), s.isl.ctl = true → field s.bilR.sel.toNat 0 6 = k.val → metOn s k = true → (s.map.met[k]).kind = 2 →
    (s.nx.bil.sess[k]).isOpen = true → (s.nx.bil.sess[k]).stop = none → ∃ t x, exec .bilStoreTicket s = .next t ∧
      t.nx.bil.sess[k] = { s.nx.bil.sess[k] with stop := some x } ∧ x.fn = s.fn ∧ x.cause = 0 ∧ x.hash = s.smp.activeHash ∧
      (∀ j : SetIx, j ≠ k → t.nx.bil.sess[j] = s.nx.bil.sess[j]) ∧
      t = { s with nx := { s.nx with bil := { s.nx.bil with sess := t.nx.bil.sess } } }) ∧
  (∀ (v : Word) (s : State), s.isl.ctl = true → ∃ t, exec (.bilSelSnapshot v) s = .next t ∧ t.bilR.sel = v &&& 0x3FFF ∧
    t.bilR.snapFn = s.fn ∧ t = { s with bilR := t.bilR } ∧
    (∀ m : Fin 33, field v.toNat 0 6 = m.val → field v.toNat 6 4 = 1 →
      t.bilR.snap = if v.getLsbD 13 then ((s.fl.bil.m[m]).t).rev else ((s.fl.bil.m[m]).t).fwd))

/-- Ledger commands (R258 to R260), with no other home entry due: an index out of range or an unusable entry changes nothing but
the result; each command whose conditions hold has its effect and result 0. -/
def Obligations.LedgerCommands : Prop :=
  (∀ s : State, s.isl.ctl = true → (∀ (j : SetIx) (b : Bind), s.nx.bil.bind[j] = some b → b.due = false) →
    1536 ≤ field s.bilR.ledgerSel.toNat 0 11 ∨ s.bilR.unusable.contains (field s.bilR.ledgerSel.toNat 0 11) = true →
    ∀ c n, (c, n) ∈ ([(.ledgerBind, 1), (.ledgerUnbind, 2), (.ledgerLoadCredit, 3), (.ledgerCreditMode, 4), (.ledgerRetire, 5),
      (.ledgerClear, 6), (.ledgerRead, 7), (.ledgerExport, 8), (.ledgerForcedBind, 9)] : List (Instr × Nat)) →
    ∃ t, exec c s = .next t ∧ t.nx.bil.ledgerOp = n ∧ t.nx.bil.ledgerDone = true ∧
      (t.nx.bil.ledgerResult = 1 ∨ t.nx.bil.ledgerResult = 7) ∧ t.bilR.ledger = s.bilR.ledger ∧ t.nx.bil.bind = s.nx.bil.bind ∧
      t.nx.bil.sess = s.nx.bil.sess ∧ t.lnd = s.lnd) ∧
  (∀ (ix : Fin 1536) (s : State), s.isl.ctl = true → field s.bilR.ledgerSel.toNat 0 11 = ix.val → s.bilR.unusable.contains ix.val = false →
    holder s ix = none → (∀ (j : SetIx) (b : Bind), s.nx.bil.bind[j] = some b → b.due = false) →
    (∃ t, exec .ledgerLoadCredit s = .next t ∧ t.nx.bil.ledgerResult = 0 ∧ t.bilR.ledger[ix] = { s.bilR.ledger[ix] with
        credit := (s.bilR.ledger[ix]).credit + signed 32 s.bilR.ledgerArg.toNat * 1000000000, writes := (s.bilR.ledger[ix]).writes + 1 } ∧
      (∀ j : Fin 1536, j ≠ ix → t.bilR.ledger[j] = s.bilR.ledger[j])) ∧
    (∃ t, exec .ledgerCreditMode s = .next t ∧ t.nx.bil.ledgerResult = 0 ∧ t.bilR.ledger[ix] = { s.bilR.ledger[ix] with
        creditMode := s.bilR.ledgerArg.getLsbD 0, writes := (s.bilR.ledger[ix]).writes + 1 }) ∧
    (∃ t, exec .ledgerRetire s = .next t ∧ t.nx.bil.ledgerResult = 0 ∧ t.bilR.ledger[ix] = { s.bilR.ledger[ix] with
        phase := 3, writes := (s.bilR.ledger[ix]).writes + 1 }) ∧
    ((s.bilR.ledger[ix]).phase = 3 → ∃ t, exec .ledgerClear s = .next t ∧ t.nx.bil.ledgerResult = 0 ∧ t.bilR.ledger[ix] = {} ∧
      (∀ j : Fin 1536, j ≠ ix → t.bilR.ledger[j] = s.bilR.ledger[j])) ∧
    ((s.bilR.ledger[ix]).phase ≠ 3 → ∃ t, exec .ledgerClear s = .next t ∧ t.nx.bil.ledgerResult = 9 ∧ t.bilR.ledger = s.bilR.ledger)) ∧
  (∀ (ix : Fin 1536) (k : SetIx) (s : State), s.isl.ctl = true → field s.bilR.ledgerSel.toNat 0 11 = ix.val →
    s.bilR.unusable.contains ix.val = false → holder s ix = some k → (∀ (j : SetIx) (b : Bind), s.nx.bil.bind[j] = some b → b.due = false) →
    (∃ t, exec .ledgerRetire s = .next t ∧ t.nx.bil.ledgerResult = 2 ∧ t.bilR.ledger = s.bilR.ledger ∧ t.nx.bil.bind = s.nx.bil.bind) ∧
    ((s.map.met[k]).kind = 2 → ∃ t, exec .ledgerUnbind s = .next t ∧ t.nx.bil.ledgerResult = 0 ∧ t.nx.bil.bind[k] = none ∧
      (t.bilR.ledger[ix]).unbindSec = rtcSec s ∧ (∀ j : SetIx, j ≠ k → t.nx.bil.bind[j] = s.nx.bil.bind[j])) ∧
    ((s.map.met[k]).kind ≠ 2 → ∃ t, exec .ledgerUnbind s = .next t ∧ t.nx.bil.ledgerResult = 6 ∧ t.nx.bil.bind = s.nx.bil.bind)) ∧
  (∀ (ix : Fin 1536) (k : SetIx) (o : OutIx) (s : State), s.isl.ctl = true → field s.bilR.ledgerSel.toNat 0 11 = ix.val →
    s.bilR.unusable.contains ix.val = false → holder s ix = none → field s.bilR.ledgerSel.toNat 16 6 = k.val → s.nx.bil.bind[k] = none →
    metOn s k = true → outOfSet s k = some o → ((s.fl.osq[o]).st).bindable = true → (s.vlk[o]).authSeen = true →
    (s.bilR.ledger[ix]).phase = 0 → (∀ (j : SetIx) (b : Bind), s.nx.bil.bind[j] = some b → b.due = false) →
    ((s.bilR.ledger[ix]).tag = 0 → ∃ t b, exec .ledgerBind s = .next t ∧ t.nx.bil.ledgerResult = 0 ∧ t.nx.bil.bind[k] = some b ∧
      b.ix = ix ∧ b.e.phase = 1 ∧ b.e.ident = s.bilR.ledgerId ∧ b.e.tag = linkTag (s.vlk[o]).evccid ∧ b.fn = s.fn ∧ b.forced = false) ∧
    (∃ t b, exec .ledgerForcedBind s = .next t ∧ t.nx.bil.ledgerResult = 0 ∧ t.nx.bil.bind[k] = some b ∧ b.ix = ix ∧
      b.e.phase = 1 ∧ b.e.tag = linkTag (s.vlk[o]).evccid ∧ b.e.forcedTag = true ∧ b.forced = true)) ∧
  (∀ (ix : Fin 1536) (s : State), s.isl.ctl = true → field s.bilR.ledgerSel.toNat 0 11 = ix.val → s.bilR.unusable.contains ix.val = false →
    (∀ (j : SetIx) (b : Bind), s.nx.bil.bind[j] = some b → b.due = false) →
    (∃ t, exec .ledgerRead s = .next t ∧ t.nx.bil.ledgerResult = 0 ∧ t.bilR.ledger = s.bilR.ledger ∧ t.nx.bil.bind = s.nx.bil.bind ∧
      (Memory.wf s.lnd.mem = true → memReadBytes t.lnd.mem ledgerWindow 256 = entryBytes s ix.val s.bilR.ledger[ix] ∧
        ∀ a : Nat, a < ledgerWindow ∨ ledgerWindow + 512 ≤ a → memRead t.lnd.mem a = memRead s.lnd.mem a)) ∧
    (ledgerKeyOk s = true → ticketKeyOk s = true → ∃ t, exec .ledgerExport s = .next t ∧ t.nx.bil.ledgerResult = 0 ∧
      t.bilR.ledger = s.bilR.ledger ∧ t.nx.bil.bind = s.nx.bil.bind) ∧
    (ledgerKeyOk s = false ∨ ticketKeyOk s = false → ∃ t, exec .ledgerExport s = .next t ∧ t.nx.bil.ledgerResult = 8 ∧ t.lnd = s.lnd))

/-- Commands of the switches (R166, R337 to R341): the command frame, its loss and the end of the hold, the staggered start,
the host's on and clear, and the ends of a pulse, an inrush window and a pick-up. -/
def Obligations.SwitchCommands : Prop :=
  (∀ s : State, s.isl.ctl = true → ∃ t, exec .auxCommandFrame s = .next t ∧ t.aux.held = false ∧
    (∀ k : Fin 48, (t.aux.sw[hsIx k]).cmd = hsCmd s k ∧
      (hsCmd s k = false → (s.aux.sw[hsIx k]).cmd = true → (t.aux.sw[hsIx k]).on = false)) ∧
    (∀ j : SwIx, 48 ≤ j.val → t.aux.sw[j] = s.aux.sw[j]) ∧
    t = { s with aux := t.aux, live := { s.live with brakeOn := t.live.brakeOn } }) ∧
  (∀ s : State, exec .auxCommandLoss s = .next { s with aux := { s.aux with held := true } }) ∧
  (∀ s : State, s.aux.held = true → ∃ t, exec .auxHoldExpiry s = .next t ∧ t.aux.held = false ∧
    (∀ k : Fin 48, (t.aux.sw[hsIx k]).on = false ∧ (t.aux.sw[hsIx k]).cmd = false) ∧
    (∀ j : SwIx, 48 ≤ j.val → t.aux.sw[j] = s.aux.sw[j]) ∧
    t = { s with aux := t.aux, live := { s.live with brakeOn := t.live.brakeOn } }) ∧
  (∀ s : State, s.aux.held = false → exec .auxHoldExpiry s = .next s) ∧
  (∀ (k : Fin 48) (s : State), firstWait s = some k → swFree s.aux.sw[hsIx k] = true → (s.aux.sw[hsIx k]).trip = false →
    ∃ t, exec (.auxStaggeredStart (hsIx k)) s = .next t ∧ (t.aux.sw[hsIx k]).on = true ∧ (t.aux.sw[hsIx k]).inrush = true ∧
      (t.aux.sw[hsIx k]).wait = false ∧ (∀ j : SwIx, j ≠ hsIx k → t.aux.sw[j] = s.aux.sw[j]) ∧
      t = { s with aux := { s.aux with sw := t.aux.sw }, live := { s.live with brakeOn := t.live.brakeOn } }) ∧
  (∀ (k : SwIx) (s : State), firstWait s = none → exec (.auxStaggeredStart k) s = .next s) ∧
  (∀ (k : Fin 48) (on : Bool) (s : State), s.isl.ctl = true → ((s.map.aux[hsIx k]).use = 1 ∧ isPulse s (hsIx k) = false) ∨
    ((s.map.aux[hsIx k]).use = 6 ∧ (on = false ∨ fwuHeld s = false)) → exec (.auxOn k on) s =
      .next { s with aux := { s.aux with sw := Vec.upd s.aux.sw (hsIx k) fun x => { x with ctl := on } } }) ∧
  (∀ (k : Fin 48) (s : State), s.isl.ctl = true → isPulse s (hsIx k) = true → exec (.auxOn k true) s =
      .next { s with aux := { s.aux with sw := Vec.upd s.aux.sw (hsIx k) fun x => { x with pulse := true } } }) ∧
  (∀ (k : Fin 48) (on : Bool) (s : State), s.isl.ctl = true → ((s.map.aux[hsIx k]).use ≠ 1 ∧ (s.map.aux[hsIx k]).use ≠ 6) ∨
    ((s.map.aux[hsIx k]).use = 6 ∧ on = true ∧ fwuHeld s = true) → ∃ t, exec (.auxOn k on) s = .next t ∧ t.aux = s.aux ∧
      t.hst.cRefused = s.hst.cRefused + 1 ∧ t.hst.refusedAddr = BitVec.ofNat 21 (0xC0004 + 0x20 * k.val) ∧
      t = { s with hst := t.hst, evs := t.evs }) ∧
  (∀ (k : SwIx) (s : State), s.isl.ctl = true → ∃ t, exec (.auxClear k) s = .next t ∧ (t.aux.sw[k]).retry = 8 ∧
    (t.aux.sw[k]).locked = false ∧ (t.aux.sw[k]).shed = false ∧ (t.aux.sw[k]).dt = (s.aux.sw[k]).dt ∧
    (t.aux.sw[k]).abs = (s.aux.sw[k]).abs ∧ ((s.aux.sw[k]).dt = true → (t.aux.sw[k]).on = (s.aux.sw[k]).on) ∧
    (∀ j : SwIx, j ≠ k → t.aux.sw[j] = s.aux.sw[j]) ∧
    t = { s with aux := { s.aux with sw := t.aux.sw }, live := { s.live with brakeOn := t.live.brakeOn } }) ∧
  (∀ (k : SwIx) (s : State), (s.aux.sw[k]).pulse = true → ∃ t, exec (.auxPulseEnd k) s = .next t ∧ (t.aux.sw[k]).on = false ∧
    (t.aux.sw[k]).pulse = false ∧ (t.aux.sw[k]).cmd = false ∧ (∀ j : SwIx, j ≠ k → t.aux.sw[j] = s.aux.sw[j])) ∧
  (∀ (k : SwIx) (s : State), (s.aux.sw[k]).on = true → k.val < 48 → (s.map.aux[k]).holdDuty ≠ 0 → exec (.auxHoldStart k) s =
      .next { s with aux := { s.aux with sw := Vec.upd s.aux.sw k fun x => { x with pwm := true } } }) ∧
  (∀ (k : SwIx) (s : State), exec (.auxInrushEnd k) s =
      .next { s with aux := { s.aux with sw := Vec.upd s.aux.sw k fun x => { x with inrush := false } } })

/-- Protection (R340 to R345): a trip turns the switch off and is an event, without a retry left it is locked off; a restart
uses one retry and needs both temperature latches clear; the budget sheds until 24.0 A are left. -/
def Obligations.SwitchProtection : Prop :=
  (∀ (k : SwIx) (s : State), (s.aux.sw[k]).on = true → ∃ t, exec (.auxOvercurrent k) s = .next t ∧ (t.aux.sw[k]).on = false ∧
    (t.aux.sw[k]).oc = true ∧ (t.aux.sw[k]).trip = true ∧ (t.aux.sw[k]).retry = (s.aux.sw[k]).retry ∧
    ((t.aux.sw[k]).locked = true ↔ ((s.aux.sw[k]).locked = true ∨ (s.aux.sw[k]).retry = 0)) ∧
    (t.aux.sw[k]).events.getLsbD 0 = true ∧ (∀ j : SwIx, j ≠ k → t.aux.sw[j] = s.aux.sw[j]) ∧
    t = { s with aux := { s.aux with sw := t.aux.sw }, live := { s.live with brakeOn := t.live.brakeOn }, arrived := t.arrived }) ∧
  (∀ (k : SwIx) (s : State), (s.aux.sw[k]).on = false → exec (.auxOvercurrent k) s = .next s) ∧
  (∀ (k : SwIx) (x : ThermTrip) (s : State), ∃ t, exec (.auxThermalTrip k x) s = .next t ∧ (t.aux.sw[k]).on = false ∧
    (x = .deltaT → (t.aux.sw[k]).dt = true ∧ (t.aux.sw[k]).abs = (s.aux.sw[k]).abs) ∧
    (x = .absolute → (t.aux.sw[k]).abs = true ∧ (t.aux.sw[k]).dt = (s.aux.sw[k]).dt) ∧
    ((s.aux.sw[k]).on = true → (t.aux.sw[k]).trip = true) ∧ (t.aux.sw[k]).retry = (s.aux.sw[k]).retry ∧
    (∀ j : SwIx, j ≠ k → t.aux.sw[j] = s.aux.sw[j])) ∧
  (∀ (k : SwIx) (x : ThermTrip) (s : State), ∃ t, exec (.auxThermalLatchClear k x) s = .next t ∧
    (x = .deltaT → (t.aux.sw[k]).dt = false ∧ (t.aux.sw[k]).abs = (s.aux.sw[k]).abs) ∧
    (x = .absolute → (t.aux.sw[k]).abs = false ∧ (t.aux.sw[k]).dt = (s.aux.sw[k]).dt) ∧
    (t.aux.sw[k]).retry = (s.aux.sw[k]).retry ∧ ((s.aux.sw[k]).trip = true → (t.aux.sw[k]).on = (s.aux.sw[k]).on) ∧
    (∀ j : SwIx, j ≠ k → t.aux.sw[j] = s.aux.sw[j])) ∧
  (∀ (k : SwIx) (s : State), (s.aux.sw[k]).trip = true → (s.aux.sw[k]).cmd = true → swFree s.aux.sw[k] = true →
    (s.aux.sw[k]).retry ≠ 0 → swPermitted s k = true → ∃ t, exec (.auxRestart k) s = .next t ∧ (t.aux.sw[k]).on = true ∧
      (t.aux.sw[k]).inrush = true ∧ (t.aux.sw[k]).trip = false ∧ (t.aux.sw[k]).oc = false ∧
      (t.aux.sw[k]).retry + 1 = (s.aux.sw[k]).retry ∧ ∀ j : SwIx, j ≠ k → t.aux.sw[j] = s.aux.sw[j]) ∧
  (∀ (k : SwIx) (s : State), (s.aux.sw[k]).dt = true ∨ (s.aux.sw[k]).abs = true ∨ (s.aux.sw[k]).retry = 0 ∨ (s.aux.sw[k]).cmd = false →
    exec (.auxRestart k) s = .next s) ∧
  (∀ (k : SwIx) (s : State), (s.aux.sw[k]).on = true → exec (.auxRetryRestore k) s =
      .next { s with aux := { s.aux with sw := Vec.upd s.aux.sw k fun x => { x with retry := 8 } } }) ∧
  (∀ (k : SwIx) (s : State), (s.aux.sw[k]).on = true → (s.aux.sw[k]).inrush = false → openRests s k = false →
    (s.map.aux[k]).olMode = 1 → (s.aux.sw[k]).openOn = false → ∃ t, exec (.auxOpenLoad k .onState) s = .next t ∧
      (t.aux.sw[k]).openOn = true ∧ (t.aux.sw[k]).on = true ∧ (t.aux.sw[k]).events.getLsbD 2 = true) ∧
  (∀ (k : SwIx) (s : State), (s.aux.sw[k]).on = false → (s.map.aux[k]).olMode = 3 → transmits s = true → ∃ t,
      exec (.auxOpenLoad k .externallyDriven) s = .next t ∧ (t.aux.sw[k]).ext = true ∧ (t.aux.sw[k]).short = true) ∧
  (∀ (k : SwIx) (s : State), (s.aux.sw[k]).on = false → (s.map.aux[k]).olMode = 3 → transmits s = false → ∃ t,
      exec (.auxOpenLoad k .externallyDriven) s = .next t ∧ (t.aux.sw[k]).ext = true ∧ (t.aux.sw[k]).short = (s.aux.sw[k]).short ∧
        t.arrived = s.arrived) ∧
  (∀ (k : SwIx) (s : State), exec (.auxOpenLoad k .ended) s = .next { s with aux := { s.aux with sw := Vec.upd s.aux.sw k fun x =>
      { x with openOn := false, openOff := false, ext := false, short := false } } }) ∧
  (∀ (ma : List Nat) (s : State), ∃ t, exec (.auxSenseConvert ma) s = .next t ∧
    (∀ k : SwIx, (t.aux.sw[k]).sense = min 4095 (2 * ma.getD k.val 0 / 5) ∧ (t.aux.sw[k]).on = (s.aux.sw[k]).on) ∧
    t.aux.sums = (hsSum t :: s.aux.sums).take 10 ∧ t = { s with aux := { s.aux with sw := t.aux.sw, sums := t.aux.sums } }) ∧
  (∀ s : State, s.aux.sums.length < 10 ∨ s.aux.sums.foldl (· + ·) 0 ≤ 96000 → exec .auxBudgetShed s = .next s) ∧
  (∀ s : State, 10 ≤ s.aux.sums.length → 96000 < s.aux.sums.foldl (· + ·) 0 → ∃ t, exec .auxBudgetShed s = .next t ∧
    ((List.finRange 48).map fun k => if (t.aux.sw[hsIx k]).on then (t.aux.sw[hsIx k]).sense else 0).sum ≤ 9600 ∧
    (∀ k : Fin 48, (s.aux.sw[hsIx k]).on = true → (t.aux.sw[hsIx k]).on = true ∨ (t.aux.sw[hsIx k]).shed = true) ∧
    (∀ k : Fin 48, (s.aux.sw[hsIx k]).on = false → t.aux.sw[hsIx k] = s.aux.sw[hsIx k]) ∧
    (∀ j : SwIx, 48 ≤ j.val → t.aux.sw[j] = s.aux.sw[j]))

/-- Amendments and flash (R50 to R55): a submission is refused while another is under way; a scheduled one can be cancelled
before its frame; an applied one waits until it stands in both chain areas; a checked image goes to flash, whose copy and
chain are erased first; a read-back decides. -/
def Obligations.AmendmentsAndFlash : Prop :=
  (∀ s : State, s.isl.ctl = true → amendBusy s = true → ∃ t, exec .amendSubmit s = .next t ∧ t.smp = s.smp ∧
    t.hst.cRefused = s.hst.cRefused + 1 ∧ t.hst.refusedAddr = 0x100A0 ∧ t = { s with hst := t.hst, evs := t.evs }) ∧
  (∀ s : State, s.isl.ctl = true → amendBusy s = false → lndBad stagingBase s.smp.amendLen.toNat s = [] →
    ∃ t, exec .amendSubmit s = .next t ∧ t.smp.amState = 1 ∧ t.smp.amImage = lndRead stagingBase s.smp.amendLen.toNat s ∧
      t.smp.amLatchFn = s.fn ∧ t.smp.amReason = 0 ∧ t = { s with smp := t.smp }) ∧
  (∀ s : State, s.isl.ctl = true → s.smp.amState = 1 → ∃ t, exec .amendValidated s = .next t ∧
    (t.smp.amState = 2 ∨ (t.smp.amState = 5 ∧ t.smp.amReason ≠ 0)) ∧
    (t.smp.amState = 2 → t.smp.amFn = getF s.smp.amImage 80 8 ∧ s.smp.amLatchFn + 8 ≤ t.smp.amFn) ∧
    t.map = s.map ∧ t.smp.recs = s.smp.recs ∧ t = { s with smp := t.smp, evs := t.evs }) ∧
  (∀ s : State, s.smp.amState ≠ 1 → exec .amendValidated s = .next s) ∧
  (∀ s : State, s.isl.ctl = true → s.smp.amState = 2 → s.fn < s.smp.amFn →
    exec .amendCancel s = .next { s with smp := { s.smp with amState := 6 } } ∧ exec .amendApply s = .next s) ∧
  (∀ s : State, s.smp.amState ≠ 2 ∨ s.smp.amFn ≤ s.fn → exec .amendCancel s = .next s) ∧
  (∀ s : State, s.isl.ctl = true → amendDue s = true → ∃ t, exec .amendApply s = .next t ∧
    (∀ e, checkOwn s s.smp.amImage none true = .error e → t.smp.amState = 5 ∧ t.smp.amReason = e.1 ∧ t.map = s.map ∧
      t.smp.recs = s.smp.recs) ∧
    (∀ raw, checkOwn s s.smp.amImage none true = .ok raw →
      (amendBusyMeter (amendRecs s.smp.amImage raw).1 s = true → t.smp.amState = 5 ∧ t.smp.amReason = 17 ∧ t.map = s.map ∧
        t.smp.recs = s.smp.recs) ∧
      (amendBusyMeter (amendRecs s.smp.amImage raw).1 s = false →
        amendMoves (amendRecs s.smp.amImage raw).1 (decodeMap (runPasses (mergeRecs s.smp.recs (amendRecs s.smp.amImage raw).1)
          s.smp.sealApplied s.smp.lost s.smp.pulseTimer).recs) s = true →
        t.smp.amState = 5 ∧ t.smp.amReason = 20 ∧ t.map = s.map ∧ t.smp.recs = s.smp.recs) ∧
      (amendBusyMeter (amendRecs s.smp.amImage raw).1 s = false →
        amendMoves (amendRecs s.smp.amImage raw).1 (decodeMap (runPasses (mergeRecs s.smp.recs (amendRecs s.smp.amImage raw).1)
          s.smp.sealApplied s.smp.lost s.smp.pulseTimer).recs) s = false →
        t.smp.toPersist = s.smp.toPersist ++ [s.smp.amImage] ∧
        t.smp.amState = 3 ∧ t.smp.amAppliedAt = s.fn ∧ t.smp.lastAmendFn = s.fn ∧ t.smp.amendCount = s.smp.amendCount + 1 ∧
          t.smp.recs = mergeRecs s.smp.recs (amendRecs s.smp.amImage raw).1 ∧ t.smp.sealApplied = s.smp.sealApplied ∧
          t.smp.activeHash = activeHashOf t.smp ∧ t.smp.hash = s.smp.hash))) ∧
  (∀ (img : List Byte) (rest : List (List Byte)) (s : State), s.isl.ctl = true → s.smp.toPersist = img :: rest → ∃ t,
    exec .amendPersist s = .next t ∧ t.smp.toPersist = rest ∧
    t.smp.amState = (if s.smp.amState = 3 ∧ rest = [] then 4 else s.smp.amState) ∧
    t.flash = { s.flash with chainA := s.flash.chainA ++ [img], chainB := s.flash.chainB ++ [img] } ∧
    t.smp.intStatus = setBit s.smp.intStatus 3 ∧ t = { s with smp := t.smp, flash := t.flash, evs := t.evs }) ∧
  (∀ s : State, s.smp.toPersist = [] → exec .amendPersist s = .next s) ∧
  (∀ s : State, s.isl.ctl = true → s.smp.flashState ≠ 1 →
    lndBad stagingBase (min s.smp.flashLen.toNat 0x100000) s = [] → ∃ t u, exec .smpFlashWriteA s = .next t ∧
      exec .smpFlashWriteB s = .next u ∧
    (∀ raw, checkOwn s (lndRead stagingBase (min s.smp.flashLen.toNat 0x100000) s) none false = .ok raw →
      t = { s with smp := { s.smp with flashState := 1, flashReason := 0 }, flash := { s.flash with
        writing := some false, image := lndRead stagingBase (min s.smp.flashLen.toNat 0x100000) s, copyA := [], chainA := [] } } ∧
      u = { s with smp := { s.smp with flashState := 1, flashReason := 0 }, flash := { s.flash with
        writing := some true, image := lndRead stagingBase (min s.smp.flashLen.toNat 0x100000) s, copyB := [], chainB := [] } }) ∧
    (∀ e, checkOwn s (lndRead stagingBase (min s.smp.flashLen.toNat 0x100000) s) none false = .error e →
      t.flash = s.flash ∧ t.smp.flashState = 3 ∧ t.smp.flashReason = e.1 ∧ u.flash = s.flash ∧ u.smp.flashState = 3 ∧
        u.smp.flashReason = e.1)) ∧
  (∀ (ok : Bool) (s : State), s.isl.ctl = true → s.flash.writing = some false → ∃ t, exec (.smpFlashDone ok) s = .next t ∧
    t.flash.writing = none ∧ t.flash.copyA = (if ok then s.flash.image else []) ∧ t.flash.copyB = s.flash.copyB ∧
    t.flash.chainB = s.flash.chainB ∧ t.smp.flashState = (if ok then 2 else 3) ∧ t.map = s.map ∧ t.smp.recs = s.smp.recs) ∧
  (∀ (ok : Bool) (s : State), s.isl.ctl = true → s.flash.writing = some true → ∃ t, exec (.smpFlashDone ok) s = .next t ∧
    t.flash.writing = none ∧ t.flash.copyB = (if ok then s.flash.image else []) ∧ t.flash.copyA = s.flash.copyA ∧
    t.flash.chainA = s.flash.chainA ∧ t.smp.flashState = (if ok then 2 else 3) ∧ t.map = s.map ∧ t.smp.recs = s.smp.recs) ∧
  (∀ (v : Word) (s : State), s.isl.ctl = true → exec (.clampSelWrite v) s = .next { s with smp := { s.smp with
      clampSel := v.setWidth 8, clampData := match s.smp.report[(v.setWidth 8 : BitVec 8).toNat]? with
        | some e => clampBytes e | none => List.replicate 16 0 } })

/-- The tandem link and what arrives on it (R193, R282 to R287, R292, R297): a follower sets its boundary from the markers of the
lead, each packet is held for the step that uses it, a package that transmits its own state takes no copy, the lead sends its
snapshot and its protocol state, and nothing is taken while the link is down. -/
def Obligations.TandemLink : Prop :=
  (∀ s : State, s.isl.ctl = true → s.map.tandem.linkMode ≠ 0 → s.tdm.linkUp = false → ∃ t, exec .linkTraining s = .next t ∧
    t.tdm = { s.tdm with linkUp := true, intStatus := setBit s.tdm.intStatus 7 } ∧ t = { s with tdm := t.tdm, evs := t.evs }) ∧
  (∀ s : State, s.isl.ctl = true → s.tdm.linkUp = true → ∃ t, exec .tandemLinkDown s = .next t ∧
    t.tdm = { s.tdm with linkUp := false, timeLock := false, intStatus := setBit s.tdm.intStatus 6 } ∧
    t = { s with tdm := t.tdm, evs := t.evs }) ∧
  (∀ (m : Marker) (a : Int) (s : State), s.isl.ctl = true → s.tdm.linkUp = true →
    (m.fn = s.fn ∧ a ≤ 5000) ∨ s.tdm.st = .wait ∨ s.tdm.st = .isolated →
    exec (.markerReceive ⟨m, a⟩) s = .next { s with tdm := timeStep m a { s.tdm with got := some m, everMarker := true } }) ∧
  (∀ (m : Marker) (a : Int) (s : State), s.tdm.linkUp = false ∨
    ((m.fn ≠ s.fn ∨ 5000 < a) ∧ s.tdm.st ≠ .wait ∧ s.tdm.st ≠ .isolated) → exec (.markerReceive ⟨m, a⟩) s = .next s) ∧
  (∀ (m : Marker) (a : Int) (t : Tdm), m.lead = true → t.st = .follow ∨ t.st = .sync ∨ t.st = .reseed →
    (t.timeLock = false ∨ (a - (t.rtt / 2 : Nat)).natAbs ≤ 400 →
      timeStep m a t = { t with timeLock := true, skew := a - (t.rtt / 2 : Nat) }) ∧
    (t.timeLock = true → 400 < (a - (t.rtt / 2 : Nat)).natAbs → timeStep m a t = { t with lockErr := t.lockErr + 1 })) ∧
  (∀ (m : Marker) (a : Int) (t : Tdm), m.lead = false ∨ (t.st ≠ .follow ∧ t.st ≠ .sync ∧ t.st ≠ .reseed) → timeStep m a t = t) ∧
  (∀ s : State, s.isl.ctl = true → s.tdm.st ≠ .single → s.tdm.got = none → s.tdm.missNow = false → exec .markerMissing s =
      .next { s with tdm := { s.tdm with missNow := true, missRun := s.tdm.missRun + 1, cMiss := s.tdm.cMiss + 1 } }) ∧
  (∀ s : State, s.tdm.st = .single ∨ s.tdm.got ≠ none ∨ s.tdm.missNow = true → exec .markerMissing s = .next s) ∧
  (∀ (rt : Nat) (s : State), s.isl.ctl = true → exec (.delayMeasure rt) s = .next { s with tdm := { s.tdm with rtt := rt } }) ∧
  (∀ (h : Heartbeat) (k : CanIx) (s : State), s.isl.ctl = true → hbBus s = some k →
    exec (.heartbeatReceive h) s = .next { s with tdm := { s.tdm with hb := some h, hbLast := some h } } ∧
    ∃ t g, exec .heartbeatSend s = .next t ∧ t = { s with tdm := { s.tdm with hbSent := some g } } ∧ g.fn = BitVec.ofNat 32 s.fn ∧
      g.missed = s.tdm.cMiss ∧ g.byte0.getLsbD 0 = s.tdm.identity ∧ g.byte0.getLsbD 1 = isLead s ∧ g.byte0.getLsbD 5 = s.tdm.ownFault ∧
      g.byte0.getLsbD 6 = s.tdm.claim ∧ g.byte0.getLsbD 7 = s.tdm.grant) ∧
  (∀ (n : Nat) (x : Snap) (s : State), s.isl.ctl = true → s.tdm.linkUp = true → isLead s = false → ∃ t, exec (.snapPacket n x) s = .next t ∧
    t = { s with tdm := { s.tdm with snap := t.tdm.snap, bytesIn := s.tdm.bytesIn + snapLen { x with fn := n } } } ∧
    (s.tdm.st ≠ .reseed → s.tdm.st ≠ .sync → t.tdm.snap = some { x with fn := n }) ∧
    (s.tdm.st = .reseed ∨ s.tdm.st = .sync → s.tdm.snap.isSome = true → t.tdm.snap = s.tdm.snap) ∧
    (s.tdm.st = .reseed → s.tdm.snap = none → t.tdm.snap = some { x with fn := n }) ∧
    (s.tdm.st = .sync → s.tdm.snap = none → t.tdm.snap = if s.tdm.bulkDone then some { x with fn := n } else none)) ∧
  (∀ (i : InputSet) (s : State), s.isl.ctl = true → s.tdm.linkUp = true → isLead s = false ∨ s.tdm.oldSets ≠ 0 →
    exec (.insetPacket i) s = .next { s with tdm := { s.tdm with inset := some i } }) ∧
  (∀ (fn : Nat) (p : Proto) (s : State), s.isl.ctl = true → s.tdm.linkUp = true → isLead s = false → ∃ t,
    exec (.protoPacket fn p) s = .next t ∧ t = { s with
      vlk := t.vlk, slac := t.slac, tdm := { s.tdm with proto := some (fn, p), bytesIn := s.tdm.bytesIn + protoLen p } } ∧
    (∀ o : OutIx, t.vlk[o] = { s.vlk[o] with
      matched := (p.ports[o]).matched, nmk := (p.ports[o]).nmk, tcp := (p.ports[o]).tcp, tls := (p.ports[o]).tls,
      session := (p.ports[o]).session, layer := (p.ports[o]).layer, sdp := (p.ports[o]).sdp }) ∧
    ∀ r ∈ p.runs, ∃ q ∈ t.slac, q.mac = r.mac ∧ q.runId = r.runId ∧ q.bound = r.bound ∧ q.cands = r.cands) ∧
  (∀ (x : Snap) (fn : Nat) (p : Proto) (i : InputSet) (s : State), isLead s = true ∨ s.tdm.linkUp = false →
    exec (.snapPacket fn x) s = .next s ∧ exec (.protoPacket fn p) s = .next s ∧
      (s.tdm.oldSets = 0 ∨ s.tdm.linkUp = false → exec (.insetPacket i) s = .next s)) ∧
  (∀ (n : Nat) (x : Snap) (s : State), s.tdm.linkUp = true → s.tdm.st = .lead → (tdmSend n x s).tdm.sentSnap = some x ∧
    (tdmSend n x s).tdm.sentProto = some (protoOf s) ∧ (tdmSend n x s).tdm.sentPair = some (ownPair s)) ∧
  (∀ (n : Nat) (x : Snap) (s : State), s.tdm.st = .follow → (tdmSend n x s).tdm.sentSnap = none ∧
    (tdmSend n x s).tdm.sentProto = none ∧ (tdmSend n x s).tdm.sentPair = none) ∧
  (∀ (fn : Nat) (crc : BitVec 64) (s : State), s.isl.ctl = true → s.tdm.linkUp = true → exec (.digestPacket fn crc) s =
      .next { s with tdm := { s.tdm with pDigest := crc, pDigestFn := some fn } }) ∧
  (∀ (p : PairInfo) (s : State), s.isl.ctl = true → s.tdm.linkUp = true → ∃ t, exec (.pairPacket p) s = .next t ∧
    t.tdm.pair = some p ∧ (p.identity = s.tdm.strapHigh → t.tdm.identity = (!s.tdm.strapHigh) ∧ t.tdm.strapConflict = false) ∧
    (p.identity ≠ s.tdm.strapHigh → t.tdm.strapConflict = true ∧
      (t.tdm.identity = false ↔ s.otp.serial.toNat < p.serial.toNat)) ∧
    t.tdm.pairBits = pairCheck p s ∧ t = { s with tdm := t.tdm, evs := t.evs } ∧
    (hashBytes p.hash ≠ ownHash s → s.tdm.st = .wait ∨ s.tdm.st = .sync → t.tdm.pend = some (.isolated, 1)))

/-- Joining and roles (R27, R281, R293, R296, R298, R299, R302): a joiner writes the bulk data it is sent, and nobody else does;
it recomputes from the lead's snapshot and the sets that it retained, follows or is reached then, and gives up after 100 frames. The lead is lost on both paths before a
follower takes over; a swap acts in the frame before its boundary; the host's commands act only in their states. -/
def Obligations.TandemRoles : Prop :=
  (∀ (ix : Fin 1536) (e : Ledger) (s : State), s.isl.ctl = true → s.tdm.linkUp = true → s.tdm.st = .sync → ∃ t,
    exec (.bulkPacket (.ledger ix e)) s = .next t ∧ t.bilR.ledger = s.bilR.ledger.set ix e ∧
      t.bilR.unusable = s.bilR.unusable.filter (· ≠ ix.val) ∧ t = { s with
        bilR := { s.bilR with ledger := t.bilR.ledger, ledgerTag := t.bilR.ledgerTag, unusable := t.bilR.unusable },
        tdm := { s.tdm with bulkLedger := s.tdm.bulkLedger + 1 } }) ∧
  (∀ (ix : Fin 256) (bs : List Byte) (s : State), s.isl.ctl = true → s.tdm.linkUp = true → s.tdm.st = .sync → Memory.wf s.lnd.mem = true →
    ∃ t, exec (.bulkPacket (.ticket ix bs)) s = .next t ∧ t.bilR.tickets[ix] = bs ∧ t.tdm.bulkTickets = s.tdm.bulkTickets + 1 ∧
      memReadBytes t.lnd.mem (ticketBase + 576 * ix.val) bs.length = bs ∧
      ∀ a : Nat, a < ticketBase + 576 * ix.val ∨ ticketBase + 576 * ix.val + bs.length ≤ a →
        memRead t.lnd.mem a = memRead s.lnd.mem a) ∧
  (∀ (f : BitVec 32) (s : State), s.isl.ctl = true → s.tdm.linkUp = true → s.tdm.st = .sync → ∃ t,
    exec (.bulkPacket (.welds f)) s = .next t ∧ t.tdm.bulkDone = true ∧
      ∀ o : OutIx, (t.fl.osq[o]).weld = f.getLsbD o.val ∧ (t.nx.osq[o]).weld = f.getLsbD o.val ∧ (t.nx.osq[o]).st = (s.nx.osq[o]).st) ∧
  (∀ (x : List Byte) (k : Bool) (s : State), s.isl.ctl = true → s.tdm.linkUp = true → s.tdm.st = .sync →
    exec (.bulkPacket (.ledgerKey x false k)) s = .next { s with tdm := { s.tdm with pend := some (.isolated, 7) } }) ∧
  (∀ (x : List Byte) (s : State), s.isl.ctl = true → s.tdm.linkUp = true → s.tdm.st = .sync ∨ s.tdm.st = .follow → ∃ t,
    exec (.bulkPacket (.ledgerKey x true false)) s = .next t ∧
      (∀ k, Config.aesOpen (transferKey s) x = some k → t = { s with
        hwd := { s.hwd with bbk := s.hwd.bbk.set 1 (some { typ := 1, key := k }), intStatus := setBit s.hwd.intStatus 5 } }) ∧
      (Config.aesOpen (transferKey s) x = none → s.tdm.st = .sync → t = { s with tdm := { s.tdm with pend := some (.isolated, 7) } }) ∧
      (Config.aesOpen (transferKey s) x = none → s.tdm.st = .follow → t = s)) ∧
  (∀ (ix : Fin 1536) (e : Ledger) (q : Fin 256) (bs x : List Byte) (f : BitVec 32) (k : Bool) (s : State), s.tdm.st = .follow →
    exec (.bulkPacket (.ledger ix e)) s = .next s ∧ exec (.bulkPacket (.ticket q bs)) s = .next s ∧
    exec (.bulkPacket (.welds f)) s = .next s ∧ exec (.bulkPacket (.ledgerKey x false k)) s = .next s) ∧
  (∀ (b : Bulk) (s : State), s.tdm.st ≠ .sync → s.tdm.st ≠ .follow → exec (.bulkPacket b) s = .next s) ∧
  (∀ (x : Snap) (s : State), s.isl.ctl = true → s.tdm.reached = false → s.tdm.snap = some x → x.fn < s.fn →
    (s.tdm.st = .sync → s.tdm.bulkDone = true → ∃ t r, exec .joinComplete s = .next t ∧
      r = replay s.fn (s.ctl.clu.map (·.next)) ((s.tdm.kept.filter fun k => x.fn ≤ k.fn) ++ [keptNow s])
        (onTdm (fun t => { t with reached := true }) { putSnap x s with fn := x.fn }) ∧ t.fl = r.fl ∧ t.nx = r.nx ∧
      t = { s with
        fl := t.fl, nx := t.nx, ctl := t.ctl, alc := t.alc, osqR := t.osqR, cclR := t.cclR, can := t.can, vlk := t.vlk,
        bilR := { s.bilR with cfg := t.bilR.cfg, calMap := t.bilR.calMap }, met := { s.met with tamperCfg := t.met.tamperCfg },
        tdm := { s.tdm with reached := true, kept := [], lag := 0, pend := some (.follow, 0) } }) ∧
    (s.tdm.st = .reseed → ∃ t r, exec .reseedCatchup s = .next t ∧
      r = replay s.fn (s.ctl.clu.map (·.next)) ((s.tdm.kept.filter fun k => x.fn ≤ k.fn) ++ [keptNow s])
        (onTdm (fun t => { t with reached := true }) { putSnap x s with fn := x.fn }) ∧ t.fl = r.fl ∧ t.nx = r.nx ∧
      t = { s with
        fl := t.fl, nx := t.nx, ctl := t.ctl, alc := t.alc, osqR := t.osqR, cclR := t.cclR, can := t.can, vlk := t.vlk,
        bilR := { s.bilR with cfg := t.bilR.cfg, calMap := t.bilR.calMap }, met := { s.met with tamperCfg := t.met.tamperCfg },
        tdm := { s.tdm with reached := true, kept := [], lag := 0 } })) ∧
  (∀ s : State, s.isl.ctl = true → s.tdm.st = .sync → s.tdm.reached = true → exec .joinComplete s =
      .next { s with tdm := { s.tdm with pend := some (.follow, 0) } }) ∧
  (∀ s : State, s.tdm.snap = none → s.tdm.reached = false → exec .joinComplete s = .next s ∧ exec .reseedCatchup s = .next s) ∧
  (∀ s : State, s.isl.ctl = true → s.tdm.st = .sync → 100 ≤ s.tdm.joinFrames → s.tdm.pend = none → exec .joinTimeout s =
      .next { s with tdm := { s.tdm with pend := some (.isolated, if s.tdm.bulkDone then 8 else 7) } }) ∧
  (∀ s : State, s.isl.ctl = true → s.tdm.st = .wait → s.tdm.everMarker = false → s.map.tandem.joinWait ≤ s.tdm.mapFrames →
    s.tdm.pend = none → exec .joinWaitExpiry s = .next { s with tdm := { s.tdm with
      pend := some (if s.tdm.upSeen then (.isolated, 10) else (.lead, 0)) } }) ∧
  (∀ s : State, s.tdm.st ≠ .wait ∨ s.tdm.everMarker = true → exec .joinWaitExpiry s = .next s) ∧
  (∀ s : State, s.isl.ctl = true → leadLost s = true → s.tdm.st = .follow → s.tdm.pend = none → ∃ t, exec .takeover s = .next t ∧
    t.tdm = { s.tdm with pend := some (.lead, 0), intStatus := setBit s.tdm.intStatus 4 } ∧ t = { s with tdm := t.tdm, evs := t.evs }) ∧
  (∀ s : State, s.isl.ctl = true → leadLost s = true → s.tdm.st = .sync ∨ s.tdm.st = .reseed → ∃ t, exec .takeover s = .next t ∧
    t.tdm.restart = true ∧ t.tdm.st = s.tdm.st) ∧
  (∀ s : State, leadLost s = false ∨ s.tdm.st = .lead ∨ s.tdm.st = .single → exec .takeover s = .next s) ∧
  (∀ (k : SwapKind) (s : State), s.isl.ctl = true → s.tdm.swap = some (s.fn + 1, k) → s.tdm.pend = none → ∃ t, exec .roleSwap s = .next t ∧
    (s.tdm.ownFault = true → t.tdm.pend = some (.faulted, 0)) ∧
    (s.tdm.ownFault = false → s.tdm.st = .follow → t.tdm.pend = some (.lead, 0)) ∧
    (s.tdm.ownFault = false → s.tdm.st = .lead → k ≠ .fault → t.tdm.pend = some (.follow, 0)) ∧
    (s.tdm.ownFault = false → s.tdm.st = .lead → k = .fault → t = s) ∧ t = { s with tdm := { s.tdm with pend := t.tdm.pend } }) ∧
  (∀ (f : Nat) (k : SwapKind) (s : State), s.tdm.swap = some (f, k) → f ≠ s.fn + 1 → exec .roleSwap s = .next s) ∧
  (∀ s : State, s.isl.ctl = true →
    exec .tdmRejoin s = .next (if s.tdm.st = .isolated then { s with tdm := { s.tdm with cmdRejoin := true } } else s) ∧
    exec .tdmYield s = .next (if s.tdm.st = .lead then { s with tdm := { s.tdm with cmdYield := true } } else s) ∧
    exec .tdmHoldReturn s = .next { s with tdm := { s.tdm with ctrlHold := true } } ∧
    exec .tdmDeclareFault s = .next (if (s.tdm.st = .lead ∨ s.tdm.st = .follow) ∧ inStep s = true then
      { s with tdm := { s.tdm with ownFault := true } } else s)) ∧
  (∀ (m : Marker) (s : State), s.tdm.st = .lead → s.tdm.got = some m → m.state = 4 → s.tdm.pend = none →
    (((secondLead s).tdm.pend = some (.isolated, 6)) ↔
      (s.tdm.leadAge < m.leadAge ∨ (s.tdm.leadAge = m.leadAge ∧ s.tdm.identity = true))))

/-- Heartwood commands (R371 to R374, R379 to R383): a command begins where none runs, its result and output stand for its
completion, and only the slot that it names changes. -/
def Obligations.HeartwoodCommands : Prop :=
  (∀ (a : Word) (s : State), s.isl.met = true → s.hwd.busy = none →
    ∀ c n, (c, n) ∈ ([(.hwdGenerate a, 1), (.hwdImport a, 2), (.hwdPublic a, 3), (.hwdDelete a, 4), (.hwdReseal a, 5),
      (.hwdResealCommit a, 6), (.hwdAttest a, 7), (.hwdBbkGenerate a, 8), (.hwdEnrollSmp a, 9)] : List (Instr × Nat)) →
    ∃ t r, exec c s = .next t ∧ t.hwd.busy = some r ∧ r.op = n ∧ t.hwd.done = false ∧ t.hwd.ops = s.hwd.ops + 1 ∧ t.hwd.arg = a ∧
      t.hwd.root = s.hwd.root ∧ t.hwd.tc = s.hwd.tc ∧ t.hwd.meas = s.hwd.meas ∧ t.lnd = s.lnd ∧ t.fl = s.fl ∧ t.nx = s.nx ∧
      t.fbk = s.fbk) ∧
  (∀ (a : Word) (s : State), s.hwd.busy ≠ none →
    ∀ c, c ∈ ([.hwdGenerate a, .hwdImport a, .hwdPublic a, .hwdDelete a, .hwdReseal a, .hwdResealCommit a, .hwdAttest a,
      .hwdBbkGenerate a, .hwdEnrollSmp a] : List Instr) → exec c s = .next s) ∧
  (∀ (a : Word) (k : Fin 128) (s : State), s.isl.met = true → s.hwd.busy = none → argSlot a = k.val → 1 ≤ argTyp a → argTyp a ≤ 3 →
    derivRefused s = false → s.hwd.active[k] = none → s.hwd.trngFail = false → ∃ t r, exec (.hwdGenerate a) s = .next t ∧
      t.hwd.busy = some r ∧ r.result = 0 ∧ t.hwd.active[k] = some false ∧ entTyp t.hwd.bankA[k] = argTyp a ∧
      t.hwd.bankB = s.hwd.bankB ∧ t.live.slotValid = validBits t.hwd.active ∧
      ∀ j : Fin 128, j ≠ k → t.hwd.active[j] = s.hwd.active[j] ∧ t.hwd.bankA[j] = s.hwd.bankA[j]) ∧
  (∀ (a : Word) (k : Fin 128) (x : Bool) (s : State), s.isl.met = true → s.hwd.busy = none → argSlot a = k.val → 1 ≤ argTyp a →
    argTyp a ≤ 3 → derivRefused s = false → s.hwd.active[k] = some x →
    ∀ c, c ∈ ([.hwdGenerate a, .hwdImport a] : List Instr) → ∃ t r, exec c s = .next t ∧ t.hwd.busy = some r ∧ r.result = 2 ∧
      t.hwd.active = s.hwd.active ∧ t.hwd.bankA = s.hwd.bankA ∧ t.hwd.bankB = s.hwd.bankB) ∧
  (∀ (a : Word) (k : Fin 128) (s : State), s.isl.met = true → s.hwd.busy = none → argSlot a = k.val →
    1 ≤ argTyp a → argTyp a ≤ 3 → derivRefused s = false → s.hwd.active[k] = none → ∃ t r, exec (.hwdImport a) s = .next t ∧
      t.hwd.busy = some r ∧
      (∀ key, Config.hwdImport (imk s) (lndRead hwdBase 16384 s) = some key → r.result = 0 ∧ t.hwd.active[k] = some false ∧
        entTyp t.hwd.bankA[k] = argTyp a) ∧
      (Config.hwdImport (imk s) (lndRead hwdBase 16384 s) = none → r.result = 7 ∧ t.hwd.active = s.hwd.active ∧
        t.hwd.bankA = s.hwd.bankA)) ∧
  (∀ (a : Word) (s : State), s.isl.met = true → s.hwd.busy = none → argSlot a = 0xFE → derivRefused s = false → ∃ t r,
    exec (.hwdPublic a) s = .next t ∧ t.hwd.busy = some r ∧ r.result = 0 ∧ r.out = Config.ecdsaPublic (idk s)) ∧
  (∀ (a : Word) (k : Fin 128) (s : State), s.isl.met = true → s.hwd.busy = none → argSlot a = k.val → ∃ t,
    exec (.hwdDelete a) s = .next t ∧ t.hwd.bankA[k] = [] ∧ t.hwd.bankB[k] = [] ∧ t.hwd.active[k] = none ∧
      ∀ j : Fin 128, j ≠ k → t.hwd.active[j] = s.hwd.active[j] ∧ t.hwd.bankA[j] = s.hwd.bankA[j] ∧ t.hwd.bankB[j] = s.hwd.bankB[j]) ∧
  (∀ (a : Word) (s : State), s.isl.met = true → s.hwd.busy = none → s.fwu.target = none → ∃ t r, exec (.hwdReseal a) s = .next t ∧
    t.hwd.busy = some r ∧ r.result = 9 ∧ t.hwd.bankA = s.hwd.bankA ∧ t.hwd.bankB = s.hwd.bankB) ∧
  (∀ (a : Word) (s : State), s.isl.met = true → s.hwd.busy = none → ∃ t, exec (.hwdResealCommit a) s = .next t ∧
    t.hwd.pendCommit = 0 ∧ t.hwd.committed = true ∧ t.hwd.active = s.hwd.active ∧
    ∀ k : Fin 128, (s.hwd.pendCommit.getLsbD k.val = true → s.hwd.active[k] = some false → t.hwd.bankB[k] = [] ∧
      t.hwd.bankA[k] = s.hwd.bankA[k]) ∧
      (s.hwd.pendCommit.getLsbD k.val = false → t.hwd.bankA[k] = s.hwd.bankA[k] ∧ t.hwd.bankB[k] = s.hwd.bankB[k])) ∧
  (∀ (a : Word) (s : State), s.isl.met = true → s.hwd.busy = none → ∃ t r, exec (.hwdAttest a) s = .next t ∧ t.hwd.busy = some r ∧
    (derivRefused s = true → r.result = 5 ∧ r.out = [] ∧ t.hwd.attFn = s.hwd.attFn) ∧
    (derivRefused s = false → r.result = 0 ∧ t.hwd.attFn = s.fn ∧ r.out.take 4 = [0x41, 0x54, 0x53, 0x54])) ∧
  (∀ (a : Word) (b : Fin 8) (s : State), s.isl.met = true → s.hwd.busy = none → argSlot a = b.val → bbkTypOk b.val (argTyp a) = true →
    s.hwd.bbk[b] = none → s.hwd.trngFail = false → ∃ t r k, exec (.hwdBbkGenerate a) s = .next t ∧ t.hwd.busy = some r ∧
      r.result = 0 ∧ t.hwd.bbk[b] = some k ∧ k.typ = argTyp a ∧ ∀ j : Fin 8, j ≠ b → t.hwd.bbk[j] = s.hwd.bbk[j]) ∧
  (∀ (a : Word) (s : State), s.isl.met = true → s.hwd.busy = none → argSlot a = 1 → argTyp a = 1 → (s.hwd.bbk[(1 : Fin 8)]).isSome = true →
    s.tdm.st ≠ .single → ∃ t r, exec (.hwdBbkGenerate a) s = .next t ∧ t.hwd.busy = some r ∧ r.result = 2 ∧ t.hwd.bbk = s.hwd.bbk) ∧
  (∀ (a : Word) (s : State), s.isl.met = true → s.hwd.busy = none → s.hwd.smpRows = [] → ∃ t r, exec (.hwdEnrollSmp a) s = .next t ∧
    t.hwd.busy = some r ∧ r.result = 0 ∧ t.hwd.smpKey = (lndRead hwdBase 192 s).take 96 ∧
    t.hwd.smpRows = [hashBytes (Config.sha384 t.hwd.smpKey)]) ∧
  (∀ (r : HwdRun) (s : State), s.isl.met = true → s.hwd.busy = some r → s.fwu.hwdWant = none → Memory.wf s.lnd.mem = true → ∃ t,
    exec .hwdCommandDone s = .next t ∧ t.hwd.busy = none ∧ (r.op = 5 → r.result = 0 → t.fwu.resealed = true) ∧
      (r.op = 6 → r.result = 0 → (∀ x, t.fwu.rec0 = some x → x.pendCommit = false) ∧ ∀ x, t.fwu.rec1 = some x → x.pendCommit = false) ∧ t.hwd.done = true ∧ t.hwd.result = r.result ∧
      memReadBytes t.lnd.mem hwdBase r.out.length = r.out ∧
      ∀ x : Nat, x < hwdBase ∨ hwdBase + r.out.length ≤ x → memRead t.lnd.mem x = memRead s.lnd.mem x) ∧
  (∀ (r : HwdRun) (op : Nat) (s : State), s.isl.met = true → s.hwd.busy = some r → s.fwu.hwdWant = some op → op = 5 ∨ op = 6 → ∃ t x,
    exec .hwdCommandDone s = .next t ∧ t.hwd.busy = some x ∧ x.op = op ∧ t.fwu.hwdWant = none) ∧
  (∀ s : State, s.hwd.busy = none → exec .hwdCommandDone s = .next s)

/-- Tamper, lifecycle and the security registers (R366 to R370, R374, R376 to R378, R382, R385): an armed tamper clears the
battery-backed slots, burns the next fuse and is logged; the lifecycle lock needs an enrolled key and the tamper lock. -/
def Obligations.TamperAndLifecycle : Prop :=
  (∀ (src : TamperSrc) (s : State), s.isl.met = true → tamperArmed s src = true → ∃ t, exec (.tamperDetect src) s = .next t ∧
    t.hwd.bbk = Vector.replicate 8 none ∧ t.hwd.zeroized = true ∧ t.hwd.cause = setBit s.hwd.cause (tamperCode src) ∧
    (s.hwd.tc = 16 → t.hwd.tc = 16 ∧ t.hwd.exhausted = true) ∧ (s.hwd.tc ≠ 16 → t.hwd.tc = s.hwd.tc + 1) ∧
    t.hwd.logNext = s.hwd.logNext + 1 ∧ (t.hwd.log[s.hwd.logNext.toFin]).src = tamperCode src ∧
    (∀ r, s.hwd.busy = some r → ∃ q, t.hwd.busy = some q ∧ q.op = r.op ∧ q.result = 4) ∧
    t.hwd.bankA = s.hwd.bankA ∧ t.hwd.bankB = s.hwd.bankB ∧ t.lnd = s.lnd ∧ t.fl = s.fl ∧ t.nx = s.nx ∧ t.fbk = s.fbk) ∧
  (∀ (src : TamperSrc) (s : State), s.isl.met = false → tamperArmed s src = true → ∃ t, exec (.tamperDetect src) s = .next t ∧
    t.hwd.bbk = Vector.replicate 8 none ∧ t.hwd.pending = true ∧ t.hwd.tc = s.hwd.tc ∧
    (t.hwd.log[s.hwd.logNext.toFin]).src = tamperCode src ∧ t.lnd = s.lnd ∧ t.fl = s.fl ∧ t.fbk = s.fbk) ∧
  (∀ (src : TamperSrc) (s : State), tamperArmed s src = false → exec (.tamperDetect src) s = .next s) ∧
  (∀ s : State, s.isl.met = true → ∃ t, exec .trngHealthFail s = .next t ∧ t.hwd = { s.hwd with
      trngFail := true, trngFails := s.hwd.trngFails + 1, intStatus := setBit s.hwd.intStatus 3 } ∧
    t = { s with hwd := t.hwd, arrived := t.arrived }) ∧
  (∀ s : State, s.isl.met = true → exec .trngRecover s = .next { s with hwd := { s.hwd with trngFail := false } }) ∧
  (∀ s : State, s.isl.met = true → ∃ t m, exec .bbkMaskRenew s = .next t ∧
    t = { s with hwd := { s.hwd with bbkMask := m }, freeIx := s.freeIx + 1 }) ∧
  (∀ s : State, s.isl.met = true → exec .hwdTamperLock s = .next { s with hwd := { s.hwd with tamperLock := true } }) ∧
  (∀ s : State, s.isl.met = true → s.hwd.smpRows ≠ [] → s.hwd.tamperLock = true → exec .hwdLifecycleLock s =
      .next { s with otp := { s.otp with locked := true }, hwd := { s.hwd with debug := false } }) ∧
  (∀ s : State, s.isl.met = true → s.hwd.smpRows = [] ∨ s.hwd.tamperLock = false → exec .hwdLifecycleLock s =
      .next { s with hwd := { s.hwd with result := 1 } }) ∧
  (∀ s : State, exec .tamperCauseRead s = .next { s with
      hwd := { s.hwd with cause := 0 },
      hst := { s.hst with readData := [s.hwd.cause.setWidth 32], readUr := false } }) ∧
  (∀ (v : Word) (s : State), exec (.hwdLogSelWrite v) s = .next { s with hwd := { s.hwd with
      logSel := v.setWidth 4, logData := s.hwd.log[(v.setWidth 4 : BitVec 4).toFin] } }) ∧
  (∀ s : State, exec .debugSessionOpen s = .next (if s.otp.locked then s else { s with hwd := { s.hwd with debug := true } })) ∧
  (∀ s : State, exec .debugSessionClose s = .next { s with hwd := { s.hwd with debug := false } })

/-- The service port and its block protocol (R387, R388, R395, R438): a disabled port drops every packet; a quarter of a block
is stored at its place and nothing else in the landing memory changes; the fourth decides by its CRC. -/
def Obligations.ServicePort : Prop :=
  (∀ (ip : BitVec 32) (bs : List Byte) (ss : BitVec 16) (n m : Nat) (q : Fin 4) (crc : BitVec 32) (v : Vote) (s : State),
    s.isl.met = true → s.fwu.svcIp = 0 → ∀ c, c ∈ ([.svcArp ip, .svcIcmpEcho ip bs, .fwuOpen ss n m, .fwuManifest ss bs,
      .fwuBlock ss n q crc bs, .fwuQuery ss, .fwuClose ss, .fwuVoteReceive v] : List Instr) →
    exec c s = .next { s with fwu := { s.fwu with svcUp := true, svcDrops := s.fwu.svcDrops + 1 } }) ∧
  (∀ (bs : List Byte) (s : State), s.isl.met = true → s.fwu.svcIp ≠ 0 →
    exec (.svcArp s.fwu.svcIp) s = .next { s with fwu := { s.fwu with svcUp := true, svcOut := some (1, svcMac s) } } ∧
    exec (.svcIcmpEcho s.fwu.svcIp bs) s = .next { s with fwu := { s.fwu with svcUp := true, svcOut := some (2, bs) } }) ∧
  (∀ (ip : BitVec 32) (bs : List Byte) (s : State), s.isl.met = true → s.fwu.svcIp ≠ 0 → ip ≠ s.fwu.svcIp →
    exec (.svcArp ip) s = .next { s with fwu := { s.fwu with svcUp := true } } ∧
    exec (.svcIcmpEcho ip bs) s = .next { s with fwu := { s.fwu with svcUp := true } }) ∧
  (∀ (ss : BitVec 16) (m n : Nat) (s : State), s.isl.met = true → s.fwu.svcIp ≠ 0 → ∃ t, exec (.fwuOpen ss m n) s = .next t ∧
    t.fwu.sess = some ss ∧ t.fwu.held = s.fwu.held ∧ t.fwu.manifest = s.fwu.manifest ∧
    (s.fwu.st = .idle → t.fwu.st = .receiving ∧ t.fwu.blocks = min 4096 n) ∧
    (s.fwu.st ≠ .idle → t.fwu.st = s.fwu.st ∧ t.fwu.blocks = s.fwu.blocks) ∧ t = { s with fwu := t.fwu, evs := t.evs }) ∧
  (∀ (ss : BitVec 16) (img : List Byte) (s : State), s.isl.met = true → s.fwu.svcIp ≠ 0 → ∃ t, exec (.fwuManifest ss img) s = .next t ∧
    (s.fwu.sess = some ss → s.fwu.manifest = [] → t.fwu.manifest = img) ∧
    (s.fwu.sess ≠ some ss → t.fwu.ack = some (0, 3) ∧ t.fwu.manifest = s.fwu.manifest) ∧
    (s.fwu.sess = some ss → s.fwu.manifest ≠ [] → Config.sha384 img ≠ Config.sha384 s.fwu.manifest →
      t.fwu.ack = some (0, 4) ∧ t.fwu.sess = none ∧ t.fwu.manifest = s.fwu.manifest) ∧
    t.fwu.held = s.fwu.held ∧ t.fwu.st = s.fwu.st ∧ t = { s with fwu := t.fwu }) ∧
  (∀ (ss : BitVec 16) (n : Nat) (q : Fin 4) (crc : BitVec 32) (bs : List Byte) (s : State), s.isl.met = true → s.fwu.svcIp ≠ 0 →
    s.fwu.sess = some ss → n < s.fwu.blocks → n < 4096 → s.fwu.held.getLsbD n = false → s.fwu.st = .receiving → bs.length = 1024 →
    Memory.wf s.lnd.mem = true → ∃ t, exec (.fwuBlock ss n q crc bs) s = .next t ∧
      memReadBytes t.lnd.mem (fwBase + 4096 * n + 1024 * q.val) 1024 = bs ∧
      (∀ a : Nat, a < fwBase + 4096 * n + 1024 * q.val ∨ fwBase + 4096 * n + 1024 * q.val + 1024 ≤ a →
        memRead t.lnd.mem a = memRead s.lnd.mem a) ∧
      (∀ m : Nat, m ≠ n → t.fwu.held.getLsbD m = s.fwu.held.getLsbD m) ∧
      (setBit (quartersOf s.fwu n) q.val ≠ 0xF → quartersOf t.fwu n = setBit (quartersOf s.fwu n) q.val ∧
        t.fwu.held = s.fwu.held ∧ t.fwu.st = .receiving) ∧
      (setBit (quartersOf s.fwu n) q.val = 0xF → quartersOf t.fwu n = 0 ∧
        (crc32c (memReadBytes t.lnd.mem (fwBase + 4096 * n) 4096) = crc → t.fwu.held.getLsbD n = true ∧ t.fwu.ack = some (n, 0)) ∧
        (crc32c (memReadBytes t.lnd.mem (fwBase + 4096 * n) 4096) ≠ crc → t.fwu.held = s.fwu.held ∧ t.fwu.ack = some (n, 1) ∧
          t.fwu.crcErrs = s.fwu.crcErrs + 1))) ∧
  (∀ (ss : BitVec 16) (n : Nat) (q : Fin 4) (crc : BitVec 32) (bs : List Byte) (s : State), s.isl.met = true → s.fwu.svcIp ≠ 0 →
    s.fwu.sess ≠ some ss → exec (.fwuBlock ss n q crc bs) s = .next { s with fwu := { s.fwu with svcUp := true, ack := some (n, 3) } } ∧
      exec (.fwuQuery ss) s = .next { s with fwu := { s.fwu with svcUp := true, ack := some (0, 3) } } ∧
      exec (.fwuClose ss) s = .next { s with fwu := { s.fwu with svcUp := true, ack := some (0, 3) } }) ∧
  (∀ (ss : BitVec 16) (s : State), s.isl.met = true → s.fwu.svcIp ≠ 0 → s.fwu.sess = some ss →
    (∃ t, exec (.fwuQuery ss) s = .next t ∧ t.fwu.stateOut = leBytes 4 (fwuStatus s.fwu) ++ leBytes 4 (fwuBlocks s.fwu) ++
        leBytes 512 s.fwu.held.toNat ∧ t = { s with fwu := { s.fwu with svcUp := true, stateOut := t.fwu.stateOut } }) ∧
    exec (.fwuClose ss) s = .next { s with fwu := { s.fwu with svcUp := true, sess := none } }) ∧
  (∀ (v : Vote) (s : State), s.isl.met = true → s.fwu.svcIp ≠ 0 → exec (.fwuVoteReceive v) s =
      .next { s with fwu := { s.fwu with svcUp := true }, arrived := s.arrived ++ [.vote v] }) ∧
  (∀ s : State, exec .fwuSessionTimeout s = .next { s with fwu := { s.fwu with sess := none } }) ∧
  (∀ s : State, s.isl.met = true → exec .serviceIslandReset s =
      .next { s with fwu := { s.fwu with sess := none, svcUp := false } })

/-- The update states (R390 to R402): a checked image goes to the inactive slot only; a schedule needs VERIFIED and no ground
of refusal, and asks heartwood for the reseal; vote, decision, activation and commit act in their own frames, the commit with its
boot record and the reseal commit at the boundary after its decision; a revert restarts the old image. What a discard drops where
the rule leaves it open, and a partner whose conditions are absent, are the model's choices (entries 110 and 111). -/
def Obligations.UpdateStates : Prop :=
  (∀ s : State, s.isl.ctl = true → s.fwu.st = .staged → ∃ t, exec .fwuWrite s = .next t ∧
    (imageFault (eccRead fwBase (4096 * s.fwu.blocks) s) = none → t.fwu.st = .writing ∧ t.fwu.reason = 0) ∧
    (∀ r, imageFault (eccRead fwBase (4096 * s.fwu.blocks) s) = some r → t.fwu.st = .failed ∧ t.fwu.reason = r) ∧
    t.fwu.slot0 = s.fwu.slot0 ∧ t.fwu.slot1 = s.fwu.slot1 ∧ t.lnd.mem = s.lnd.mem ∧
    (lndBad fwBase (4096 * s.fwu.blocks) s = [] → t.lnd = s.lnd) ∧ t = { s with fwu := t.fwu, lnd := t.lnd, evs := t.evs }) ∧
  (∀ s : State, s.fwu.st ≠ .staged → exec .fwuWrite s = .next s) ∧
  (∀ s : State, s.isl.ctl = true → s.fwu.st = .staged →
    lndPoison fwBase (4096 * s.fwu.blocks) (eccRead fwBase (4096 * s.fwu.blocks) s) = true → ∃ t, exec .fwuWrite s = .next t ∧
      t.fwu.st = .failed ∧ t.fwu.reason = 1 ∧ t.fwu.slot0 = s.fwu.slot0 ∧ t.fwu.slot1 = s.fwu.slot1) ∧
  (∀ (r : FlashEnd) (s : State), s.isl.ctl = true → s.fwu.st = .writing → ∃ t, exec (.fwuWriteDone r) s = .next t ∧
    t.fwu.running = s.fwu.running ∧ slotOf t.fwu s.fwu.running = slotOf s.fwu s.fwu.running ∧
    (r = .verified → t.fwu.st = .verified ∧ slotOf t.fwu (!s.fwu.running) = { manifest := s.fwu.manifest, image := stagedImage s } ∧
      t.fwu.target = some (manMeas s.fwu.manifest) ∧ t.fwu.inactiveOk = true ∧ t.fwu.resealed = false) ∧
    (r = .writeFailed → t.fwu.st = .failed ∧ t.fwu.reason = 6) ∧ (r = .readBackFailed → t.fwu.st = .failed ∧ t.fwu.reason = 7) ∧
    t = { s with fwu := t.fwu, evs := t.evs }) ∧
  (∀ (r : FlashEnd) (s : State), s.fwu.st ≠ .writing → exec (.fwuWriteDone r) s = .next s) ∧
  (∀ s : State, s.isl.ctl = true → ∃ t, exec .fwuDiscard s = .next t ∧
    ((s.fwu.st = .writing ∨ s.fwu.st = .scheduled ∨ s.fwu.st = .activating ∨ s.fwu.st = .trial) → t = s) ∧
    ((s.fwu.st = .receiving ∨ s.fwu.st = .staged ∨ s.fwu.st = .verified ∨ s.fwu.st = .reverted ∨ s.fwu.st = .failed) →
      t.fwu.st = .idle ∧ t.fwu.held = 0 ∧ t.fwu.manifest = [] ∧ t.fwu.sess = none) ∧
    t.fwu.slot0 = s.fwu.slot0 ∧ t.fwu.slot1 = s.fwu.slot1 ∧ t = { s with fwu := t.fwu, evs := t.evs }) ∧
  (∀ s : State, s.isl.ctl = true → s.fwu.st ≠ .verified → ∃ t, exec .fwuSchedule s = .next t ∧ t.fwu = s.fwu ∧
    t.hst.cRefused = s.hst.cRefused + 1 ∧ t.hst.refusedAddr = 0xF0004) ∧
  (∀ s : State, s.isl.ctl = true → s.fwu.st = .verified → ∃ t, exec .fwuSchedule s = .next t ∧
    (fwuRefuseBits false (s.fwu.actLo.toNat + 2 ^ 32 * s.fwu.actHi.toNat) s.fn s ≠ 0 → t.fwu.st = .verified ∧
      t.fwu.refuse = fwuRefuseBits false (s.fwu.actLo.toNat + 2 ^ 32 * s.fwu.actHi.toNat) s.fn s) ∧
    (fwuRefuseBits false (s.fwu.actLo.toNat + 2 ^ 32 * s.fwu.actHi.toNat) s.fn s = 0 → t.fwu.st = .scheduled ∧
      t.fwu.actFn = s.fwu.actLo.toNat + 2 ^ 32 * s.fwu.actHi.toNat ∧ t.fwu.latchFn = s.fn ∧ t.fwu.attempt = 0 ∧
      s.fn + 1000 ≤ t.fwu.actFn ∧ t.fwu.running = s.fwu.running ∧
      (s.fwu.resealed = false → t.fwu.hwdWant = some 5 ∨ ∃ r, t.hwd.busy = some r ∧ r.op = 5)) ∧
    t = { s with fwu := t.fwu, hwd := t.hwd, hst := t.hst, evs := t.evs }) ∧
  (∀ s : State, s.isl.ctl = true → s.fwu.st = .scheduled → s.fn + 1 < s.fwu.actFn → ∃ t, exec .fwuCancel s = .next t ∧
    t.fwu = { s.fwu with st := .verified } ∧ t = { s with fwu := t.fwu, evs := t.evs }) ∧
  (∀ s : State, s.fwu.st ≠ .scheduled ∨ s.fwu.actFn ≤ s.fn + 1 → exec .fwuCancel s = .next s) ∧
  (∀ s : State, s.isl.ctl = true → s.fwu.st = .scheduled → s.fn + 200 = s.fwu.actFn → ∃ t v, exec .fwuVote s = .next t ∧
    t.fwu.voteOut = some v ∧ v.fnAct = s.fwu.actFn ∧ v.unit = unitIx s.fwu ∧ v.group = groupId s.fwu ∧ t.fwu.ownGo = v.go ∧
    (v.go = true ↔ fwuRefuseBits true s.fwu.actFn s.fwu.latchFn s = 0) ∧ (v.go = true → t.fwu.go.getLsbD (unitIx s.fwu).val = true) ∧
    (v.go = false → t.fwu.nogo.getLsbD (unitIx s.fwu).val = true ∧ t.fwu.go = s.fwu.go) ∧ t = { s with fwu := t.fwu }) ∧
  (∀ s : State, s.fwu.st ≠ .scheduled ∨ s.fn + 200 ≠ s.fwu.actFn → exec .fwuVote s = .next s) ∧
  (∀ s : State, s.isl.ctl = true → s.fwu.st = .scheduled → s.fn + 1 = s.fwu.actFn → ∃ t, exec .fwuDecision s = .next t ∧
    ((∀ i < groupSize s.fwu, s.fwu.go.getLsbD i = true) → t.fwu.decided = true ∧ t.fwu.st = .scheduled ∧ t.fwu.actFn = s.fwu.actFn) ∧
    ((∃ i < groupSize s.fwu, s.fwu.go.getLsbD i = false) → t.fwu.decided = s.fwu.decided ∧ t.fwu.attempt = s.fwu.attempt + 1 ∧
      s.fwu.actFn + 10000 ≤ t.fwu.actFn ∧ t.fwu.st = (if s.fwu.limit ≤ s.fwu.attempt + 1 then .verified else .scheduled)) ∧
    t = { s with fwu := t.fwu, evs := t.evs }) ∧
  (∀ s : State, s.fwu.st ≠ .scheduled ∨ s.fn + 1 ≠ s.fwu.actFn → exec .fwuDecision s = .next s) ∧
  (∀ s : State, s.isl.ctl = true → s.fwu.st = .scheduled → s.fwu.decided = true → s.fn = s.fwu.actFn → ∃ t, exec .fwuActivate s = .next t ∧
    t.fwu.st = .activating ∧ t.fwu.running = (!s.fwu.running) ∧ t.fwu.window = some (s.fn + 150) ∧
    t = { s with fwu := t.fwu, hwd := t.hwd, slac := [], evs := t.evs }) ∧
  (∀ s : State, s.fwu.st ≠ .scheduled ∨ s.fwu.decided = false ∨ s.fn ≠ s.fwu.actFn → exec .fwuActivate s = .next s) ∧
  (∀ (ready : Bool) (r : Nat) (s : State), s.isl.ctl = true → s.fwu.st = .activating → ∃ t, exec (.fwuReadyReport ready r) s = .next t ∧
    t.fwu.report = some (ready, r) ∧ t.fwu.revertPend = (if ready then s.fwu.revertPend else some (r, false)) ∧
    t.arrived = s.arrived ++ [.fwuReport (isLead s) ready r] ∧ t = { s with fwu := t.fwu, arrived := t.arrived }) ∧
  (∀ (ready : Bool) (r : Nat) (s : State), s.fwu.st ≠ .activating → exec (.fwuReadyReport ready r) s = .next s) ∧
  (∀ s : State, s.isl.ctl = true → s.fwu.st = .trial → exec .fwuRevertCmd s =
      .next { s with fwu := { s.fwu with revertPend := some (4, false) } }) ∧
  (∀ s : State, s.fwu.st ≠ .trial → exec .fwuRevertCmd s = .next s) ∧
  (∀ (r : Nat) (p : Bool) (s : State), s.isl.ctl = true → s.fwu.revertPend = some (r, p) → s.fwu.st = .activating ∨ s.fwu.st = .trial →
    ∃ t, exec .fwuAutoRevert s = .next t ∧ t.fwu.st = .reverted ∧ t.fwu.running = (!s.fwu.running) ∧ t.fwu.revertReason = r ∧
      t.fwu.revertByPartner = p ∧ t.fwu.window = some (s.fwu.resumeAt.getD (s.fn + 150)) ∧ t.fwu.revertPend = none ∧
      t = { s with fwu := t.fwu, hwd := t.hwd, slac := [], evs := t.evs }) ∧
  (∀ s : State, s.fwu.revertPend = none → exec .fwuAutoRevert s = .next s) ∧
  (∀ s : State, s.isl.ctl = true → s.fwu.st ≠ .activating → s.fwu.st ≠ .trial → exec .fwuAutoRevert s =
      .next { s with fwu := { s.fwu with revertPend := none } }) ∧
  (∀ s : State, s.isl.ctl = true → s.fwu.st = .trial → s.fn = commitFrame s.fwu → exec .fwuCommit s =
      .next { s with fwu := { s.fwu with commitDue := true } }) ∧
  (∀ s : State, s.fwu.st = .trial → s.fwu.commitDue = true → ∃ t, fwuCommitStep s = t ∧ t.fwu.st = .idle ∧ t.fwu.commitDue = false ∧
    t.fwu.floor = max s.fwu.floor (manNat (slotOf s.fwu s.fwu.running).manifest 12 4) ∧ t.fwu.running = s.fwu.running ∧
    t.fwu.commitFn = s.fn ∧ (t.fwu.hwdWant = some 6 ∨ ∃ r, t.hwd.busy = some r ∧ r.op = 6) ∧
    ((∃ x, t.fwu.rec0 = some x ∧ x.slot = s.fwu.running ∧ x.pendCommit = true) ∨
      (∃ x, t.fwu.rec1 = some x ∧ x.slot = s.fwu.running ∧ x.pendCommit = true))) ∧
  (∀ s : State, s.fwu.st ≠ .trial ∨ s.fwu.commitDue = false →
    fwuCommitStep s = { s with fwu := { s.fwu with commitDue := false } }) ∧
  (∀ s : State, s.fwu.st ≠ .trial ∨ s.fn ≠ commitFrame s.fwu → exec .fwuCommit s = .next s) ∧
  (∀ (w : Nat) (s : State), s.isl.ctl = true → s.fwu.window = some w → w ≤ s.fn → ∃ t u, exec .fwuResume s = .next t ∧
    u = fwuOutcome { s with fwu := { s.fwu with window := none } } ∧
    (s.fwu.st = .activating → s.fwu.latOwn = some true → paired s = false ∨ s.fwu.latPartner = some true →
      u.fwu.st = .trial ∧ u.fwu.window = none ∧ u.fwu.running = s.fwu.running ∧ t = respStep (seqStep (applyHeld u))) ∧
    (s.fwu.st = .activating → s.fwu.latOwn ≠ some true ∨ (paired s = true ∧ s.fwu.latPartner ≠ some true) →
      u.fwu.st = .reverted ∧ u.fwu.running = (!s.fwu.running) ∧ u.fwu.revertReason = 3 ∧
      u.fwu.window = some (s.fwu.resumeAt.getD (s.fn + 150)) ∧ t = u) ∧
    (s.fwu.st ≠ .activating → u = { s with fwu := { s.fwu with window := none } } ∧ t = respStep (seqStep (applyHeld u)))) ∧
  (∀ s : State, s.fwu.window = none ∨ (∃ w, s.fwu.window = some w ∧ s.fn < w) → exec .fwuResume s = .next s) ∧
  (∀ (b : Bool) (s : State), s.isl.ctl = true → exec (.fwuOwnerLock b) s = .next { s with fwu := { s.fwu with ownerLock := b } }) ∧
  (∀ s : State, s.isl.ctl = true → ∃ t, exec .fwuOpkeyWrite s = .next t ∧
    (s.fwu.opKey = [] ∨ Config.ecdsaVerify s.fwu.opKey (lndRead fwBase 96 s) (lndRead (fwBase + 96) 96 s) = true →
      t.fwu.opKey = (if (lndRead fwBase 96 s).all (· = 0) then [] else lndRead fwBase 96 s) ∧ t.fwu.opKeyRefused = false) ∧
    (s.fwu.opKey ≠ [] → Config.ecdsaVerify s.fwu.opKey (lndRead fwBase 96 s) (lndRead (fwBase + 96) 96 s) = false →
      t.fwu.opKey = s.fwu.opKey ∧ t.fwu.opKeyRefused = true) ∧
    t.lnd.mem = s.lnd.mem ∧ (lndBad fwBase 192 s = [] → t.lnd = s.lnd) ∧ t = { s with fwu := t.fwu, lnd := t.lnd, evs := t.evs })

/-- The landing memory (R405, R409, R418, R421, R433, R443): a host write stores exactly its bytes that lie in writable space,
a refused byte is counted, the scrubber reads a line without writing it, and the tally ring takes one entry of 1,600 bytes. -/
def Obligations.LandingMemory : Prop :=
  (∀ (off : BitVec 26) (bs : List Byte) (s : State), s.isl.lnd = true → Memory.wf s.lnd.mem = true → ∃ t,
    exec (.bar2Write off bs) s = .next t ∧
      (∀ i : Nat, i < bs.length → hostMay s (off.toNat + i) = true → memRead t.lnd.mem (off.toNat + i) = bs.getD i 0) ∧
      (∀ a : Nat, a < off.toNat ∨ off.toNat + bs.length ≤ a ∨ hostMay s a = false → memRead t.lnd.mem a = memRead s.lnd.mem a) ∧
      ((∀ i < bs.length, hostMay s (off.toNat + i) = true) → t.evs = s.evs ∧ t.hst = s.hst ∧ t.lnd.hostWr = s.lnd.hostWr) ∧
      ((∃ i < bs.length, hostMay s (off.toNat + i) = false) → t.lnd.hostWr = s.lnd.hostWr + 1 ∧
        t.lnd.intStatus = setBit s.lnd.intStatus 5 ∧ t.hst.intStatus = setBit s.hst.intStatus 4) ∧
      t = { s with lnd := t.lnd, hst := t.hst, evs := t.evs }) ∧
  (∀ s : State, s.isl.lnd = true → (s.lnd.scrubCfg.getLsbD 8 = true ∨ s.lnd.scrubbing = true) → s.lnd.throttled = false → ∃ t,
    exec .scrubStep s = .next t ∧ t.lnd.scrubLine = s.lnd.scrubLine + 1 ∧ t.lnd.mem = s.lnd.mem ∧
      (s.lnd.scrubLine + 1 = 0 → t.lnd.scrubPasses = s.lnd.scrubPasses + 1 ∧ t.lnd.scrubbing = false) ∧
      (s.lnd.scrubLine + 1 ≠ 0 → t.lnd.scrubPasses = s.lnd.scrubPasses ∧ t.lnd.scrubbing = true) ∧
      (∀ w, (w, true) ∈ s.lnd.bad → (w, false) ∉ s.lnd.bad → (w, true) ∈ t.lnd.bad) ∧ t = { s with lnd := t.lnd, evs := t.evs }) ∧
  (∀ s : State, (s.lnd.scrubCfg.getLsbD 8 = false ∧ s.lnd.scrubbing = false) ∨ s.lnd.throttled = true → exec .scrubStep s = .next s) ∧
  (∀ s : State, s.isl.lnd = true → exec .lndSnapNow s = .next { s with lnd := { s.lnd with snapNow := true } } ∧
    exec .lndScrubNow s = .next { s with lnd := { s.lnd with scrubLine := 0, scrubbing := true } }) ∧
  (∀ s : State, s.isl.ctl = true → s.hkp.tlyEvery ≠ 0 → s.hkp.level ≠ 2 → Memory.wf s.lnd.mem = true → ∃ t,
    exec .tallyRingWrite s = .next t ∧ memReadBytes t.lnd.mem (tallyBase + 1600 * s.hkp.tlyNext) 8 = leBytes 8 s.fn ∧
      memReadBytes t.lnd.mem (tallyBase + 1600 * s.hkp.tlyNext + 16) 1536 = (s.hkp.tlyShown.toList.map (leBytes 8)).flatten ∧
      (∀ a : Nat, a < tallyBase + 1600 * s.hkp.tlyNext ∨ tallyBase + 1600 * s.hkp.tlyNext + 1600 ≤ a →
        memRead t.lnd.mem a = memRead s.lnd.mem a) ∧
      t.hkp.tlyNext = (if 39 ≤ s.hkp.tlyNext then 0 else s.hkp.tlyNext + 1) ∧ t.hkp.tlyShown = s.hkp.tlyShown) ∧
  (∀ s : State, s.hkp.tlyEvery = 0 ∨ s.hkp.level = 2 → exec .tallyRingWrite s = .next s)

/-- The host port (R449 to R451, R454, R455, R457, R459, R461): an access of one aligned word of BAR0 has its effect, a host
command is captured for the path of R18, every other access is an error that writes nothing, the quad-SPI target does the
same word by word, and a reset of the host island keeps everything but the registers of the block. -/
def Obligations.HostPort : Prop :=
  (∀ (v : Word) (s : State), s.isl.ctl = true → ∃ t, exec (.vectorAck v) s = .next t ∧
    t.hst.armed = (s.hst.armed ||| v) &&& ~~~(vecPend s) ∧
    (∀ i : Fin 32, (s.hst.armed ||| v).getLsbD i.val = true → (vecPend s).getLsbD i.val = true →
      (msgFree s.hst i = true → i ∈ t.hst.sent) ∧ (msgFree s.hst i = false → t.hst.pba.getLsbD i.val = true)) ∧
    t = { s with hst := { s.hst with armed := t.hst.armed, pba := t.hst.pba, sent := t.hst.sent } }) ∧
  (∀ s : State, s.isl.ctl = true → ∃ t, exec (.msixMaskClear none) s = .next t ∧
    (∀ i : Fin 32, (s.hst.pba.getLsbD i.val = true → (s.hst.msix[i]).mask = false → i ∈ t.hst.sent) ∧
      t.hst.pba.getLsbD i.val = (s.hst.pba.getLsbD i.val && (s.hst.msix[i]).mask)) ∧
    t = { s with hst := { s.hst with msixMask := false, msixEn := true, busMaster := true, pba := t.hst.pba, sent := t.hst.sent } }) ∧
  (∀ (i : Fin 32) (s : State), s.isl.ctl = true → ∃ t, exec (.msixMaskClear (some i)) s = .next t ∧ (t.hst.msix[i]).mask = false ∧
    (s.hst.msixMask = false → s.hst.pba.getLsbD i.val = true → i ∈ t.hst.sent) ∧
    t.hst.pba.getLsbD i.val = (s.hst.pba.getLsbD i.val && s.hst.msixMask) ∧
    (s.hst.msixMask = true → t.hst.pba = s.hst.pba ∧ t.hst.sent = s.hst.sent) ∧
    (∀ j : Fin 32, j ≠ i → t.hst.msix[j] = s.hst.msix[j]) ∧
    t = { s with hst := { s.hst with msixEn := true, busMaster := true, msix := t.hst.msix, pba := t.hst.pba, sent := t.hst.sent } }) ∧
  (∀ (off : BitVec 21) (v : Word) (be : BitVec 4) (len : Nat) (s : State), s.isl.ctl = true →
    be ≠ 0xF ∨ off.toNat % 4 ≠ 0 ∨ 4 < len → ∃ t,
    exec (.registerWrite off v ⟨be, len⟩) s = .next t ∧ t.hst.cErr = s.hst.cErr + 1 ∧ t.hst.intStatus = setBit s.hst.intStatus 2 ∧
      t.hst.errAddr = BitVec.ofNat 32 off.toNat ∧ t = { s with hst := t.hst, evs := t.evs }) ∧
  (∀ (off : BitVec 21) (v : Word) (len : Nat) (s : State), s.isl.ctl = true → len ≤ 4 → off.toNat % 4 = 0 → inSpan off.toNat = false →
    inMsix off.toNat = false → inPba off.toNat = false → ∃ t, exec (.registerWrite off v ⟨0xF, len⟩) s = .next t ∧
      t.hst.cUnmapped = s.hst.cUnmapped + 1 ∧ t.hst.intStatus = setBit s.hst.intStatus 3 ∧ t = { s with hst := t.hst, evs := t.evs }) ∧
  (∀ (v : Word) (len : Nat) (s : State), s.isl.ctl = true → len ≤ 4 → ∃ t, exec (.registerWrite 0x6C v ⟨0xF, len⟩) s = .next t ∧
    t.hst.scratch[(0 : Fin 2)] = v ∧ t.hst.scratch[(1 : Fin 2)] = s.hst.scratch[(1 : Fin 2)] ∧
    t = { s with hst := { s.hst with scratch := t.hst.scratch, armed := t.hst.armed, pba := t.hst.pba, sent := t.hst.sent } }) ∧
  (∀ (off : BitVec 21) (v : Word) (len : Nat) (s : State), s.isl.ctl = true → len ≤ 4 → off.toNat % 4 = 0 → inSpan off.toNat = true →
    exec (.registerWrite off v ⟨0xF, len⟩) s = .next (intEval
      (let s1 := blockNow (off.toNat / 65536) (off.toNat % 65536) v (intEval s)
       if isCmd (off.toNat / 65536) (off.toNat % 65536) v then takeHostCmd off.toNat v s1 else s1))) ∧
  (∀ (o : OutIx) (off : BitVec 21) (v : Word) (s : State), s.isl.ctl = true → off.toNat = 0x50004 + 0x100 * o.val → v &&& 0xFF ≠ 0 →
    ∃ t, exec (.registerWrite off v ⟨0xF, 4⟩) s = .next t ∧ t.osqR = s.osqR ∧ t.nx = s.nx ∧
      (isLead s = true → s.hst.cmdCount < 1024 → t.arrived = s.arrived ++ [.hostCmd off v []] ∧ t.hst.cmdCount = s.hst.cmdCount + 1) ∧
      (isLead s = true → 1024 ≤ s.hst.cmdCount → t.arrived = s.arrived ∧ t.hst.waiting = s.hst.waiting ++ [(off, v)]) ∧
      (isLead s = false → t.arrived = s.arrived ∧ t.tdm.cIgnored = s.tdm.cIgnored + 1)) ∧
  (∀ (off : BitVec 26) (len : Nat) (s : State), s.isl.ctl = true → len ≤ 4 → off.toNat % 4 = 0 → inSpan off.toNat = true →
    let x := blockRead (off.toNat / 65536) (off.toNat % 65536) true (intEval s)
    exec (.hostRead .bar0 off len 0xF) s = .next (intEval (readAnswer [BitVec.ofNat 32 x.1] false x.2))) ∧
  (∀ (off : BitVec 26) (len : Nat) (s : State), s.isl.ctl = true → len ≤ 4 → off.toNat % 4 = 0 → off.toNat < 0xC0 → ∃ t,
    exec (.hostRead .bar0 off len 0xF) s = .next t ∧ t.hst.readUr = false ∧
      t.hst.readData = [BitVec.ofNat 32 (regAt (hstRegs (intEval s)) off.toNat)] ∧
      t = { s with hst := { s.hst with readUr := t.hst.readUr, readData := t.hst.readData, armed := t.hst.armed,
                                       pba := t.hst.pba, sent := t.hst.sent } }) ∧
  (∀ (off : BitVec 26) (be : BitVec 4) (len : Nat) (s : State), s.isl.ctl = true → be ≠ 0xF ∨ off.toNat % 4 ≠ 0 → len ≤ 4 →
    off.toNat < 0xC0 → ∃ t, exec (.hostRead .bar0 off len be) s = .next t ∧ t.hst.readUr = false ∧ t.hst.cErr = s.hst.cErr + 1 ∧
      t.hst.intStatus = setBit s.hst.intStatus 2 ∧ t.hst.readData.length = 1 ∧ t = { s with hst := t.hst, evs := t.evs }) ∧
  (∀ (off : BitVec 26) (be : BitVec 4) (len : Nat) (s : State), s.isl.ctl = true → 4 < len → ∃ t,
    exec (.hostRead .bar0 off len be) s = .next t ∧ t.hst.readUr = true ∧ t.hst.readData = [] ∧ t.hst.cErr = s.hst.cErr + 1 ∧
      t = { s with hst := t.hst, evs := t.evs }) ∧
  (∀ (off : BitVec 26) (len : Nat) (s : State), s.isl.ctl = true → len ≤ 4 → off.toNat % 4 = 0 → inSpan off.toNat = false →
    inMsix off.toNat = false → inPba off.toNat = false → ∃ t, exec (.hostRead .bar0 off len 0xF) s = .next t ∧
      t.hst.readUr = s.hst.urUnmapped ∧ t.hst.readData = (if s.hst.urUnmapped then [] else [0]) ∧
      t.hst.cUnmapped = s.hst.cUnmapped + 1 ∧ t = { s with hst := t.hst, evs := t.evs }) ∧
  (∀ (off : BitVec 26) (len : Nat) (be : BitVec 4) (s : State), s.isl.lnd = true → ∃ t,
    exec (.hostRead .bar2 off len be) s = .next t ∧ t.hst.readUr = false ∧
      t.hst.readData = wordsOf (lndRead off.toNat (min len (landSize - off.toNat)) s) ∧ t.lnd.mem = s.lnd.mem ∧
      (lndBad off.toNat (min len (landSize - off.toNat)) s = [] → t.lnd = s.lnd ∧ t = { s with hst := t.hst }) ∧
      (∀ w, (w, true) ∈ lndBad off.toNat (min len (landSize - off.toNat)) s → t.lnd.uncorr = true ∧ t.lnd.intStatus.getLsbD 1 = true) ∧
      t = { s with hst := t.hst, lnd := t.lnd, evs := t.evs }) ∧
  (∀ (bar : Bar) (off : BitVec 26) (len : Nat) (s : State), s.isl.ctl = true → s.hst.qspiDis = false → ∃ t,
    exec (.qspiRead bar off len false) s = .next t ∧ t.hst.readData = List.replicate (cdiv len 4) 0xFFFFFFFF ∧
      t.hst.lastNotReady = true ∧ t.hst.accesses = s.hst.accesses + 1 ∧ t.hst.intStatus = setBit s.hst.intStatus 7 ∧
      t.hst.framing = (if len % 4 = 0 then s.hst.framing else s.hst.framing + 1) ∧ t = { s with hst := t.hst, evs := t.evs }) ∧
  (∀ (off : BitVec 26) (len : Nat) (s : State), s.isl.ctl = true → s.hst.qspiDis = false → ∃ t,
    exec (.qspiRead .bar2 off len true) s = .next t ∧
      t.hst.readData = wordsOf (lndRead off.toNat (min len (landSize - off.toNat)) s) ∧ t.hst.lastNotReady = false ∧
      t.hst.accesses = s.hst.accesses + 1 ∧ t.hst.framing = (if len % 4 = 0 then s.hst.framing else s.hst.framing + 1) ∧
      (len % 4 ≠ 0 → t.hst.intStatus.getLsbD 7 = true) ∧
      t.lnd.mem = s.lnd.mem ∧ t = { s with hst := t.hst, lnd := t.lnd, evs := t.evs }) ∧
  (∀ (off : BitVec 26) (s : State), s.isl.ctl = true → s.hst.qspiDis = false → off.toNat % 4 = 0 → off.toNat < 0xC0 →
    ∃ t, exec (.qspiRead .bar0 off 4 true) s = .next t ∧ t.hst.readUr = false ∧ t.hst.lastNotReady = false ∧
      t.hst.accesses = s.hst.accesses + 1 ∧
      (off.toNat ≠ 0x68 → t.hst.readData = [BitVec.ofNat 32 (regAt (hstRegs (intEval s)) off.toNat)]) ∧ t = { s with hst := t.hst }) ∧
  (∀ (off : BitVec 26) (len : Nat) (s : State), s.isl.ctl = true → s.hst.qspiDis = false → 4 < len → ∃ t,
    exec (.qspiRead .bar0 off len true) s = .next t ∧ t.hst.readData = [] ∧ t.hst.readUr = true ∧ t.hst.cErr = s.hst.cErr + 1 ∧
      t.hst.accesses = s.hst.accesses + 1 ∧ t.hst.framing = (if len % 4 = 0 then s.hst.framing else s.hst.framing + 1) ∧
      t = { s with hst := t.hst, evs := t.evs }) ∧
  (∀ (off : BitVec 26) (ws : List Word) (s : State), s.isl.ctl = true → s.hst.qspiDis = false → ws ≠ [] → ws.length ≤ 64 →
    (∀ i < 4 * ws.length, hostMay s (off.toNat + i) = true) → Memory.wf s.lnd.mem = true → ∃ t,
    exec (.qspiWrite .bar2 off ⟨ws, 0⟩) s = .next t ∧ memReadBytes t.lnd.mem off.toNat (4 * ws.length) = bytesOf ws ∧
      t.hst.lastDiscarded = false ∧ t.hst.accesses = s.hst.accesses + 1 ∧ t = { s with hst := t.hst, lnd := t.lnd }) ∧
  (∀ (off : BitVec 26) (ws : List Word) (s : State), s.isl.ctl = true → s.hst.qspiDis = false → ws ≠ [] →
    (∃ i < 4 * min 64 ws.length, hostMay s (off.toNat + i) = false) → ∃ t,
    exec (.qspiWrite .bar2 off ⟨ws, 0⟩) s = .next t ∧ t.hst.lastDiscarded = true ∧ t.hst.accesses = s.hst.accesses + 1 ∧
      t.lnd.hostWr = s.lnd.hostWr + 1 ∧ t.hst.intStatus = setBit s.hst.intStatus 4 ∧
      t = { s with hst := t.hst, lnd := t.lnd, evs := t.evs }) ∧
  (∀ (w : Word) (s : State), s.isl.ctl = true → s.hst.qspiDis = false → ∃ t,
    exec (.qspiWrite .bar0 0x6C ⟨[w], 0⟩) s = .next t ∧ t.hst.scratch[(0 : Fin 2)] = w ∧ t.hst.lastDiscarded = false ∧
      t.hst.accesses = s.hst.accesses + 1 ∧ t = { s with hst := t.hst }) ∧
  (∀ (off : BitVec 26) (ws : List Word) (s : State), s.isl.ctl = true → s.hst.qspiDis = false →
    1 < ws.length ∨ (ws.length = 1 ∧ off.toNat % 4 ≠ 0) → ∃ t,
    exec (.qspiWrite .bar0 off ⟨ws, 0⟩) s = .next t ∧ t.hst.lastDiscarded = true ∧ t.hst.cErr = s.hst.cErr + 1 ∧
      t.hst.accesses = s.hst.accesses + 1 ∧ t = { s with hst := t.hst, evs := t.evs }) ∧
  (∀ (bar : Bar) (off : BitVec 26) (s : State), s.isl.ctl = true → s.hst.qspiDis = false → ∃ t,
    exec (.qspiWrite bar off ⟨[], 0⟩) s = .next t ∧ t.hst.lastDiscarded = true ∧ t.hst.accesses = s.hst.accesses + 1 ∧
      t = { s with hst := t.hst }) ∧
  (∀ (bar : Bar) (off : BitVec 26) (ws : List Word) (tail : Fin 4) (s : State), s.isl.ctl = true → s.hst.qspiDis = false → tail ≠ 0 →
    ∃ t, exec (.qspiWrite bar off ⟨ws, tail⟩) s = .next t ∧ t.hst.lastDiscarded = true ∧ t.hst.framing = s.hst.framing + 1 ∧
      t.hst.accesses = s.hst.accesses + 1 ∧ t.hst.intStatus = setBit s.hst.intStatus 7 ∧ t = { s with hst := t.hst, evs := t.evs }) ∧
  (∀ (bar : Bar) (off : BitVec 26) (len : Nat) (r : Bool) (ws : List Word) (tail : Fin 4) (s : State), s.hst.qspiDis = true →
    exec (.qspiRead bar off len r) s = .next s ∧ exec (.qspiWrite bar off ⟨ws, tail⟩) s = .next s) ∧
  (∀ s : State, s.isl.ctl = true → exec .qspiStatus s = .next { s with hst := { s.hst with
      accesses := s.hst.accesses + 1, readUr := false,
      readData := [BitVec.ofNat 32 (bit s.hst.lastDiscarded + 2 * bit s.hst.lastNotReady + 4 * bit s.hst.qspiDis)] } } ∧
    exec .qspiDisable s = .next { s with hst := { s.hst with qspiDis := true } }) ∧
  (∀ (k : HostResetKind) (s : State), s.isl.ctl = true → ∃ t, exec (.hostIslandReset k) s = .next t ∧
    t.hst.qspiDis = s.hst.qspiDis ∧ t.hst.cmdCount = s.hst.cmdCount ∧ t.hst.msixEn = false ∧ t.hst.busMaster = false ∧
    (∀ i : Fin 32, (t.hst.msix[i]).mask = true) ∧ t.hst.armed = 0xFFFFFFFF ∧ t.hst.pba = 0 ∧ t.hst.intStatus = 0 ∧
    t.hst.intEnable = 0 ∧ t.hst.tick = 0 ∧ t.hst.vecMap = State.reset.hst.vecMap ∧ t.hst.scratch = State.reset.hst.scratch ∧
    t = { s with hst := t.hst, hkp := { s.hkp with hostResets := s.hkp.hostResets + 1 } }) ∧
  (∀ (g : Bool) (s : State), s.isl.ctl = true → ∃ t, exec (.hostLinkUp g) s = .next t ∧ t.hst.linkUp = true ∧ t.hst.gen2 = g ∧
    t.hst.retrain = false ∧ t.hst.inL1 = false ∧
    (s.hst.linkUp = true → s.hst.retrain = false → t.hst.recoveries = s.hst.recoveries + 1 ∧ t.hst.intStatus = s.hst.intStatus ∧
      t.evs = s.evs) ∧
    (s.hst.linkUp = false ∨ s.hst.retrain = true → t.hst.recoveries = s.hst.recoveries ∧ t.hst.intStatus = setBit s.hst.intStatus 6 ∧
      ∃ e ∈ t.evs, e.rank = 13 ∧ e.code = 7) ∧
    t = { s with hst := { s.hst with linkUp := true, gen2 := g, retrain := false, inL1 := false,
                                     recoveries := t.hst.recoveries, intStatus := t.hst.intStatus }, evs := t.evs })

/-- Starts and boundaries (R17, R20, R391, R424, R427, R434, R436, R438): a start whose image matches its boot record opens its
first frame beyond every frame that the package can have counted; one that does not match starts no island; a boundary of a
single package opens the next frame. -/
def Obligations.StartsAndBoundaries : Prop :=
  (∀ (x : BootFacts) (s : State), s.hkp.shutdown = false → s.hkp.xtalStopped = false → bootOk s = true → ∃ t,
    exec (.coldStart x) s = .next t ∧ fnHigh s + 1001 ≤ t.fn ∧ (s.hkp.rtcValid = false → t.fn = fnHigh s + 1001) ∧
      t.otp = s.otp ∧ t.pending = s.pending) ∧
  (∀ (ms : Nat) (s : State), s.hkp.shutdown = false → s.hkp.xtalStopped = false → s.hkp.resetReq ≠ some true → bootOk s = true → ∃ t,
    exec (.warmReset ms) s = .next t ∧ fnHigh s + 1001 ≤ t.fn ∧ (s.hkp.rtcValid = false → t.fn = fnHigh s + 1001) ∧
      t.otp = s.otp ∧ t.pending = s.pending) ∧
  (∀ (x : BootFacts) (ms : Nat) (s : State), s.hkp.shutdown = false → s.hkp.xtalStopped = false → bootOk s = false →
    (∃ t, exec (.coldStart x) s = .next t ∧ t.isl = { ctl := false, com := false, met := false, lnd := false } ∧ t.aux.held = true) ∧
    (s.hkp.resetReq ≠ some true → ∃ t, exec (.warmReset ms) s = .next t ∧
      t.isl = { ctl := false, com := false, met := false, lnd := false } ∧ t.aux.held = true)) ∧
  (∀ (x : BootFacts) (ms : Nat) (s : State), s.hkp.shutdown = true ∨ s.hkp.xtalStopped = true →
    exec (.coldStart x) s = .next s ∧ exec (.warmReset ms) s = .next s) ∧
  (∀ s : State, s.isl.ctl = true → s.tdm.st = .single → s.tdm.pend = none → ∃ t, exec .frameBoundary s = .next t ∧ t.fn = s.fn + 1 ∧
    t.otp = s.otp ∧ t.pending = s.pending) ∧
  (∀ s : State, s.isl.ctl = false → exec .frameBoundary s = .next s)
end

