-- ==== Sys2Proof/Laws/Memory.lean ====
section
/-! SUPPORT. The laws of a memory: every operation keeps the canonical form, a read gives the byte last written, and a
write leaves every other address alone. -/

namespace Sys2Proof.Machine

theorem memCons_wf {lo a : Nat} {v : Byte} {m : Memory} (h : lo ≤ a) (hm : Memory.wfFrom (a + 1) m = true) :
    Memory.wfFrom lo (memCons a v m) = true := by
  unfold memCons
  split
  · exact wfFrom_mono hm (by omega)
  · simp_all [Memory.wfFrom]
where
  wfFrom_mono : ∀ {m : Memory} {a b : Nat}, Memory.wfFrom b m = true → a ≤ b → Memory.wfFrom a m = true
    | [], _, _, _, _ => rfl
    | (_, _) :: _, _, _, h, hab => by
      simp only [Memory.wfFrom, Bool.and_eq_true, decide_eq_true_eq] at h ⊢
      exact ⟨⟨hab.trans h.1.1, h.1.2⟩, h.2⟩

theorem memWrite_wfFrom (m : Memory) (a : Nat) (v : Byte) (lo : Nat) (hlo : lo ≤ a)
    (h : Memory.wfFrom lo m = true) : Memory.wfFrom lo (memWrite m a v) = true := by
  induction m generalizing lo with
  | nil => exact memCons_wf hlo rfl
  | cons x m ih =>
    obtain ⟨b, w⟩ := x
    simp only [Memory.wfFrom, Bool.and_eq_true, decide_eq_true_eq] at h
    obtain ⟨⟨hb, hw⟩, hm⟩ := h
    unfold memWrite
    split
    · exact memCons_wf hlo (by simp only [Memory.wfFrom, Bool.and_eq_true, decide_eq_true_eq]; exact ⟨⟨by omega, hw⟩, hm⟩)
    · split
      · subst_vars; exact memCons_wf hb hm
      · simp only [Memory.wfFrom, Bool.and_eq_true, decide_eq_true_eq]
        exact ⟨⟨hb, hw⟩, ih (b + 1) (by omega) hm⟩

/-- A write keeps the canonical form. -/
theorem memWrite_wf (m : Memory) (a : Nat) (v : Byte) (h : Memory.wf m = true) : Memory.wf (memWrite m a v) = true :=
  memWrite_wfFrom m a v 0 (Nat.zero_le _) h

/-- So does a write of a byte string. -/
theorem memWriteBytes_wf (m : Memory) (a : Nat) (bs : List Byte) (h : Memory.wf m = true) :
    Memory.wf (memWriteBytes m a bs) = true := by
  induction bs generalizing m a with
  | nil => exact h
  | cons v vs ih => exact ih _ _ (memWrite_wf m a v h)

theorem memRead_below (m : Memory) (lo a : Nat) (h : Memory.wfFrom lo m = true) (ha : a < lo) : memRead m a = 0 := by
  cases m with
  | nil => rfl
  | cons x m =>
    obtain ⟨b, w⟩ := x
    simp only [Memory.wfFrom, Bool.and_eq_true, decide_eq_true_eq] at h
    unfold memRead
    rw [if_neg (by omega), if_pos (by omega)]

theorem memRead_memCons (a b : Nat) (v : Byte) (m : Memory) (hm : Memory.wfFrom (a + 1) m = true) :
    memRead (memCons a v m) b = if b = a then v else memRead m b := by
  unfold memCons
  split
  · subst_vars
    split
    · subst_vars; exact memRead_below m _ _ hm (by omega)
    · rfl
  · rw [memRead]
    split
    · rfl
    · split
      · rw [memRead_below m _ _ hm (by omega)]
      · rfl

theorem memRead_memWrite_from (m : Memory) (lo a b : Nat) (v : Byte) (h : Memory.wfFrom lo m = true) :
    memRead (memWrite m a v) b = if b = a then v else memRead m b := by
  induction m generalizing lo with
  | nil => rw [memWrite, memRead_memCons _ _ _ _ rfl]
  | cons x m ih =>
    obtain ⟨c, w⟩ := x
    simp only [Memory.wfFrom, Bool.and_eq_true, decide_eq_true_eq] at h
    obtain ⟨⟨hb, hw⟩, hm⟩ := h
    unfold memWrite
    split
    · rw [memRead_memCons]
      simp only [Memory.wfFrom, Bool.and_eq_true, decide_eq_true_eq]
      exact ⟨⟨by omega, hw⟩, hm⟩
    · split
      · subst_vars
        rw [memRead_memCons _ _ _ _ hm]
        split
        · rfl
        · rename_i hne; simp [memRead, hne]; intro hlt; exact memRead_below m _ _ hm (by omega)
      · rw [memRead, ih _ hm]
        by_cases hbc : b = c
        · subst_vars; simp [memRead]; intro hab; omega
        · by_cases hba : b = a
          · subst_vars
            rw [if_neg hbc, if_neg (by omega)]
            simp
          · simp [memRead, hbc, hba]

/-- Reading one byte after writing one. -/
theorem memRead_memWrite (m : Memory) (a b : Nat) (v : Byte) (h : Memory.wf m = true) :
    memRead (memWrite m a v) b = if b = a then v else memRead m b :=
  memRead_memWrite_from m 0 a b v h

/-- A write of a byte string leaves every address outside it alone. -/
theorem memRead_memWriteBytes_off (m : Memory) (a b : Nat) (bs : List Byte) (h : Memory.wf m = true)
    (hb : b < a ∨ a + bs.length ≤ b) : memRead (memWriteBytes m a bs) b = memRead m b := by
  induction bs generalizing m a with
  | nil => rfl
  | cons v vs ih =>
    simp only [List.length_cons] at hb
    rw [memWriteBytes, ih _ _ (memWrite_wf m a v h) (by omega), memRead_memWrite m a b v h, if_neg (by omega)]

end Sys2Proof.Machine
end

