-- ==== Sys2Proof/Laws/KeepsBase.lean ====
section
/-! SUPPORT. Projections through choices and folds, and what the shared operations leave alone. -/

namespace Sys2Proof.Machine

@[simp] theorem ite_pending (c : Prop) [Decidable c] (a b : State) :
    (if c then a else b).pending = if c then a.pending else b.pending := apply_ite _ _ _ _
@[simp] theorem ite_otp (c : Prop) [Decidable c] (a b : State) :
    (if c then a else b).otp = if c then a.otp else b.otp := apply_ite _ _ _ _
@[simp] theorem ite_hwd (c : Prop) [Decidable c] (a b : State) :
    (if c then a else b).hwd.tc = if c then a.hwd.tc else b.hwd.tc := apply_ite (fun s : State => s.hwd.tc) _ _ _
@[simp] theorem ite_mem (c : Prop) [Decidable c] (a b : State) :
    (if c then a else b).lnd.mem = if c then a.lnd.mem else b.lnd.mem := apply_ite (fun s : State => s.lnd.mem) _ _ _
@[simp] theorem ite_fn (c : Prop) [Decidable c] (a b : State) :
    (if c then a else b).fn = if c then a.fn else b.fn := apply_ite _ _ _ _
@[simp] theorem ite_fbk (c : Prop) [Decidable c] (a b : State) :
    (if c then a else b).fbk = if c then a.fbk else b.fbk := apply_ite _ _ _ _

theorem foldl_proj {α β : Type} (p : State → β) (f : State → α → State) (h : ∀ s x, p (f s x) = p s)
    (l : List α) (s : State) : p (l.foldl f s) = p s := by
  induction l generalizing s with
  | nil => rfl
  | cons x xs ih => simp only [List.foldl_cons, ih, h]

@[simp] theorem foldl_pending {α : Type} (f : State → α → State) (h : ∀ s x, (f s x).pending = s.pending)
    (l : List α) (s : State) : (l.foldl f s).pending = s.pending := foldl_proj (·.pending) f h l s
@[simp] theorem foldl_otp {α : Type} (f : State → α → State) (h : ∀ s x, (f s x).otp = s.otp)
    (l : List α) (s : State) : (l.foldl f s).otp = s.otp := foldl_proj (·.otp) f h l s
@[simp] theorem foldl_tc {α : Type} (f : State → α → State) (h : ∀ s x, (f s x).hwd.tc = s.hwd.tc)
    (l : List α) (s : State) : (l.foldl f s).hwd.tc = s.hwd.tc := foldl_proj (·.hwd.tc) f h l s
@[simp] theorem foldl_mem {α : Type} (f : State → α → State) (h : ∀ s x, (f s x).lnd.mem = s.lnd.mem)
    (l : List α) (s : State) : (l.foldl f s).lnd.mem = s.lnd.mem := foldl_proj (·.lnd.mem) f h l s
@[simp] theorem foldl_fn {α : Type} (f : State → α → State) (h : ∀ s x, (f s x).fn = s.fn)
    (l : List α) (s : State) : (l.foldl f s).fn = s.fn := foldl_proj (·.fn) f h l s
@[simp] theorem foldl_fbk {α : Type} (f : State → α → State) (h : ∀ s x, (f s x).fbk = s.fbk)
    (l : List α) (s : State) : (l.foldl f s).fbk = s.fbk := foldl_proj (·.fbk) f h l s

@[simp] theorem raise_same (s : State) (e : Event) : Same s (raise s e) := by simp [Same, raise]
@[simp] theorem raiseIf_same (c : Bool) (e : Event) (s : State) : Same s (raiseIf c e s) := by
  simp [Same, raiseIf]
@[simp] theorem refuse_same (off : Nat) (s : State) : Same s (refuse off s) := by
  simp [Same, refuse]

theorem foldl_wf {α : Type} (f : State → α → State)
    (h : ∀ s x, Memory.wf s.lnd.mem = true → Memory.wf (f s x).lnd.mem = true) (l : List α) (s : State)
    (hs : Memory.wf s.lnd.mem = true) : Memory.wf (l.foldl f s).lnd.mem = true := by
  induction l generalizing s with
  | nil => exact hs
  | cons x xs ih => exact ih _ (h _ _ hs)

@[simp] theorem onLnd_same (f : Lnd → Lnd) (s : State) : (onLnd f s).pending = s.pending ∧ (onLnd f s).otp = s.otp ∧ (onLnd f s).fn = s.fn ∧
    (onLnd f s).hwd = s.hwd ∧ (onLnd f s).fbk = s.fbk ∧ (onLnd f s).lnd = f s.lnd := by simp [onLnd]

@[simp] theorem lndWrite_same (a : Nat) (bs : List Byte) (s : State) : SameW s (lndWrite a bs s) := by
  refine ⟨rfl, rfl, rfl, rfl, rfl, fun h => ?_⟩
  simpa [lndWrite, onLnd] using memWriteBytes_wf _ a bs h

@[simp] theorem onHwd_same (f : Hwd → Hwd) (s : State) : (onHwd f s).pending = s.pending ∧ (onHwd f s).otp = s.otp ∧ (onHwd f s).fn = s.fn ∧
    (onHwd f s).lnd = s.lnd ∧ (onHwd f s).fbk = s.fbk ∧ (onHwd f s).hwd = f s.hwd := by simp [onHwd]

@[simp] theorem onFbk_same (f : Fbk → Fbk) (s : State) : (onFbk f s).pending = s.pending ∧ (onFbk f s).otp = s.otp ∧ (onFbk f s).fn = s.fn ∧
    (onFbk f s).lnd = s.lnd ∧ (onFbk f s).hwd = s.hwd ∧ (onFbk f s).fbk = f s.fbk := by simp [onFbk]

@[simp] theorem onBrk_same (b : Fin 8) (f : FbkBrk → FbkBrk) (s : State) : SameF s (onBrk b f s) := by
  simp [onBrk, SameF]
@[simp] theorem onZone_same (b : Fin 8) (f : FbkZone → FbkZone) (s : State) : SameF s (onZone b f s) := by
  simp [onZone, SameF]

theorem same_refl (s : State) : Same s s := ⟨rfl, rfl, rfl, rfl, rfl, rfl⟩
theorem same_trans {s t u : State} (h : Same s t) (k : Same t u) : Same s u := by
  obtain ⟨h1, h2, h3, h4, h5, h6⟩ := h; obtain ⟨k1, k2, k3, k4, k5, k6⟩ := k
  exact ⟨k1.trans h1, k2.trans h2, k3.trans h3, k4.trans h4, k5.trans h5, k6.trans h6⟩
theorem sameW_refl (s : State) : SameW s s := ⟨rfl, rfl, rfl, rfl, rfl, fun h => h⟩
theorem sameW_trans {s t u : State} (h : SameW s t) (k : SameW t u) : SameW s u := by
  obtain ⟨h1, h2, h3, h4, h5, h6⟩ := h; obtain ⟨k1, k2, k3, k4, k5, k6⟩ := k
  exact ⟨k1.trans h1, k2.trans h2, k3.trans h3, k4.trans h4, k5.trans h5, fun w => k6 (h6 w)⟩
theorem sameF_refl (s : State) : SameF s s := ⟨rfl, rfl, rfl, rfl, rfl⟩
theorem sameF_trans {s t u : State} (h : SameF s t) (k : SameF t u) : SameF s u := by
  obtain ⟨h1, h2, h3, h4, h5⟩ := h; obtain ⟨k1, k2, k3, k4, k5⟩ := k
  exact ⟨k1.trans h1, k2.trans h2, k3.trans h3, k4.trans h4, k5.trans h5⟩
theorem sameFW_refl (s : State) : SameFW s s := ⟨rfl, rfl, rfl, rfl, fun h => h⟩
theorem sameFW_trans {s t u : State} (h : SameFW s t) (k : SameFW t u) : SameFW s u := by
  obtain ⟨h1, h2, h3, h4, h5⟩ := h; obtain ⟨k1, k2, k3, k4, k5⟩ := k
  exact ⟨k1.trans h1, k2.trans h2, k3.trans h3, k4.trans h4, fun w => k5 (h5 w)⟩
theorem same_sameW {s t : State} (h : Same s t) : SameW s t := by
  obtain ⟨h1, h2, h3, h4, h5, h6⟩ := h; exact ⟨h1, h2, h3, h4, h6, fun w => by rw [h5]; exact w⟩
theorem same_sameF {s t : State} (h : Same s t) : SameF s t := by
  obtain ⟨h1, h2, h3, h4, h5, _⟩ := h; exact ⟨h1, h2, h3, h4, h5⟩
theorem sameW_sameFW {s t : State} (h : SameW s t) : SameFW s t := by
  obtain ⟨h1, h2, h3, h4, _, h6⟩ := h; exact ⟨h1, h2, h3, h4, h6⟩
theorem sameF_sameFW {s t : State} (h : SameF s t) : SameFW s t := by
  obtain ⟨h1, h2, h3, h4, h5⟩ := h; exact ⟨h1, h2, h3, h4, fun w => by rw [h5]; exact w⟩

/-- A fold of steps that are each related to their state is related to it. -/
theorem foldl_rel {α : Type} (R : State → State → Prop) (hr : ∀ s, R s s) (ht : ∀ {s t u}, R s t → R t u → R s u)
    (f : State → α → State) (h : ∀ s x, R s (f s x)) (l : List α) (s : State) : R s (l.foldl f s) := by
  induction l generalizing s with
  | nil => exact hr s
  | cons x xs ih => exact ht (h s x) (ih _)
theorem foldl_same {α : Type} (f : State → α → State) (h : ∀ s x, Same s (f s x)) (l : List α) (s : State) :
    Same s (l.foldl f s) := foldl_rel Same same_refl same_trans f h l s
theorem foldl_sameW {α : Type} (f : State → α → State) (h : ∀ s x, SameW s (f s x)) (l : List α) (s : State) :
    SameW s (l.foldl f s) := foldl_rel SameW sameW_refl sameW_trans f h l s
theorem foldl_sameF {α : Type} (f : State → α → State) (h : ∀ s x, SameF s (f s x)) (l : List α) (s : State) :
    SameF s (l.foldl f s) := foldl_rel SameF sameF_refl sameF_trans f h l s
theorem foldl_sameFW {α : Type} (f : State → α → State) (h : ∀ s x, SameFW s (f s x)) (l : List α) (s : State) :
    SameFW s (l.foldl f s) := foldl_rel SameFW sameFW_refl sameFW_trans f h l s

theorem sameFW_keeps {s t : State} (h : SameFW s t) : Keeps s t :=
  ⟨h.1, by rw [h.2.1], by rw [h.2.1], fun w => by rw [h.2.1]; exact w, by rw [h.2.2.1], h.2.2.2.2, h.2.2.2.1⟩
theorem same_keeps {s t : State} (h : Same s t) : Keeps s t := sameFW_keeps (sameW_sameFW (same_sameW h))
theorem sameW_keeps {s t : State} (h : SameW s t) : Keeps s t := sameFW_keeps (sameW_sameFW h)
theorem sameF_keeps {s t : State} (h : SameF s t) : Keeps s t := sameFW_keeps (sameF_sameFW h)
theorem keeps_refl (s : State) : Keeps s s := same_keeps (same_refl s)
theorem keeps_trans {s t u : State} (h : Keeps s t) (k : Keeps t u) : Keeps s u :=
  ⟨k.queue.trans h.queue, k.serial.trans h.serial, k.order.trans h.order, fun w => k.locked (h.locked w),
    h.tc.trans k.tc, fun w => k.mem (h.mem w), k.fn.trans h.fn⟩
theorem moved_trans {s u t : State} {n : Nat} (c : SameW s u) (h : SameF { u with fn := n } t) : SameFW { s with fn := n } t := by
  obtain ⟨c1, c2, c3, _, _, c6⟩ := c; obtain ⟨h1, h2, h3, h4, h5⟩ := h
  exact ⟨h1.trans c1, h2.trans c2, h3.trans c3, h4, fun w => by rw [h5]; exact c6 w⟩
theorem moved_boot {s u t : State} (n : Nat) (c : SameFW s u) (h : SameFW { u with fn := n } t) :
    SameFW { s with fn := n } t := by
  obtain ⟨c1, c2, c3, _, c5⟩ := c; obtain ⟨h1, h2, h3, h4, h5⟩ := h
  exact ⟨h1.trans c1, h2.trans c2, h3.trans c3, h4, fun w => h5 (c5 w)⟩
theorem moved_fn {s t : State} {n : Nat} (h : SameFW { s with fn := n } t) : SameFW { s with fn := t.fn } t := by
  obtain ⟨h1, h2, h3, _, h5⟩ := h; exact ⟨h1, h2, h3, rfl, h5⟩
theorem firstSets_same (x : InputSet) (s : State) : Same s { s with cap := x, lat := x, jnlOld := s.live } :=
  ⟨rfl, rfl, rfl, rfl, rfl, rfl⟩
theorem ite_rel {R : State → State → Prop} {s t u : State} (c : Prop) [Decidable c] (h : R s t) (k : R s u) :
    R s (if c then t else u) := by split <;> assumption
theorem keeps_ite {s t u : State} (c : Prop) [Decidable c] (h : Keeps s t) (k : Keeps s u) : Keeps s (if c then t else u) := by
  split <;> assumption

theorem keeps_runs {s t : State} (h : Keeps s t) : Runs s t := ⟨h.queue, h.serial, h.order, h.locked, h.tc, h.mem⟩
theorem runs_refl (s : State) : Runs s s := keeps_runs (keeps_refl s)
theorem runs_trans {s t u : State} (h : Runs s t) (k : Runs t u) : Runs s u :=
  ⟨k.queue.trans h.queue, k.serial.trans h.serial, k.order.trans h.order, fun w => k.locked (h.locked w),
    h.tc.trans k.tc, fun w => k.mem (h.mem w)⟩
theorem runs_ite {s t u : State} (c : Prop) [Decidable c] (h : Runs s t) (k : Runs s u) : Runs s (if c then t else u) := by
  split <;> assumption

theorem onLnd_keep (g : Lnd → Lnd) (s : State) (h : ∀ l, (g l).mem = l.mem) : Same s (onLnd g s) := ⟨rfl, rfl, rfl, rfl, h _, rfl⟩
theorem onHwd_keep (g : Hwd → Hwd) (s : State) (h : ∀ l, (g l).tc = l.tc) : Same s (onHwd g s) := ⟨rfl, rfl, h _, rfl, rfl, rfl⟩

theorem withFin_rel {n : Nat} (R : State → Prop) (i : Nat) (g : Fin n → State) (s : State) (hs : R s) (h : ∀ k, R (g k)) :
    R (withFin n i g s) := by
  unfold withFin; split
  · exact h _
  · exact hs
theorem withFin_same {n : Nat} (i : Nat) (g : Fin n → State) (s : State) (h : ∀ k, Same s (g k)) :
    Same s (withFin n i g s) := withFin_rel (Same s) i g s (same_refl s) h

end Sys2Proof.Machine
end

