-- ==== Sys2Proof/Laws/KeepsOps.lean ====
section
/-! SUPPORT. What the operations of Machine/Ops.lean leave alone. -/

namespace Sys2Proof.Machine

@[simp] theorem State.fresh_same (s : State) : Same s (State.fresh s).2 := by
  simp [Same, State.fresh]

end Sys2Proof.Machine
end

