-- ==== Sys2Proof/Laws/KeepsLanding.lean ====
section
/-! SUPPORT. What the operations of Machine/Landing.lean leave alone. -/

namespace Sys2Proof.Machine

@[simp] theorem lndEvent_same (b data : Nat) (s : State) : Same s (lndEvent b data s) := by
  simp [Same, lndEvent]

@[simp] theorem overrun_same (data : Nat) (s : State) : Same s (overrun data s) := by
  simp [Same, overrun]

@[simp] theorem eccWord_same (s : State) (w : Nat × Bool) : Same s (eccWord s w) := by
  simp [Same, eccWord]

@[simp] theorem eccRead_same (a n : Nat) (s : State) : Same s (eccRead a n s) := by
  simp [Same, eccRead]

@[simp] theorem ringAdd_same (q : Fin 64) (n : Nat) (s : State) : Same s (ringAdd q n s) := by
  simp [Same, ringAdd]

@[simp] theorem ringPut_same (q : Fin 64) (base : Nat) (bs : List Byte) (s : State) : SameW s (ringPut q base bs s) := by
  refine ⟨?_, ?_, ?_, ?_, ?_, fun h => ?_⟩ <;> (unfold ringPut; (repeat' split) <;> simp [*])

@[simp] theorem eventPut_same (fn seq : Nat) (e : Event) (s : State) : SameW s (eventPut fn seq e s) := by
  refine ⟨?_, ?_, ?_, ?_, ?_, fun h => ?_⟩ <;> (unfold eventPut; (repeat' split) <;> simp [*])

@[simp] theorem eventsPut_same (fn : Nat) (seq rank : Nat) (u1 : List Event) (u2 : State) : SameW u2 (eventsPut fn seq rank u1 u2) := by
  induction u1 generalizing seq rank u2 with
  | nil => exact sameW_refl _
  | cons e es ih => unfold eventsPut; dsimp only; exact sameW_trans (eventPut_same _ _ _ _) (ih _ _ _)

@[simp] theorem hostBytes_same (u1 : Nat) (u2 : List Byte) (u3 : State) : SameW u3 (hostBytes u1 u2 u3).1 := by
  induction u2 generalizing u1 u3 with
  | nil => exact ⟨rfl, rfl, rfl, rfl, rfl, fun h => h⟩
  | cons b bs ih =>
    unfold hostBytes; split
    · have h1 := ih (u1 + 1) (lndWrite u1 [b] u3)
      have h2 := lndWrite_same u1 [b] u3
      exact sameW_trans h2 h1
    · exact ih (u1 + 1) u3

@[simp] theorem bar2Refused_same (a : Nat) (s : State) : Same s (bar2Refused a s) := by
  simp [Same, bar2Refused]

@[simp] theorem bar2Write_same (a : Nat) (bs : List Byte) (s : State) : SameW s (bar2Write a bs s) := by
  have hb := hostBytes_same a bs s
  unfold bar2Write; revert hb; rcases hostBytes a bs s with ⟨t, _ | x⟩ <;> intro hb <;>
    refine ⟨?_, ?_, ?_, ?_, ?_, fun h => ?_⟩ <;> simp_all

theorem execBar2Write_same (off : BitVec 26) (bytes : List Byte) (s : State) : ∃ s', execBar2Write off bytes s = .next s' ∧ SameW s s' := by
  refine ⟨_, rfl, ?_⟩; refine ⟨?_, ?_, ?_, ?_, ?_, fun h => ?_⟩ <;> ((repeat' split) <;> simp [*])

@[simp] theorem scrubStep_same (s : State) : Same s (scrubStep s) := by
  simp [Same, scrubStep]

theorem execScrubStep_same (s : State) : ∃ s', execScrubStep s = .next s' ∧ Same s s' := by
  refine ⟨_, rfl, ?_⟩; simp [Same]

theorem execLndSnapNow_same (s : State) : ∃ s', execLndSnapNow s = .next s' ∧ Same s s' := by
  refine ⟨_, rfl, ?_⟩; simp [Same]

theorem execLndScrubNow_same (s : State) : ∃ s', execLndScrubNow s = .next s' ∧ Same s s' := by
  refine ⟨_, rfl, ?_⟩; simp [Same]

end Sys2Proof.Machine
end

