-- ==== Sys2Proof/Laws/KeepsLoops.lean ====
section
/-! SUPPORT. What the operations of Machine/Loops.lean leave alone. -/

namespace Sys2Proof.Machine

end Sys2Proof.Machine
end

