-- ==== Sys2Proof/Laws/KeepsPorts.lean ====
section
/-! SUPPORT. What the operations of Machine/Ports.lean leave alone. -/

namespace Sys2Proof.Machine

@[simp] theorem chpEvent_same (c : ChIx) (b ord : Nat) (s : State) : Same s (chpEvent c b ord s) := by
  simp [Same, chpEvent]

@[simp] theorem chpLate_same (c : ChIx) (b ord : Nat) (s : State) : Same s (chpLate c b ord s) := by
  simp [Same, chpLate]

@[simp] theorem lpeEvent_same (c : ChIx) (b ord : Nat) (s : State) : Same s (lpeEvent c b ord s) := by
  simp [Same, lpeEvent]

@[simp] theorem enterHold_same (c : ChIx) (ord : Nat) (s : State) : Same s (enterHold c ord s) := by
  simp [Same, enterHold]

@[simp] theorem latchUp_same (i : Nat) (s : State) (c : ChIx) : Same s (latchUp i s c) := by
  unfold latchUp; dsimp only; (repeat' split) <;> simp [Same]

@[simp] theorem holdTest_same (i : Nat) (s : State) (c : ChIx) : Same s (holdTest i s c) := by
  simp [Same, holdTest]

@[simp] theorem trackTest_same (s : State) (c : ChIx) : Same s (trackTest s c) := by
  simp [Same, trackTest]

@[simp] theorem busTest_same (s : State) : Same s (busTest s) := by
  unfold busTest; (repeat' split) <;> simp [Same]

@[simp] theorem latchCluster_same (s : State) (k : CluIx) : Same s (latchCluster s k) := by
  simp [Same, latchCluster]

@[simp] theorem testCluster_same (s : State) (k : CluIx) : Same s (testCluster s k) := by
  simp [Same, testCluster]

@[simp] theorem latchAt_same (i n : Nat) (s : State) : Same s (latchAt i n s) := by
  simp [Same, latchAt]

@[simp] theorem shortDetect_same (c : ChIx) (ord : Nat) (s : State) : Same s (shortDetect c ord s) := by
  simp [Same, shortDetect]

@[simp] theorem limitTest_same (i : Nat) (s : State) (c : ChIx) : Same s (limitTest i s c) := by
  simp [Same, limitTest]

@[simp] theorem windowTest_same (s : State) (c : ChIx) : Same s (windowTest s c) := by
  simp [Same, windowTest]

@[simp] theorem sendDown_same (s : State) (c : ChIx) (i : Nat) : Same s (sendDown s c i) := by
  simp [Same, sendDown]

@[simp] theorem slot_same (i : Nat) (s : State) (c : ChIx) : Same s (slot i s c) := by
  simp [Same, slot]

@[simp] theorem digestUnits_same (k : CluIx) (i : Nat) (s : State) : Same s (digestUnits k i s) := by
  simp [Same, digestUnits]

@[simp] theorem sampleStart_same (k : CluIx) (s : State) : Same s (sampleStart k s) := by
  simp [Same, sampleStart]

theorem execSampleStart_same (k : CluIx) (s : State) : ∃ s', execSampleStart k s = .next s' ∧ Same s s' := by
  refine ⟨_, rfl, ?_⟩; ((repeat' split) <;> simp [Same])

theorem execStaleHold_same (c : ChIx) (s : State) : ∃ s', execStaleHold c s = .next s' ∧ Same s s' := by
  refine ⟨_, rfl, ?_⟩; simp [Same]

@[simp] theorem receiveUp_same (c : ChIx) (bs : List Byte) (s : State) : Same s (receiveUp c bs s) := by
  simp [Same, receiveUp]

theorem execUplinkReceive_same (c : ChIx) (bs : List Byte) (s : State) : ∃ s', execUplinkReceive c bs s = .next s' ∧ Same s s' := by
  refine ⟨_, rfl, ?_⟩; simp [Same]

theorem execShortCurrentLimit_same (c : ChIx) (s : State) : ∃ s', execShortCurrentLimit c s = .next s' ∧ Same s s' := by
  refine ⟨_, rfl, ?_⟩; simp [Same]

theorem execShortWindowExpiry_same (c : ChIx) (s : State) : ∃ s', execShortWindowExpiry c s = .next s' ∧ Same s s' := by
  refine ⟨_, rfl, ?_⟩; simp [Same]

@[simp] theorem vselChange_same (code : BitVec 3) (s : State) : Same s (vselChange code s) := by
  simp [Same, vselChange]

theorem execVselChange_same (code : BitVec 3) (s : State) : ∃ s', execVselChange code s = .next s' ∧ Same s s' := by
  refine ⟨_, rfl, ?_⟩; simp [Same]

@[simp] theorem setMismatch_same (c : ChIx) (s : State) : Same s (setMismatch c s) := by
  simp [Same, setMismatch]

theorem execRouteMismatch_same (c : ChIx) (s : State) : ∃ s', execRouteMismatch c s = .next s' ∧ Same s s' := by
  refine ⟨_, rfl, ?_⟩; dsimp only; ((repeat' split) <;> simp [Same])

end Sys2Proof.Machine
end

