-- ==== Sys2Proof/Laws/KeepsYarder.lean ====
section
/-! SUPPORT. What the operations of Machine/Yarder.lean leave alone. -/

namespace Sys2Proof.Machine

@[simp] theorem setHand_same (c : ChIx) (h : Hand) (s : State) : Same s (setHand c h s) := by
  simp [Same, setHand]

@[simp] theorem alcInt_same (b : Nat) (s : State) : Same s (alcInt b s) := by
  simp [Same, alcInt]

@[simp] theorem toRampDown_same (c : ChIx) (h : Hand) (dest : Option OutIx) (s : State) : Same s (toRampDown c h dest s) := by
  simp [Same, toRampDown]

@[simp] theorem toOpening_same (c : ChIx) (h : Hand) (s : State) : Same s (toOpening c h s) := by
  simp [Same, toOpening]

@[simp] theorem toClosing_same (c : ChIx) (h : Hand) (b : OutIx) (r : RouteCfg) (s : State) : Same s (toClosing c h b r s) := by
  simp [Same, toClosing]

@[simp] theorem toSettled_same (c : ChIx) (h : Hand) (b : OutIx) (dwell : Nat) (fresh : Bool) (s : State) : Same s (toSettled c h b dwell fresh s) := by
  simp [Same, toSettled]

@[simp] theorem toRouteFault_same (c : ChIx) (h : Hand) (cause : Nat) (s : State) : Same s (toRouteFault c h cause s) := by
  simp [Same, toRouteFault]

@[simp] theorem toIdle_same (c : ChIx) (h : Hand) (handover : Bool) (s : State) : Same s (toIdle c h handover s) := by
  simp [Same, toIdle]

@[simp] theorem toOut_same (c : ChIx) (h : Hand) (s : State) : Same s (toOut c h s) := by
  simp [Same, toOut]

@[simp] theorem toGone_same (c : ChIx) (h : Hand) (s : State) : Same s (toGone c h s) := by
  simp [Same, toGone]

@[simp] theorem trackFailed_same (c : ChIx) (h : Hand) (s : State) : Same s (trackFailed c h s) := by
  simp [Same, trackFailed]

theorem withdrawStep_same (s : State) (c : ChIx) (t : State) (h : withdrawStep s c = some t) : Same s t := by
  simp only [withdrawStep] at h; (repeat' split at h) <;> (cases h <;> simp [Same])

@[simp] theorem stepRampDown_same (s : State) (c : ChIx) (want : Option OutIx) : Same s (stepRampDown s c want) := by
  unfold stepRampDown; dsimp only; (repeat' split) <;> simp [Same]

@[simp] theorem stepOpening_same (s : State) (c : ChIx) (want : Option OutIx) : Same s (stepOpening s c want) := by
  unfold stepOpening; dsimp only; (repeat' split) <;> simp [Same]

@[simp] theorem stepClosing_same (s : State) (c : ChIx) (want : Option OutIx) : Same s (stepClosing s c want) := by
  unfold stepClosing; dsimp only; (repeat' split) <;> simp [Same]

@[simp] theorem stepTracking_same (s : State) (c : ChIx) : Same s (stepTracking s c) := by
  unfold stepTracking; dsimp only; (repeat' split) <;> simp [Same]

@[simp] theorem routeFaultClear_same (c : ChIx) (s : State) : Same s (routeFaultClear c s) := by
  simp [Same, routeFaultClear]

@[simp] theorem handStep_same (r : RPlan) (s : State) (c : ChIx) : Same s (handStep r s c) := by
  unfold handStep; dsimp only; split
  · split <;> simp [Same]
  · split
    · rename_i t h; exact withdrawStep_same _ _ _ h
    · (repeat' split) <;> simp [Same]

@[simp] theorem mismatchStep_same (s : State) (c : ChIx) : Same s (mismatchStep s c) := by
  simp [Same, mismatchStep]

@[simp] theorem yarder_same (s : State) : Same s (yarder s) := by
  unfold yarder; dsimp only; (repeat' split) <;> simp [Same]

@[simp] theorem packStep_same (s : State) : Same s (packStep s) := by
  simp [Same, packStep]

@[simp] theorem glimLive_same (s : State) : Same s (glimLive s) := by
  simp [Same, glimLive]

@[simp] theorem setGlimLoss_same (b : Bool) (s : State) : Same s (setGlimLoss b s) := by
  simp [Same, setGlimLoss]

@[simp] theorem glimEdges_same (edges : List Nat) (s : State) : Same s (glimEdges edges s).2 := by
  unfold glimEdges; (repeat' split) <;> simp [Same]

@[simp] theorem glimSample_same (raw : Nat) (edges : List Nat) (s : State) : Same s (glimSample raw edges s) := by
  unfold glimSample; dsimp only; (repeat' split) <;> simp [Same]

theorem execGlimSample_same (raw : GlimRead) (s : State) : ∃ s', execGlimSample raw s = .next s' ∧ Same s s' := by
  refine ⟨_, rfl, ?_⟩; simp [Same]

theorem execGlimSignalLoss_same (s : State) : ∃ s', execGlimSignalLoss s = .next s' ∧ Same s s' := by
  refine ⟨_, rfl, ?_⟩; simp [Same]

theorem execGlimSignalRestore_same (s : State) : ∃ s', execGlimSignalRestore s = .next s' ∧ Same s s' := by
  refine ⟨_, rfl, ?_⟩; simp [Same]

theorem execXfmrStaleTimeout_same (s : State) : ∃ s', execXfmrStaleTimeout s = .next s' ∧ Same s s' := by
  refine ⟨_, rfl, ?_⟩; simp [Same]

theorem execRouteFeedbackTimeout_same (c : ChIx) (s : State) : ∃ s', execRouteFeedbackTimeout c s = .next s' ∧ Same s s' := by
  refine ⟨_, rfl, ?_⟩; dsimp only; ((repeat' split) <;> simp [Same])

theorem execRampDownTimeout_same (c : ChIx) (s : State) : ∃ s', execRampDownTimeout c s = .next s' ∧ Same s s' := by
  refine ⟨_, rfl, ?_⟩; simp [Same]

theorem execTrackingTimeout_same (c : ChIx) (s : State) : ∃ s', execTrackingTimeout c s = .next s' ∧ Same s s' := by
  refine ⟨_, rfl, ?_⟩; simp [Same]

theorem execDwellExpiry_same (c : ChIx) (s : State) : ∃ s', execDwellExpiry c s = .next s' ∧ Same s s' := by
  refine ⟨_, rfl, ?_⟩; simp [Same]

theorem execRouteFaultClear_same (c : ChIx) (s : State) : ∃ s', execRouteFaultClear c s = .next s' ∧ Same s s' := by
  refine ⟨_, rfl, ?_⟩; simp [Same]

@[simp] theorem busGo_same (st : BusSt) (s : State) : Same s (busGo st s) := by
  unfold busGo; dsimp only; (repeat' split) <;> simp [Same]

@[simp] theorem busEval_same (s : State) : Same s (busEval s) := by
  unfold busEval; dsimp only; (repeat' split) <;> simp [Same]

@[simp] theorem busClear_same (c : ChIx) (s : State) : Same s (busClear c s) := by
  simp [Same, busClear]

theorem execChpBusClear_same (s : State) : ∃ s', execChpBusClear s = .next s' ∧ Same s s' := by
  refine ⟨_, rfl, ?_⟩; dsimp only; ((repeat' split) <;> simp [Same])

@[simp] theorem portOffWrite_same (c : ChIx) (b : Bool) (s : State) : Same s (portOffWrite c b s) := by
  simp [Same, portOffWrite]

theorem execChpPortOff_same (c : ChIx) (b : Bool) (s : State) : ∃ s', execChpPortOff c b s = .next s' ∧ Same s s' := by
  refine ⟨_, rfl, ?_⟩; simp [Same]

@[simp] theorem testWrite_same (c : ChIx) (b : Bool) (s : State) : Same s (testWrite c b s) := by
  simp [Same, testWrite]

theorem execChpTest_same (c : ChIx) (b : Bool) (s : State) : ∃ s', execChpTest c b s = .next s' ∧ Same s s' := by
  refine ⟨_, rfl, ?_⟩; simp [Same]

end Sys2Proof.Machine
end

