-- ==== Sys2Proof/Laws/KeepsOutlets.lean ====
section
/-! SUPPORT. What the operations of Machine/Outlets.lean leave alone. -/

namespace Sys2Proof.Machine

@[simp] theorem setOsq_same (o : OutIx) (q : Osq) (s : State) : Same s (setOsq o q s) := by
  simp [Same, setOsq]

@[simp] theorem osqInt_same (o : OutIx) (b : Nat) (s : State) : Same s (osqInt o b s) := by
  simp [Same, osqInt]

@[simp] theorem mbxPut_same (o : OutIx) (q : Osq) (fn code : Nat) (before after : OSt) (info : Nat) (data : List Nat) (s : State) : Same s (mbxPut o q fn code before after info data s) := by
  simp [Same, mbxPut]

@[simp] theorem osqGo_same (o : OutIx) (q : Osq) (st : OSt) (code info : Nat) (data : List Nat) (s : State) : Same s (osqGo o q st code info data s) := by
  simp [Same, osqGo]

@[simp] theorem osqFault_same (o : OutIx) (q : Osq) (f fun_ : Nat) (s : State) : Same s (osqFault o q f fun_ s) := by
  simp [Same, osqFault]

@[simp] theorem osqWeld_same (o : OutIx) (q : Osq) (s : State) : Same s (osqWeld o q s) := by
  simp [Same, osqWeld]

@[simp] theorem startStop_same (o : OutIx) (q : Osq) (cs : List (Nat × Nat)) (s : State) : Same s (startStop o q cs s).2 := by
  simp [Same, startStop]

@[simp] theorem osqDest_same (o : OutIx) (q : Osq) (s : State) : Same s (osqDest o q s) := by
  unfold osqDest; (repeat' split) <;> simp [Same]

@[simp] theorem osqStop_same (o : OutIx) (q : Osq) (cs : List (Nat × Nat)) (s : State) : Same s (osqStop o q cs s) := by
  simp [Same, osqStop]

@[simp] theorem osqEnd_same (o : OutIx) (q : Osq) (cs : List (Nat × Nat)) (s : State) : Same s (osqEnd o q cs s) := by
  simp [Same, osqEnd]

@[simp] theorem causeInts_same (o : OutIx) (cs : List (Nat × Nat)) (s : State) : Same s (causeInts o cs s) := by
  simp [Same, causeInts]

@[simp] theorem osqPlug_same (o : OutIx) (q : Osq) (s : State) : Same s (osqPlug o q s) := by
  simp [Same, osqPlug]

@[simp] theorem osqAuthorize_same (o : OutIx) (q : Osq) (s : State) : Same s (osqAuthorize o q s) := by
  simp [Same, osqAuthorize]

@[simp] theorem osqCableCheck_same (o : OutIx) (q : Osq) (s : State) : Same s (osqCableCheck o q s) := by
  simp [Same, osqCableCheck]

@[simp] theorem osqPrecharge_same (o : OutIx) (q : Osq) (s : State) : Same s (osqPrecharge o q s) := by
  simp [Same, osqPrecharge]

@[simp] theorem osqWeldCheck_same (o : OutIx) (q : Osq) (s : State) : Same s (osqWeldCheck o q s) := by
  simp [Same, osqWeldCheck]

@[simp] theorem osqDischarge_same (o : OutIx) (q : Osq) (s : State) : Same s (osqDischarge o q s) := by
  simp [Same, osqDischarge]

@[simp] theorem osqDisTimeout_same (o : OutIx) (q : Osq) (s : State) : Same s (osqDisTimeout o q s) := by
  simp [Same, osqDisTimeout]

@[simp] theorem osqRestart_same (o : OutIx) (q : Osq) (s : State) : Same s (osqRestart o q s) := by
  simp [Same, osqRestart]

@[simp] theorem osqFaultClear_same (o : OutIx) (q : Osq) (s : State) : Same s (osqFaultClear o q s) := by
  simp [Same, osqFaultClear]

@[simp] theorem osqBack_same (o : OutIx) (q : Osq) (s : State) : Same s (osqBack o q s) := by
  simp [Same, osqBack]

@[simp] theorem osqLevels_same (o : OutIx) (q : Osq) (c : BitVec 8) (s : State) : Same s (osqLevels o q c s).2 := by
  unfold osqLevels; dsimp only; (repeat' split) <;> simp [Same]

@[simp] theorem osqStartStep_same (o : OutIx) (q : Osq) (s : State) : Same s (osqStartStep o q s) := by
  simp [Same, osqStartStep]

@[simp] theorem osqStep_same (o : OutIx) (q : Osq) (c : BitVec 8) (s : State) : Same s (osqStep o q c s) := by
  unfold osqStep; (repeat' split) <;> simp [Same]

@[simp] theorem osqEval_same (s : State) (o : OutIx) : Same s (osqEval s o) := by
  simp [Same, osqEval]

@[simp] theorem osqCommand_same (o : OutIx) (b : Nat) (s : State) : Same s (osqCommand o b s) := by
  simp [Same, osqCommand]

@[simp] theorem setPilot_same (o : OutIx) (f : PilotIn → PilotIn) (s : State) : Same s (setPilot o f s) := by
  simp [Same, setPilot]

theorem execPilotStateAccept_same (o : OutIx) (high low : BitVec 8) (wave : PilotWave) (pp : Nat) (s : State) : ∃ s', execPilotStateAccept o high low wave pp s = .next s' ∧ Same s s' := by
  refine ⟨_, rfl, ?_⟩; simp [Same]

theorem execPilotFault_same (o : OutIx) (set : Bool) (s : State) : ∃ s', execPilotFault o set s = .next s' ∧ Same s s' := by
  refine ⟨_, rfl, ?_⟩; simp [Same]

theorem execDiodeFault_same (o : OutIx) (set : Bool) (s : State) : ∃ s', execDiodeFault o set s = .next s' ∧ Same s s' := by
  refine ⟨_, rfl, ?_⟩; simp [Same]

theorem execAssocTimeout_same (o : OutIx) (s : State) : ∃ s', execAssocTimeout o s = .next s' ∧ Same s s' := by
  refine ⟨_, rfl, ?_⟩; simp [Same]

theorem execAuthTimeout_same (o : OutIx) (s : State) : ∃ s', execAuthTimeout o s = .next s' ∧ Same s s' := by
  refine ⟨_, rfl, ?_⟩; simp [Same]

theorem execCableCheckPassed_same (o : OutIx) (s : State) : ∃ s', execCableCheckPassed o s = .next s' ∧ Same s s' := by
  refine ⟨_, rfl, ?_⟩; simp [Same]

theorem execCcTimeout_same (o : OutIx) (s : State) : ∃ s', execCcTimeout o s = .next s' ∧ Same s s' := by
  refine ⟨_, rfl, ?_⟩; simp [Same]

theorem execPcTimeout_same (o : OutIx) (s : State) : ∃ s', execPcTimeout o s = .next s' ∧ Same s s' := by
  refine ⟨_, rfl, ?_⟩; simp [Same]

@[simp] theorem osqContactor_same (o : OutIx) (q : Osq) (s : State) : Same s (osqContactor o q s) := by
  unfold osqContactor; (repeat' split) <;> simp [Same]

theorem execContactorTimeout_same (o : OutIx) (s : State) : ∃ s', execContactorTimeout o s = .next s' ∧ Same s s' := by
  refine ⟨_, rfl, ?_⟩; simp [Same]

theorem execWeldWindowExpiry_same (o : OutIx) (s : State) : ∃ s', execWeldWindowExpiry o s = .next s' ∧ Same s s' := by
  refine ⟨_, rfl, ?_⟩; simp [Same]

theorem execDischargeTimeout_same (o : OutIx) (s : State) : ∃ s', execDischargeTimeout o s = .next s' ∧ Same s s' := by
  refine ⟨_, rfl, ?_⟩; simp [Same]

theorem execHoldRestart_same (o : OutIx) (s : State) : ∃ s', execHoldRestart o s = .next s' ∧ Same s s' := by
  refine ⟨_, rfl, ?_⟩; simp [Same]

theorem execThermalLatchClear_same (o : OutIx) (s : State) : ∃ s', execThermalLatchClear o s = .next s' ∧ Same s s' := by
  refine ⟨_, rfl, ?_⟩; simp [Same]

theorem execOsqEnable_same (o : OutIx) (s : State) : ∃ s', execOsqEnable o s = .next s' ∧ Same s s' := by
  refine ⟨_, rfl, ?_⟩; simp [Same]

theorem execOsqDisable_same (o : OutIx) (s : State) : ∃ s', execOsqDisable o s = .next s' ∧ Same s s' := by
  refine ⟨_, rfl, ?_⟩; simp [Same]

theorem execOsqAuthorize_same (o : OutIx) (s : State) : ∃ s', execOsqAuthorize o s = .next s' ∧ Same s s' := by
  refine ⟨_, rfl, ?_⟩; simp [Same]

theorem execOsqDeny_same (o : OutIx) (s : State) : ∃ s', execOsqDeny o s = .next s' ∧ Same s s' := by
  refine ⟨_, rfl, ?_⟩; simp [Same]

theorem execOsqStop_same (o : OutIx) (s : State) : ∃ s', execOsqStop o s = .next s' ∧ Same s s' := by
  refine ⟨_, rfl, ?_⟩; simp [Same]

theorem execOsqFaultClear_same (o : OutIx) (s : State) : ∃ s', execOsqFaultClear o s = .next s' ∧ Same s s' := by
  refine ⟨_, rfl, ?_⟩; simp [Same]

theorem execOsqWeldClear_same (o : OutIx) (s : State) : ∃ s', execOsqWeldClear o s = .next s' ∧ Same s s' := by
  refine ⟨_, rfl, ?_⟩; simp [Same]

theorem execOsqRetryGrant_same (o : OutIx) (s : State) : ∃ s', execOsqRetryGrant o s = .next s' ∧ Same s s' := by
  refine ⟨_, rfl, ?_⟩; simp [Same]

end Sys2Proof.Machine
end

