-- ==== Sys2Proof/Laws/KeepsCable.lean ====
section
/-! SUPPORT. What the operations of Machine/Cable.lean leave alone. -/

namespace Sys2Proof.Machine

@[simp] theorem cclEvent_same (o : OutIx) (code : Nat) (b : Option Nat) (s : State) : Same s (cclEvent o code b s) := by
  unfold cclEvent; (repeat' split) <;> simp [Same]

@[simp] theorem cableStep_same (s : State) (o : OutIx) : Same s (cableStep s o) := by
  simp [Same, cableStep]

@[simp] theorem cableSum_same (s : State) (o : OutIx) : Same s (cableSum s o) := by
  simp [Same, cableSum]

theorem execResidualFault_same (o : OutIx) (s : State) : ∃ s', execResidualFault o s = .next s' ∧ Same s s' := by
  refine ⟨_, rfl, ?_⟩; simp [Same]

theorem execCclResidualClear_same (o : OutIx) (s : State) : ∃ s', execCclResidualClear o s = .next s' ∧ Same s s' := by
  refine ⟨_, rfl, ?_⟩; simp [Same]

@[simp] theorem cclManual_same (o : OutIx) (on : Bool) (pump fan : Nat) (s : State) : Same s (cclManual o on pump fan s) := by
  simp [Same, cclManual]

theorem execCclManual_same (o : OutIx) (on : Bool) (pump fan : BitVec 8) (s : State) : ∃ s', execCclManual o on pump fan s = .next s' ∧ Same s s' := by
  refine ⟨_, rfl, ?_⟩; simp [Same]

end Sys2Proof.Machine
end

