-- ==== Sys2Proof/Laws/KeepsMetrology.lean ====
section
/-! SUPPORT. What the operations of Machine/Metrology.lean leave alone. -/

namespace Sys2Proof.Machine

@[simp] theorem onMet_same (f : Met → Met) (s : State) : Same s (onMet f s) := by
  simp [Same, onMet]

@[simp] theorem onSet_same (k : Fin 33) (f : MetSet → MetSet) (s : State) : Same s (onSet k f s) := by
  simp [Same, onSet]

@[simp] theorem onMetF_same (f : MetF → MetF) (s : State) : Same s (onMetF f s) := by
  simp [Same, onMetF]

@[simp] theorem metInt_same (b : Nat) (s : State) : Same s (metInt b s) := by
  simp [Same, metInt]

@[simp] theorem metEvent_same (k : Nat) (code : Nat) (b : Option Nat) (sb : Option Nat) (s : State) : Same s (metEvent k code b sb s) := by
  unfold metEvent; (repeat' split) <;> simp [Same]

@[simp] theorem subsample_same (codes : List Int) (s : State) : SameW s (subsample codes s) := by
  have key : ∀ (ws : List (List Byte)) (f : Met → Met),
      SameW s (onMet f (ws.foldl (fun s w => ringPut 5 captureBase w s) s)) := fun ws f =>
    sameW_trans (foldl_sameW _ (fun s w => ringPut_same 5 captureBase w s) ws s) (same_sameW (onMet_same f _))
  exact key _ _

theorem execMeterSubsample_same (codes : List Int) (s : State) : ∃ s', execMeterSubsample codes s = .next s' ∧ SameW s s' := by
  refine ⟨_, rfl, ?_⟩; split
  · exact subsample_same codes s
  · exact sameW_refl s

@[simp] theorem vCabTake_same (s : State) : Same s (vCabTake s) := by
  simp [Same, vCabTake]

@[simp] theorem joinTail_same (len : Nat) (s : State) : Same s (joinTail len s) := by
  simp [Same, joinTail]

@[simp] theorem nextCycle_same (len : Nat) (s : State) : Same s (nextCycle len s) := by
  simp [Same, nextCycle]

@[simp] theorem closeCycle_same (len : Nat) (ones : List Nat) (load : BitVec 72) (endUs : Nat) (crossing : Bool) (s : State) : SameW s (closeCycle len ones load endUs crossing s) := by
  refine ⟨?_, ?_, ?_, ?_, ?_, fun h => ?_⟩ <;> (unfold closeCycle; (repeat' split) <;> simp [*])

@[simp] theorem cycleEnd_same (ones : List Nat) (ovr : BitVec 72) (endUs : Nat) (s : State) : SameW s (cycleEnd ones ovr endUs s) := by
  refine ⟨?_, ?_, ?_, ?_, ?_, fun h => ?_⟩ <;> (unfold cycleEnd; (repeat' split) <;> simp [*])

theorem execCycleEnd_same (ones : List Nat) (ovr : BitVec 64) (siteOvr : BitVec 8) (endUs : Nat) (s : State) : ∃ s', execCycleEnd ones ovr siteOvr endUs s = .next s' ∧ SameW s s' := by
  refine ⟨_, rfl, ?_⟩; split
  · exact cycleEnd_same ones (siteOvr ++ ovr) endUs s
  · exact sameW_refl s

theorem execFreqHold_same (s : State) : ∃ s', execFreqHold s = .next s' ∧ Same s s' := by
  refine ⟨_, rfl, ?_⟩; simp [Same]

@[simp] theorem pulseStep_same (k33 : Fin 33) (r : CycleRec) (s : State) : Same s (pulseStep k33 r s) := by
  simp [Same, pulseStep]

@[simp] theorem reversedStep_same (k : SetIx) (r : CycleRec) (s : State) : Same s (reversedStep k r s) := by
  simp [Same, reversedStep]

@[simp] theorem dirStep_same (s : State) (k : SetIx) : Same s (dirStep s k) := by
  simp [Same, dirStep]

@[simp] theorem mismatchCheck_same (k : SetIx) (r : CycleRec) (s : State) : Same s (mismatchCheck k r s) := by
  simp [Same, mismatchCheck]

@[simp] theorem ovrStep_same (k : Fin 33) (ovr settle lower : Bool) (s : State) : Same s (ovrStep k ovr settle lower s) := by
  simp [Same, ovrStep]

@[simp] theorem neutralStep_same (r : CycleRec) (s : State) : Same s (neutralStep r s) := by
  simp [Same, neutralStep]

@[simp] theorem totalsStep_same (r : CycleRec) (s : State) : Same s (totalsStep r s) := by
  simp [Same, totalsStep]

@[simp] theorem bypassOpen_same (s : State) : Same s (bypassOpen s) := by
  simp [Same, bypassOpen]

@[simp] theorem recordStep_same (r : CycleRec) (s : State) : Same s (recordStep r s) := by
  simp [Same, recordStep]

@[simp] theorem witnessStep_same (w : WitMsg) (s : State) : Same s (witnessStep w s) := by
  unfold witnessStep; dsimp only; (repeat' split) <;> simp [Same]

@[simp] theorem witnessRestart_same (s : State) : Same s (witnessRestart s) := by
  simp [Same, witnessRestart]

@[simp] theorem witnessIdle_same (s : State) : Same s (witnessIdle s) := by
  simp [Same, witnessIdle]

@[simp] theorem metStep_same (s : State) : Same s (metStep s) := by
  unfold metStep; dsimp only
  have h0 : Same s ((List.finRange 32).foldl dirStep (bypassOpen (witnessIdle s))) :=
    same_trans (same_trans (witnessIdle_same s) (bypassOpen_same _)) (foldl_same _ dirStep_same _ _)
  generalize (List.finRange 32).foldl dirStep (bypassOpen (witnessIdle s)) = u at h0 ⊢
  refine same_trans (same_trans h0 (?_ : Same u (match cycleOf u.lat with | some r => recordStep r u | none => u)))
    (foldl_same _ (fun s i => ?_) _ _)
  · split <;> simp [Same]
  · split <;> simp [Same]

@[simp] theorem metPlug_same (o : OutIx) (s : State) : Same s (metPlug o s) := by
  simp [Same, metPlug]

theorem execPulseStart_same (k : Fin 33) (s : State) : ∃ s', execPulseStart k s = .next s' ∧ Same s s' := by
  refine ⟨_, rfl, ?_⟩; simp [Same]

theorem execPulseEnd_same (k : Fin 33) (s : State) : ∃ s', execPulseEnd k s = .next s' ∧ Same s s' := by
  refine ⟨_, rfl, ?_⟩; simp [Same]

theorem execBypassWindowCheck_same (s : State) : ∃ s', execBypassWindowCheck s = .next s' ∧ Same s s' := by
  refine ⟨_, rfl, ?_⟩; simp [Same]

theorem execWitnessSend_same (s : State) : ∃ s', execWitnessSend s = .next s' ∧ Same s s' := by
  refine ⟨_, rfl, ?_⟩; simp [Same]

theorem execWitPacket_same (m : FollowMsg) (s : State) : ∃ s', execWitPacket m s = .next s' ∧ Same s s' := by
  refine ⟨_, rfl, ?_⟩; simp [Same]

theorem execWitnessLost_same (s : State) : ∃ s', execWitnessLost s = .next s' ∧ Same s s' := by
  refine ⟨_, rfl, ?_⟩; simp [Same]

@[simp] theorem calWrite_same (c : Fin 72) (gain : Bool) (val : Word) (s : State) : Same s (calWrite c gain val s) := by
  simp [Same, calWrite]

theorem execMetCalWrite_same (c : Fin 72) (gain : Bool) (val : Word) (s : State) : ∃ s', execMetCalWrite c gain val s = .next s' ∧ Same s s' := by
  refine ⟨_, rfl, ?_⟩; simp [Same]

@[simp] theorem calCommit_same (s : State) : Same s (calCommit s) := by
  simp [Same, calCommit]

theorem execMetCalCommit_same (s : State) : ∃ s', execMetCalCommit s = .next s' ∧ Same s s' := by
  refine ⟨_, rfl, ?_⟩; simp [Same]

theorem execMetCaptureEnable_same (en site : Bool) (s : State) : ∃ s', execMetCaptureEnable en site s = .next s' ∧ Same s s' := by
  refine ⟨_, rfl, ?_⟩; simp [Same]

theorem execMetNeutralClear_same (s : State) : ∃ s', execMetNeutralClear s = .next s' ∧ Same s s' := by
  refine ⟨_, rfl, ?_⟩; simp [Same]

theorem execMetBypassClear_same (s : State) : ∃ s', execMetBypassClear s = .next s' ∧ Same s s' := by
  refine ⟨_, rfl, ?_⟩; simp [Same]

@[simp] theorem tamperClear_same (k : SetIx) (s : State) : Same s (tamperClear k s) := by
  simp [Same, tamperClear]

theorem execMetTamperClear_same (k : SetIx) (s : State) : ∃ s', execMetTamperClear k s = .next s' ∧ Same s s' := by
  refine ⟨_, rfl, ?_⟩; simp [Same]

@[simp] theorem witClear_same (k : SetIx) (s : State) : Same s (witClear k s) := by
  simp [Same, witClear]

theorem execMetWitClear_same (k : SetIx) (s : State) : ∃ s', execMetWitClear k s = .next s' ∧ Same s s' := by
  refine ⟨_, rfl, ?_⟩; simp [Same]

@[simp] theorem refStep_same (s : State) : Same s (refStep s) := by
  simp [Same, refStep]

theorem execThermalFrame_same (s : State) : ∃ s', execThermalFrame s = .next s' ∧ Same s s' := by
  refine ⟨_, rfl, ?_⟩; simp [Same]

end Sys2Proof.Machine
end

