-- ==== Sys2Proof/Laws/KeepsHeartwood.lean ====
section
/-! SUPPORT. What the operations of Machine/Heartwood.lean leave alone. -/

namespace Sys2Proof.Machine

@[simp] theorem hwdInt_same (b : Nat) (s : State) : Same s (hwdInt b s) := by
  simp [Same, hwdInt]

@[simp] theorem hwdEvent_same (code num : Nat) (s : State) : Same s (hwdEvent code num s) := by
  simp [Same, hwdEvent]

@[simp] theorem slotPut_same (act : Vector (Option Bool) 128) (bad : BitVec 128) (fresh : List (Fin 128)) (s : State) : Same s (slotPut act bad fresh s) := by
  simp [Same, slotPut]

@[simp] theorem slotCheck_same (s : State) : Same s (slotCheck s) := by
  simp [Same, slotCheck]

@[simp] theorem putEntry_same (k : Fin 128) (b : Bool) (e : List Byte) (s : State) : Same s (putEntry k b e s) := by
  unfold putEntry; (repeat' split) <;> simp [Same]

@[simp] theorem setActive_same (k : Fin 128) (a : Option Bool) (s : State) : Same s (setActive k a s) := by
  simp [Same, setActive]

@[simp] theorem cachePut_same (k : Fin 128) (key : List Byte) (s : State) : Same s (cachePut k key s) := by
  simp [Same, cachePut]

@[simp] theorem cacheDrop_same (k : Fin 128) (s : State) : Same s (cacheDrop k s) := by
  simp [Same, cacheDrop]

@[simp] theorem useKey_same (k : Fin 128) (e : List Byte) (s : State) : Same s (useKey k e s).2 := by
  simp [Same, useKey]

@[simp] theorem newKey_same (k : Fin 128) (typ usage mask : Nat) (key : List Byte) (s : State) : Same s (newKey k typ usage mask key s) := by
  simp [Same, newKey]

@[simp] theorem randomKey_same (typ : Nat) (s : State) : Same s (randomKey typ s).2 := by
  simp [Same, randomKey]

@[simp] theorem hwdBegin_same (op result : Nat) (out : List Byte) (s : State) : Same s (hwdBegin op result out s) := by
  simp [Same, hwdBegin]

@[simp] theorem opGenerate_same (a : Word) (s : State) : Same s (opGenerate a s) := by
  unfold opGenerate; dsimp only; (repeat' split) <;> simp [Same]

@[simp] theorem opImport_same (a : Word) (s : State) : Same s (opImport a s) := by
  unfold opImport; (repeat' split) <;> simp [Same]

@[simp] theorem opPublic_same (a : Word) (s : State) : Same s (opPublic a s) := by
  unfold opPublic; dsimp only; (repeat' split) <;> simp [Same]

@[simp] theorem opDelete_same (a : Word) (s : State) : Same s (opDelete a s) := by
  unfold opDelete; (repeat' split) <;> simp [Same]

@[simp] theorem resealSlot_same (target : Vector (List Byte) 8) (s : State) (k : Fin 128) : Same s (resealSlot target s k) := by
  unfold resealSlot; (repeat' split) <;> simp [Same]

@[simp] theorem resealAll_same (t : Vector (List Byte) 8) (s : State) : Same s (resealAll t s) := by
  simp [Same, resealAll]

@[simp] theorem opReseal_same (s : State) : Same s (opReseal s) := by
  unfold opReseal; (repeat' split) <;> simp [Same]

@[simp] theorem commitSlot_same (s : State) (k : Fin 128) : Same s (commitSlot s k) := by
  unfold commitSlot; (repeat' split) <;> simp [Same]

@[simp] theorem commitSlots_same (s : State) : Same s (commitSlots s) := by
  exact same_trans (foldl_same _ commitSlot_same _ s) ⟨rfl, rfl, rfl, rfl, rfl, rfl⟩

@[simp] theorem opResealCommit_same (s : State) : Same s (opResealCommit s) := by
  simp only [Same, opResealCommit]; (repeat' split) <;> simp

@[simp] theorem opAttest_same (s : State) : Same s (opAttest s) := by
  simp [Same, opAttest]

@[simp] theorem opBbk_same (a : Word) (s : State) : Same s (opBbk a s) := by
  unfold opBbk; dsimp only; (repeat' split) <;> simp [Same]

@[simp] theorem opEnroll_same (s : State) : Same s (opEnroll s) := by
  simp [Same, opEnroll]

@[simp] theorem hwdStart_same (op : Nat) (a : Word) (s : State) : Same s (hwdStart op a s) := by
  unfold hwdStart; (repeat' split) <;> simp [Same]

theorem hwdRow_same (op : Nat) (a : Word) (s : State) : ∃ s', hwdRow op a s = .next s' ∧ Same s s' := by
  refine ⟨_, rfl, ?_⟩; simp [Same]

theorem execHwdGenerate_same (a : Word) (s : State) : ∃ s', execHwdGenerate a s = .next s' ∧ Same s s' := by
  refine ⟨_, rfl, ?_⟩; simp [Same]

theorem execHwdImport_same (a : Word) (s : State) : ∃ s', execHwdImport a s = .next s' ∧ Same s s' := by
  refine ⟨_, rfl, ?_⟩; simp [Same]

theorem execHwdPublic_same (a : Word) (s : State) : ∃ s', execHwdPublic a s = .next s' ∧ Same s s' := by
  refine ⟨_, rfl, ?_⟩; simp [Same]

theorem execHwdDelete_same (a : Word) (s : State) : ∃ s', execHwdDelete a s = .next s' ∧ Same s s' := by
  refine ⟨_, rfl, ?_⟩; simp [Same]

theorem execHwdReseal_same (a : Word) (s : State) : ∃ s', execHwdReseal a s = .next s' ∧ Same s s' := by
  refine ⟨_, rfl, ?_⟩; simp [Same]

theorem execHwdResealCommit_same (a : Word) (s : State) : ∃ s', execHwdResealCommit a s = .next s' ∧ Same s s' := by
  refine ⟨_, rfl, ?_⟩; simp [Same]

theorem execHwdAttest_same (a : Word) (s : State) : ∃ s', execHwdAttest a s = .next s' ∧ Same s s' := by
  refine ⟨_, rfl, ?_⟩; simp [Same]

theorem execHwdBbkGenerate_same (a : Word) (s : State) : ∃ s', execHwdBbkGenerate a s = .next s' ∧ Same s s' := by
  refine ⟨_, rfl, ?_⟩; simp [Same]

theorem execHwdEnrollSmp_same (a : Word) (s : State) : ∃ s', execHwdEnrollSmp a s = .next s' ∧ Same s s' := by
  refine ⟨_, rfl, ?_⟩; simp [Same]

@[simp] theorem hwdAsk_same (op : Nat) (s : State) : Same s (hwdAsk op s) := by
  simp [Same, hwdAsk]

@[simp] theorem hwdFwu_same (r : HwdRun) (s : State) : Same s (hwdFwu r s) := by
  unfold hwdFwu; dsimp only; (repeat' split) <;> simp [Same]

@[simp] theorem hwdDone_same (s : State) : SameW s (hwdDone s) := by
  refine ⟨?_, ?_, ?_, ?_, ?_, fun h => ?_⟩ <;> (unfold hwdDone; (repeat' split) <;> simp [*])

theorem execHwdCommandDone_same (s : State) : ∃ s', execHwdCommandDone s = .next s' ∧ SameW s s' := by
  refine ⟨_, rfl, ?_⟩; refine ⟨?_, ?_, ?_, ?_, ?_, fun h => ?_⟩ <;> ((repeat' split) <;> simp [*])

@[simp] theorem tamperLog_same (src st : Nat) (s : State) : Same s (tamperLog src st s) := by
  simp [Same, tamperLog]

theorem burnFuse_same (s : State) : Keeps s (burnFuse s) := by
  unfold burnFuse
  refine ⟨rfl, rfl, rfl, fun h => h, ?_, fun h => h, rfl⟩
  simp only [onHwd_same]; split <;> simp

theorem zeroize_same (src st : Nat) (s : State) : Keeps s (zeroize src st s) := by
  unfold zeroize; dsimp only
  refine keeps_trans ?_ (same_keeps (slotCheck_same _))
  refine keeps_trans ?_ (same_keeps (tamperLog_same _ _ _))
  refine keeps_trans ?_ (burnFuse_same _)
  exact same_keeps (by simp [Same])

@[simp] theorem tamperAsleep_same (src : Nat) (s : State) : Same s (tamperAsleep src s) := by
  simp [Same, tamperAsleep]

@[simp] theorem tamperFault_same (s : State) : Same s (tamperFault s) := by
  simp [Same, tamperFault]

@[simp] theorem tamperNote_same (c : Nat) (s : State) : Same s (tamperNote c s) := by
  simp [Same, tamperNote]

theorem tamper_same (src : TamperSrc) (s : State) : Keeps s (tamper src s) := by
  unfold tamper; dsimp only
  refine keeps_trans ?_ (same_keeps (tamperFault_same _))
  refine keeps_trans ?_ (same_keeps (hwdEvent_same _ _ _))
  refine keeps_trans ?_ (same_keeps (hwdEvent_same _ _ _))
  refine keeps_trans ?_ (same_keeps (hwdInt_same _ _))
  exact keeps_trans (same_keeps (tamperNote_same _ s)) (keeps_ite _ (zeroize_same _ _ _) (same_keeps (tamperAsleep_same _ _)))

theorem execTamperDetect_same (src : TamperSrc) (s : State) : ∃ s', execTamperDetect src s = .next s' ∧ Keeps s s' := by
  exact ⟨_, rfl, keeps_ite _ (tamper_same src s) (keeps_refl s)⟩

theorem execTrngHealthFail_same (s : State) : ∃ s', execTrngHealthFail s = .next s' ∧ Same s s' := by
  refine ⟨_, rfl, ?_⟩; simp [Same]

theorem execTrngRecover_same (s : State) : ∃ s', execTrngRecover s = .next s' ∧ Same s s' := by
  refine ⟨_, rfl, ?_⟩; simp [Same]

theorem execBbkMaskRenew_same (s : State) : ∃ s', execBbkMaskRenew s = .next s' ∧ Same s s' := by
  refine ⟨_, rfl, ?_⟩; simp [Same]

theorem execHwdTamperLock_same (s : State) : ∃ s', execHwdTamperLock s = .next s' ∧ Same s s' := by
  refine ⟨_, rfl, ?_⟩; simp [Same]

theorem lifecycleLock_same (s : State) : Keeps s (lifecycleLock s) := by
  unfold lifecycleLock
  refine keeps_ite _ ⟨rfl, rfl, rfl, fun _ => rfl, Nat.le_refl _, fun h => h, rfl⟩ (same_keeps ?_)
  simp [Same]

theorem execHwdLifecycleLock_same (s : State) : ∃ s', execHwdLifecycleLock s = .next s' ∧ Keeps s s' := by
  exact ⟨_, rfl, keeps_ite _ (lifecycleLock_same s) (keeps_refl s)⟩

theorem execTamperCauseRead_same (s : State) : ∃ s', execTamperCauseRead s = .next s' ∧ Same s s' := by
  refine ⟨_, rfl, ?_⟩; simp [Same]

@[simp] theorem logSel_same (val : Word) (s : State) : Same s (logSel val s) := by
  simp [Same, logSel]

theorem execHwdLogSelWrite_same (val : Word) (s : State) : ∃ s', execHwdLogSelWrite val s = .next s' ∧ Same s s' := by
  refine ⟨_, rfl, ?_⟩; simp [Same]

theorem execDebugSessionOpen_same (s : State) : ∃ s', execDebugSessionOpen s = .next s' ∧ Same s s' := by
  refine ⟨_, rfl, ?_⟩; simp [Same]

theorem execDebugSessionClose_same (s : State) : ∃ s', execDebugSessionClose s = .next s' ∧ Same s s' := by
  refine ⟨_, rfl, ?_⟩; simp [Same]

end Sys2Proof.Machine
end

