-- ==== Sys2Proof/Laws/KeepsBilling.lean ====
section
/-! SUPPORT. What the operations of Machine/Billing.lean leave alone. -/

namespace Sys2Proof.Machine

@[simp] theorem onBil_same (f : Bil → Bil) (s : State) : Same s (onBil f s) := by
  simp [Same, onBil]

@[simp] theorem onBilR_same (f : BilReg → BilReg) (s : State) : Same s (onBilR f s) := by
  simp [Same, onBilR]

@[simp] theorem bilInt_same (b : Nat) (s : State) : Same s (bilInt b s) := by
  simp [Same, bilInt]

@[simp] theorem bilEvent_same (code m data : Nat) (s : State) : Same s (bilEvent code m data s) := by
  simp [Same, bilEvent]

@[simp] theorem onBind_same (k : SetIx) (f : Bind → Bind) (s : State) : Same s (onBind k f s) := by
  simp [Same, onBind]

@[simp] theorem unusableEvent_same (s : State) (ix : Nat) : Same s (unusableEvent s ix) := by
  simp [Same, unusableEvent]

@[simp] theorem tagEntry_same (ix : Nat) (s : State) : Same s (tagEntry ix s) := by
  simp [Same, tagEntry]

@[simp] theorem homePut_same (ix : Fin 1536) (e : Ledger) (s : State) : Same s (homePut ix e s) := by
  simp [Same, homePut]

@[simp] theorem ledgerScan_same (s : State) : Same s (ledgerScan s) := by
  simp [Same, ledgerScan]

@[simp] theorem homeWrite_same (k : SetIx) (s : State) : Same s (homeWrite k s) := by
  unfold homeWrite; (repeat' split) <;> simp [Same]

@[simp] theorem homeDue_same (s : State) : Same s (homeDue s) := by
  unfold homeDue
  refine foldl_same _ (fun s k => ?_) _ _
  split
  · split
    · exact homeWrite_same _ _
    · exact same_refl _
  · exact same_refl _

@[simp] theorem onSess_same (k : SetIx) (f : BSess → BSess) (s : State) : Same s (onSess k f s) := by
  simp [Same, onSess]

@[simp] theorem applyMeter_same (fn len : Nat) (ef er : Nat) (lower settle : Bool) (s : State) (m : Fin 33) : Same s (applyMeter fn len ef er lower settle s m) := by
  unfold applyMeter; (repeat' split) <;> simp [Same]

@[simp] theorem applyRecord_same (r : CycleRec) (s : State) : Same s (applyRecord r s) := by
  simp [Same, applyRecord]

@[simp] theorem crossDemand_same (late count : Bool) (s : State) : Same s (crossDemand late count s) := by
  unfold crossDemand; dsimp only; (repeat' split) <;> simp [Same]

@[simp] theorem crossCal_same (late : Bool) (k : Fin 4) (s : State) : Same s (crossCal late k s) := by
  unfold crossCal; dsimp only; (repeat' split) <;> simp [Same]

@[simp] theorem crossAll_same (late count : Bool) (s : State) : Same s (crossAll late count s) := by
  simp [Same, crossAll]

@[simp] theorem closeDemand_same (ts n : Nat) (fl : BitVec 5) (s : State) : Same s (closeDemand ts n fl s) := by
  simp [Same, closeDemand]

@[simp] theorem recordSwitches_same (s : State) : Same s (recordSwitches s) := by
  simp [Same, recordSwitches]

@[simp] theorem clockSet_same (old new : Nat) (s : State) : Same s (clockSet old new s) := by
  simp [Same, clockSet]

@[simp] theorem openSess_same (k : SetIx) (o : Option OutIx) (id : Nat) (unbilled : Bool) (s : State) : Same s (openSess k o id unbilled s) := by
  simp [Same, openSess]

@[simp] theorem stopSess_same (k : SetIx) (cause fault : Nat) (s : State) : Same s (stopSess k cause fault s) := by
  simp [Same, stopSess]

@[simp] theorem sessFlags_same (k : SetIx) (s : State) : Same s (sessFlags k s) := by
  simp [Same, sessFlags]

@[simp] theorem buildTicket_same (k : SetIx) (x : BSess) (t : BStop) (s : State) : Same s (buildTicket k x t s).2 := by
  simp [Same, buildTicket]

@[simp] theorem unbind_same (k : SetIx) (s : State) : Same s (unbind k s) := by
  simp [Same, unbind]

@[simp] theorem sessionEnd_same (o : OutIx) (id : Option Nat) (seq : Nat) (s : State) : Same s (sessionEnd o id seq s) := by
  unfold sessionEnd; dsimp only; (repeat' split) <;> simp [Same]

@[simp] theorem endOutlet_same (o : OutIx) (s : State) : Same s (endOutlet o s) := by
  unfold endOutlet; dsimp only; (repeat' split) <;> simp [Same]

@[simp] theorem storageSess_same (k : SetIx) (s : State) : Same s (storageSess k s) := by
  unfold storageSess; dsimp only; (repeat' split) <;> simp [Same]

@[simp] theorem sessOutlet_same (s : State) (o : OutIx) : Same s (sessOutlet s o) := by
  unfold sessOutlet; dsimp only; (repeat' split) <;> simp [Same]

@[simp] theorem sessStep_same (s : State) : Same s (sessStep s) := by
  simp [Same, sessStep]

@[simp] theorem signTicket_same (s : State) : SameW s (signTicket s) := by
  refine ⟨?_, ?_, ?_, ?_, ?_, fun h => ?_⟩ <;> (unfold signTicket; (repeat' split) <;> simp [*])

theorem execTicketSigned_same (s : State) : ∃ s', execTicketSigned s = .next s' ∧ SameW s s' := by
  refine ⟨_, rfl, ?_⟩; refine ⟨?_, ?_, ?_, ?_, ?_, fun h => ?_⟩ <;> ((repeat' split) <;> simp [*])

@[simp] theorem ticketAck_same (ix : Word) (s : State) : Same s (ticketAck ix s) := by
  simp [Same, ticketAck]

theorem execTicketAck_same (ix : Word) (s : State) : ∃ s', execTicketAck ix s = .next s' ∧ Same s s' := by
  refine ⟨_, rfl, ?_⟩; simp [Same]

@[simp] theorem onEntry_same (ix : Fin 1536) (f : Ledger → Ledger) (s : State) : Same s (onEntry ix f s) := by
  unfold onEntry; (repeat' split) <;> simp [Same]

@[simp] theorem ledgerTake_same (forced : Bool) (ix : Fin 1536) (k : SetIx) (phase : Nat) (tag : Option (BitVec 64)) (s : State) : Same s (ledgerTake forced ix k phase tag s) := by
  simp [Same, ledgerTake]

@[simp] theorem ledgerBind_same (forced : Bool) (ix : Fin 1536) (s : State) : Same s (ledgerBind forced ix s).2 := by
  unfold ledgerBind; dsimp only; (repeat' split) <;> simp [Same]

@[simp] theorem ledgerWin_same (ix : Fin 1536) (sign : Bool) (s : State) : SameW s (ledgerWin ix sign s) := by
  refine ⟨?_, ?_, ?_, ?_, ?_, fun h => ?_⟩ <;> (unfold ledgerWin; (repeat' split) <;> simp [*])

@[simp] theorem ledgerOp_same (op : Nat) (ix : Fin 1536) (s : State) : SameW s (ledgerOp op ix s).2 := by
  refine ⟨?_, ?_, ?_, ?_, ?_, fun h => ?_⟩ <;> (simp only [ledgerOp]; (repeat' split) <;> simp [*])

@[simp] theorem ledgerCmd_same (op : Nat) (s : State) : SameW s (ledgerCmd op s) := by
  refine ⟨?_, ?_, ?_, ?_, ?_, fun h => ?_⟩ <;> (unfold ledgerCmd; dsimp only; (repeat' split) <;> simp [*])

@[simp] theorem ledgerRun_same (op : Nat) (s : State) : SameW s (ledgerRun op s) := by
  unfold ledgerRun
  exact sameW_trans (ledgerCmd_same op s) (same_sameW (homeDue_same _))

@[simp] theorem ledgerReqs_same (s : State) : SameW s (ledgerReqs s) := by
  unfold ledgerReqs
  exact sameW_trans (same_sameW (onBilR_same _ s)) (foldl_sameW _ (fun s op => ledgerCmd_same op s) _ _)

theorem execLedgerBind_same (s : State) : ∃ s', execLedgerBind s = .next s' ∧ SameW s s' := by
  refine ⟨_, rfl, ?_⟩; refine ⟨?_, ?_, ?_, ?_, ?_, fun h => ?_⟩ <;> ((repeat' split) <;> simp [*])

theorem execLedgerUnbind_same (s : State) : ∃ s', execLedgerUnbind s = .next s' ∧ SameW s s' := by
  refine ⟨_, rfl, ?_⟩; refine ⟨?_, ?_, ?_, ?_, ?_, fun h => ?_⟩ <;> ((repeat' split) <;> simp [*])

theorem execLedgerLoadCredit_same (s : State) : ∃ s', execLedgerLoadCredit s = .next s' ∧ SameW s s' := by
  refine ⟨_, rfl, ?_⟩; refine ⟨?_, ?_, ?_, ?_, ?_, fun h => ?_⟩ <;> ((repeat' split) <;> simp [*])

theorem execLedgerCreditMode_same (s : State) : ∃ s', execLedgerCreditMode s = .next s' ∧ SameW s s' := by
  refine ⟨_, rfl, ?_⟩; refine ⟨?_, ?_, ?_, ?_, ?_, fun h => ?_⟩ <;> ((repeat' split) <;> simp [*])

theorem execLedgerRetire_same (s : State) : ∃ s', execLedgerRetire s = .next s' ∧ SameW s s' := by
  refine ⟨_, rfl, ?_⟩; refine ⟨?_, ?_, ?_, ?_, ?_, fun h => ?_⟩ <;> ((repeat' split) <;> simp [*])

theorem execLedgerClear_same (s : State) : ∃ s', execLedgerClear s = .next s' ∧ SameW s s' := by
  refine ⟨_, rfl, ?_⟩; refine ⟨?_, ?_, ?_, ?_, ?_, fun h => ?_⟩ <;> ((repeat' split) <;> simp [*])

theorem execLedgerRead_same (s : State) : ∃ s', execLedgerRead s = .next s' ∧ SameW s s' := by
  refine ⟨_, rfl, ?_⟩; refine ⟨?_, ?_, ?_, ?_, ?_, fun h => ?_⟩ <;> ((repeat' split) <;> simp [*])

theorem execLedgerExport_same (s : State) : ∃ s', execLedgerExport s = .next s' ∧ SameW s s' := by
  refine ⟨_, rfl, ?_⟩; refine ⟨?_, ?_, ?_, ?_, ?_, fun h => ?_⟩ <;> ((repeat' split) <;> simp [*])

theorem execLedgerForcedBind_same (s : State) : ∃ s', execLedgerForcedBind s = .next s' ∧ SameW s s' := by
  refine ⟨_, rfl, ?_⟩; refine ⟨?_, ?_, ?_, ?_, ?_, fun h => ?_⟩ <;> ((repeat' split) <;> simp [*])

@[simp] theorem creditStep_same (s : State) : Same s (creditStep s) := by
  simp [Same, creditStep]

@[simp] theorem checkpointAt_same (fn : Nat) (s : State) : SameW s (checkpointAt fn s) := by
  refine ⟨?_, ?_, ?_, ?_, ?_, fun h => ?_⟩ <;> (unfold checkpointAt; (repeat' split) <;> simp [*])

@[simp] theorem checkpoint_same (s : State) : SameW s (checkpoint s) := by
  refine ⟨?_, ?_, ?_, ?_, ?_, fun h => ?_⟩ <;> (unfold checkpoint; (repeat' split) <;> simp [*])

theorem execBilCheckpoint_same (s : State) : ∃ s', execBilCheckpoint s = .next s' ∧ SameW s s' := by
  refine ⟨_, rfl, ?_⟩; refine ⟨?_, ?_, ?_, ?_, ?_, fun h => ?_⟩ <;> ((repeat' split) <;> simp [*])

@[simp] theorem save_same (s : State) : Same s (save s) := by
  unfold save; (repeat' split) <;> simp [Same]

theorem execSave_same (s : State) : ∃ s', execSave s = .next s' ∧ Same s s' := by
  refine ⟨_, rfl, ?_⟩; simp [Same]

@[simp] theorem saveDone_same (ok : Bool) (s : State) : Same s (saveDone ok s) := by
  unfold saveDone; (repeat' split) <;> simp [Same]

theorem execSaveWriteDone_same (ok : Bool) (s : State) : ∃ s', execSaveWriteDone ok s = .next s' ∧ Same s s' := by
  refine ⟨_, rfl, ?_⟩; simp [Same]

@[simp] theorem restoreGap_same (sec d : Nat) (s : State) (m : Fin 33) : Same s (restoreGap sec d s m) := by
  unfold restoreGap; (repeat' split) <;> simp [Same]

@[simp] theorem restoreTicket_same (k : SetIx) (o : OutIx) (t : BStop) (s : State) : Same s (restoreTicket k o t s) := by
  simp [Same, restoreTicket]

@[simp] theorem restoreSess_same (s : State) (k : SetIx) : Same s (restoreSess s k) := by
  unfold restoreSess; dsimp only; (repeat' split) <;> simp [Same]

@[simp] theorem restoreTail_same (rtc : Nat) (s : State) : Same s (restoreTail rtc s) := by
  simp [Same, restoreTail]

@[simp] theorem crossClose_same (c : Option (Nat × BitVec 5 × Nat)) (s : State) : Same s (crossClose c s) := by
  unfold crossClose; (repeat' split) <;> simp [Same]

@[simp] theorem billRestore_same (rtc seq : Nat) (s : State) : SameW s (billRestore rtc seq s) := by
  refine ⟨?_, ?_, ?_, ?_, ?_, fun h => ?_⟩ <;> (unfold billRestore; (repeat' split) <;> simp [*])

@[simp] theorem billRest_same (s : State) : SameW s (billRest s) := by
  unfold billRest
  have h1 : SameW s (creditStep (crossAll false true (homeDue (ledgerReqs (sessStep (recordSwitches (crossClose s.fl.bil.demCross s))))))) :=
    sameW_trans (sameW_trans (same_sameW (same_trans (same_trans (crossClose_same _ _) (recordSwitches_same _)) (sessStep_same _)))
      (ledgerReqs_same _)) (same_sameW (same_trans (homeDue_same _) (same_trans (crossAll_same _ _ _) (creditStep_same _))))
  dsimp only; split
  · exact sameW_trans h1 (checkpoint_same _)
  · exact h1

@[simp] theorem billRecord_same (s : State) : SameW s (billRecord s) := by
  unfold billRecord; split
  · exact sameW_trans (same_sameW (applyRecord_same _ s)) (billRest_same _)
  · exact billRest_same s

@[simp] theorem billStep_same (s : State) : SameW s (billStep s) := by
  refine ⟨?_, ?_, ?_, ?_, ?_, fun h => ?_⟩ <;> (simp only [billStep]; (repeat' split) <;> simp [*])

theorem execDemandClose_same (s : State) : ∃ s', execDemandClose s = .next s' ∧ Same s s' := by
  refine ⟨_, rfl, ?_⟩; simp [Same]

theorem execTariffSwitch_same (k : Fin 4) (s : State) : ∃ s', execTariffSwitch k s = .next s' ∧ Same s s' := by
  refine ⟨_, rfl, ?_⟩; simp [Same]

@[simp] theorem mdReset_same (s : State) : Same s (mdReset s) := by
  simp [Same, mdReset]

theorem execBilMdReset_same (s : State) : ∃ s', execBilMdReset s = .next s' ∧ Same s s' := by
  refine ⟨_, rfl, ?_⟩; simp [Same]

@[simp] theorem storeTicket_same (s : State) : Same s (storeTicket s) := by
  unfold storeTicket; (repeat' split) <;> simp [Same]

theorem execBilStoreTicket_same (s : State) : ∃ s', execBilStoreTicket s = .next s' ∧ Same s s' := by
  refine ⟨_, rfl, ?_⟩; simp [Same]

@[simp] theorem selWrite_same (val : Word) (s : State) : Same s (selWrite val s) := by
  simp [Same, selWrite]

theorem execBilSelSnapshot_same (val : Word) (s : State) : ∃ s', execBilSelSnapshot val s = .next s' ∧ Same s s' := by
  refine ⟨_, rfl, ?_⟩; simp [Same]

end Sys2Proof.Machine
end

