-- ==== Sys2Proof/Laws/KeepsLinks.lean ====
section
/-! SUPPORT. What the operations of Machine/Links.lean leave alone. -/

namespace Sys2Proof.Machine

@[simp] theorem onVlk_same (o : OutIx) (f : Vlk → Vlk) (s : State) : Same s (onVlk o f s) := by
  simp [Same, onVlk]

@[simp] theorem vlkInt_same (o : OutIx) (b : Nat) (s : State) : Same s (vlkInt o b s) := by
  simp [Same, vlkInt]

@[simp] theorem arriveVeh_same (o : OutIx) (m : VehMsg) (s : State) : Same s (arriveVeh o m s) := by
  simp [Same, arriveVeh]

@[simp] theorem loseLink_same (o : OutIx) (s : State) : Same s (loseLink o s) := by
  simp [Same, loseLink]

@[simp] theorem request_same (o : OutIx) (m : VehMsg) (s : State) : Same s (request o m s) := by
  simp [Same, request]

@[simp] theorem shadow_same (f : State → State) (s : State) : Same s (shadow f s) := by
  simp [Same, shadow]

@[simp] theorem onRun_same (mac : BitVec 48) (id : BitVec 64) (f : SlacRun → SlacRun) (s : State) : Same s (onRun mac id f s) := by
  simp [Same, onRun]

@[simp] theorem onPorts_same (p : OutIx → Bool) (f : Vlk → Vlk) (s : State) : Same s (onPorts p f s) := by
  simp [Same, onPorts]

@[simp] theorem slacDecide_same (mac : BitVec 48) (id : BitVec 64) (att : List (OutIx × Nat)) (s : State) : Same s (slacDecide mac id att s) := by
  unfold slacDecide; dsimp only; (repeat' split) <;> simp [Same]

theorem execT1sLinkUp_same (o : OutIx) (s : State) : ∃ s', execT1sLinkUp o s = .next s' ∧ Same s s' := by
  refine ⟨_, rfl, ?_⟩; simp [Same]

theorem execT1sLinkDown_same (o : OutIx) (s : State) : ∃ s', execT1sLinkDown o s = .next s' ∧ Same s s' := by
  refine ⟨_, rfl, ?_⟩; simp [Same]

theorem execAvlnLost_same (o : OutIx) (s : State) : ∃ s', execAvlnLost o s = .next s' ∧ Same s s' := by
  refine ⟨_, rfl, ?_⟩; simp [Same]

theorem execSlacParmReq_same (mac : BitVec 48) (runId : BitVec 64) (heard : BitVec 32) (s : State) : ∃ s', execSlacParmReq mac runId heard s = .next s' ∧ Same s s' := by
  refine ⟨_, rfl, ?_⟩; simp [Same]

theorem execSlacStartAtten_same (mac : BitVec 48) (runId : BitVec 64) (announced : Nat) (s : State) : ∃ s', execSlacStartAtten mac runId announced s = .next s' ∧ Same s s' := by
  refine ⟨_, rfl, ?_⟩; simp [Same]

theorem execSlacSound_same (mac : BitVec 48) (runId : BitVec 64) (o : OutIx) (groups : List Nat) (s : State) : ∃ s', execSlacSound mac runId o groups s = .next s' ∧ Same s s' := by
  refine ⟨_, rfl, ?_⟩; simp [Same]

theorem execSlacWindowClose_same (mac : BitVec 48) (runId : BitVec 64) (s : State) : ∃ s', execSlacWindowClose mac runId s = .next s' ∧ Same s s' := by
  refine ⟨_, rfl, ?_⟩; dsimp only; ((repeat' split) <;> simp [Same])

theorem execSlacMatchReq_same (o : OutIx) (mac : BitVec 48) (runId : BitVec 64) (s : State) : ∃ s', execSlacMatchReq o mac runId s = .next s' ∧ Same s s' := by
  refine ⟨_, rfl, ?_⟩; simp [Same]

theorem execSeccDiscovery_same (o : OutIx) (s : State) : ∃ s', execSeccDiscovery o s = .next s' ∧ Same s s' := by
  refine ⟨_, rfl, ?_⟩; simp [Same]

theorem execTcpConnect_same (o : OutIx) (s : State) : ∃ s', execTcpConnect o s = .next s' ∧ Same s s' := by
  refine ⟨_, rfl, ?_⟩; simp [Same]

theorem execTcpRetransmitLimit_same (o : OutIx) (s : State) : ∃ s', execTcpRetransmitLimit o s = .next s' ∧ Same s s' := by
  refine ⟨_, rfl, ?_⟩; simp [Same]

theorem execTcpConnectionClosed_same (o : OutIx) (s : State) : ∃ s', execTcpConnectionClosed o s = .next s' ∧ Same s s' := by
  refine ⟨_, rfl, ?_⟩; simp [Same]

@[simp] theorem tlsServe_same (o : OutIx) (ok : Bool) (s : State) : Same s (tlsServe o ok s) := by
  unfold tlsServe; (repeat' split) <;> simp [Same]

theorem execTlsHandshake_same (o : OutIx) (ok : Bool) (s : State) : ∃ s', execTlsHandshake o ok s = .next s' ∧ Same s s' := by
  refine ⟨_, rfl, ?_⟩; simp [Same]

theorem execSupportedAppProtocolReq_same (o : OutIx) (offers : List Layer) (s : State) : ∃ s', execSupportedAppProtocolReq o offers s = .next s' ∧ Same s s' := by
  refine ⟨_, rfl, ?_⟩; dsimp only; ((repeat' split) <;> simp [Same])

theorem execSessionSetupReq_same (o : OutIx) (evccid : List Byte) (s : State) : ∃ s', execSessionSetupReq o evccid s = .next s' ∧ Same s s' := by
  refine ⟨_, rfl, ?_⟩; simp [Same]

@[simp] theorem decodeFail_same (o : OutIx) (s : State) : Same s (decodeFail o s) := by
  simp [Same, decodeFail]

theorem execAuthorizationReq_same (o : OutIx) (chain signed : List Byte) (s : State) : ∃ s', execAuthorizationReq o chain signed s = .next s' ∧ Same s s' := by
  refine ⟨_, rfl, ?_⟩; simp [Same]

theorem execChargeParameterDiscoveryReq_same (o : OutIx) (v : VehReq) (ready err bpt dyn : Bool) (s : State) : ∃ s', execChargeParameterDiscoveryReq o v ready err bpt dyn s = .next s' ∧ Same s s' := by
  refine ⟨_, rfl, ?_⟩; simp [Same]

theorem execCableCheckReq_same (o : OutIx) (s : State) : ∃ s', execCableCheckReq o s = .next s' ∧ Same s s' := by
  refine ⟨_, rfl, ?_⟩; simp [Same]

theorem execPreChargeReq_same (o : OutIx) (v : VehReq) (s : State) : ∃ s', execPreChargeReq o v s = .next s' ∧ Same s s' := by
  refine ⟨_, rfl, ?_⟩; simp [Same]

theorem execPowerDeliveryReq_same (o : OutIx) (start : Bool) (s : State) : ∃ s', execPowerDeliveryReq o start s = .next s' ∧ Same s s' := by
  refine ⟨_, rfl, ?_⟩; simp [Same]

theorem execSessionStopReq_same (o : OutIx) (s : State) : ∃ s', execSessionStopReq o s = .next s' ∧ Same s s' := by
  refine ⟨_, rfl, ?_⟩; simp [Same]

theorem execV2gRequest_same (o : OutIx) (req : Option (VehReq × Bool)) (s : State) : ∃ s', execV2gRequest o req s = .next s' ∧ Same s s' := by
  refine ⟨_, rfl, ?_⟩; ((repeat' split) <;> simp [Same])

theorem execLinkDegraded_same (o : OutIx) (s : State) : ∃ s', execLinkDegraded o s = .next s' ∧ Same s s' := by
  refine ⟨_, rfl, ?_⟩; simp [Same]

theorem execLinkLostTimeout_same (o : OutIx) (s : State) : ∃ s', execLinkLostTimeout o s = .next s' ∧ Same s s' := by
  refine ⟨_, rfl, ?_⟩; simp [Same]

@[simp] theorem onVeh_same (o : OutIx) (f : Veh → Veh) (s : State) : Same s (onVeh o f s) := by
  simp [Same, onVeh]

@[simp] theorem latchLost_same (o : OutIx) (s : State) : Same s (latchLost o s) := by
  simp [Same, latchLost]

@[simp] theorem latchVals_same (o : OutIx) (r : VehReq) (s : State) : Same s (latchVals o r s) := by
  simp [Same, latchVals]

@[simp] theorem takeProto_same (p : Proto) (s : State) : Same s (takeProto p s) := by
  simp [Same, takeProto]

@[simp] theorem voidRuns_same (s : State) : Same s (voidRuns s) := by
  simp [Same, voidRuns]

@[simp] theorem latchVehicle_same (o : OutIx) (m : VehMsg) (s : State) : SameW s (latchVehicle o m s) := by
  refine ⟨?_, ?_, ?_, ?_, ?_, fun h => ?_⟩ <;> (unfold latchVehicle; dsimp only; (repeat' split) <;> simp [*])

@[simp] theorem gapTick_same (o : OutIx) (s : State) : Same s (gapTick o s) := by
  simp [Same, gapTick]

@[simp] theorem latchLink_same (o : OutIx) (s : State) : Same s (latchLink o s) := by
  simp [Same, latchLink]

@[simp] theorem sessionStart_same (o : OutIx) (s : State) : Same s (sessionStart o s) := by
  simp [Same, sessionStart]

@[simp] theorem linkReset_same (o : OutIx) (s : State) : Same s (linkReset o s) := by
  simp [Same, linkReset]

theorem execVlkLinkReset_same (o : OutIx) (s : State) : ∃ s', execVlkLinkReset o s = .next s' ∧ Same s s' := by
  refine ⟨_, rfl, ?_⟩; simp [Same]

@[simp] theorem respond_same (s : State) (o : OutIx) : Same s (respond s o) := by
  unfold respond; dsimp only; (repeat' split) <;> simp [Same]

end Sys2Proof.Machine
end

