-- ==== Sys2Proof/Laws/KeepsFirmware.lean ====
section
/-! SUPPORT. What the operations of Machine/Firmware.lean leave alone. -/

namespace Sys2Proof.Machine

@[simp] theorem onFwu_same (f : Fwu → Fwu) (s : State) : Same s (onFwu f s) := by
  simp [Same, onFwu]

@[simp] theorem fwuGo_same (st : FwSt) (b : Option Nat) (s : State) : Same s (fwuGo st b s) := by
  simp [Same, fwuGo]

@[simp] theorem fwuNote_same (b : Nat) (s : State) : Same s (fwuNote b s) := by
  simp [Same, fwuNote]

theorem execSvcArp_same (ip : BitVec 32) (s : State) : ∃ s', execSvcArp ip s = .next s' ∧ Same s s' := by
  refine ⟨_, rfl, ?_⟩; simp [Same]

theorem execSvcIcmpEcho_same (ip : BitVec 32) (payload : List Byte) (s : State) : ∃ s', execSvcIcmpEcho ip payload s = .next s' ∧ Same s s' := by
  refine ⟨_, rfl, ?_⟩; simp [Same]

@[simp] theorem stateAnswer_same (s : State) : Same s (stateAnswer s) := by
  simp [Same, stateAnswer]

@[simp] theorem fwuAck_same (n status : Nat) (s : State) : Same s (fwuAck n status s) := by
  simp [Same, fwuAck]

@[simp] theorem fwuOpen_same (sess : BitVec 16) (blocks : Nat) (s : State) : Same s (fwuOpen sess blocks s) := by
  simp [Same, fwuOpen]

theorem execFwuOpen_same (sess : BitVec 16) (u1 blocks : Nat) (s : State) : ∃ s', execFwuOpen sess u1 blocks s = .next s' ∧ Same s s' := by
  refine ⟨_, rfl, ?_⟩; simp [Same]

@[simp] theorem fwuManifest_same (sess : BitVec 16) (image : List Byte) (s : State) : Same s (fwuManifest sess image s) := by
  simp [Same, fwuManifest]

theorem execFwuManifest_same (sess : BitVec 16) (image : List Byte) (s : State) : ∃ s', execFwuManifest sess image s = .next s' ∧ Same s s' := by
  refine ⟨_, rfl, ?_⟩; simp [Same]

@[simp] theorem fwuQuarter_same (n : Nat) (q : Fin 4) (crc : BitVec 32) (data : List Byte) (s : State) : SameW s (fwuQuarter n q crc data s) := by
  refine ⟨?_, ?_, ?_, ?_, ?_, fun h => ?_⟩ <;> (unfold fwuQuarter; (repeat' split) <;> simp [*])

@[simp] theorem fwuBlock_same (sess : BitVec 16) (n : Nat) (q : Fin 4) (crc : BitVec 32) (data : List Byte) (s : State) : SameW s (fwuBlock sess n q crc data s) := by
  refine ⟨?_, ?_, ?_, ?_, ?_, fun h => ?_⟩ <;> (unfold fwuBlock; (repeat' split) <;> simp [*])

theorem execFwuBlock_same (sess : BitVec 16) (n : Nat) (q : Fin 4) (crc : BitVec 32) (data : List Byte) (s : State) : ∃ s', execFwuBlock sess n q crc data s = .next s' ∧ SameW s s' := by
  refine ⟨_, rfl, ?_⟩; dsimp only; refine ⟨?_, ?_, ?_, ?_, ?_, fun h => ?_⟩ <;> ((repeat' split) <;> simp [*])

theorem execFwuQuery_same (sess : BitVec 16) (s : State) : ∃ s', execFwuQuery sess s = .next s' ∧ Same s s' := by
  refine ⟨_, rfl, ?_⟩; simp [Same]

theorem execFwuClose_same (sess : BitVec 16) (s : State) : ∃ s', execFwuClose sess s = .next s' ∧ Same s s' := by
  refine ⟨_, rfl, ?_⟩; simp [Same]

theorem execFwuSessionTimeout_same (s : State) : ∃ s', execFwuSessionTimeout s = .next s' ∧ Same s s' := by
  refine ⟨_, rfl, ?_⟩; simp [Same]

@[simp] theorem dropStaged_same (s : State) : Same s (dropStaged s) := by
  simp [Same, dropStaged]

@[simp] theorem fwuDiscard_same (s : State) : Same s (fwuDiscard s) := by
  unfold fwuDiscard; (repeat' split) <;> simp [Same]

theorem execFwuDiscard_same (s : State) : ∃ s', execFwuDiscard s = .next s' ∧ Same s s' := by
  refine ⟨_, rfl, ?_⟩; simp [Same]

@[simp] theorem fwuWrite_same (s : State) : Same s (fwuWrite s) := by
  unfold fwuWrite; dsimp only; (repeat' split) <;> simp [Same]

theorem execFwuWrite_same (s : State) : ∃ s', execFwuWrite s = .next s' ∧ Same s s' := by
  refine ⟨_, rfl, ?_⟩; simp [Same]

@[simp] theorem fwuWriteDone_same (r : FlashEnd) (s : State) : Same s (fwuWriteDone r s) := by
  unfold fwuWriteDone; (repeat' split) <;> simp [Same]

theorem execFwuWriteDone_same (r : FlashEnd) (s : State) : ∃ s', execFwuWriteDone r s = .next s' ∧ Same s s' := by
  refine ⟨_, rfl, ?_⟩; simp [Same]

@[simp] theorem fwuReseal_same (s : State) : Same s (fwuReseal s) := by
  unfold fwuReseal; (repeat' split) <;> simp [Same]

@[simp] theorem fwuSchedule_same (s : State) : Same s (fwuSchedule s) := by
  simp [Same, fwuSchedule]

theorem execFwuSchedule_same (s : State) : ∃ s', execFwuSchedule s = .next s' ∧ Same s s' := by
  refine ⟨_, rfl, ?_⟩; simp [Same]

@[simp] theorem fwuCancel_same (s : State) : Same s (fwuCancel s) := by
  simp [Same, fwuCancel]

theorem execFwuCancel_same (s : State) : ∃ s', execFwuCancel s = .next s' ∧ Same s s' := by
  refine ⟨_, rfl, ?_⟩; simp [Same]

@[simp] theorem fwuVote_same (s : State) : Same s (fwuVote s) := by
  simp [Same, fwuVote]

theorem execFwuVote_same (s : State) : ∃ s', execFwuVote s = .next s' ∧ Same s s' := by
  refine ⟨_, rfl, ?_⟩; simp [Same]

theorem execFwuVoteReceive_same (v : Vote) (s : State) : ∃ s', execFwuVoteReceive v s = .next s' ∧ Same s s' := by
  refine ⟨_, rfl, ?_⟩; simp [Same]

@[simp] theorem latchVote_same (v : Vote) (s : State) : Same s (latchVote v s) := by
  simp [Same, latchVote]

@[simp] theorem fwuDecision_same (s : State) : Same s (fwuDecision s) := by
  simp [Same, fwuDecision]

theorem execFwuDecision_same (s : State) : ∃ s', execFwuDecision s = .next s' ∧ Same s s' := by
  refine ⟨_, rfl, ?_⟩; simp [Same]

@[simp] theorem coresRestart_same (slot : Bool) (resume : Nat) (s : State) : Same s (coresRestart slot resume s) := by
  simp [Same, coresRestart]

@[simp] theorem fwuActivate_same (s : State) : Same s (fwuActivate s) := by
  simp [Same, fwuActivate]

theorem execFwuActivate_same (s : State) : ∃ s', execFwuActivate s = .next s' ∧ Same s s' := by
  refine ⟨_, rfl, ?_⟩; simp [Same]

@[simp] theorem fwuReport_same (ready : Bool) (reason : Nat) (s : State) : Same s (fwuReport ready reason s) := by
  simp [Same, fwuReport]

theorem execFwuReadyReport_same (ready : Bool) (reason : Nat) (s : State) : ∃ s', execFwuReadyReport ready reason s = .next s' ∧ Same s s' := by
  refine ⟨_, rfl, ?_⟩; simp [Same]

@[simp] theorem holdTo_same (lead ready : Bool) (s : State) : Same s (holdTo lead ready s) := by
  simp [Same, holdTo]

@[simp] theorem latchReport_same (lead ready : Bool) (reason : Nat) (s : State) : Same s (latchReport lead ready reason s) := by
  simp [Same, latchReport]

@[simp] theorem latchLocal_same (l : FwuLocal) (s : State) : Same s (latchLocal l s) := by
  unfold latchLocal; (repeat' split) <;> simp [Same]

@[simp] theorem fwuRevert_same (reason : Nat) (byPartner : Bool) (s : State) : Same s (fwuRevert reason byPartner s) := by
  simp [Same, fwuRevert]

@[simp] theorem fwuRevertStep_same (s : State) : Same s (fwuRevertStep s) := by
  unfold fwuRevertStep; (repeat' split) <;> simp [Same]

theorem execFwuAutoRevert_same (s : State) : ∃ s', execFwuAutoRevert s = .next s' ∧ Same s s' := by
  refine ⟨_, rfl, ?_⟩; simp [Same]

@[simp] theorem fwuRevertCmd_same (s : State) : Same s (fwuRevertCmd s) := by
  simp [Same, fwuRevertCmd]

theorem execFwuRevertCmd_same (s : State) : ∃ s', execFwuRevertCmd s = .next s' ∧ Same s s' := by
  refine ⟨_, rfl, ?_⟩; simp [Same]

@[simp] theorem fwuCommit_same (s : State) : Same s (fwuCommit s) := by
  simp [Same, fwuCommit]

@[simp] theorem fwuCommitStep_same (s : State) : Same s (fwuCommitStep s) := by
  simp [Same, fwuCommitStep]

theorem execFwuCommit_same (s : State) : ∃ s', execFwuCommit s = .next s' ∧ Same s s' := by
  refine ⟨_, rfl, ?_⟩; simp [Same]

theorem execFwuOwnerLock_same (set : Bool) (s : State) : ∃ s', execFwuOwnerLock set s = .next s' ∧ Same s s' := by
  refine ⟨_, rfl, ?_⟩; simp [Same]

@[simp] theorem opkeyWrite_same (s : State) : Same s (opkeyWrite s) := by
  simp [Same, opkeyWrite]

theorem execFwuOpkeyWrite_same (s : State) : ∃ s', execFwuOpkeyWrite s = .next s' ∧ Same s s' := by
  refine ⟨_, rfl, ?_⟩; simp [Same]

end Sys2Proof.Machine
end

