-- ==== Sys2Proof/Laws/KeepsSwitches.lean ====
section
/-! SUPPORT. What the operations of Machine/Switches.lean leave alone. -/

namespace Sys2Proof.Machine

@[simp] theorem onSw_same (k : SwIx) (f : Sw → Sw) (s : State) : Same s (onSw k f s) := by
  simp [Same, onSw]

@[simp] theorem swEvent_same (k : SwIx) (b : Nat) (s : State) : Same s (swEvent k b s) := by
  simp [Same, swEvent]

@[simp] theorem brakeLevel_same (s : State) : Same s (brakeLevel s) := by
  simp [Same, brakeLevel]

@[simp] theorem lsInrush_same (k : SwIx) (s : State) : Same s (lsInrush k s) := by
  unfold lsInrush; (repeat' split) <;> simp [Same]

@[simp] theorem swStart_same (k : SwIx) (s : State) : Same s (swStart k s) := by
  simp [Same, swStart]

@[simp] theorem swOff_same (k : SwIx) (s : State) : Same s (swOff k s) := by
  simp [Same, swOff]

@[simp] theorem swTurnOn_same (k : SwIx) (s : State) : Same s (swTurnOn k s) := by
  simp [Same, swTurnOn]

@[simp] theorem swTurnOff_same (k : SwIx) (s : State) : Same s (swTurnOff k s) := by
  simp [Same, swTurnOff]

@[simp] theorem takeCmd_same (s : State) (k : Fin 48) : Same s (takeCmd s k) := by
  simp [Same, takeCmd]

@[simp] theorem shortStep_same (s : State) (k : SwIx) : Same s (shortStep s k) := by
  simp [Same, shortStep]

@[simp] theorem commandFrame_same (s : State) : Same s (commandFrame s) := by
  unfold commandFrame; dsimp only; (repeat' split) <;> simp [Same]

theorem execAuxCommandFrame_same (s : State) : ∃ s', execAuxCommandFrame s = .next s' ∧ Same s s' := by
  refine ⟨_, rfl, ?_⟩; simp [Same]

theorem execAuxStaggeredStart_same (k : SwIx) (s : State) : ∃ s', execAuxStaggeredStart k s = .next s' ∧ Same s s' := by
  refine ⟨_, rfl, ?_⟩; ((repeat' split) <;> simp [Same])

@[simp] theorem auxOn_same (k : Fin 48) (on : Bool) (s : State) : Same s (auxOn k on s) := by
  simp [Same, auxOn]

theorem execAuxOn_same (k : Fin 48) (on : Bool) (s : State) : ∃ s', execAuxOn k on s = .next s' ∧ Same s s' := by
  refine ⟨_, rfl, ?_⟩; simp [Same]

@[simp] theorem auxClear_same (k : SwIx) (s : State) : Same s (auxClear k s) := by
  simp [Same, auxClear]

theorem execAuxClear_same (k : SwIx) (s : State) : ∃ s', execAuxClear k s = .next s' ∧ Same s s' := by
  refine ⟨_, rfl, ?_⟩; simp [Same]

theorem execAuxPulseEnd_same (k : SwIx) (s : State) : ∃ s', execAuxPulseEnd k s = .next s' ∧ Same s s' := by
  refine ⟨_, rfl, ?_⟩; simp [Same]

theorem execAuxHoldStart_same (k : SwIx) (s : State) : ∃ s', execAuxHoldStart k s = .next s' ∧ Same s s' := by
  refine ⟨_, rfl, ?_⟩; simp [Same]

theorem execAuxInrushEnd_same (k : SwIx) (s : State) : ∃ s', execAuxInrushEnd k s = .next s' ∧ Same s s' := by
  refine ⟨_, rfl, ?_⟩; simp [Same]

@[simp] theorem swTrip_same (k : SwIx) (f : Sw → Sw) (s : State) : Same s (swTrip k f s) := by
  simp [Same, swTrip]

theorem execAuxOvercurrent_same (k : SwIx) (s : State) : ∃ s', execAuxOvercurrent k s = .next s' ∧ Same s s' := by
  refine ⟨_, rfl, ?_⟩; simp [Same]

theorem execAuxThermalTrip_same (k : SwIx) (t : ThermTrip) (s : State) : ∃ s', execAuxThermalTrip k t s = .next s' ∧ Same s s' := by
  exact ⟨_, rfl, swTrip_same _ _ _⟩

@[simp] theorem latchClear_same (k : SwIx) (t : ThermTrip) (s : State) : Same s (latchClear k t s) := by
  simp [Same, latchClear]

theorem execAuxThermalLatchClear_same (k : SwIx) (t : ThermTrip) (s : State) : ∃ s', execAuxThermalLatchClear k t s = .next s' ∧ Same s s' := by
  exact ⟨_, rfl, latchClear_same _ _ _⟩

theorem execAuxRestart_same (k : SwIx) (s : State) : ∃ s', execAuxRestart k s = .next s' ∧ Same s s' := by
  refine ⟨_, rfl, ?_⟩; simp [Same]

theorem execAuxRetryRestore_same (k : SwIx) (s : State) : ∃ s', execAuxRetryRestore k s = .next s' ∧ Same s s' := by
  refine ⟨_, rfl, ?_⟩; simp [Same]

@[simp] theorem openLoad_same (k : SwIx) (kind : OpenLoad) (s : State) : Same s (openLoad k kind s) := by
  unfold openLoad; (repeat' split) <;> simp [Same]

theorem execAuxOpenLoad_same (k : SwIx) (kind : OpenLoad) (s : State) : ∃ s', execAuxOpenLoad k kind s = .next s' ∧ Same s s' := by
  refine ⟨_, rfl, ?_⟩; simp [Same]

@[simp] theorem senseConvert_same (ma : List Nat) (s : State) : Same s (senseConvert ma s) := by
  simp [Same, senseConvert]

theorem execAuxSenseConvert_same (milliAmps : List Nat) (s : State) : ∃ s', execAuxSenseConvert milliAmps s = .next s' ∧ Same s s' := by
  refine ⟨_, rfl, ?_⟩; simp [Same]

@[simp] theorem shedFrom_same (u1 : List (Fin 48)) (u2 : Nat) (u3 : State) : Same u3 (shedFrom u1 u2 u3) := by
  induction u1 generalizing u2 u3 with
  | nil => exact same_refl _
  | cons k ks ih =>
    unfold shedFrom; dsimp only; split
    · exact same_refl _
    · exact same_trans (by simp [Same]) (ih _ _)

@[simp] theorem budgetShed_same (s : State) : Same s (budgetShed s) := by
  unfold budgetShed; dsimp only; (repeat' split) <;> simp [Same]

theorem execAuxBudgetShed_same (s : State) : ∃ s', execAuxBudgetShed s = .next s' ∧ Same s s' := by
  refine ⟨_, rfl, ?_⟩; simp [Same]

theorem execAuxCommandLoss_same (s : State) : ∃ s', execAuxCommandLoss s = .next s' ∧ Same s s' := by
  refine ⟨_, rfl, ?_⟩; simp [Same]

@[simp] theorem allHsOff_same (s : State) : Same s (allHsOff s) := by
  simp [Same, allHsOff]

theorem execAuxHoldExpiry_same (s : State) : ∃ s', execAuxHoldExpiry s = .next s' ∧ Same s s' := by
  refine ⟨_, rfl, ?_⟩; simp [Same]

end Sys2Proof.Machine
end

