-- ==== Sys2Proof/Laws/KeepsFirebreak.lean ====
section
/-! SUPPORT. What the operations of Machine/Firebreak.lean leave alone. -/

namespace Sys2Proof.Machine

@[simp] theorem markTrip_same (n : Nat) (s : State) (o : OutIx) : Same s (markTrip n s o) := by
  simp [Same, markTrip]

@[simp] theorem eventTrips_same (code inst : Nat) (s : State) : Same s (eventTrips code inst s) := by
  unfold eventTrips; (repeat' split) <;> simp [Same]

@[simp] theorem fbkEvent_same (code inst : Nat) (s : State) : SameF s (fbkEvent code inst s) := by
  simp [SameF, fbkEvent]

@[simp] theorem tryHeld_same (s : State) : SameF s (tryHeld s) := by
  simp [SameF, tryHeld]

@[simp] theorem brkLate_same (fresh : Bool) (b : Fin 8) (s : State) : SameF s (brkLate fresh b s) := by
  simp [SameF, brkLate]

@[simp] theorem brkTimes_same (s : State) (b : Fin 8) : SameF s (brkTimes s b) := by
  simp [SameF, brkTimes]

@[simp] theorem brkAbort_same (s : State) (b : Fin 8) : SameF s (brkAbort s b) := by
  simp [SameF, brkAbort]

@[simp] theorem zoneDisc_same (z : Fin 8) (s : State) : SameF s (zoneDisc z s) := by
  simp [SameF, zoneDisc]

@[simp] theorem zoneDemand_same (fresh : Bool) (z : Fin 8) (s : State) : SameF s (zoneDemand fresh z s) := by
  simp [SameF, zoneDemand]

@[simp] theorem zoneLate_same (run : Nat) (z : Fin 8) (s : State) : SameF s (zoneLate run z s) := by
  simp [SameF, zoneLate]

@[simp] theorem zoneEval_same (adv : Bool) (s : State) (z : Fin 8) : SameF s (zoneEval adv s z) := by
  simp [SameF, zoneEval]

@[simp] theorem sf2Eval_same (s : State) (o : OutIx) : SameF s (sf2Eval s o) := by
  simp [SameF, sf2Eval]

@[simp] theorem sf3Eval_same (s : State) (o : OutIx) : SameF s (sf3Eval s o) := by
  simp [SameF, sf3Eval]

@[simp] theorem sf23_same (s : State) (o : OutIx) : SameF s (sf23 s o) := by
  simp [SameF, sf23]

@[simp] theorem weldLatch_same (o : OutIx) (s : State) : SameF s (weldLatch o s) := by
  simp [SameF, weldLatch]

@[simp] theorem weldEval_same (adv : Bool) (s : State) (o : OutIx) : SameF s (weldEval adv s o) := by
  simp [SameF, weldEval]

@[simp] theorem lsDrive_same (want : BitVec 40) (s : State) : Same s (lsDrive want s) := by
  simp [Same, lsDrive]

@[simp] theorem fbkCopy_same (s : State) : Same s (fbkCopy s) := by
  unfold fbkCopy; dsimp only; exact ⟨rfl, rfl, rfl, rfl, rfl, rfl⟩

@[simp] theorem lsTrip_same (want : BitVec 40) (s : State) (o : OutIx) : Same s (lsTrip want s o) := by
  unfold lsTrip; split
  · exact markTrip_same _ _ _
  · exact same_refl s

@[simp] theorem fbkOutputs_same (s : State) : SameF s (fbkOutputs s) := by
  simp [SameF, fbkOutputs]

@[simp] theorem fbkEval_same (adv : Bool) (s : State) : SameF s (fbkEval adv s) := by
  simp [SameF, fbkEval]

@[simp] theorem toRun_same (s : State) : SameF s (toRun s) := by
  simp [SameF, toRun]

@[simp] theorem toHeld_same (f : Fbk → Fbk) (s : State) : SameF s (toHeld f s) := by
  simp [SameF, toHeld]

@[simp] theorem toFault_same (cause : Nat) (s : State) : SameF s (toFault cause s) := by
  simp [SameF, toFault]

@[simp] theorem autoRun_same (s : State) : SameF s (autoRun s) := by
  simp [SameF, autoRun]

theorem execFbkEvalCycle_same (s : State) : ∃ s', execFbkEvalCycle s = .next s' ∧ SameF s s' := by
  refine ⟨_, rfl, ?_⟩; simp [SameF]

theorem execAutoStartRun_same (s : State) : ∃ s', execAutoStartRun s = .next s' ∧ SameF s s' := by
  refine ⟨_, rfl, ?_⟩; simp [SameF]

theorem execFbkSelfTest_same (ok : Bool) (s : State) : ∃ s', execFbkSelfTest ok s = .next s' ∧ SameF s s' := by
  refine ⟨_, rfl, ?_⟩; simp [SameF]

@[simp] theorem imgLoad_same (s : State) : SameF s (imgLoad s) := by
  simp [SameF, imgLoad]

theorem execSafetyImageLoad_same (s : State) : ∃ s', execSafetyImageLoad s = .next s' ∧ SameF s s' := by
  refine ⟨_, rfl, ?_⟩; simp [SameF]

theorem execImageCrcCheck_same (ok : Bool) (s : State) : ∃ s', execImageCrcCheck ok s = .next s' ∧ SameF s s' := by
  refine ⟨_, rfl, ?_⟩; simp [SameF]

theorem execLsPulseTest_same (readback : BitVec 40) (s : State) : ∃ s', execLsPulseTest readback s = .next s' ∧ SameF s s' := by
  refine ⟨_, rfl, ?_⟩; simp [SameF]

theorem execFbkChannelDiscrepancy_same (kind : FbkFaultKind) (s : State) : ∃ s', execFbkChannelDiscrepancy kind s = .next s' ∧ SameF s s' := by
  refine ⟨_, rfl, ?_⟩; simp [SameF]

@[simp] theorem fbkStart_same (s : State) : SameF s (fbkStart s) := by
  simp [SameF, fbkStart]

theorem execVauxOutOfWindow_same (back : Bool) (s : State) : ∃ s', execVauxOutOfWindow back s = .next s' ∧ SameF s s' := by
  refine ⟨_, rfl, ?_⟩; simp [SameF]

theorem execFbkThermalHold_same (s : State) : ∃ s', execFbkThermalHold s = .next s' ∧ SameF s s' := by
  refine ⟨_, rfl, ?_⟩; simp [SameF]

theorem execFbkInputAccept_same (i : FbkIn) (level : Bool) (s : State) : ∃ s', execFbkInputAccept i level s = .next s' ∧ SameF s s' := by
  refine ⟨_, rfl, ?_⟩; simp [SameF]

theorem execZoneDiscrepancy_same (z : Fin 8) (s : State) : ∃ s', execZoneDiscrepancy z s = .next s' ∧ SameF s s' := by
  refine ⟨_, rfl, ?_⟩; simp [SameF]

theorem execWeldDetect_same (o : OutIx) (s : State) : ∃ s', execWeldDetect o s = .next s' ∧ SameF s s' := by
  refine ⟨_, rfl, ?_⟩; simp [SameF]

theorem execWeldNotify_same (o : OutIx) (s : State) : ∃ s', execWeldNotify o s = .next s' ∧ SameF s s' := by
  refine ⟨_, rfl, ?_⟩; simp [SameF]

@[simp] theorem resetAll_same (s : State) : SameF s (resetAll s) := by
  simp [SameF, resetAll]

theorem execResetEdgePair_same (ms : Nat) (s : State) : ∃ s', execResetEdgePair ms s = .next s' ∧ SameF s s' := by
  refine ⟨_, rfl, ?_⟩; simp [SameF]

theorem execResetJammed_same (s : State) : ∃ s', execResetJammed s = .next s' ∧ SameF s s' := by
  refine ⟨_, rfl, ?_⟩; simp [SameF]

@[simp] theorem sealRead_same (direct inverted : BitVec 64) (s : State) : SameF s (sealRead direct inverted s) := by
  simp [SameF, sealRead]

theorem execSealRead_same (direct inverted : BitVec 64) (s : State) : ∃ s', execSealRead direct inverted s = .next s' ∧ SameF s s' := by
  refine ⟨_, rfl, ?_⟩; simp [SameF]

theorem execBrakeTestDue_same (b : Fin 8) (s : State) : ∃ s', execBrakeTestDue b s = .next s' ∧ SameF s s' := by
  refine ⟨_, rfl, ?_⟩; simp [SameF]

theorem execBrakeTestOverdue_same (b : Fin 8) (s : State) : ∃ s', execBrakeTestOverdue b s = .next s' ∧ SameF s s' := by
  refine ⟨_, rfl, ?_⟩; simp [SameF]

theorem execBrakeTestStart_same (b : Fin 8) (s : State) : ∃ s', execBrakeTestStart b s = .next s' ∧ SameF s s' := by
  refine ⟨_, rfl, ?_⟩; simp [SameF]

theorem execBrakeTestTorque_same (b : Fin 8) (s : State) : ∃ s', execBrakeTestTorque b s = .next s' ∧ SameF s s' := by
  refine ⟨_, rfl, ?_⟩; simp [SameF]

theorem execBrakeTestRelease_same (b : Fin 8) (s : State) : ∃ s', execBrakeTestRelease b s = .next s' ∧ SameF s s' := by
  refine ⟨_, rfl, ?_⟩; simp [SameF]

theorem execBrakeTestEvaluate_same (b : Fin 8) (edges : Nat) (s : State) : ∃ s', execBrakeTestEvaluate b edges s = .next s' ∧ SameF s s' := by
  refine ⟨_, rfl, ?_⟩; simp [SameF]

@[simp] theorem weldArm_same (o : OutIx) (s : State) : SameF s (weldArm o s) := by
  simp [SameF, weldArm]

theorem execFbkWeldArm_same (o : OutIx) (s : State) : ∃ s', execFbkWeldArm o s = .next s' ∧ SameF s s' := by
  refine ⟨_, rfl, ?_⟩; simp [SameF]

@[simp] theorem brkTestNow_same (b : Fin 8) (s : State) : SameF s (brkTestNow b s) := by
  simp [SameF, brkTestNow]

theorem execFbkBrkTest_same (b : Fin 8) (s : State) : ∃ s', execFbkBrkTest b s = .next s' ∧ SameF s s' := by
  refine ⟨_, rfl, ?_⟩; simp [SameF]

@[simp] theorem brkRepair_same (b : Fin 8) (s : State) : SameF s (brkRepair b s) := by
  simp [SameF, brkRepair]

theorem execFbkBrkRepair_same (b : Fin 8) (s : State) : ∃ s', execFbkBrkRepair b s = .next s' ∧ SameF s s' := by
  refine ⟨_, rfl, ?_⟩; simp [SameF]

@[simp] theorem fbkLogSel_same (val : Word) (s : State) : SameF s (fbkLogSel val s) := by
  simp [SameF, fbkLogSel]

theorem execFbkLogSelWrite_same (val : Word) (s : State) : ∃ s', execFbkLogSelWrite val s = .next s' ∧ SameF s s' := by
  refine ⟨_, rfl, ?_⟩; simp [SameF]

end Sys2Proof.Machine
end

