-- ==== Sys2Proof/Laws/KeepsTandem.lean ====
section
/-! SUPPORT. What the operations of Machine/Tandem.lean leave alone. -/

namespace Sys2Proof.Machine

@[simp] theorem onTdm_same (f : Tdm → Tdm) (s : State) : Same s (onTdm f s) := by
  simp [Same, onTdm]

@[simp] theorem tdmEvent_same (b data : Nat) (s : State) : Same s (tdmEvent b data s) := by
  simp [Same, tdmEvent]

theorem execLinkTraining_same (s : State) : ∃ s', execLinkTraining s = .next s' ∧ Same s s' := by
  refine ⟨_, rfl, ?_⟩; simp [Same]

theorem execTandemLinkDown_same (s : State) : ∃ s', execTandemLinkDown s = .next s' ∧ Same s s' := by
  refine ⟨_, rfl, ?_⟩; simp [Same]

@[simp] theorem markerIn_same (m : Marker) (arrival : Int) (s : State) : Same s (markerIn m arrival s) := by
  simp [Same, markerIn]

theorem execMarkerReceive_same (m : MarkerIn) (s : State) : ∃ s', execMarkerReceive m s = .next s' ∧ Same s s' := by
  refine ⟨_, rfl, ?_⟩; simp [Same]

@[simp] theorem countMissing_same (s : State) : Same s (countMissing s) := by
  simp [Same, countMissing]

theorem execMarkerMissing_same (s : State) : ∃ s', execMarkerMissing s = .next s' ∧ Same s s' := by
  refine ⟨_, rfl, ?_⟩; dsimp only; ((repeat' split) <;> simp [Same])

theorem execDelayMeasure_same (roundTrip : Nat) (s : State) : ∃ s', execDelayMeasure roundTrip s = .next s' ∧ Same s s' := by
  refine ⟨_, rfl, ?_⟩; simp [Same]

theorem execHeartbeatSend_same (s : State) : ∃ s', execHeartbeatSend s = .next s' ∧ Same s s' := by
  refine ⟨_, rfl, ?_⟩; simp [Same]

theorem execHeartbeatReceive_same (h : Heartbeat) (s : State) : ∃ s', execHeartbeatReceive h s = .next s' ∧ Same s s' := by
  refine ⟨_, rfl, ?_⟩; simp [Same]

@[simp] theorem snapIn_same (x : Snap) (s : State) : Same s (snapIn x s) := by
  simp [Same, snapIn]

theorem execSnapPacket_same (fn : Nat) (x : Snap) (s : State) : ∃ s', execSnapPacket fn x s = .next s' ∧ Same s s' := by
  refine ⟨_, rfl, ?_⟩; simp [Same]

theorem execInsetPacket_same (i : InputSet) (s : State) : ∃ s', execInsetPacket i s = .next s' ∧ Same s s' := by
  refine ⟨_, rfl, ?_⟩; simp [Same]

theorem execProtoPacket_same (fn : Nat) (p : Proto) (s : State) : ∃ s', execProtoPacket fn p s = .next s' ∧ Same s s' := by
  refine ⟨_, rfl, ?_⟩; simp [Same]

theorem execDigestPacket_same (fn : Nat) (crc : BitVec 64) (s : State) : ∃ s', execDigestPacket fn crc s = .next s' ∧ Same s s' := by
  refine ⟨_, rfl, ?_⟩; simp [Same]

@[simp] theorem pairIn_same (p : PairInfo) (s : State) : Same s (pairIn p s) := by
  unfold pairIn; dsimp only; (repeat' split) <;> simp [Same]

theorem execPairPacket_same (p : PairInfo) (s : State) : ∃ s', execPairPacket p s = .next s' ∧ Same s s' := by
  refine ⟨_, rfl, ?_⟩; simp [Same]

@[simp] theorem ledgerIn_same (ix : Fin 1536) (e : Ledger) (s : State) : Same s (ledgerIn ix e s) := by
  simp [Same, ledgerIn]

@[simp] theorem takeLedgerKey_same (k : List Byte) (s : State) : Same s (takeLedgerKey k s) := by
  simp [Same, takeLedgerKey]

@[simp] theorem bulkIn_same (b : Bulk) (s : State) : SameW s (bulkIn b s) := by
  refine ⟨?_, ?_, ?_, ?_, ?_, fun h => ?_⟩ <;> (unfold bulkIn; dsimp only; (repeat' split) <;> simp [*])

theorem execBulkPacket_same (b : Bulk) (s : State) : ∃ s', execBulkPacket b s = .next s' ∧ SameW s s' := by
  refine ⟨_, rfl, ?_⟩; dsimp only; refine ⟨?_, ?_, ?_, ?_, ?_, fun h => ?_⟩ <;> ((repeat' split) <;> simp [*])

@[simp] theorem bulkIdle_same (s : State) : Same s (bulkIdle s) := by
  simp [Same, bulkIdle]

@[simp] theorem bulkStep_same (s : State) : Same s (bulkStep s) := by
  simp [Same, bulkStep]

@[simp] theorem tdmGo_same (st : TSt) (reason : Nat) (s : State) : Same s (tdmGo st reason s) := by
  simp [Same, tdmGo]

@[simp] theorem joinWait_same (s : State) : Same s (joinWait s) := by
  simp only [Same, joinWait]; (repeat' split) <;> simp

theorem execJoinWaitExpiry_same (s : State) : ∃ s', execJoinWaitExpiry s = .next s' ∧ Same s s' := by
  refine ⟨_, rfl, ?_⟩; simp [Same]

@[simp] theorem joinTimeout_same (s : State) : Same s (joinTimeout s) := by
  simp only [Same, joinTimeout]; (repeat' split) <;> simp

theorem execJoinTimeout_same (s : State) : ∃ s', execJoinTimeout s = .next s' ∧ Same s s' := by
  refine ⟨_, rfl, ?_⟩; simp [Same]

@[simp] theorem takeover_same (s : State) : Same s (takeover s) := by
  simp [Same, takeover]

theorem execTakeover_same (s : State) : ∃ s', execTakeover s = .next s' ∧ Same s s' := by
  refine ⟨_, rfl, ?_⟩; simp [Same]

@[simp] theorem swapAt_same (fn : Nat) (k : SwapKind) (s : State) : Same s (swapAt fn k s) := by
  simp [Same, swapAt]

@[simp] theorem roleSwap_same (s : State) : Same s (roleSwap s) := by
  simp only [Same, roleSwap]; (repeat' split) <;> simp

theorem execRoleSwap_same (s : State) : ∃ s', execRoleSwap s = .next s' ∧ Same s s' := by
  refine ⟨_, rfl, ?_⟩; simp [Same]

@[simp] theorem swapCancel_same (s : State) : Same s (swapCancel s) := by
  unfold swapCancel; (repeat' split) <;> simp [Same]

@[simp] theorem swapStep_same (s : State) : Same s (swapStep s) := by
  unfold swapStep; dsimp only; (repeat' split) <;> simp [Same]

@[simp] theorem digestStep_same (s : State) : Same s (digestStep s) := by
  simp [Same, digestStep]

@[simp] theorem receiveStep_same (s : State) : Same s (receiveStep s) := by
  unfold receiveStep; (repeat' split) <;> simp [Same]

@[simp] theorem secondLead_same (s : State) : Same s (secondLead s) := by
  unfold secondLead; (repeat' split) <;> simp [Same]

@[simp] theorem tdmStates_same (s : State) : Same s (tdmStates s) := by
  unfold tdmStates; (repeat' split) <;> simp [Same]

@[simp] theorem yieldStep_same (s : State) : Same s (yieldStep s) := by
  simp [Same, yieldStep]

@[simp] theorem tdmEval_same (s : State) : Same s (tdmEval s) := by
  simp [Same, tdmEval]

@[simp] theorem stEvent_same (old new : TSt) (reason : Nat) (s : State) : Same s (stEvent old new reason s) := by
  unfold stEvent; (repeat' split) <;> simp [Same]

@[simp] theorem roleChange_same (s : State) : Same s (roleChange s) := by
  simp [Same, roleChange]

@[simp] theorem tdmApply_same (s : State) : Same s (tdmApply s) := by
  unfold tdmApply; (repeat' split) <;> simp [Same]

@[simp] theorem tdmOpen_same (s : State) : Same s (tdmOpen s) := by
  simp [Same, tdmOpen]

@[simp] theorem tdmSend_same (n : Nat) (x : Snap) (s : State) : Same s (tdmSend n x s) := by
  simp [Same, tdmSend]

@[simp] theorem swapProto_same (s : State) : Same s (swapProto s) := by
  unfold swapProto; (repeat' split) <;> simp [Same]

@[simp] theorem latchOwn_same (own : InputSet) (s : State) : Same s (latchOwn own s) := by
  simp [Same, latchOwn]

@[simp] theorem latchSet_same (own : InputSet) (s : State) : Same s (latchSet own s) := by
  simp [Same, latchSet]

@[simp] theorem tdmRejoin_same (s : State) : Same s (tdmRejoin s) := by
  simp [Same, tdmRejoin]

theorem execTdmRejoin_same (s : State) : ∃ s', execTdmRejoin s = .next s' ∧ Same s s' := by
  refine ⟨_, rfl, ?_⟩; simp [Same]

@[simp] theorem tdmYield_same (s : State) : Same s (tdmYield s) := by
  simp [Same, tdmYield]

theorem execTdmYield_same (s : State) : ∃ s', execTdmYield s = .next s' ∧ Same s s' := by
  refine ⟨_, rfl, ?_⟩; simp [Same]

theorem execTdmHoldReturn_same (s : State) : ∃ s', execTdmHoldReturn s = .next s' ∧ Same s s' := by
  refine ⟨_, rfl, ?_⟩; simp [Same]

@[simp] theorem tdmDeclare_same (s : State) : Same s (tdmDeclare s) := by
  simp [Same, tdmDeclare]

theorem execTdmDeclareFault_same (s : State) : ∃ s', execTdmDeclareFault s = .next s' ∧ Same s s' := by
  refine ⟨_, rfl, ?_⟩; simp [Same]

end Sys2Proof.Machine
end

