-- ==== Sys2Proof/Laws/KeepsCan.lean ====
section
/-! SUPPORT. What the operations of Machine/Can.lean leave alone. -/

namespace Sys2Proof.Machine

@[simp] theorem onCan_same (k : CanIx) (f : Can → Can) (s : State) : Same s (onCan k f s) := by
  simp [Same, onCan]

@[simp] theorem canBit_same (k : CanIx) (b : Nat) (s : State) : Same s (canBit k b s) := by
  simp [Same, canBit]

@[simp] theorem canEvent_same (k : CanIx) (b data : Nat) (s : State) : Same s (canEvent k b data s) := by
  simp [Same, canEvent]

@[simp] theorem filtQuantity_same (k : CanIx) (i : Nat) (e : FiltCfg) (f : CanFrame) (s : State) : Same s (filtQuantity k i e f s) := by
  unfold filtQuantity; (repeat' split) <;> simp [Same]

@[simp] theorem canFifo_same (k : CanIx) (f : CanFrame) (us first : Nat) (s : State) : SameW s (canFifo k f us first s) := by
  refine ⟨?_, ?_, ?_, ?_, ?_, fun h => ?_⟩ <;> (unfold canFifo; (repeat' split) <;> simp [*])

@[simp] theorem canReceive_same (k : CanIx) (f : CanFrame) (us : Nat) (s : State) : SameW s (canReceive k f us s) := by
  refine ⟨?_, ?_, ?_, ?_, ?_, fun h => ?_⟩ <;> (unfold canReceive; dsimp only; (repeat' split) <;> simp [*])

@[simp] theorem canHeard_same (k : CanIx) (f : CanFrame) (s : State) : Same s (canHeard k f s) := by
  simp [Same, canHeard]

theorem execCanRxFrame_same (k : CanIx) (f : CanFrame) (us : Nat) (s : State) : ∃ s', execCanRxFrame k f us s = .next s' ∧ SameW s s' := by
  refine ⟨_, rfl, ?_⟩; refine ⟨?_, ?_, ?_, ?_, ?_, fun h => ?_⟩ <;> ((repeat' split) <;> simp [*])

@[simp] theorem latchActions_same (old : Levels) (s : State) : Same s (latchActions old s) := by
  simp [Same, latchActions]

@[simp] theorem canRefuse_same (k : CanIx) (s : State) : Same s (canRefuse k s) := by
  simp [Same, canRefuse]

@[simp] theorem canRequest_same (k : CanIx) (bs : List Byte) (s : State) : Same s (canRequest k bs s) := by
  simp [Same, canRequest]

@[simp] theorem canSubmit_same (k : CanIx) (count : Nat) (win : List Byte) (s : State) : Same s (canSubmit k count win s) := by
  simp [Same, canSubmit]

@[simp] theorem latchRead_same (a n : Nat) (f : List Byte → State → State) (s : State) (h : ∀ bs t, Same t (f bs t)) :
    Same s (latchRead a n f s) := by
  unfold latchRead; dsimp only; split
  · simp [Same]
  · exact same_trans (eccRead_same a n s) (h _ _)

theorem execCanTxSubmit_same (k : CanIx) (count : BitVec 4) (s : State) : ∃ s', execCanTxSubmit k count s = .next s' ∧ Same s s' := by
  refine ⟨_, rfl, ?_⟩; dsimp only; ((repeat' split) <;> simp [Same])

@[simp] theorem coolOne_same (k : CanIx) (s : State) (o : OutIx) : Same s (coolOne k s o) := by
  simp [Same, coolOne]

@[simp] theorem coolingBus_same (k : CanIx) (s : State) : Same s (coolingBus k s) := by
  simp [Same, coolingBus]

theorem execCoolingFrameTx_same (s : State) : ∃ s', execCoolingFrameTx s = .next s' ∧ Same s s' := by
  refine ⟨_, rfl, ?_⟩; simp [Same]

@[simp] theorem canSent_same (k : CanIx) (brs : Bool) (s : State) : Same s (canSent k brs s) := by
  simp [Same, canSent]

@[simp] theorem canTxComplete_same (k : CanIx) (src : TxSource) (s : State) : Same s (canTxComplete k src s) := by
  unfold canTxComplete; (repeat' split) <;> simp [Same]

theorem execCanTxComplete_same (k : CanIx) (src : TxSource) (s : State) : ∃ s', execCanTxComplete k src s = .next s' ∧ Same s s' := by
  refine ⟨_, rfl, ?_⟩; simp [Same]

theorem execCanBusOff_same (k : CanIx) (s : State) : ∃ s', execCanBusOff k s = .next s' ∧ Same s s' := by
  refine ⟨_, rfl, ?_⟩; simp [Same]

@[simp] theorem canRecovered_same (k : CanIx) (s : State) : Same s (canRecovered k s) := by
  simp [Same, canRecovered]

theorem execCanAutoRecovery_same (k : CanIx) (s : State) : ∃ s', execCanAutoRecovery k s = .next s' ∧ Same s s' := by
  refine ⟨_, rfl, ?_⟩; simp [Same]

@[simp] theorem canRecover_same (k : CanIx) (s : State) : Same s (canRecover k s) := by
  simp [Same, canRecover]

theorem execCanRecover_same (k : CanIx) (s : State) : ∃ s', execCanRecover k s = .next s' ∧ Same s s' := by
  refine ⟨_, rfl, ?_⟩; simp [Same]

@[simp] theorem canBusError_same (k : CanIx) (kind : CanErrKind) (tec rec_ : Nat) (s : State) : Same s (canBusError k kind tec rec_ s) := by
  simp [Same, canBusError]

theorem execCanBusError_same (k : CanIx) (kind : CanErrKind) (tec rec_ : Nat) (s : State) : ∃ s', execCanBusError k kind tec rec_ s = .next s' ∧ Same s s' := by
  refine ⟨_, rfl, ?_⟩; simp [Same]

@[simp] theorem canHpSel_same (k : CanIx) (val : Word) (s : State) : Same s (canHpSel k val s) := by
  simp [Same, canHpSel]

theorem execCanHpSelWrite_same (k : CanIx) (val : Word) (s : State) : ∃ s', execCanHpSelWrite k val s = .next s' ∧ Same s s' := by
  refine ⟨_, rfl, ?_⟩; simp [Same]

end Sys2Proof.Machine
end

