-- ==== Sys2Proof/Laws/KeepsStandMap.lean ====
section
/-! SUPPORT. What the operations of Machine/StandMap.lean leave alone. -/

namespace Sys2Proof.Machine

@[simp] theorem onSmp_same (f : Smp → Smp) (s : State) : Same s (onSmp f s) := by
  simp [Same, onSmp]

@[simp] theorem smpEvent_same (b data : Nat) (s : State) : Same s (smpEvent b data s) := by
  simp [Same, smpEvent]

@[simp] theorem addClamp_same (s : State) (e : ClampEntry) : Same s (addClamp s e) := by
  simp [Same, addClamp]

@[simp] theorem addClamps_same (es : List ClampEntry) (s : State) : Same s (addClamps es s) := by
  simp [Same, addClamps]

@[simp] theorem clampSel_same (val : Word) (s : State) : Same s (clampSel val s) := by
  simp [Same, clampSel]

theorem execClampSelWrite_same (val : Word) (s : State) : ∃ s', execClampSelWrite val s = .next s' ∧ Same s s' := by
  refine ⟨_, rfl, ?_⟩; simp [Same]

@[simp] theorem setModems_same (s : State) : Same s (setModems s) := by
  simp [Same, setModems]

@[simp] theorem takeMap_same (base : List Rec) (sw : BitVec 64) (a : Applied) (s : State) : Same s (takeMap base sw a s) := by
  simp [Same, takeMap]

@[simp] theorem mapLoad_same (failA failB : Option Nat) (s : State) : Same s (mapLoad failA failB s) := by
  simp [Same, mapLoad]

@[simp] theorem refreshMap_same (recs : List Rec) (sw : BitVec 64) (s : State) : Same s (refreshMap recs sw s) := by
  simp [Same, refreshMap]

@[simp] theorem sealReapply_same (s : State) : SameF s (sealReapply s) := by
  simp [SameF, sealReapply]

@[simp] theorem amendSubmit_same (s : State) : Same s (amendSubmit s) := by
  simp [Same, amendSubmit]

@[simp] theorem amendImage_same (img : List Byte) (s : State) : Same s (amendImage img s) := by
  simp [Same, amendImage]

theorem execAmendSubmit_same (s : State) : ∃ s', execAmendSubmit s = .next s' ∧ Same s s' := by
  refine ⟨_, rfl, ?_⟩; simp [Same]

@[simp] theorem amendReject_same (r : Nat) (s : State) : Same s (amendReject r s) := by
  simp [Same, amendReject]

@[simp] theorem amendValidate_same (s : State) : Same s (amendValidate s) := by
  unfold amendValidate; dsimp only; (repeat' split) <;> simp [Same]

theorem execAmendValidated_same (s : State) : ∃ s', execAmendValidated s = .next s' ∧ Same s s' := by
  refine ⟨_, rfl, ?_⟩; simp [Same]

@[simp] theorem amendCancel_same (s : State) : Same s (amendCancel s) := by
  simp [Same, amendCancel]

theorem execAmendCancel_same (s : State) : ∃ s', execAmendCancel s = .next s' ∧ Same s s' := by
  refine ⟨_, rfl, ?_⟩; simp [Same]

@[simp] theorem clearResiduals_same (rs : List Rec) (s : State) : Same s (clearResiduals rs s) := by
  simp [Same, clearResiduals]

@[simp] theorem clearTallies_same (rs : List Rec) (s : State) : Same s (clearTallies rs s) := by
  simp [Same, clearTallies]

@[simp] theorem amendSend_same (rs : List Rec) (s : State) : SameF s (amendSend rs s) := by
  simp [SameF, amendSend]

@[simp] theorem markOff_same (was : SiteMap) (s : State) : Same s (markOff was s) := by
  simp [Same, markOff]

@[simp] theorem amendTake_same (img : List Byte) (rs recs : List Rec) (e1 : List ClampEntry) (s : State) : Same s (amendTake img rs recs e1 s) := by
  simp [Same, amendTake]

@[simp] theorem amendNow_same (s : State) : SameF s (amendNow s) := by
  unfold amendNow; dsimp only; split
  · exact same_sameF (amendReject_same _ s)
  · split
    · exact same_sameF (amendReject_same _ s)
    · split
      · exact same_sameF (amendReject_same _ s)
      · exact sameF_trans (sameF_trans (same_sameF (amendTake_same _ _ _ _ s)) (amendSend_same _ _)) (same_sameF (smpEvent_same _ _ _))

theorem execAmendApply_same (s : State) : ∃ s', execAmendApply s = .next s' ∧ SameF s s' := by
  refine ⟨_, rfl, ?_⟩; simp [SameF]

@[simp] theorem amendPersist_same (s : State) : Same s (amendPersist s) := by
  unfold amendPersist; (repeat' split) <;> simp [Same]

theorem execAmendPersist_same (s : State) : ∃ s', execAmendPersist s = .next s' ∧ Same s s' := by
  refine ⟨_, rfl, ?_⟩; simp [Same]

@[simp] theorem flashWrite_same (b : Bool) (s : State) : Same s (flashWrite b s) := by
  unfold flashWrite; dsimp only; (repeat' split) <;> simp [Same]

theorem execSmpFlashWriteA_same (s : State) : ∃ s', execSmpFlashWriteA s = .next s' ∧ Same s s' := by
  refine ⟨_, rfl, ?_⟩; simp [Same]

theorem execSmpFlashWriteB_same (s : State) : ∃ s', execSmpFlashWriteB s = .next s' ∧ Same s s' := by
  refine ⟨_, rfl, ?_⟩; simp [Same]

@[simp] theorem flashDone_same (ok : Bool) (s : State) : Same s (flashDone ok s) := by
  unfold flashDone; (repeat' split) <;> simp [Same]

theorem execSmpFlashDone_same (ok : Bool) (s : State) : ∃ s', execSmpFlashDone ok s = .next s' ∧ Same s s' := by
  refine ⟨_, rfl, ?_⟩; simp [Same]

end Sys2Proof.Machine
end

