-- ==== Sys2Proof/Laws/KeepsJournal.lean ====
section
/-! SUPPORT. What the operations of Machine/Journal.lean leave alone. -/

namespace Sys2Proof.Machine

@[simp] theorem tallyCount_same (s : State) : Same s (tallyCount s) := by
  simp [Same, tallyCount]

@[simp] theorem jnlDrop_mem (a b n : Nat) (l : Lnd) : (jnlDrop a b n l).mem = l.mem := by
  induction n generalizing l with
  | zero => rfl
  | succ n ih =>
    unfold jnlDrop; split
    · rfl
    · split <;> simp [ih]

@[simp] theorem jnlSlot_same (void : Bool) (need : Nat) (bs : List Byte) (s : State) : SameW s (jnlSlot void need bs s) := by
  unfold jnlSlot; dsimp only
  refine sameW_trans ?_ (same_sameW (onLnd_keep _ _ fun _ => rfl))
  refine sameW_trans (same_sameW ?_) (lndWrite_same _ _ _)
  split <;> simp [Same]

@[simp] theorem jnlLevelStep_same (s : State) : Same s (jnlLevelStep s) := by
  simp [Same, jnlLevelStep]

@[simp] theorem jnlPut_same (bs : List Byte) (s : State) : SameW s (jnlPut bs s) := by
  refine ⟨?_, ?_, ?_, ?_, ?_, fun h => ?_⟩ <;> (unfold jnlPut; dsimp only; (repeat' split) <;> simp [*])

@[simp] theorem jnlWrite_same (es : List Event) (s : State) : SameW s (jnlWrite es s) := by
  refine ⟨?_, ?_, ?_, ?_, ?_, fun h => ?_⟩ <;> (unfold jnlWrite; (repeat' split) <;> simp [*])

@[simp] theorem mbxWrite_same (s : State) (e : MbxEntry) : SameW s (mbxWrite s e) := by
  refine ⟨?_, ?_, ?_, ?_, ?_, fun h => ?_⟩ <;> (unfold mbxWrite; (repeat' split) <;> simp [*])

@[simp] theorem mbxAll_same (s : State) : SameW s (mbxAll s) := by
  unfold mbxAll
  exact sameW_trans (foldl_sameW _ mbxWrite_same s.mbx s) ⟨rfl, rfl, rfl, rfl, rfl, fun h => h⟩

@[simp] theorem evsTake_same (s : State) : Same s (evsTake s) := by
  simp [Same, evsTake]

@[simp] theorem evsWrite_same (es : List Event) (s : State) : SameW s (evsWrite es s) := by
  unfold evsWrite
  exact sameW_trans (same_sameW (evsTake_same s)) (sameW_trans (eventsPut_same _ 0 0 _ _) (jnlWrite_same _ _))

@[simp] theorem endFrame_same (s : State) : SameW s (endFrame s) := by
  unfold endFrame
  exact sameW_trans (mbxAll_same s) (evsWrite_same _ _)

@[simp] theorem tallyRing_same (s : State) : SameW s (tallyRing s) := by
  refine ⟨?_, ?_, ?_, ?_, ?_, fun h => ?_⟩ <;> (unfold tallyRing; (repeat' split) <;> simp [*])

theorem execTallyRingWrite_same (s : State) : ∃ s', execTallyRingWrite s = .next s' ∧ SameW s s' := by
  refine ⟨_, rfl, ?_⟩; refine ⟨?_, ?_, ?_, ?_, ?_, fun h => ?_⟩ <;> ((repeat' split) <;> simp [*])

end Sys2Proof.Machine
end

