-- ==== Sys2Proof/Laws/KeepsHealth.lean ====
section
/-! SUPPORT. What the operations of Machine/Health.lean leave alone. -/

namespace Sys2Proof.Machine

@[simp] theorem onHkp_same (f : Hkp → Hkp) (s : State) : Same s (onHkp f s) := by
  simp [Same, onHkp]

@[simp] theorem hkpEvent_same (code num data : Nat) (s : State) : Same s (hkpEvent code num data s) := by
  simp [Same, hkpEvent]

@[simp] theorem hkTest_same (k : Fin 16) (code : Nat) (s : State) : Same s (hkTest k code s) := by
  simp [Same, hkTest]

@[simp] theorem hkStore_same (i : Fin 42) (c : Nat) (s : State) : Same s (hkStore i c s) := by
  simp [Same, hkStore]

@[simp] theorem hkUse_same (i : Fin 42) (s : State) : Same s (hkUse i s) := by
  unfold hkUse; dsimp only; (repeat' split) <;> simp [Same]

@[simp] theorem hkJudge_same (i : Fin 42) (c : Nat) (before : Vector HkIn 42) (s : State) : Same s (hkJudge i c before s) := by
  unfold hkJudge; dsimp only; (repeat' split) <;> simp [Same]

@[simp] theorem hkConvert_same (i : Fin 42) (code : Nat) (s : State) : Same s (hkConvert i code s) := by
  unfold hkConvert; split
  · exact onHkp_same _ s
  · exact same_trans (same_trans (hkStore_same i _ s) (hkJudge_same i _ _ _)) (hkUse_same i _)

theorem execHkAdcSlot_same (slot : Fin 42) (code : Nat) (s : State) : ∃ s', execHkAdcSlot slot code s = .next s' ∧ Same s s' := by
  refine ⟨_, rfl, ?_⟩; simp [Same]

theorem execHkInAlarm_same (k : Fin 16) (s : State) : ∃ s', execHkInAlarm k s = .next s' ∧ Same s s' := by
  refine ⟨_, rfl, ?_⟩; simp [Same]

@[simp] theorem levelEvent_same (old new : Nat) (s : State) : Same s (levelEvent old new s) := by
  simp [Same, levelEvent]

theorem execThermalLevelChange_same (lvl : Fin 3) (s : State) : ∃ s', execThermalLevelChange lvl s = .next s' ∧ Same s s' := by
  refine ⟨_, rfl, ?_⟩; simp [Same]

@[simp] theorem stopAll_same (s : State) : Same s (stopAll s) := by
  simp [Same, stopAll]

theorem execThermalShutdown_same (sensor : Fin 10) (s : State) : ∃ s', execThermalShutdown sensor s = .next s' ∧ SameF s s' := by
  refine ⟨_, rfl, ?_⟩; simp [SameF]

@[simp] theorem askReset_same (cold : Bool) (cause : Nat) (s : State) : Same s (askReset cold cause s) := by
  simp [Same, askReset]

@[simp] theorem stopWarm_same (s : State) : Same s (stopWarm s) := by
  simp [Same, stopWarm]

@[simp] theorem auxReset_same (s : State) : SameF s (auxReset s) := by
  simp [SameF, auxReset]

theorem execThermalRelease_same (s : State) : ∃ s', execThermalRelease s = .next s' ∧ SameF s s' := by
  refine ⟨_, rfl, ?_⟩; simp [SameF]

theorem execPowerFailWarning_same (u1 : Rail) (s : State) : ∃ s', execPowerFailWarning u1 s = .next s' ∧ Same s s' := by
  refine ⟨_, rfl, ?_⟩; simp [Same]

theorem execSupplyReset_same (s : State) : ∃ s', execSupplyReset s = .next s' ∧ Same s s' := by
  refine ⟨_, rfl, ?_⟩; simp [Same]

theorem execPllLockLoss_same (pll : Pll) (s : State) : ∃ s', execPllLockLoss pll s = .next s' ∧ Same s s' := by
  refine ⟨_, rfl, ?_⟩; simp [Same]

theorem execPllLockTimeout_same (u1 : Option Pll) (s : State) : ∃ s', execPllLockTimeout u1 s = .next s' ∧ Same s s' := by
  refine ⟨_, rfl, ?_⟩; simp [Same]

theorem execXtal25Stop_same (s : State) : ∃ s', execXtal25Stop s = .next s' ∧ Same s s' := by
  refine ⟨_, rfl, ?_⟩; simp [Same]

theorem execXtal25Return_same (s : State) : ∃ s', execXtal25Return s = .next s' ∧ Same s s' := by
  refine ⟨_, rfl, ?_⟩; simp [Same]

theorem execXtal32kStop_same (s : State) : ∃ s', execXtal32kStop s = .next s' ∧ Keeps s s' := by
  exact ⟨_, rfl, keeps_ite _ (keeps_trans (same_keeps (onHkp_same _ s)) (tamper_same _ _)) (keeps_refl s)⟩

theorem execVbatLoss_same (s : State) : ∃ s', execVbatLoss s = .next s' ∧ Same s s' := by
  refine ⟨_, rfl, ?_⟩; simp [Same]

theorem execRtcCompensate_same (temp : Int) (s : State) : ∃ s', execRtcCompensate temp s = .next s' ∧ Same s s' := by
  refine ⟨_, rfl, ?_⟩; simp [Same]

@[simp] theorem rtcSet_same (s : State) : Same s (rtcSet s) := by
  simp [Same, rtcSet]

theorem execRtcSet_same (s : State) : ∃ s', execRtcSet s = .next s' ∧ Same s s' := by
  refine ⟨_, rfl, ?_⟩; simp [Same]

theorem execCoreWatchdog_same (s : State) : ∃ s', execCoreWatchdog s = .next s' ∧ Same s s' := by
  refine ⟨_, rfl, ?_⟩; simp [Same]

@[simp] theorem coreRestart_same (s : State) : Same s (coreRestart s) := by
  simp [Same, coreRestart]

@[simp] theorem hkpWarm_same (key : BitVec 16) (s : State) : Same s (hkpWarm key s) := by
  simp [Same, hkpWarm]

theorem execHkpWarmReset_same (key : BitVec 16) (s : State) : ∃ s', execHkpWarmReset key s = .next s' ∧ Same s s' := by
  refine ⟨_, rfl, ?_⟩; simp [Same]

@[simp] theorem hkpCold_same (key : BitVec 16) (s : State) : Same s (hkpCold key s) := by
  simp [Same, hkpCold]

theorem execHkpColdReset_same (key : BitVec 16) (s : State) : ∃ s', execHkpColdReset key s = .next s' ∧ Same s s' := by
  refine ⟨_, rfl, ?_⟩; simp [Same]

@[simp] theorem hkpFnClear_same (key : BitVec 16) (s : State) : Same s (hkpFnClear key s) := by
  simp [Same, hkpFnClear]

theorem execHkpFnClear_same (key : BitVec 16) (s : State) : ∃ s', execHkpFnClear key s = .next s' ∧ Same s s' := by
  refine ⟨_, rfl, ?_⟩; simp [Same]

theorem execTlyClear_same (s : State) : ∃ s', execTlyClear s = .next s' ∧ Same s s' := by
  refine ⟨_, rfl, ?_⟩; simp [Same]

@[simp] theorem tallyShow_same (s : State) : Same s (tallyShow s) := by
  simp [Same, tallyShow]

@[simp] theorem tlyLo_same (i : Fin 192) (s : State) : Same s (tlyLo i s).2 := by
  simp [Same, tlyLo]

@[simp] theorem readAnswer_same (ws : List Word) (ur : Bool) (s : State) : Same s (readAnswer ws ur s) := by
  simp [Same, readAnswer]

theorem execTlyCntLoRead_same (i : Fin 192) (s : State) : ∃ s', execTlyCntLoRead i s = .next s' ∧ Same s s' := by
  refine ⟨_, rfl, ?_⟩; simp [Same]

@[simp] theorem causeRead_same (s : State) : Same s (causeRead s).2 := by
  simp [Same, causeRead]

theorem execResetCauseRead_same (s : State) : ∃ s', execResetCauseRead s = .next s' ∧ Same s s' := by
  refine ⟨_, rfl, ?_⟩; simp [Same]

end Sys2Proof.Machine
end

