-- ==== Sys2Proof/Laws/KeepsRegsSite.lean ====
section
/-! SUPPORT. What the operations of Machine/RegsSite.lean leave alone. -/

namespace Sys2Proof.Machine

@[simp] theorem smpNow_same (off : Nat) (v : Word) (s : State) : Same s (smpNow off v s) := by
  unfold smpNow; (repeat' split) <;> simp [Same]

@[simp] theorem smpCmd_same (v : Word) (s : State) : Same s (smpCmd v s) := by
  simp [Same, smpCmd]

@[simp] theorem alcNow_same (off : Nat) (v : Word) (s : State) : Same s (alcNow off v s) := by
  unfold alcNow; (repeat' split) <;> simp [Same]

@[simp] theorem alcCmd_same (off : Nat) (v : Word) (s : State) : Same s (alcCmd off v s) := by
  unfold alcCmd; (repeat' split) <;> simp [Same]

@[simp] theorem alcOutCmd_same (o : OutIx) (r : Nat) (v : Word) (s : State) : Same s (alcOutCmd o r v s) := by
  unfold alcOutCmd; (repeat' split) <;> simp [Same]

@[simp] theorem onUnit_same (c : ChIx) (f : ChUnit → ChUnit) (s : State) : Same s (onUnit c f s) := by
  simp [Same, onUnit]

@[simp] theorem lpeNow_same (c : ChIx) (r : Nat) (v : Word) (s : State) : Same s (lpeNow c r v s) := by
  unfold lpeNow; (repeat' split) <;> simp [Same]

@[simp] theorem lpeCmd_same (c : ChIx) (v : Word) (s : State) : Same s (lpeCmd c v s) := by
  simp [Same, lpeCmd]

@[simp] theorem onPort_same (c : ChIx) (f : Port → Port) (s : State) : Same s (onPort c f s) := by
  simp [Same, onPort]

@[simp] theorem chpNow_same (c : ChIx) (r : Nat) (v : Word) (s : State) : Same s (chpNow c r v s) := by
  unfold chpNow; (repeat' split) <;> simp [Same]

@[simp] theorem chpCmd_same (c : ChIx) (r : Nat) (v : Word) (s : State) : Same s (chpCmd c r v s) := by
  unfold chpCmd; (repeat' split) <;> simp [Same]

end Sys2Proof.Machine
end

