-- ==== Sys2Proof/Laws/KeepsRegsOutlet.lean ====
section
/-! SUPPORT. What the operations of Machine/RegsOutlet.lean leave alone. -/

namespace Sys2Proof.Machine

@[simp] theorem onOsqR_same (o : OutIx) (f : OsqReg → OsqReg) (s : State) : Same s (onOsqR o f s) := by
  simp [Same, onOsqR]

@[simp] theorem osqNow_same (o : OutIx) (r : Nat) (v : Word) (s : State) : Same s (osqNow o r v s) := by
  unfold osqNow; (repeat' split) <;> simp [Same]

@[simp] theorem osqCmd_same (o : OutIx) (r : Nat) (v : Word) (s : State) : Same s (osqCmd o r v s) := by
  unfold osqCmd; (repeat' split) <;> simp [Same]

@[simp] theorem vlkNow_same (o : OutIx) (r : Nat) (v : Word) (s : State) : Same s (vlkNow o r v s) := by
  unfold vlkNow; (repeat' split) <;> simp [Same]

@[simp] theorem vlkCmd_same (o : OutIx) (r : Nat) (v : Word) (s : State) : Same s (vlkCmd o r v s) := by
  unfold vlkCmd; (repeat' split) <;> simp [Same]

@[simp] theorem onCclR_same (o : OutIx) (f : CclReg → CclReg) (s : State) : Same s (onCclR o f s) := by
  simp [Same, onCclR]

@[simp] theorem cclNow_same (o : OutIx) (r : Nat) (v : Word) (s : State) : Same s (cclNow o r v s) := by
  unfold cclNow; (repeat' split) <;> simp [Same]

@[simp] theorem cclCmd_same (o : OutIx) (v : Word) (s : State) : Same s (cclCmd o v s) := by
  simp [Same, cclCmd]

@[simp] theorem metNow_same (off : Nat) (v : Word) (s : State) : Same s (metNow off v s) := by
  unfold metNow; (repeat' split) <;> simp [Same]

@[simp] theorem metCtrl_same (v : Word) (all : Bool) (s : State) : Same s (metCtrl v all s) := by
  simp [Same, metCtrl]

@[simp] theorem metCmd_same (off : Nat) (v : Word) (s : State) : Same s (metCmd off v s) := by
  unfold metCmd; (repeat' split) <;> simp [Same]

end Sys2Proof.Machine
end

