-- ==== Sys2Proof/Laws/KeepsRegsAccount.lean ====
section
/-! SUPPORT. What the operations of Machine/RegsAccount.lean leave alone. -/

namespace Sys2Proof.Machine

@[simp] theorem bilNow_same (off : Nat) (v : Word) (s : State) : Same s (bilNow off v s) := by
  unfold bilNow; (repeat' split) <;> simp [Same]

@[simp] theorem bilCmd_same (off : Nat) (v : Word) (s : State) : Same s (bilCmd off v s) := by
  unfold bilCmd; (repeat' split) <;> simp [Same]

@[simp] theorem tdmNow_same (off : Nat) (v : Word) (s : State) : Same s (tdmNow off v s) := by
  unfold tdmNow; (repeat' split) <;> simp [Same]

end Sys2Proof.Machine
end

