-- ==== Sys2Proof/Laws/KeepsRegsDie.lean ====
section
/-! SUPPORT. What the operations of Machine/RegsDie.lean leave alone. -/

namespace Sys2Proof.Machine

@[simp] theorem fbkNow_same (off : Nat) (v : Word) (s : State) : SameF s (fbkNow off v s) := by
  unfold fbkNow; (repeat' split) <;> simp [SameF]

@[simp] theorem fbkCmd_same (off : Nat) (v : Word) (s : State) : SameF s (fbkCmd off v s) := by
  unfold fbkCmd; (repeat' split) <;> simp [SameF]

@[simp] theorem auxStatusRead_same (k : SwIx) (s : State) : Same s (auxStatusRead k s).2 := by
  simp [Same, auxStatusRead]

@[simp] theorem auxRead_same (k : SwIx) (r : Nat) (s : State) : Same s (auxRead k r s).2 := by
  unfold auxRead; (repeat' split) <;> simp [Same]

@[simp] theorem auxNow_same (k : SwIx) (r : Nat) (v : Word) (s : State) : Same s (auxNow k r v s) := by
  unfold auxNow; (repeat' split) <;> simp [Same]

@[simp] theorem auxCmd_same (k : SwIx) (v : Word) (s : State) : Same s (auxCmd k v s) := by
  unfold auxCmd; (repeat' split) <;> simp [Same]

@[simp] theorem canNow_same (k : CanIx) (r : Nat) (v : Word) (s : State) : Same s (canNow k r v s) := by
  unfold canNow; (repeat' split) <;> simp [Same]

@[simp] theorem canCmd_same (k : CanIx) (r : Nat) (v : Word) (win : List Byte) (s : State) : Same s (canCmd k r v win s) := by
  unfold canCmd; (repeat' split) <;> simp [Same]

theorem hwdNow_same (off : Nat) (v : Word) (s : State) : Keeps s (hwdNow off v s) := by
  unfold hwdNow; split
  · refine keeps_trans (t := if v.getLsbD 0 then onHwd (fun h => { h with tamperLock := true }) s else s)
      (keeps_ite _ (same_keeps (by simp [Same])) (keeps_refl s)) ?_
    exact keeps_ite _ (lifecycleLock_same _) (keeps_refl _)
  all_goals exact same_keeps (by (repeat' split) <;> simp [Same])

@[simp] theorem tamperCauseRc_same (s : State) : Same s (tamperCauseRc s) := by
  simp [Same, tamperCauseRc]

end Sys2Proof.Machine
end

