-- ==== Sys2Proof/Laws/KeepsRegsCore.lean ====
section
/-! SUPPORT. What the operations of Machine/RegsCore.lean leave alone. -/

namespace Sys2Proof.Machine

@[simp] theorem fwuNow_same (off : Nat) (v : Word) (s : State) : Same s (fwuNow off v s) := by
  unfold fwuNow; (repeat' split) <;> simp [Same]

@[simp] theorem fwuCmd_same (off : Nat) (v : Word) (s : State) : Same s (fwuCmd off v s) := by
  unfold fwuCmd; (repeat' split) <;> simp [Same]

@[simp] theorem lndNow_same (off : Nat) (v : Word) (s : State) : Same s (lndNow off v s) := by
  unfold lndNow; (repeat' split) <;> simp [Same]

@[simp] theorem lndCmd_same (v : Word) (s : State) : Same s (lndCmd v s) := by
  simp [Same, lndCmd]

@[simp] theorem hkpNow_same (off : Nat) (v : Word) (s : State) : Same s (hkpNow off v s) := by
  unfold hkpNow; (repeat' split) <;> simp [Same]

@[simp] theorem tlyRead_same (off : Nat) (s : State) : Same s (tlyRead off s).2 := by
  unfold tlyRead; (repeat' split) <;> simp [Same]

end Sys2Proof.Machine
end

