-- ==== Sys2Proof/Laws/KeepsHost.lean ====
section
/-! SUPPORT. What the operations of Machine/Host.lean leave alone. -/

namespace Sys2Proof.Machine

@[simp] theorem onHst_same (f : Hst → Hst) (s : State) : Same s (onHst f s) := by
  simp [Same, onHst]

@[simp] theorem hstEvent_same (b data : Nat) (s : State) : Same s (hstEvent b data s) := by
  simp [Same, hstEvent]

@[simp] theorem intEval_same (s : State) : Same s (intEval s) := by
  simp [Same, intEval]

@[simp] theorem vecAck_same (val : Word) (s : State) : Same s (vecAck val s) := by
  simp [Same, vecAck]

theorem execVectorAck_same (val : Word) (s : State) : ∃ s', execVectorAck val s = .next s' ∧ Same s s' := by
  refine ⟨_, rfl, ?_⟩; simp [Same]

@[simp] theorem maskClear_same (vec : Option (Fin 32)) (s : State) : Same s (maskClear vec s) := by
  simp [Same, maskClear]

theorem execMsixMaskClear_same (vec : Option (Fin 32)) (s : State) : ∃ s', execMsixMaskClear vec s = .next s' ∧ Same s s' := by
  refine ⟨_, rfl, ?_⟩; simp [Same]

@[simp] theorem hstNow_same (off : Nat) (v : Word) (s : State) : Same s (hstNow off v s) := by
  unfold hstNow; (repeat' split) <;> simp [Same]

@[simp] theorem msixNow_same (off : Nat) (v : Word) (s : State) : Same s (msixNow off v s) := by
  exact withFin_same _ _ s fun _ => onHst_same _ s

@[simp] theorem blockRead_same (b r : Nat) (clr : Bool) (s : State) : Same s (blockRead b r clr s).2 := by
  unfold blockRead; (repeat' split) <;> simp [Same]

theorem blockNow_same (b r : Nat) (v : Word) (s : State) : Keeps s (blockNow b r v s) := by
  unfold blockNow; split
  · exact same_keeps (hstNow_same r v s)
  · exact same_keeps (smpNow_same r v s)
  · exact same_keeps (alcNow_same r v s)
  · exact same_keeps (withFin_same _ _ s fun k => lpeNow_same k _ v s)
  · exact same_keeps (withFin_same _ _ s fun k => chpNow_same k _ v s)
  · exact same_keeps (withFin_same _ _ s fun k => osqNow_same k _ v s)
  · exact same_keeps (withFin_same _ _ s fun k => vlkNow_same k _ v s)
  · exact same_keeps (withFin_same _ _ s fun k => cclNow_same k _ v s)
  · exact same_keeps (metNow_same r v s)
  · exact same_keeps (bilNow_same r v s)
  · exact same_keeps (tdmNow_same r v s)
  · exact sameF_keeps (fbkNow_same r v s)
  · exact same_keeps (withFin_same _ _ s fun k => auxNow_same k _ v s)
  · exact same_keeps (withFin_same _ _ s fun k => canNow_same k _ v s)
  · exact hwdNow_same r v s
  · exact same_keeps (fwuNow_same r v s)
  · exact same_keeps (lndNow_same r v s)
  · exact same_keeps (hkpNow_same r v s)
  · exact keeps_refl s

@[simp] theorem blockCmd_same (b r : Nat) (v : Word) (win : List Byte) (s : State) : SameF s (blockCmd b r v win s) := by
  have W : ∀ {t : State}, Same s t → SameF s t := same_sameF
  unfold blockCmd; split
  · exact W (smpCmd_same v s)
  · split
    · exact W (alcCmd_same r v s)
    · exact W (withFin_same _ _ s fun o => alcOutCmd_same o _ v s)
  · exact W (withFin_same _ _ s fun o => lpeCmd_same o v s)
  · exact W (withFin_same _ _ s fun o => chpCmd_same o _ v s)
  · exact W (withFin_same _ _ s fun o => osqCmd_same o _ v s)
  · exact W (withFin_same _ _ s fun o => vlkCmd_same o _ v s)
  · exact W (withFin_same _ _ s fun o => cclCmd_same o v s)
  · split
    · exact W (metCtrl_same _ _ s)
    · exact W (metCmd_same r v s)
  · exact W (bilCmd_same r v s)
  · exact fbkCmd_same r v s
  · exact W (withFin_same _ _ s fun o => auxCmd_same o v s)
  · exact W (withFin_same _ _ s fun o => canCmd_same o _ v win s)
  · exact W (fwuCmd_same r v s)
  · exact W (lndCmd_same v s)
  · exact W (rtcSet_same s)
  · exact sameF_refl s

@[simp] theorem hostCmd_same (off : Nat) (v : Word) (win : List Byte) (s : State) : SameF s (hostCmd off v win s) := by
  unfold hostCmd; dsimp only; (repeat' split) <;> simp [SameF]

@[simp] theorem localCmd_same (off : Nat) (v : Word) (s : State) : Same s (localCmd off v s) := by
  simp [Same, localCmd]

@[simp] theorem accessError_same (bar2 : Bool) (off : Nat) (s : State) : Same s (accessError bar2 off s) := by
  simp [Same, accessError]

@[simp] theorem unmapped_same (off : Nat) (s : State) : Same s (unmapped off s) := by
  simp [Same, unmapped]

@[simp] theorem ignoreCmd_same (off : Nat) (s : State) : Same s (ignoreCmd off s) := by
  simp [Same, ignoreCmd]

@[simp] theorem captureCmd_same (off : Nat) (v : Word) (s : State) : Same s (captureCmd off v s) := by
  unfold captureCmd; (repeat' split) <;> simp [Same]

@[simp] theorem takeHostCmd_same (off : Nat) (v : Word) (s : State) : Same s (takeHostCmd off v s) := by
  simp [Same, takeHostCmd]

theorem regWrite_same (off : Nat) (v : Word) (s : State) : Keeps s (regWrite off v s) := by
  unfold regWrite; dsimp only; split
  · exact same_keeps (msixNow_same off v s)
  · split
    · exact keeps_refl s
    · split
      · refine keeps_trans (blockNow_same _ _ v s) (keeps_ite _ (same_keeps ?_) (keeps_refl _))
        exact takeHostCmd_same off v _
      · exact same_keeps (unmapped_same off s)

theorem bar0Write_same (off : Nat) (v : Word) (be : BitVec 4) (s : State) : Keeps s (bar0Write off v be s) := by
  unfold bar0Write; exact keeps_ite _ (same_keeps (accessError_same _ _ _)) (regWrite_same off v s)

theorem execRegisterWrite_same (off : BitVec 21) (val : Word) (lanes : Lanes) (s : State) : ∃ s', execRegisterWrite off val lanes s = .next s' ∧ Keeps s s' := by
  refine ⟨_, rfl, keeps_ite _ (keeps_trans (same_keeps (intEval_same s)) (keeps_trans ?_ (same_keeps (intEval_same _)))) (keeps_refl s)⟩
  split
  · exact same_keeps (accessError_same _ _ _)
  · exact bar0Write_same _ val lanes.be _

theorem execQspiDisable_same (s : State) : ∃ s', execQspiDisable s = .next s' ∧ Same s s' := by
  refine ⟨_, rfl, ?_⟩; simp [Same]

@[simp] theorem regRead_same (off : Nat) (clr : Bool) (s : State) : Same s (regRead off clr s).2.2 := by
  unfold regRead; (repeat' split) <;> simp [Same]

@[simp] theorem bar0Read_same (off len : Nat) (be : BitVec 4) (s : State) : Same s (bar0Read off len be s) := by
  simp [Same, bar0Read]

@[simp] theorem bar2Read_same (off len : Nat) (s : State) : Same s (bar2Read off len s) := by
  simp [Same, bar2Read]

theorem execHostRead_same (bar : Bar) (off : BitVec 26) (len : Nat) (be : BitVec 4) (s : State) : ∃ s', execHostRead bar off len be s = .next s' ∧ Same s s' := by
  cases bar
  · refine ⟨_, rfl, ?_⟩
    split
    · exact same_trans (intEval_same s) (same_trans (bar0Read_same _ len be _) (intEval_same _))
    · exact same_refl s
  · refine ⟨_, rfl, ?_⟩
    split
    · exact same_trans (intEval_same s) (same_trans (bar2Read_same _ len _) (intEval_same _))
    · exact same_refl s

@[simp] theorem qspiCount_same (s : State) : Same s (qspiCount s) := by
  simp [Same, qspiCount]

@[simp] theorem qspiError_same (framing : Bool) (s : State) : Same s (qspiError framing s) := by
  simp [Same, qspiError]

@[simp] theorem qspiRead_same (bar : Bar) (off len : Nat) (ready : Bool) (s : State) : Same s (qspiRead bar off len ready s) := by
  unfold qspiRead; (repeat' split) <;> simp [Same]

theorem execQspiRead_same (bar : Bar) (off : BitVec 26) (len : Nat) (ready : Bool) (s : State) : ∃ s', execQspiRead bar off len ready s = .next s' ∧ Same s s' := by
  refine ⟨_, rfl, ?_⟩; simp [Same]

theorem qspiPut_same (bar : Bar) (off : Nat) (ws : List Word) (s : State) : Keeps s (qspiPut bar off ws s) := by
  rcases bar with _ | _
  · rcases ws with _ | ⟨w, _ | ⟨w', ws⟩⟩
    · exact keeps_refl s
    · exact bar0Write_same off w 0xF s
    · exact same_keeps (accessError_same false off s)
  · exact sameW_keeps (bar2Write_same off (bytesOf (ws.take 64)) s)

theorem qspiWrite_same (bar : Bar) (off : Nat) (ws : List Word) (s : State) : Keeps s (qspiWrite bar off ws s) := by
  exact keeps_trans (same_keeps (qspiCount_same s)) (keeps_trans (qspiPut_same bar off ws _) (same_keeps (onHst_same _ _)))

@[simp] theorem qspiCut_same (s : State) : Same s (qspiCut s) := by
  simp [Same, qspiCut]

theorem execQspiWrite_same (bar : Bar) (off : BitVec 26) (data : QspiData) (s : State) : ∃ s', execQspiWrite bar off data s = .next s' ∧ Keeps s s' := by
  refine ⟨_, rfl, keeps_ite _ (keeps_trans (same_keeps (intEval_same s)) (keeps_trans ?_ (same_keeps (intEval_same _)))) (keeps_refl s)⟩
  split
  · exact qspiWrite_same _ _ _ _
  · exact same_keeps (qspiCut_same _)

theorem execQspiStatus_same (s : State) : ∃ s', execQspiStatus s = .next s' ∧ Same s s' := by
  refine ⟨_, rfl, ?_⟩; simp [Same]

@[simp] theorem hostReset_same (kind : HostResetKind) (s : State) : Same s (hostReset kind s) := by
  simp [Same, hostReset]

theorem execHostIslandReset_same (kind : HostResetKind) (s : State) : ∃ s', execHostIslandReset kind s = .next s' ∧ Same s s' := by
  refine ⟨_, rfl, ?_⟩; simp [Same]

@[simp] theorem hostLinkUp_same (gen2 : Bool) (s : State) : Same s (hostLinkUp gen2 s) := by
  simp [Same, hostLinkUp]

theorem execHostLinkUp_same (gen2 : Bool) (s : State) : ∃ s', execHostLinkUp gen2 s = .next s' ∧ Same s s' := by
  refine ⟨_, rfl, ?_⟩; simp [Same]

theorem execServiceIslandReset_same (s : State) : ∃ s', execServiceIslandReset s = .next s' ∧ Same s s' := by
  refine ⟨_, rfl, ?_⟩; simp [Same]

end Sys2Proof.Machine
end

