-- ==== Sys2Proof/Laws/KeepsFrame.lean ====
section
/-! SUPPORT. What the operations of Machine/Frame.lean leave alone. -/

namespace Sys2Proof.Machine

@[simp] theorem winnerStep_same (s : State) (c : ChIx) : Same s (winnerStep s c) := by
  unfold winnerStep; dsimp only; (repeat' split) <;> simp [Same]

@[simp] theorem winners_same (s : State) : Same s (winners s) := by
  simp [Same, winners]

@[simp] theorem onRgn_same (r : RgnIx) (f : Region → Region) (s : State) : Same s (onRgn r f s) := by
  simp [Same, onRgn]

@[simp] theorem toSpare_same (k : CluIx) (q : Fin 4) (s : State) : Same s (toSpare k q s) := by
  simp [Same, toSpare]

@[simp] theorem pipeOut_same (s : State) (x : RgnIx × Fin 4) : Same s (pipeOut s x) := by
  unfold pipeOut; dsimp only; (repeat' split) <;> simp [Same]

@[simp] theorem pipesOut_same (s : State) : Same s (pipesOut s) := by
  simp [Same, pipesOut]

theorem execPipelineSelfTestFail_same (r : RgnIx) (p : Fin 4) (s : State) : ∃ s', execPipelineSelfTestFail r p s = .next s' ∧ Same s s' := by
  refine ⟨_, rfl, ?_⟩; simp [Same]

@[simp] theorem siteStart_same (s : State) : Same s (siteStart s) := by
  simp [Same, siteStart]

@[simp] theorem linkTakeover_same (s : State) (o : OutIx) : Same s (linkTakeover s o) := by
  simp [Same, linkTakeover]

@[simp] theorem roleOut_same (was : TSt) (s : State) : SameW s (roleOut was s) := by
  refine ⟨?_, ?_, ?_, ?_, ?_, fun h => ?_⟩ <;> (unfold roleOut; (repeat' split) <;> simp [*])

@[simp] theorem roleIn_same (was : TSt) (s : State) : Same s (roleIn was s) := by
  simp [Same, roleIn]

@[simp] theorem roleStep_same (s : State) : SameW s (roleStep s) := by
  refine ⟨?_, ?_, ?_, ?_, ?_, fun h => ?_⟩ <;> (simp only [roleStep]; (repeat' split) <;> simp [*])

theorem openRole_same (s : State) : SameW { s with fn := nextFn s } (openRole s) := by
  have h := pipesOut_same s
  unfold openRole; dsimp only
  refine sameW_trans (same_sameW (t := { pipesOut s with fn := nextFn s }) ⟨h.1, h.2.1, h.2.2.1, rfl, h.2.2.2.2.1, h.2.2.2.2.2⟩) ?_
  refine sameW_trans (roleStep_same _) (same_sameW (same_trans ?_ (coreRestart_same _)))
  split
  · exact same_trans (onTdm_same _ _) (siteStart_same _)
  · exact same_refl _

@[simp] theorem rtcTick_same (s : State) : Same s (rtcTick s) := by
  simp [Same, rtcTick]

@[simp] theorem openHealth_same (s : State) : Same s (openHealth s) := by
  simp [Same, openHealth]

@[simp] theorem openMarks_same (s : State) : Same s (openMarks s) := by
  simp [Same, openMarks]

@[simp] theorem voteRest_same (s : State) : Same s (voteRest s) := by
  simp [Same, voteRest]

@[simp] theorem pilotRest_same (s : State) : Same s (pilotRest s) := by
  simp [Same, pilotRest]

@[simp] theorem openHost_same (s : State) : Same s (openHost s) := by
  simp [Same, openHost]

@[simp] theorem openAvail_same (s : State) : Same s (openAvail s) := by
  simp [Same, openAvail]

@[simp] theorem takeWindow_same (a n : Nat) (s : State) : Same s (takeWindow a n s).2 := by
  unfold takeWindow; dsimp only; (repeat' split) <;> simp [Same]

@[simp] theorem fillItem_same (x : List Item × State) (i : Item) : Same x.2 (fillItem x i).2 := by
  obtain ⟨l, s⟩ := x
  have ht := takeWindow_same
  unfold fillItem; dsimp only; split
  · split
    · rename_i k _
      have := ht (canTxBase k) 576 s
      split <;> simp_all [Same]
    · exact same_refl s
  · have := ht stagingBase s.smp.amendLen.toNat s
    split <;> simp_all [Same]
  · exact same_refl s

theorem fillItems_same (l : List Item) (x : List Item × State) : Same x.2 (l.foldl fillItem x).2 := by
  induction l generalizing x with
  | nil => exact same_refl _
  | cons i is ih => exact same_trans (fillItem_same x i) (ih _)

@[simp] theorem deferItems_same (l : List Item) (s : State) : Same s (deferItems l s) := by
  exact same_trans (t := { s with deferred := l }) ⟨rfl, rfl, rfl, rfl, rfl, rfl⟩ (foldl_same _ (fun s i => overrun_same (itemGroup i) s) l _)

@[simp] theorem capture_same (s : State) : Same s (capture s) := by
  unfold capture; dsimp only
  refine same_trans ?_ (show Same _ _ from ⟨rfl, rfl, rfl, rfl, rfl, rfl⟩)
  refine same_trans ?_ (deferItems_same _ _)
  exact same_trans (fillItems_same _ ([], s)) ⟨rfl, rfl, rfl, rfl, rfl, rfl⟩

@[simp] theorem latchInput_same (s : State) : Same s (latchInput s) := by
  simp [Same, latchInput]

@[simp] theorem showLate_same (s : State) : Same s (showLate s) := by
  simp [Same, showLate]

@[simp] theorem takeEffect_same (s : State) : Same s (takeEffect s) := by
  simp [Same, takeEffect]

@[simp] theorem latchItem_same (s : State) (i : Item) : SameW s (latchItem s i) := by
  refine ⟨?_, ?_, ?_, ?_, ?_, fun h => ?_⟩ <;> (unfold latchItem; (repeat' split) <;> simp [*])

@[simp] theorem latchCmd_same (s : State) (i : Item) : SameF s (latchCmd s i) := by
  unfold latchCmd; (repeat' split) <;> simp [SameF]

@[simp] theorem holdTrips_same (s : State) : Same s (holdTrips s) := by
  simp [Same, holdTrips]

@[simp] theorem latchLevels_same (old : Levels) (s : State) : Same s (latchLevels old s) := by
  simp [Same, latchLevels]

@[simp] theorem amendTimed_same (s : State) : Same s (amendTimed s) := by
  simp [Same, amendTimed]

@[simp] theorem localCmds_same (l : InputSet) (s : State) : Same s (localCmds l s) := by
  refine foldl_same _ (fun s i => ?_) _ _
  split <;> simp [Same]

@[simp] theorem applyDue_same (s : State) : SameF s (applyDue s) := by
  simp [SameF, applyDue]

@[simp] theorem latchItems_same (s : State) : SameW s (latchItems s) := by
  unfold latchItems
  exact sameW_trans (same_sameW (onFwu_same _ s)) (foldl_sameW _ latchItem_same _ _)

@[simp] theorem latchCmds_same (s : State) : SameF s (latchCmds s) := by
  exact foldl_sameF _ latchCmd_same _ s

@[simp] theorem openResults_same (s : State) : Same s (openResults s) := by
  simp [Same, openResults]

@[simp] theorem interpret_same (old : Levels) (own : InputSet) (s : State) : SameFW s (interpret old own s) := by
  unfold interpret; dsimp only
  have W : ∀ {t u : State}, Same t u → SameFW t u := fun h => sameW_sameFW (same_sameW h)
  have h1 := sameFW_trans (sameF_sameFW (applyDue_same s)) (W (latchLevels_same old _))
  have h2 := sameFW_trans h1 (W (amendTimed_same _))
  have h3 := sameFW_trans h2 (sameW_sameFW (latchItems_same _))
  have h4 := sameFW_trans h3 (W (openResults_same _))
  have h5 := sameFW_trans h4 (W (localCmds_same own _))
  have h6 := sameFW_trans h5 (sameF_sameFW (latchCmds_same _))
  split
  · exact sameFW_trans h6 (W (hstEvent_same _ _ _))
  · exact h6

@[simp] theorem trackOpen_same (was : LMode) (s : State) (c : ChIx) : Same s (trackOpen was s c) := by
  simp [Same, trackOpen]

@[simp] theorem unitStart_same (s : State) (c : ChIx) : Same s (unitStart s c) := by
  simp [Same, unitStart]

@[simp] theorem busPhase_same (s : State) : Same s (busPhase s) := by
  simp [Same, busPhase]

@[simp] theorem sampleZero_same (s : State) : Same s (sampleZero s) := by
  simp [Same, sampleZero]

@[simp] theorem snapshot_same (s : State) : Same s (snapshot s) := by
  simp [Same, snapshot]

@[simp] theorem unitsStart_same (s : State) : Same s (unitsStart s) := by
  simp [Same, unitsStart]

@[simp] theorem seqStep_same (s : State) : Same s (seqStep s) := by
  simp [Same, seqStep]

@[simp] theorem respStep_same (s : State) : Same s (respStep s) := by
  simp [Same, respStep]

@[simp] theorem compute_same (s : State) : SameW s (compute s) := by
  refine ⟨?_, ?_, ?_, ?_, ?_, fun h => ?_⟩ <;> (unfold compute; (repeat' split) <;> simp [*])

@[simp] theorem putSnap_same (x : Snap) (s : State) : Same s (putSnap x s) := by
  simp [Same, putSnap]

@[simp] theorem rxAgain_same (k : Kept) (s : State) : Same s (rxAgain k s) := by
  simp [Same, rxAgain]

@[simp] theorem frameAgain_same (done : Vector Nat 12) (s : State) : SameW s (frameAgain done s) := by
  refine ⟨?_, ?_, ?_, ?_, ?_, fun h => ?_⟩ <;> (unfold frameAgain; (repeat' split) <;> simp [*])

@[simp] theorem catchUp_same (s : State) : Same s (catchUp s) := by
  unfold catchUp; split
  · exact same_refl s
  · exact same_trans (putSnap_same _ s) (onTdm_same _ _)

theorem execReseedCatchup_same (s : State) : ∃ s', execReseedCatchup s = .next s' ∧ Same s s' := by
  refine ⟨_, rfl, ?_⟩; dsimp only; (repeat' split) <;> first | exact same_refl s | exact catchUp_same s

theorem execJoinComplete_same (s : State) : ∃ s', execJoinComplete s = .next s' ∧ Same s s' := by
  refine ⟨_, rfl, ?_⟩; dsimp only; (repeat' split) <;>
    first | exact same_refl s | exact onTdm_same _ s | exact same_trans (catchUp_same s) (onTdm_same _ _)

@[simp] theorem retainFrame_same (s : State) : Same s (retainFrame s) := by
  unfold retainFrame; dsimp only; (repeat' split) <;> first | exact same_refl s | exact catchUp_same s | exact onTdm_same _ s

@[simp] theorem closeFrame_same (s : State) : SameW s (closeFrame s) := by
  unfold closeFrame
  exact sameW_trans (same_sameW (same_trans (winners_same s) (same_trans (retainFrame_same _) (swapProto_same _))))
    (sameW_trans (same_sameW (tdmEval_same _)) (endFrame_same _))

@[simp] theorem gapTicks_same (s : State) : Same s (gapTicks s) := by
  simp [Same, gapTicks]

theorem openRest_same (s : State) : SameFW s
    (openAvail (openHost (pilotRest (sealReapply (fwuCommitStep (fwuRevertStep (voteRest (gapTicks s)))))))) :=
  sameFW_trans (sameW_sameFW (same_sameW (same_trans (gapTicks_same s) (same_trans (voteRest_same _)
    (same_trans (fwuRevertStep_same _) (fwuCommitStep_same _))))))
    (sameFW_trans (sameF_sameFW (sealReapply_same _)) (sameW_sameFW (same_sameW (same_trans (pilotRest_same _)
      (same_trans (openHost_same _) (openAvail_same _))))))
theorem openBefore_same (s : State) : SameFW { s with fn := nextFn s } (openBefore s) :=
  sameFW_trans (sameW_sameFW (sameW_trans (openRole_same s) (same_sameW (same_trans (rtcTick_same _) (same_trans (openHealth_same _)
    (openMarks_same _)))))) (openRest_same _)

@[simp] theorem openSet_same (s : State) : SameFW s (openSet s) := by
  exact sameFW_trans (sameFW_trans (W (same_trans (latchInput_same s) (same_trans (capture_same _) (takeEffect_same _)))) (interpret_same _ _ _))
    (sameFW_trans (W (same_trans (tdmOpen_same _) (same_trans (snapshot_same _) (same_trans (tdmSend_same _ _ _) (unitsStart_same _)))))
      (sameFW_trans (sameW_sameFW (compute_same _)) (W (intEval_same _))))
where W {t u : State} (h : Same t u) : SameFW t u := sameW_sameFW (same_sameW h)

theorem boundary_same (s : State) : SameFW { s with fn := nextFn (closeFrame s) } (boundary s) := by
  have g := moved_boot _ (sameW_sameFW (closeFrame_same s)) (openBefore_same (closeFrame s))
  have k := sameFW_trans g (openSet_same (openBefore (closeFrame s)))
  unfold boundary; dsimp only
  generalize nextFn (closeFrame s) = n at g k ⊢
  generalize openBefore (closeFrame s) = u at g k ⊢
  generalize openSet u = v at k ⊢
  exact ite_rel _ k g

theorem execFrameBoundary_same (s : State) :
    ∃ s', execFrameBoundary s = .next s' ∧ SameFW { s with fn := s'.fn } s' := by
  have h := moved_fn (boundary_same s)
  unfold execFrameBoundary whenOn
  generalize boundary s = v at h ⊢
  refine ⟨_, rfl, ?_⟩
  split
  · exact h
  · exact sameFW_refl s

@[simp] theorem fwuOutcome_same (s : State) : Same s (fwuOutcome s) := by
  simp [Same, fwuOutcome]

@[simp] theorem heldTrips_same (s : State) : Same s (heldTrips s) := by
  simp [Same, heldTrips]

@[simp] theorem applyHeld_same (s : State) : SameW s (applyHeld s) := by
  unfold applyHeld; dsimp only
  refine sameW_trans ?_ (show SameW _ _ from ⟨rfl, rfl, rfl, rfl, rfl, fun h => h⟩)
  refine sameW_trans ?_ (foldl_sameW _ latchItem_same _ _)
  exact same_sameW (same_trans (heldTrips_same s) (foldl_same _ (fun s o => latchLink_same o s) _ _))

@[simp] theorem resume_same (s : State) : SameW s (resume s) := by
  have h := same_sameW (same_trans (onFwu_same (fun f => { f with window := none }) s) (fwuOutcome_same _))
  unfold resume; dsimp only; split
  · exact h
  · exact sameW_trans h (sameW_trans (applyHeld_same _) (same_sameW (same_trans (seqStep_same _) (respStep_same _))))

theorem execFwuResume_same (s : State) : ∃ s', execFwuResume s = .next s' ∧ SameW s s' := by
  refine ⟨_, rfl, ?_⟩; dsimp only; refine ⟨?_, ?_, ?_, ?_, ?_, fun h => ?_⟩ <;> ((repeat' split) <;> simp [*])

end Sys2Proof.Machine
end

