-- ==== Sys2Proof/Laws/KeepsBoot.lean ====
section
/-! SUPPORT. What the operations of Machine/Boot.lean leave alone. -/

namespace Sys2Proof.Machine

theorem resetBase_same (s : State) : Runs s (resetBase s) := by
  exact ⟨rfl, rfl, rfl, fun h => h, Nat.le_refl _, fun _ => rfl⟩

theorem warmBase_same (s : State) : Runs s (warmBase s) := by
  exact ⟨rfl, rfl, rfl, fun h => h, Nat.le_refl _, fun h => h⟩

theorem rootProvision_same (ok : Bool) (s : State) : Keeps s (rootProvision ok s) := by
  unfold rootProvision; split
  · exact keeps_refl s
  · exact ⟨rfl, rfl, rfl, fun h => h, Nat.le_refl _, fun h => h, rfl⟩

theorem pendingBurn_same (s : State) : Keeps s (pendingBurn s) := by
  unfold pendingBurn; split
  · refine keeps_trans (burnFuse_same s) (keeps_trans (same_keeps (onHwd_keep _ _ fun _ => rfl)) (same_keeps (onBilR_same _ _)))
  · exact keeps_refl s

@[simp] theorem bootImage_same (s : State) : Same s (bootImage s) := by
  unfold bootImage; (repeat' split) <;> simp [Same]

@[simp] theorem bootCommit_same (s : State) : Same s (bootCommit s) := by
  unfold bootCommit; (repeat' split) <;> simp [Same]

@[simp] theorem bootSlots_same (s : State) : Same s (bootSlots s) := by
  simp [Same, bootSlots]

@[simp] theorem pipeAssign_same (pass : BitVec 16) (s : State) : Same s (pipeAssign pass s) := by
  simp [Same, pipeAssign]

@[simp] theorem bootMap_same (failA failB : Option Nat) (s : State) : SameF s (bootMap failA failB s) := by
  simp [SameF, bootMap]

@[simp] theorem bootRtc_same (ms : Nat) (s : State) : Same s (bootRtc ms s) := by
  simp [Same, bootRtc]

@[simp] theorem bootHealth_same (cold : Bool) (ms : Nat) (s : State) : Same s (bootHealth cold ms s) := by
  simp [Same, bootHealth]

@[simp] theorem bootTandem_same (s : State) : Same s (bootTandem s) := by
  simp [Same, bootTandem]

@[simp] theorem ageStart_same (s : State) : Same s (ageStart s) := by
  simp [Same, ageStart]

@[simp] theorem firstBoundary_same (s : State) : SameFW s (firstBoundary s) := by
  exact sameFW_trans (sameW_sameFW (same_sameW (same_trans (same_trans (ageStart_same s) (siteStart_same _)) (firstSets_same _ _)))) (openSet_same _)

theorem bootMapped_same (failA failB : Option Nat) (ms : Nat) (s : State) :
    SameFW s (bootRtc ms (bootMap failA failB (bootSlots (bootImage s)))) :=
  sameFW_trans (sameW_sameFW (same_sameW (same_trans (bootImage_same s) (bootSlots_same _))))
    (sameFW_trans (sameF_sameFW (bootMap_same failA failB _)) (sameW_sameFW (same_sameW (bootRtc_same ms _))))
theorem bootOpen_same (cold : Bool) (ms : Nat) (s : State) : SameFW s (firstBoundary (bootTandem (bootHealth cold ms s))) :=
  sameFW_trans (sameW_sameFW (same_sameW (same_trans (bootHealth_same cold ms s) (bootTandem_same _)))) (firstBoundary_same _)
theorem bootRun_same (cold : Bool) (failA failB : Option Nat) (ms : Nat) (s : State) :
    SameFW { s with fn := (bootRun cold failA failB ms s).fn } (bootRun cold failA failB ms s) :=
  moved_fn (moved_boot _ (bootMapped_same failA failB ms s) (bootOpen_same cold ms _))

theorem bootStart_same (cold : Bool) (failA failB : Option Nat) (ms : Nat) (s : State) :
    Runs s (bootStart cold failA failB ms s) := by
  unfold bootStart; split
  · have h := keeps_runs (sameFW_keeps (bootRun_same cold failA failB ms s))
    exact ⟨h.queue, h.serial, h.order, h.locked, h.tc, h.mem⟩
  · exact keeps_runs (same_keeps (stopAll_same s))

@[simp] theorem coldFbk_same (s : State) : SameF s (coldFbk s) := by
  simp [SameF, coldFbk]

theorem coldStart_same (x : BootFacts) (s : State) : Runs s (coldStart x s) := by
  unfold coldStart; dsimp only
  refine runs_trans ?_ (bootStart_same _ _ _ _ _)
  refine runs_trans ?_ (keeps_runs (same_keeps (pipeAssign_same _ _)))
  refine runs_trans ?_ (keeps_runs (pendingBurn_same _))
  refine runs_trans ?_ (keeps_runs (rootProvision_same _ _))
  refine runs_trans ?_ (keeps_runs (same_keeps (onHkp_same _ _)))
  refine runs_trans ?_ (keeps_runs (same_keeps (onTdm_same _ _)))
  exact runs_trans (resetBase_same s) (keeps_runs (sameF_keeps (coldFbk_same _)))

theorem execColdStart_same (x : BootFacts) (s : State) : ∃ s', execColdStart x s = .next s' ∧ Runs s s' := by
  exact ⟨_, rfl, runs_ite _ (runs_refl s) (coldStart_same x s)⟩

theorem warmReset_same (ms : Nat) (s : State) : Runs s (warmReset ms s) := by
  exact runs_trans (runs_trans (warmBase_same s) (keeps_runs (pendingBurn_same _))) (bootStart_same _ _ _ _ _)

theorem execWarmReset_same (ms : Nat) (s : State) : ∃ s', execWarmReset ms s = .next s' ∧ Runs s s' := by
  exact ⟨_, rfl, runs_ite _ (runs_refl s) (warmReset_same ms s)⟩

end Sys2Proof.Machine
end

