-- ==== Sys2Proof/Laws/Guard.lean ====
section
/-! SUPPORT. The safe outputs of the firebreak (R306, R307, R321): an evaluation leaves them safe, and no operation
breaks them. -/

namespace Sys2Proof.Machine

theorem guards_refl (s : State) : Guards s s := fun h => h
theorem guards_trans {s t u : State} (h : Guards s t) (k : Guards t u) : Guards s u := fun w => k (h w)
theorem same_guards {s t : State} (h : Same s t) : Guards s t := by
  obtain ⟨_, _, _, _, _, h⟩ := h
  unfold Guards SafeOut; rw [h]; exact id
theorem sameW_guards {s t : State} (h : SameW s t) : Guards s t := by
  obtain ⟨_, _, _, _, h, _⟩ := h
  unfold Guards SafeOut; rw [h]; exact id
theorem guards_ite {s t u : State} (c : Prop) [Decidable c] (h : Guards s t) (k : Guards s u) : Guards s (if c then t else u) := by
  split <;> assumption
theorem guards_foldl {α : Type} (f : State → α → State) (h : ∀ s x, Guards s (f s x)) (l : List α) (s : State) :
    Guards s (l.foldl f s) := foldl_rel Guards guards_refl guards_trans f h l s
theorem guards_of_fbk {s t : State} (h1 : t.fbk.st = s.fbk.st) (h2 : t.fbk.vaux = s.fbk.vaux) (h3 : t.fbk.ls = s.fbk.ls)
    (h4 : t.fbk.stop = s.fbk.stop) : Guards s t := by
  unfold Guards SafeOut; rw [h1, h2, h3, h4]; exact id

/-! ### The evaluation -/

theorem lsWant_off (s : State) (h : ¬ (s.fbk.st = .run ∧ s.fbk.vaux = true)) : lsWant s = 0 := by
  have hk : ∀ i, lsAsked s i = false := by
    intro i
    unfold lsAsked lsOutlet
    by_cases h1 : s.fbk.st = .run <;> by_cases h2 : s.fbk.vaux = true <;> simp_all <;> split <;> simp_all
  simp [lsWant, hk]

theorem stopWant_off (f : Fbk) (h : ¬ (f.st = .run ∧ f.vaux = true)) : stopWant f = 0xFFF := by
  have hk : ∀ c, stopOf f c = true := by
    intro c
    unfold stopOf
    by_cases h1 : f.st = .run <;> by_cases h2 : f.vaux = true <;> simp_all
  simp only [stopWant, hk, cond_true]
  decide

theorem lsTrip_fbk (w : BitVec 40) (l : List OutIx) (s : State) :
    (l.foldl (lsTrip w) s).fbk.st = s.fbk.st ∧ (l.foldl (lsTrip w) s).fbk.vaux = s.fbk.vaux := by
  induction l generalizing s with
  | nil => exact ⟨rfl, rfl⟩
  | cons o l ih =>
    have h := ih (lsTrip w s o)
    rw [List.foldl_cons, h.1, h.2]
    unfold lsTrip; split <;> simp

/-- An evaluation leaves safe outputs, whatever it found. -/
theorem fbkOutputs_safe (s : State) : SafeOut (fbkOutputs s) := by
  have ht := lsTrip_fbk (lsWant s) (List.finRange 32) s
  have hc := (fbkCopy_same (lsDrive (lsWant s) (onFbk (fun f => { f with ls := lsWant s, stop := stopWant f })
    ((List.finRange 32).foldl (lsTrip (lsWant s)) s)))).2.2.2.2.2
  have hd := (lsDrive_same (lsWant s) (onFbk (fun f => { f with ls := lsWant s, stop := stopWant f })
    ((List.finRange 32).foldl (lsTrip (lsWant s)) s))).2.2.2.2.2
  unfold SafeOut fbkOutputs; dsimp only
  rw [hc, hd]
  simp only [onFbk_same]
  by_cases h : s.fbk.st = .run ∧ s.fbk.vaux = true
  · left; rw [ht.1, ht.2]; exact h
  · right
    refine ⟨lsWant_off s h, stopWant_off _ ?_⟩
    rw [ht.1, ht.2]; exact h

theorem fbkEval_safe (adv : Bool) (s : State) : SafeOut (fbkEval adv s) := by
  unfold fbkEval; split <;> exact fbkOutputs_safe _

/-! ### The operations that touch the firebreak -/

theorem fbkLogSel_guards (v : Word) (s : State) : Guards s (fbkLogSel v s) := guards_of_fbk rfl rfl rfl rfl
theorem fbkNow_guards (off : Nat) (v : Word) (s : State) : Guards s (fbkNow off v s) := by
  unfold fbkNow; split
  · exact fbkLogSel_guards v s
  · exact guards_of_fbk rfl rfl rfl rfl
  · exact guards_of_fbk rfl rfl rfl rfl
  · exact guards_refl s
theorem fbkCmd_guards (off : Nat) (v : Word) (s : State) : Guards s (fbkCmd off v s) := fun _ => fbkEval_safe _ _
theorem blockCmd_guards (b r : Nat) (v : Word) (win : List Byte) (s : State) : Guards s (blockCmd b r v win s) := by
  have W {n : Nat} (i : Nat) (g : Fin n → State) (h : ∀ k, Same s (g k)) : Guards s (withFin n i g s) :=
    same_guards (withFin_same i g s h)
  unfold blockCmd; split
  · exact same_guards (smpCmd_same v s)
  · split
    · exact same_guards (alcCmd_same r v s)
    · exact W _ _ fun o => alcOutCmd_same o _ v s
  · exact W _ _ fun o => lpeCmd_same o v s
  · exact W _ _ fun o => chpCmd_same o _ v s
  · exact W _ _ fun o => osqCmd_same o _ v s
  · exact W _ _ fun o => vlkCmd_same o _ v s
  · exact W _ _ fun o => cclCmd_same o v s
  · split
    · exact same_guards (metCtrl_same _ _ s)
    · exact same_guards (metCmd_same r v s)
  · exact same_guards (bilCmd_same r v s)
  · exact fbkCmd_guards r v s
  · exact W _ _ fun o => auxCmd_same o v s
  · exact W _ _ fun o => canCmd_same o _ v win s
  · exact same_guards (fwuCmd_same r v s)
  · exact same_guards (lndCmd_same v s)
  · exact same_guards (rtcSet_same s)
  · exact guards_refl s
theorem hostCmd_guards (off : Nat) (v : Word) (win : List Byte) (s : State) : Guards s (hostCmd off v win s) := by
  unfold hostCmd; dsimp only; split
  · exact guards_refl s
  · exact guards_ite _ (same_guards (refuse_same _ s)) (blockCmd_guards _ _ v win s)

/-- The tamper path leaves the firebreak alone. -/
theorem burnFuse_fbk (s : State) : (burnFuse s).fbk = s.fbk := rfl
theorem lifecycleLock_fbk (s : State) : (lifecycleLock s).fbk = s.fbk := by
  unfold lifecycleLock; split <;> rfl
theorem zeroize_fbk (src st : Nat) (s : State) : (zeroize src st s).fbk = s.fbk := by
  simp [zeroize, burnFuse_fbk]
theorem tamper_fbk (src : TamperSrc) (s : State) : (tamper src s).fbk = s.fbk := by
  unfold tamper; dsimp only
  simp only [(tamperFault_same _).2.2.2.2.2, (hwdEvent_same _ _ _).2.2.2.2.2, (hwdInt_same _ _).2.2.2.2.2]
  split
  · rw [zeroize_fbk, (tamperNote_same _ s).2.2.2.2.2]
  · rw [(tamperAsleep_same _ _).2.2.2.2.2, (tamperNote_same _ s).2.2.2.2.2]
theorem guards_of_eq {s t : State} (h : t.fbk = s.fbk) : Guards s t := guards_of_fbk (by rw [h]) (by rw [h]) (by rw [h]) (by rw [h])

theorem hwdNow_guards (off : Nat) (v : Word) (s : State) : Guards s (hwdNow off v s) := by
  refine guards_of_eq ?_
  unfold hwdNow; split
  · dsimp only; split
    · rw [lifecycleLock_fbk]; split <;> rfl
    · split <;> rfl
  all_goals simp
theorem blockNow_guards (b r : Nat) (v : Word) (s : State) : Guards s (blockNow b r v s) := by
  have W {n : Nat} (i : Nat) (g : Fin n → State) (h : ∀ k, Same s (g k)) : Guards s (withFin n i g s) :=
    same_guards (withFin_same i g s h)
  unfold blockNow; split
  · exact same_guards (hstNow_same r v s)
  · exact same_guards (smpNow_same r v s)
  · exact same_guards (alcNow_same r v s)
  · exact W _ _ fun k => lpeNow_same k _ v s
  · exact W _ _ fun k => chpNow_same k _ v s
  · exact W _ _ fun k => osqNow_same k _ v s
  · exact W _ _ fun k => vlkNow_same k _ v s
  · exact W _ _ fun k => cclNow_same k _ v s
  · exact same_guards (metNow_same r v s)
  · exact same_guards (bilNow_same r v s)
  · exact same_guards (tdmNow_same r v s)
  · exact fbkNow_guards r v s
  · exact W _ _ fun k => auxNow_same k _ v s
  · exact W _ _ fun k => canNow_same k _ v s
  · exact hwdNow_guards r v s
  · exact same_guards (fwuNow_same r v s)
  · exact same_guards (lndNow_same r v s)
  · exact same_guards (hkpNow_same r v s)
  · exact guards_refl s
theorem regWrite_guards (off : Nat) (v : Word) (s : State) : Guards s (regWrite off v s) := by
  unfold regWrite; dsimp only; split
  · exact same_guards (msixNow_same off v s)
  · split
    · exact guards_refl s
    · split
      · exact guards_trans (blockNow_guards _ _ v s) (guards_ite _ (same_guards (takeHostCmd_same off v _)) (guards_refl _))
      · exact same_guards (unmapped_same off s)
theorem bar0Write_guards (off : Nat) (v : Word) (be : BitVec 4) (s : State) : Guards s (bar0Write off v be s) := by
  unfold bar0Write; exact guards_ite _ (same_guards (accessError_same _ _ _)) (regWrite_guards off v s)
theorem qspiPut_guards (bar : Bar) (off : Nat) (ws : List Word) (s : State) : Guards s (qspiPut bar off ws s) := by
  rcases bar with _ | _
  · rcases ws with _ | ⟨w, _ | ⟨w', ws⟩⟩
    · exact guards_refl s
    · exact bar0Write_guards off w 0xF s
    · exact same_guards (accessError_same false off s)
  · exact sameW_guards (bar2Write_same off (bytesOf (ws.take 64)) s)
theorem amendSend_guards (rs : List Rec) (s : State) : Guards s (amendSend rs s) :=
  guards_ite _ (fun _ => fbkEval_safe _ _) (guards_refl s)
theorem amendNow_guards (s : State) : Guards s (amendNow s) := by
  unfold amendNow; dsimp only; split
  · exact same_guards (amendReject_same _ s)
  · refine guards_ite _ (same_guards (amendReject_same _ s)) (guards_ite _ (same_guards (amendReject_same _ s)) ?_)
    exact guards_trans (guards_trans (same_guards (amendTake_same _ _ _ _ s)) (amendSend_guards _ _)) (same_guards (smpEvent_same _ _ _))
theorem applyDue_guards (s : State) : Guards s (applyDue s) := guards_ite _ (amendNow_guards s) (guards_refl s)
theorem latchCmd_guards (s : State) (i : Item) : Guards s (latchCmd s i) := by
  unfold latchCmd; split
  · exact hostCmd_guards _ _ _ s
  · exact same_guards (amendImage_same _ s)
  · exact guards_refl s
theorem latchCmds_guards (s : State) : Guards s (latchCmds s) := guards_foldl _ latchCmd_guards _ s
theorem interpret_guards (old : Levels) (own : InputSet) (s : State) : Guards s (interpret old own s) := by
  have h1 := guards_trans (applyDue_guards s) (same_guards (latchLevels_same old _))
  have h2 := guards_trans h1 (same_guards (amendTimed_same _))
  have h3 := guards_trans h2 (sameW_guards (latchItems_same _))
  have h4 := guards_trans h3 (same_guards (same_trans (openResults_same _) (localCmds_same own _)))
  have h5 := guards_trans h4 (latchCmds_guards _)
  exact guards_trans h5 (guards_ite _ (same_guards (hstEvent_same _ _ _)) (guards_refl _))
theorem openSet_guards (s : State) : Guards s (openSet s) := by
  have h1 := same_guards (same_trans (latchInput_same s) (same_trans (capture_same _) (takeEffect_same _)))
  have h2 := guards_trans h1 (interpret_guards s.lat.levels s.cap _)
  exact guards_trans h2 (guards_trans (same_guards (same_trans (tdmOpen_same _) (same_trans (snapshot_same _)
    (same_trans (tdmSend_same _ _ _) (unitsStart_same _)))))
    (guards_trans (sameW_guards (compute_same _)) (same_guards (intEval_same _))))
theorem moved_guards {s t : State} {n : Nat} (h : SameW { s with fn := n } t) : Guards s t := sameW_guards (s := { s with fn := n }) h
theorem sealReapply_guards (s : State) : Guards s (sealReapply s) := by
  unfold sealReapply; dsimp only
  refine guards_ite _ (guards_refl s) (guards_ite _ (guards_of_eq rfl) ?_)
  exact guards_trans (fun _ => fbkEval_safe _ _) (same_guards (smpEvent_same _ _ _))
theorem openRest_guards (s : State) : Guards s
    (openAvail (openHost (pilotRest (sealReapply (fwuCommitStep (fwuRevertStep (voteRest (gapTicks s)))))))) :=
  guards_trans (same_guards (same_trans (gapTicks_same s) (same_trans (voteRest_same _) (same_trans (fwuRevertStep_same _)
    (fwuCommitStep_same _)))))
    (guards_trans (sealReapply_guards _) (same_guards (same_trans (pilotRest_same _)
      (same_trans (openHost_same _) (openAvail_same _)))))
theorem openBefore_guards (s : State) : Guards s (openBefore s) :=
  guards_trans (moved_guards (n := nextFn s) (sameW_trans (openRole_same s) (same_sameW (same_trans (rtcTick_same _)
    (same_trans (openHealth_same _) (openMarks_same _)))))) (openRest_guards _)
theorem boundary_guards (s : State) : Guards s (boundary s) := by
  have g := guards_trans (sameW_guards (closeFrame_same s)) (openBefore_guards (closeFrame s))
  have k := openSet_guards (openBefore (closeFrame s))
  unfold boundary; dsimp only
  generalize openBefore (closeFrame s) = u at g k ⊢
  generalize openSet u = v at k ⊢
  exact guards_trans g (guards_ite _ k (guards_refl _))
theorem bootMap_guards (failA failB : Option Nat) (s : State) : Guards s (bootMap failA failB s) :=
  fun _ => same_guards (brakeLevel_same _) (fbkEval_safe _ _)
theorem firstBoundary_guards (s : State) : Guards s (firstBoundary s) := by
  have h := same_guards (same_trans (ageStart_same s) (siteStart_same _))
  unfold firstBoundary; dsimp only
  generalize siteStart (ageStart s) = u at h ⊢
  refine guards_trans h (guards_trans ?_ (openSet_guards _))
  exact id
theorem bootOpen_guards (cold : Bool) (ms : Nat) (s : State) : Guards s (firstBoundary (bootTandem (bootHealth cold ms s))) :=
  guards_trans (same_guards (same_trans (bootHealth_same cold ms s) (bootTandem_same _))) (firstBoundary_guards _)
theorem bootLoad_guards (failA failB : Option Nat) (ms : Nat) (s : State) :
    Guards s (bootRtc ms (bootMap failA failB (bootSlots (bootImage s)))) :=
  guards_trans (guards_trans (same_guards (same_trans (bootImage_same s) (bootSlots_same _))) (bootMap_guards failA failB _))
    (same_guards (bootRtc_same ms _))
theorem bootStart_guards (cold : Bool) (failA failB : Option Nat) (ms : Nat) (s : State) :
    Guards s (bootStart cold failA failB ms s) := by
  refine guards_ite _ ?_ (same_guards (stopAll_same s))
  unfold bootRun; dsimp only
  have h := bootLoad_guards failA failB ms s
  generalize bootRtc ms (bootMap failA failB (bootSlots (bootImage s))) = u at h ⊢
  have k := bootOpen_guards cold ms { u with fn := fnFirst u }
  generalize firstBoundary (bootTandem (bootHealth cold ms { u with fn := fnFirst u })) = v at k ⊢
  exact guards_trans h k
theorem coldFbk_guards (s : State) : Guards s (coldFbk s) := by
  unfold coldFbk; split
  · rename_i h
    intro w
    rcases w with w | w
    · rw [h] at w; simp at w
    · right; exact ⟨w.1, rfl⟩
  · exact fun w => w

end Sys2Proof.Machine
end

