-- ==== Sys2Proof/Laws/Eval.lean ====
section
/-! SUPPORT. What an evaluation of the firebreak (R308, R311 to R318) leaves alone. -/

namespace Sys2Proof.Machine

theorem brkFrame_refl (x : FbkBrk) : BrkFrame x x := ⟨rfl, rfl, rfl, rfl, rfl, rfl, rfl, fun h => h, fun h => h, Or.inl rfl⟩
theorem brkFrame_trans {x y z : FbkBrk} (a : BrkFrame x y) (b : BrkFrame y z) : BrkFrame x z := by
  refine ⟨b.failed.trans a.failed, b.passes.trans a.passes, b.repair.trans a.repair, b.retestOk.trans a.retestOk, b.again.trans a.again,
    b.edges.trans a.edges, b.last.trans a.last, fun w => b.due (a.due w), fun w => b.overdue (a.overdue w), ?_⟩
  rcases b.phase with h | h
  · rcases a.phase with k | k
    · exact Or.inl (h.trans k)
    · exact Or.inr ⟨h.trans k.1, b.due k.2⟩
  · exact Or.inr h
theorem fbkFrame_refl (f : Fbk) : FbkFrame f f :=
  ⟨rfl, fun _ => brkFrame_refl _, fun _ h => h, fun _ h => h, fun _ h => h, fun _ h => h, fun _ h => Or.inl h, fun _ h => Or.inl h,
    fun _ _ h _ => h⟩
theorem fbkFrame_trans {f g h : Fbk} (a : FbkFrame f g) (b : FbkFrame g h) : FbkFrame f h := by
  refine ⟨?_, fun i => brkFrame_trans (a.brk i) (b.brk i), fun z w => b.zone z (a.zone z w), fun n w => b.otcL n (a.otcL n w),
    fun n w => b.imdL n (a.imdL n w), fun n w => b.weldL n (a.weldL n w), fun n w => ?_, fun n w => ?_,
    fun n w v o => b.arm n (a.weldL n w) (a.arm n w v o) (by rw [a.same]; exact o)⟩
  · have hb := b.same
    rw [a.same] at hb
    exact hb
  · rcases b.otcNew n w with k | k
    · exact a.otcNew n k
    · right; rw [a.same] at k; exact k
  · rcases b.imdNew n w with k | k
    · exact a.imdNew n k
    · right; rw [a.same] at k; exact k

theorem evalFrame_refl (s : State) : EvalFrame s s := ⟨fbkFrame_refl _, rfl⟩
theorem evalFrame_trans {s t u : State} (h : EvalFrame s t) (k : EvalFrame t u) : EvalFrame s u := by
  refine ⟨fbkFrame_trans h.fbk k.fbk, ?_⟩
  have hk := k.rest
  rw [h.rest] at hk
  exact hk
theorem evalFrame_ite {s t u : State} (c : Prop) [Decidable c] (h : EvalFrame s t) (k : EvalFrame s u) :
    EvalFrame s (if c then t else u) := by split <;> assumption
theorem evalFrame_foldl {α : Type} (f : State → α → State) (h : ∀ s x, EvalFrame s (f s x)) (l : List α) (s : State) :
    EvalFrame s (l.foldl f s) := foldl_rel EvalFrame evalFrame_refl evalFrame_trans f h l s

theorem onFbk_evalFrame (f : Fbk → Fbk) (s : State) (h : FbkFrame s.fbk (f s.fbk)) : EvalFrame s (onFbk f s) := ⟨h, rfl⟩
/-- A change that leaves brakes and latches alone. -/
theorem fbkFrame_plain {f g : Fbk} (h : g = { f with
    t := g.t, old := g.old, zone := g.zone, otcL := g.otcL, imdL := g.imdL, weldL := g.weldL, weldArm := g.weldArm,
    weldRun := g.weldRun, openRun := g.openRun, brk := g.brk, ls := g.ls, stop := g.stop, trips := g.trips, log := g.log,
    logNext := g.logNext, logSeq := g.logSeq, intStatus := g.intStatus }) (hb : g.brk = f.brk) (hz : g.zone = f.zone)
    (h1 : g.otcL = f.otcL) (h2 : g.imdL = f.imdL) (h3 : g.weldL = f.weldL) (h4 : g.weldArm = f.weldArm) : FbkFrame f g :=
  ⟨h, fun b => by rw [hb]; exact brkFrame_refl _, fun z w => by rw [hz]; exact w, fun n w => by rw [h1]; exact w,
    fun n w => by rw [h2]; exact w, fun n w => by rw [h3]; exact w, fun n w => by rw [h1] at w; exact Or.inl w,
    fun n w => by rw [h2] at w; exact Or.inl w, fun n _ w _ => by rw [h4]; exact w⟩
theorem setBit_keeps {m : Nat} (w : BitVec m) (b n : Nat) (h : w.getLsbD n = true) : (setBit w b).getLsbD n = true := by
  unfold setBit; rw [BitVec.getLsbD_or, h]; rfl
theorem upd_get {α : Type} {n : Nat} (v : Vector α n) (i j : Fin n) (f : α → α) :
    (Vec.upd v i f)[j] = if i = j then f v[j] else v[j] := by
  simp only [Vec.upd, Fin.getElem_fin, Vector.getElem_set, Fin.ext_iff]
  split
  · rename_i h; simp only [h]
  · rfl
theorem onZone_evalFrame (z : Fin 8) (f : FbkZone → FbkZone) (s : State) (h : ∀ x, x.latch = true → (f x).latch = true) :
    EvalFrame s (onZone z f s) := by
  refine onFbk_evalFrame _ s ⟨rfl, fun _ => brkFrame_refl _, fun y w => ?_, fun _ w => w, fun _ w => w, fun _ w => w,
    fun _ w => Or.inl w, fun _ w => Or.inl w, fun _ _ w _ => w⟩
  show ((Vec.upd s.fbk.zone z f)[y]).latch = true
  rw [upd_get]; split
  · exact h _ w
  · exact w
theorem onBrk_evalFrame (b : Fin 8) (f : FbkBrk → FbkBrk) (s : State) (h : ∀ x, BrkFrame x (f x)) : EvalFrame s (onBrk b f s) := by
  refine onFbk_evalFrame _ s ⟨rfl, fun y => ?_, fun _ w => w, fun _ w => w, fun _ w => w, fun _ w => w,
    fun _ w => Or.inl w, fun _ w => Or.inl w, fun _ _ w _ => w⟩
  show BrkFrame _ ((Vec.upd s.fbk.brk b f)[y])
  rw [upd_get]; split
  · exact h _
  · exact brkFrame_refl _
theorem clrBit_keeps (w : BitVec 32) (b n : Nat) (h : w.getLsbD n = true) (k : n ≠ b) : (clrBit w b).getLsbD n = true := by
  have hn : n < 32 := BitVec.lt_of_getLsbD h
  have hp : (2 ^ b % 2 ^ 32).testBit n = false := by
    rw [Nat.testBit_mod_two_pow, Nat.testBit_two_pow]; simp; omega
  simp only [clrBit, BitVec.getLsbD_and, BitVec.getLsbD_not, BitVec.getLsbD_ofNat, h, Bool.true_and]
  simp [hn, Nat.testBit_two_pow]; omega
theorem setBit_new {m : Nat} (w : BitVec m) (b n : Nat) (h : (setBit w b).getLsbD n = true) : w.getLsbD n = true ∨ n = b := by
  unfold setBit at h; rw [BitVec.getLsbD_or, BitVec.getLsbD_ofNat, Nat.testBit_two_pow] at h
  cases hw : w.getLsbD n
  · right; rw [hw] at h; simp at h; omega
  · exact Or.inl rfl
theorem markTrip_evalFrame (n : Nat) (s : State) (o : OutIx) : EvalFrame s (markTrip n s o) :=
  evalFrame_ite _ (evalFrame_refl s) ⟨fbkFrame_refl _, rfl⟩
theorem eventTrips_evalFrame (c i : Nat) (s : State) : EvalFrame s (eventTrips c i s) := by
  unfold eventTrips; split
  · exact evalFrame_foldl _ (fun t o => evalFrame_ite _ (markTrip_evalFrame _ t o) (evalFrame_refl t)) _ s
  · exact evalFrame_refl s
theorem fbkEvent_evalFrame (c i : Nat) (s : State) : EvalFrame s (fbkEvent c i s) := by
  unfold fbkEvent; dsimp only
  exact evalFrame_trans (evalFrame_trans (onFbk_evalFrame _ s (fbkFrame_plain rfl rfl rfl rfl rfl rfl rfl))
    (eventTrips_evalFrame c i _)) ⟨fbkFrame_refl _, rfl⟩

theorem zoneDisc_evalFrame (z : Fin 8) (s : State) : EvalFrame s (zoneDisc z s) := by
  unfold zoneDisc; dsimp only; split
  · exact evalFrame_refl s
  · exact evalFrame_trans (onZone_evalFrame z _ s fun _ _ => rfl) (fbkEvent_evalFrame _ _ _)
theorem zoneDemand_evalFrame (fresh : Bool) (z : Fin 8) (s : State) : EvalFrame s (zoneDemand fresh z s) :=
  evalFrame_ite _ (fbkEvent_evalFrame _ _ s) (evalFrame_refl s)
theorem zoneLate_evalFrame (run : Nat) (z : Fin 8) (s : State) : EvalFrame s (zoneLate run z s) :=
  evalFrame_ite _ (zoneDisc_evalFrame z s) (evalFrame_refl s)
theorem zoneEval_evalFrame (adv : Bool) (s : State) (z : Fin 8) : EvalFrame s (zoneEval adv s z) := by
  unfold zoneEval; dsimp only; split
  · exact evalFrame_trans (evalFrame_trans (onZone_evalFrame z _ s fun x w => by simp [w]) (zoneDemand_evalFrame _ _ _))
      (zoneLate_evalFrame _ _ _)
  · exact onZone_evalFrame z _ s fun _ w => w
theorem sf2Eval_evalFrame (s : State) (o : OutIx) : EvalFrame s (sf2Eval s o) := by
  unfold sf2Eval; dsimp only; split
  · rename_i h
    refine evalFrame_trans (onFbk_evalFrame _ s ?_) (fbkEvent_evalFrame _ _ _)
    refine ⟨rfl, fun _ => brkFrame_refl _, fun _ w => w, fun n w => setBit_keeps _ _ n w, fun _ w => w, fun _ w => w,
      fun n w => ?_, fun _ w => Or.inl w, fun _ _ w _ => w⟩
    rcases setBit_new _ _ _ w with k | k
    · exact Or.inl k
    · right; subst k; simp at h; exact h.1.2
  · exact evalFrame_refl s
theorem sf3Eval_evalFrame (s : State) (o : OutIx) : EvalFrame s (sf3Eval s o) := by
  unfold sf3Eval; dsimp only; split
  · rename_i h
    refine evalFrame_trans (onFbk_evalFrame _ s ?_) (fbkEvent_evalFrame _ _ _)
    refine ⟨rfl, fun _ => brkFrame_refl _, fun _ w => w, fun _ w => w, fun n w => setBit_keeps _ _ n w, fun _ w => w,
      fun _ w => Or.inl w, fun n w => ?_, fun _ _ w _ => w⟩
    rcases setBit_new _ _ _ w with k | k
    · exact Or.inl k
    · right; subst k; simp at h; exact h.1.1
  · exact evalFrame_refl s
theorem sf23_evalFrame (s : State) (o : OutIx) : EvalFrame s (sf23 s o) := by
  unfold sf23; exact evalFrame_trans (sf2Eval_evalFrame s o) (sf3Eval_evalFrame _ o)
theorem weldLatch_evalFrame (o : OutIx) (s : State) : EvalFrame s (weldLatch o s) := by
  unfold weldLatch; split
  · exact evalFrame_refl s
  · rename_i h
    refine evalFrame_trans (onFbk_evalFrame _ s ?_) (fbkEvent_evalFrame _ _ _)
    refine ⟨rfl, fun _ => brkFrame_refl _, fun _ w => w, fun _ w => w, fun _ w => w, fun n w => setBit_keeps _ _ n w,
      fun _ w => Or.inl w, fun _ w => Or.inl w, fun n w v _ => ?_⟩
    exact clrBit_keeps _ _ _ v (fun e => h (by rw [← e]; exact w))
theorem weldEval_evalFrame (adv : Bool) (s : State) (o : OutIx) : EvalFrame s (weldEval adv s o) := by
  have key : ∀ (r w : Fbk → Vector Nat 32), EvalFrame s
      (onFbk (fun f => { f with weldRun := r f, openRun := w f,
                                weldArm := if !fbkOpen s o && f.openRun[o] ≠ 0 then clrBit f.weldArm o.val else f.weldArm }) s) := by
    intro r w
    refine onFbk_evalFrame _ s ⟨rfl, fun _ => brkFrame_refl _, fun _ w => w, fun _ w => w, fun _ w => w, fun _ w => w,
      fun _ w => Or.inl w, fun _ w => Or.inl w, fun n _ v p => ?_⟩
    show (if !fbkOpen s o && s.fbk.openRun[o] ≠ 0 then clrBit s.fbk.weldArm o.val else s.fbk.weldArm).getLsbD n = true
    split
    · rename_i h
      refine clrBit_keeps _ _ _ v (fun e => ?_)
      have q : fbkOpen s o = true := by rw [e] at p; exact p
      simp [q] at h
    · exact v
  unfold weldEval; dsimp only
  exact evalFrame_ite _ (evalFrame_trans (key _ _) (weldLatch_evalFrame _ _)) (key _ _)
theorem brkLate_evalFrame (fresh : Bool) (b : Fin 8) (s : State) : EvalFrame s (brkLate fresh b s) :=
  evalFrame_ite _ (fbkEvent_evalFrame _ _ s) (evalFrame_refl s)
theorem brkTimes_evalFrame (s : State) (b : Fin 8) : EvalFrame s (brkTimes s b) := by
  unfold brkTimes; dsimp only
  refine evalFrame_trans (onBrk_evalFrame b _ s ?_) (brkLate_evalFrame _ b _)
  intro x; exact ⟨rfl, rfl, rfl, rfl, rfl, rfl, rfl, fun h => by simp [h], fun h => by simp [h], Or.inl rfl⟩
theorem brkAbort_evalFrame (s : State) (b : Fin 8) : EvalFrame s (brkAbort s b) := by
  refine evalFrame_ite _ (evalFrame_trans (onBrk_evalFrame b _ s ?_) (fbkEvent_evalFrame _ _ _)) (evalFrame_refl s)
  intro x; exact ⟨rfl, rfl, rfl, rfl, rfl, rfl, rfl, fun _ => rfl, fun h => h, Or.inr ⟨rfl, rfl⟩⟩
theorem lsTrip_evalFrame (w : BitVec 40) (s : State) (o : OutIx) : EvalFrame s (lsTrip w s o) := by
  exact evalFrame_ite _ (markTrip_evalFrame 0 s o) (evalFrame_refl s)
theorem lsDrive_evalFrame (w : BitVec 40) (s : State) : EvalFrame s (lsDrive w s) := by
  unfold lsDrive; dsimp only; exact ⟨fbkFrame_refl _, rfl⟩
theorem fbkCopy_evalFrame (s : State) : EvalFrame s (fbkCopy s) := by
  unfold fbkCopy; dsimp only; exact ⟨fbkFrame_refl _, rfl⟩
theorem fbkOutputs_evalFrame (s : State) : EvalFrame s (fbkOutputs s) := by
  have h := evalFrame_foldl (lsTrip (lsWant s)) (lsTrip_evalFrame _) (List.finRange 32) s
  unfold fbkOutputs; dsimp only
  generalize (List.finRange 32).foldl (lsTrip (lsWant s)) s = u at h ⊢
  refine evalFrame_trans ?_ (fbkCopy_evalFrame _)
  refine evalFrame_trans ?_ (lsDrive_evalFrame _ _)
  exact evalFrame_trans h (onFbk_evalFrame _ u (fbkFrame_plain rfl rfl rfl rfl rfl rfl rfl))

/-- An evaluation keeps the state, the supply, the image and the seal of the firebreak, and every other block. -/
theorem fbkEval_evalFrame (adv : Bool) (s : State) : EvalFrame s (fbkEval adv s) := by
  have h1 : ∀ t : State, EvalFrame t (if adv then onFbk (fun f => { f with t := f.t + 1 }) t else t) := fun t =>
    evalFrame_ite _ (onFbk_evalFrame _ t (fbkFrame_plain rfl rfl rfl rfl rfl rfl rfl)) (evalFrame_refl t)
  have h2 : ∀ (g : Fbk → Vector (List FbkOut) 32) (t : State), EvalFrame t (onFbk (fun f => { f with old := g f }) t) := fun g t =>
    onFbk_evalFrame _ t (fbkFrame_plain rfl rfl rfl rfl rfl rfl rfl)
  have h3 : ∀ (c : Prop) [Decidable c] (t : State),
      EvalFrame t (if c then (List.finRange 32).foldl sf23 ((List.finRange 8).foldl (zoneEval adv) t) else t) := fun c _ t =>
    evalFrame_ite c (evalFrame_trans (evalFrame_foldl _ (zoneEval_evalFrame adv) _ t) (evalFrame_foldl _ sf23_evalFrame _ _))
      (evalFrame_refl t)
  have h4 : ∀ t : State, EvalFrame t ((List.finRange 32).foldl (weldEval adv) t) := fun t =>
    evalFrame_foldl _ (weldEval_evalFrame adv) _ t
  have h5 : ∀ t : State, EvalFrame t ((List.finRange 8).foldl (fun s b => brkAbort (brkTimes s b) b) t) := fun t =>
    evalFrame_foldl _ (fun s b => evalFrame_trans (brkTimes_evalFrame s b) (brkAbort_evalFrame _ b)) _ t
  unfold fbkEval; split
  · exact fbkOutputs_evalFrame s
  · refine evalFrame_trans ?_ (fbkOutputs_evalFrame _)
    refine evalFrame_trans ?_ (h5 _)
    refine evalFrame_trans ?_ (h4 _)
    exact evalFrame_trans (evalFrame_trans (h1 s) (h2 _ _)) (h3 _ _)

end Sys2Proof.Machine
end

