-- ==== Sys2Proof/Laws/State.lean ====
section
/-! SUPPORT. What each updater of the state leaves in each field, and what it puts in the one that it changes. -/

namespace Sys2Proof.Machine

@[simp] theorem raise_fields (e : Event) (s : State) :
    (raise s e).pending = s.pending ∧ (raise s e).freeIx = s.freeIx ∧ (raise s e).otp = s.otp ∧ (raise s e).isl = s.isl ∧
    (raise s e).fn = s.fn ∧ (raise s e).live = s.live ∧ (raise s e).cap = s.cap ∧ (raise s e).lat = s.lat ∧
    (raise s e).arrived = s.arrived ∧ (raise s e).deferred = s.deferred ∧ (raise s e).mbx = s.mbx ∧ (raise s e).smp = s.smp ∧
    (raise s e).map = s.map ∧ (raise s e).flash = s.flash ∧ (raise s e).fl = s.fl ∧ (raise s e).nx = s.nx ∧
    (raise s e).snapS = s.snapS ∧ (raise s e).alc = s.alc ∧ (raise s e).ctl = s.ctl ∧ (raise s e).late = s.late ∧
    (raise s e).thermFn = s.thermFn ∧ (raise s e).cclR = s.cclR ∧ (raise s e).fbkWeldNote = s.fbkWeldNote ∧
    (raise s e).fbkTripFn = s.fbkTripFn ∧ (raise s e).osqR = s.osqR ∧ (raise s e).vlk = s.vlk ∧ (raise s e).slac = s.slac ∧
    (raise s e).met = s.met ∧ (raise s e).bilR = s.bilR ∧ (raise s e).hwd = s.hwd ∧ (raise s e).fwu = s.fwu ∧
    (raise s e).tdm = s.tdm ∧ (raise s e).fbk = s.fbk ∧ (raise s e).aux = s.aux ∧ (raise s e).can = s.can ∧
    (raise s e).hkp = s.hkp ∧ (raise s e).jnlOld = s.jnlOld ∧ (raise s e).lnd = s.lnd ∧ (raise s e).hst = s.hst ∧
    (raise s e).evs = s.evs ++ [e] :=
  ⟨rfl, rfl, rfl, rfl, rfl, rfl, rfl, rfl, rfl, rfl, rfl, rfl, rfl, rfl, rfl, rfl, rfl, rfl, rfl, rfl, rfl, rfl, rfl, rfl,
    rfl, rfl, rfl, rfl, rfl, rfl, rfl, rfl, rfl, rfl, rfl, rfl, rfl, rfl, rfl, rfl⟩
@[simp] theorem onBil_fields (f : Bil → Bil) (s : State) :
    (onBil f s).pending = s.pending ∧ (onBil f s).freeIx = s.freeIx ∧ (onBil f s).otp = s.otp ∧ (onBil f s).isl = s.isl ∧
    (onBil f s).fn = s.fn ∧ (onBil f s).live = s.live ∧ (onBil f s).cap = s.cap ∧ (onBil f s).lat = s.lat ∧
    (onBil f s).arrived = s.arrived ∧ (onBil f s).deferred = s.deferred ∧ (onBil f s).evs = s.evs ∧ (onBil f s).mbx = s.mbx ∧
    (onBil f s).smp = s.smp ∧ (onBil f s).map = s.map ∧ (onBil f s).flash = s.flash ∧ (onBil f s).fl = s.fl ∧
    (onBil f s).snapS = s.snapS ∧ (onBil f s).alc = s.alc ∧ (onBil f s).ctl = s.ctl ∧ (onBil f s).late = s.late ∧
    (onBil f s).thermFn = s.thermFn ∧ (onBil f s).cclR = s.cclR ∧ (onBil f s).fbkWeldNote = s.fbkWeldNote ∧
    (onBil f s).fbkTripFn = s.fbkTripFn ∧ (onBil f s).osqR = s.osqR ∧ (onBil f s).vlk = s.vlk ∧ (onBil f s).slac = s.slac ∧
    (onBil f s).met = s.met ∧ (onBil f s).bilR = s.bilR ∧ (onBil f s).hwd = s.hwd ∧ (onBil f s).fwu = s.fwu ∧
    (onBil f s).tdm = s.tdm ∧ (onBil f s).fbk = s.fbk ∧ (onBil f s).aux = s.aux ∧ (onBil f s).can = s.can ∧
    (onBil f s).hkp = s.hkp ∧ (onBil f s).jnlOld = s.jnlOld ∧ (onBil f s).lnd = s.lnd ∧ (onBil f s).hst = s.hst ∧
    (onBil f s).nx = { s.nx with bil := f s.nx.bil } :=
  ⟨rfl, rfl, rfl, rfl, rfl, rfl, rfl, rfl, rfl, rfl, rfl, rfl, rfl, rfl, rfl, rfl, rfl, rfl, rfl, rfl, rfl, rfl, rfl, rfl,
    rfl, rfl, rfl, rfl, rfl, rfl, rfl, rfl, rfl, rfl, rfl, rfl, rfl, rfl, rfl, rfl⟩
@[simp] theorem onBind_fields (k : SetIx) (f : Bind → Bind) (s : State) :
    (onBind k f s).pending = s.pending ∧ (onBind k f s).freeIx = s.freeIx ∧ (onBind k f s).otp = s.otp ∧
    (onBind k f s).isl = s.isl ∧ (onBind k f s).fn = s.fn ∧ (onBind k f s).live = s.live ∧ (onBind k f s).cap = s.cap ∧
    (onBind k f s).lat = s.lat ∧ (onBind k f s).arrived = s.arrived ∧ (onBind k f s).deferred = s.deferred ∧
    (onBind k f s).evs = s.evs ∧ (onBind k f s).mbx = s.mbx ∧ (onBind k f s).smp = s.smp ∧ (onBind k f s).map = s.map ∧
    (onBind k f s).flash = s.flash ∧ (onBind k f s).fl = s.fl ∧ (onBind k f s).snapS = s.snapS ∧ (onBind k f s).alc = s.alc ∧
    (onBind k f s).ctl = s.ctl ∧ (onBind k f s).late = s.late ∧ (onBind k f s).thermFn = s.thermFn ∧
    (onBind k f s).cclR = s.cclR ∧ (onBind k f s).fbkWeldNote = s.fbkWeldNote ∧ (onBind k f s).fbkTripFn = s.fbkTripFn ∧
    (onBind k f s).osqR = s.osqR ∧ (onBind k f s).vlk = s.vlk ∧ (onBind k f s).slac = s.slac ∧ (onBind k f s).met = s.met ∧
    (onBind k f s).bilR = s.bilR ∧ (onBind k f s).hwd = s.hwd ∧ (onBind k f s).fwu = s.fwu ∧ (onBind k f s).tdm = s.tdm ∧
    (onBind k f s).fbk = s.fbk ∧ (onBind k f s).aux = s.aux ∧ (onBind k f s).can = s.can ∧ (onBind k f s).hkp = s.hkp ∧
    (onBind k f s).jnlOld = s.jnlOld ∧ (onBind k f s).lnd = s.lnd ∧ (onBind k f s).hst = s.hst :=
  ⟨rfl, rfl, rfl, rfl, rfl, rfl, rfl, rfl, rfl, rfl, rfl, rfl, rfl, rfl, rfl, rfl, rfl, rfl, rfl, rfl, rfl, rfl, rfl, rfl,
    rfl, rfl, rfl, rfl, rfl, rfl, rfl, rfl, rfl, rfl, rfl, rfl, rfl, rfl, rfl⟩
@[simp] theorem onSess_fields (k : SetIx) (f : BSess → BSess) (s : State) :
    (onSess k f s).pending = s.pending ∧ (onSess k f s).freeIx = s.freeIx ∧ (onSess k f s).otp = s.otp ∧
    (onSess k f s).isl = s.isl ∧ (onSess k f s).fn = s.fn ∧ (onSess k f s).live = s.live ∧ (onSess k f s).cap = s.cap ∧
    (onSess k f s).lat = s.lat ∧ (onSess k f s).arrived = s.arrived ∧ (onSess k f s).deferred = s.deferred ∧
    (onSess k f s).evs = s.evs ∧ (onSess k f s).mbx = s.mbx ∧ (onSess k f s).smp = s.smp ∧ (onSess k f s).map = s.map ∧
    (onSess k f s).flash = s.flash ∧ (onSess k f s).fl = s.fl ∧ (onSess k f s).snapS = s.snapS ∧ (onSess k f s).alc = s.alc ∧
    (onSess k f s).ctl = s.ctl ∧ (onSess k f s).late = s.late ∧ (onSess k f s).thermFn = s.thermFn ∧
    (onSess k f s).cclR = s.cclR ∧ (onSess k f s).fbkWeldNote = s.fbkWeldNote ∧ (onSess k f s).fbkTripFn = s.fbkTripFn ∧
    (onSess k f s).osqR = s.osqR ∧ (onSess k f s).vlk = s.vlk ∧ (onSess k f s).slac = s.slac ∧ (onSess k f s).met = s.met ∧
    (onSess k f s).bilR = s.bilR ∧ (onSess k f s).hwd = s.hwd ∧ (onSess k f s).fwu = s.fwu ∧ (onSess k f s).tdm = s.tdm ∧
    (onSess k f s).fbk = s.fbk ∧ (onSess k f s).aux = s.aux ∧ (onSess k f s).can = s.can ∧ (onSess k f s).hkp = s.hkp ∧
    (onSess k f s).jnlOld = s.jnlOld ∧ (onSess k f s).lnd = s.lnd ∧ (onSess k f s).hst = s.hst :=
  ⟨rfl, rfl, rfl, rfl, rfl, rfl, rfl, rfl, rfl, rfl, rfl, rfl, rfl, rfl, rfl, rfl, rfl, rfl, rfl, rfl, rfl, rfl, rfl, rfl,
    rfl, rfl, rfl, rfl, rfl, rfl, rfl, rfl, rfl, rfl, rfl, rfl, rfl, rfl, rfl⟩
@[simp] theorem onSet_fields (k : Fin 33) (f : MetSet → MetSet) (s : State) :
    (onSet k f s).pending = s.pending ∧ (onSet k f s).freeIx = s.freeIx ∧ (onSet k f s).otp = s.otp ∧
    (onSet k f s).isl = s.isl ∧ (onSet k f s).fn = s.fn ∧ (onSet k f s).live = s.live ∧ (onSet k f s).cap = s.cap ∧
    (onSet k f s).lat = s.lat ∧ (onSet k f s).arrived = s.arrived ∧ (onSet k f s).deferred = s.deferred ∧
    (onSet k f s).evs = s.evs ∧ (onSet k f s).mbx = s.mbx ∧ (onSet k f s).smp = s.smp ∧ (onSet k f s).map = s.map ∧
    (onSet k f s).flash = s.flash ∧ (onSet k f s).fl = s.fl ∧ (onSet k f s).snapS = s.snapS ∧ (onSet k f s).alc = s.alc ∧
    (onSet k f s).ctl = s.ctl ∧ (onSet k f s).late = s.late ∧ (onSet k f s).thermFn = s.thermFn ∧ (onSet k f s).cclR = s.cclR ∧
    (onSet k f s).fbkWeldNote = s.fbkWeldNote ∧ (onSet k f s).fbkTripFn = s.fbkTripFn ∧ (onSet k f s).osqR = s.osqR ∧
    (onSet k f s).vlk = s.vlk ∧ (onSet k f s).slac = s.slac ∧ (onSet k f s).met = s.met ∧ (onSet k f s).bilR = s.bilR ∧
    (onSet k f s).hwd = s.hwd ∧ (onSet k f s).fwu = s.fwu ∧ (onSet k f s).tdm = s.tdm ∧ (onSet k f s).fbk = s.fbk ∧
    (onSet k f s).aux = s.aux ∧ (onSet k f s).can = s.can ∧ (onSet k f s).hkp = s.hkp ∧ (onSet k f s).jnlOld = s.jnlOld ∧
    (onSet k f s).lnd = s.lnd ∧ (onSet k f s).hst = s.hst ∧
    (onSet k f s).nx = { s.nx with met := { s.nx.met with sets := Vec.upd s.nx.met.sets k f } } :=
  ⟨rfl, rfl, rfl, rfl, rfl, rfl, rfl, rfl, rfl, rfl, rfl, rfl, rfl, rfl, rfl, rfl, rfl, rfl, rfl, rfl, rfl, rfl, rfl, rfl,
    rfl, rfl, rfl, rfl, rfl, rfl, rfl, rfl, rfl, rfl, rfl, rfl, rfl, rfl, rfl, rfl⟩
@[simp] theorem onMetF_fields (f : MetF → MetF) (s : State) :
    (onMetF f s).pending = s.pending ∧ (onMetF f s).freeIx = s.freeIx ∧ (onMetF f s).otp = s.otp ∧ (onMetF f s).isl = s.isl ∧
    (onMetF f s).fn = s.fn ∧ (onMetF f s).live = s.live ∧ (onMetF f s).cap = s.cap ∧ (onMetF f s).lat = s.lat ∧
    (onMetF f s).arrived = s.arrived ∧ (onMetF f s).deferred = s.deferred ∧ (onMetF f s).evs = s.evs ∧
    (onMetF f s).mbx = s.mbx ∧ (onMetF f s).smp = s.smp ∧ (onMetF f s).map = s.map ∧ (onMetF f s).flash = s.flash ∧
    (onMetF f s).fl = s.fl ∧ (onMetF f s).snapS = s.snapS ∧ (onMetF f s).alc = s.alc ∧ (onMetF f s).ctl = s.ctl ∧
    (onMetF f s).late = s.late ∧ (onMetF f s).thermFn = s.thermFn ∧ (onMetF f s).cclR = s.cclR ∧
    (onMetF f s).fbkWeldNote = s.fbkWeldNote ∧ (onMetF f s).fbkTripFn = s.fbkTripFn ∧ (onMetF f s).osqR = s.osqR ∧
    (onMetF f s).vlk = s.vlk ∧ (onMetF f s).slac = s.slac ∧ (onMetF f s).met = s.met ∧ (onMetF f s).bilR = s.bilR ∧
    (onMetF f s).hwd = s.hwd ∧ (onMetF f s).fwu = s.fwu ∧ (onMetF f s).tdm = s.tdm ∧ (onMetF f s).fbk = s.fbk ∧
    (onMetF f s).aux = s.aux ∧ (onMetF f s).can = s.can ∧ (onMetF f s).hkp = s.hkp ∧ (onMetF f s).jnlOld = s.jnlOld ∧
    (onMetF f s).lnd = s.lnd ∧ (onMetF f s).hst = s.hst ∧ (onMetF f s).nx = { s.nx with met := f s.nx.met } :=
  ⟨rfl, rfl, rfl, rfl, rfl, rfl, rfl, rfl, rfl, rfl, rfl, rfl, rfl, rfl, rfl, rfl, rfl, rfl, rfl, rfl, rfl, rfl, rfl, rfl,
    rfl, rfl, rfl, rfl, rfl, rfl, rfl, rfl, rfl, rfl, rfl, rfl, rfl, rfl, rfl, rfl⟩
@[simp] theorem onVeh_fields (o : OutIx) (f : Veh → Veh) (s : State) :
    (onVeh o f s).pending = s.pending ∧ (onVeh o f s).freeIx = s.freeIx ∧ (onVeh o f s).otp = s.otp ∧
    (onVeh o f s).isl = s.isl ∧ (onVeh o f s).fn = s.fn ∧ (onVeh o f s).live = s.live ∧ (onVeh o f s).cap = s.cap ∧
    (onVeh o f s).lat = s.lat ∧ (onVeh o f s).arrived = s.arrived ∧ (onVeh o f s).deferred = s.deferred ∧
    (onVeh o f s).evs = s.evs ∧ (onVeh o f s).mbx = s.mbx ∧ (onVeh o f s).smp = s.smp ∧ (onVeh o f s).map = s.map ∧
    (onVeh o f s).flash = s.flash ∧ (onVeh o f s).nx = s.nx ∧ (onVeh o f s).snapS = s.snapS ∧ (onVeh o f s).alc = s.alc ∧
    (onVeh o f s).ctl = s.ctl ∧ (onVeh o f s).late = s.late ∧ (onVeh o f s).thermFn = s.thermFn ∧ (onVeh o f s).cclR = s.cclR ∧
    (onVeh o f s).fbkWeldNote = s.fbkWeldNote ∧ (onVeh o f s).fbkTripFn = s.fbkTripFn ∧ (onVeh o f s).osqR = s.osqR ∧
    (onVeh o f s).vlk = s.vlk ∧ (onVeh o f s).slac = s.slac ∧ (onVeh o f s).met = s.met ∧ (onVeh o f s).bilR = s.bilR ∧
    (onVeh o f s).hwd = s.hwd ∧ (onVeh o f s).fwu = s.fwu ∧ (onVeh o f s).tdm = s.tdm ∧ (onVeh o f s).fbk = s.fbk ∧
    (onVeh o f s).aux = s.aux ∧ (onVeh o f s).can = s.can ∧ (onVeh o f s).hkp = s.hkp ∧ (onVeh o f s).jnlOld = s.jnlOld ∧
    (onVeh o f s).lnd = s.lnd ∧ (onVeh o f s).hst = s.hst ∧ (onVeh o f s).fl = { s.fl with veh := Vec.upd s.fl.veh o f } :=
  ⟨rfl, rfl, rfl, rfl, rfl, rfl, rfl, rfl, rfl, rfl, rfl, rfl, rfl, rfl, rfl, rfl, rfl, rfl, rfl, rfl, rfl, rfl, rfl, rfl,
    rfl, rfl, rfl, rfl, rfl, rfl, rfl, rfl, rfl, rfl, rfl, rfl, rfl, rfl, rfl, rfl⟩
@[simp] theorem onUnit_fields (c : ChIx) (f : ChUnit → ChUnit) (s : State) :
    (onUnit c f s).pending = s.pending ∧ (onUnit c f s).freeIx = s.freeIx ∧ (onUnit c f s).otp = s.otp ∧
    (onUnit c f s).isl = s.isl ∧ (onUnit c f s).fn = s.fn ∧ (onUnit c f s).live = s.live ∧ (onUnit c f s).cap = s.cap ∧
    (onUnit c f s).lat = s.lat ∧ (onUnit c f s).arrived = s.arrived ∧ (onUnit c f s).deferred = s.deferred ∧
    (onUnit c f s).evs = s.evs ∧ (onUnit c f s).mbx = s.mbx ∧ (onUnit c f s).smp = s.smp ∧ (onUnit c f s).map = s.map ∧
    (onUnit c f s).flash = s.flash ∧ (onUnit c f s).fl = s.fl ∧ (onUnit c f s).nx = s.nx ∧ (onUnit c f s).snapS = s.snapS ∧
    (onUnit c f s).alc = s.alc ∧ (onUnit c f s).late = s.late ∧ (onUnit c f s).thermFn = s.thermFn ∧
    (onUnit c f s).cclR = s.cclR ∧ (onUnit c f s).fbkWeldNote = s.fbkWeldNote ∧ (onUnit c f s).fbkTripFn = s.fbkTripFn ∧
    (onUnit c f s).osqR = s.osqR ∧ (onUnit c f s).vlk = s.vlk ∧ (onUnit c f s).slac = s.slac ∧ (onUnit c f s).met = s.met ∧
    (onUnit c f s).bilR = s.bilR ∧ (onUnit c f s).hwd = s.hwd ∧ (onUnit c f s).fwu = s.fwu ∧ (onUnit c f s).tdm = s.tdm ∧
    (onUnit c f s).fbk = s.fbk ∧ (onUnit c f s).aux = s.aux ∧ (onUnit c f s).can = s.can ∧ (onUnit c f s).hkp = s.hkp ∧
    (onUnit c f s).jnlOld = s.jnlOld ∧ (onUnit c f s).lnd = s.lnd ∧ (onUnit c f s).hst = s.hst ∧
    (onUnit c f s).ctl = { s.ctl with units := Vec.upd s.ctl.units c f } :=
  ⟨rfl, rfl, rfl, rfl, rfl, rfl, rfl, rfl, rfl, rfl, rfl, rfl, rfl, rfl, rfl, rfl, rfl, rfl, rfl, rfl, rfl, rfl, rfl, rfl,
    rfl, rfl, rfl, rfl, rfl, rfl, rfl, rfl, rfl, rfl, rfl, rfl, rfl, rfl, rfl, rfl⟩
@[simp] theorem onPort_fields (c : ChIx) (f : Port → Port) (s : State) :
    (onPort c f s).pending = s.pending ∧ (onPort c f s).freeIx = s.freeIx ∧ (onPort c f s).otp = s.otp ∧
    (onPort c f s).isl = s.isl ∧ (onPort c f s).fn = s.fn ∧ (onPort c f s).live = s.live ∧ (onPort c f s).cap = s.cap ∧
    (onPort c f s).lat = s.lat ∧ (onPort c f s).arrived = s.arrived ∧ (onPort c f s).deferred = s.deferred ∧
    (onPort c f s).evs = s.evs ∧ (onPort c f s).mbx = s.mbx ∧ (onPort c f s).smp = s.smp ∧ (onPort c f s).map = s.map ∧
    (onPort c f s).flash = s.flash ∧ (onPort c f s).fl = s.fl ∧ (onPort c f s).nx = s.nx ∧ (onPort c f s).snapS = s.snapS ∧
    (onPort c f s).alc = s.alc ∧ (onPort c f s).late = s.late ∧ (onPort c f s).thermFn = s.thermFn ∧
    (onPort c f s).cclR = s.cclR ∧ (onPort c f s).fbkWeldNote = s.fbkWeldNote ∧ (onPort c f s).fbkTripFn = s.fbkTripFn ∧
    (onPort c f s).osqR = s.osqR ∧ (onPort c f s).vlk = s.vlk ∧ (onPort c f s).slac = s.slac ∧ (onPort c f s).met = s.met ∧
    (onPort c f s).bilR = s.bilR ∧ (onPort c f s).hwd = s.hwd ∧ (onPort c f s).fwu = s.fwu ∧ (onPort c f s).tdm = s.tdm ∧
    (onPort c f s).fbk = s.fbk ∧ (onPort c f s).aux = s.aux ∧ (onPort c f s).can = s.can ∧ (onPort c f s).hkp = s.hkp ∧
    (onPort c f s).jnlOld = s.jnlOld ∧ (onPort c f s).lnd = s.lnd ∧ (onPort c f s).hst = s.hst ∧
    (onPort c f s).ctl = { s.ctl with ports := Vec.upd s.ctl.ports c f } :=
  ⟨rfl, rfl, rfl, rfl, rfl, rfl, rfl, rfl, rfl, rfl, rfl, rfl, rfl, rfl, rfl, rfl, rfl, rfl, rfl, rfl, rfl, rfl, rfl, rfl,
    rfl, rfl, rfl, rfl, rfl, rfl, rfl, rfl, rfl, rfl, rfl, rfl, rfl, rfl, rfl, rfl⟩
@[simp] theorem onRgn_fields (r : RgnIx) (f : Region → Region) (s : State) :
    (onRgn r f s).pending = s.pending ∧ (onRgn r f s).freeIx = s.freeIx ∧ (onRgn r f s).otp = s.otp ∧
    (onRgn r f s).isl = s.isl ∧ (onRgn r f s).fn = s.fn ∧ (onRgn r f s).live = s.live ∧ (onRgn r f s).cap = s.cap ∧
    (onRgn r f s).lat = s.lat ∧ (onRgn r f s).arrived = s.arrived ∧ (onRgn r f s).deferred = s.deferred ∧
    (onRgn r f s).evs = s.evs ∧ (onRgn r f s).mbx = s.mbx ∧ (onRgn r f s).smp = s.smp ∧ (onRgn r f s).map = s.map ∧
    (onRgn r f s).flash = s.flash ∧ (onRgn r f s).fl = s.fl ∧ (onRgn r f s).nx = s.nx ∧ (onRgn r f s).snapS = s.snapS ∧
    (onRgn r f s).alc = s.alc ∧ (onRgn r f s).late = s.late ∧ (onRgn r f s).thermFn = s.thermFn ∧ (onRgn r f s).cclR = s.cclR ∧
    (onRgn r f s).fbkWeldNote = s.fbkWeldNote ∧ (onRgn r f s).fbkTripFn = s.fbkTripFn ∧ (onRgn r f s).osqR = s.osqR ∧
    (onRgn r f s).vlk = s.vlk ∧ (onRgn r f s).slac = s.slac ∧ (onRgn r f s).met = s.met ∧ (onRgn r f s).bilR = s.bilR ∧
    (onRgn r f s).hwd = s.hwd ∧ (onRgn r f s).fwu = s.fwu ∧ (onRgn r f s).tdm = s.tdm ∧ (onRgn r f s).fbk = s.fbk ∧
    (onRgn r f s).aux = s.aux ∧ (onRgn r f s).can = s.can ∧ (onRgn r f s).hkp = s.hkp ∧ (onRgn r f s).jnlOld = s.jnlOld ∧
    (onRgn r f s).lnd = s.lnd ∧ (onRgn r f s).hst = s.hst ∧ (onRgn r f s).ctl = { s.ctl with rgn := Vec.upd s.ctl.rgn r f } :=
  ⟨rfl, rfl, rfl, rfl, rfl, rfl, rfl, rfl, rfl, rfl, rfl, rfl, rfl, rfl, rfl, rfl, rfl, rfl, rfl, rfl, rfl, rfl, rfl, rfl,
    rfl, rfl, rfl, rfl, rfl, rfl, rfl, rfl, rfl, rfl, rfl, rfl, rfl, rfl, rfl, rfl⟩
@[simp] theorem onBilR_fields (f : BilReg → BilReg) (s : State) :
    (onBilR f s).pending = s.pending ∧ (onBilR f s).freeIx = s.freeIx ∧ (onBilR f s).otp = s.otp ∧ (onBilR f s).isl = s.isl ∧
    (onBilR f s).fn = s.fn ∧ (onBilR f s).live = s.live ∧ (onBilR f s).cap = s.cap ∧ (onBilR f s).lat = s.lat ∧
    (onBilR f s).arrived = s.arrived ∧ (onBilR f s).deferred = s.deferred ∧ (onBilR f s).evs = s.evs ∧
    (onBilR f s).mbx = s.mbx ∧ (onBilR f s).smp = s.smp ∧ (onBilR f s).map = s.map ∧ (onBilR f s).flash = s.flash ∧
    (onBilR f s).fl = s.fl ∧ (onBilR f s).nx = s.nx ∧ (onBilR f s).snapS = s.snapS ∧ (onBilR f s).alc = s.alc ∧
    (onBilR f s).ctl = s.ctl ∧ (onBilR f s).late = s.late ∧ (onBilR f s).thermFn = s.thermFn ∧ (onBilR f s).cclR = s.cclR ∧
    (onBilR f s).fbkWeldNote = s.fbkWeldNote ∧ (onBilR f s).fbkTripFn = s.fbkTripFn ∧ (onBilR f s).osqR = s.osqR ∧
    (onBilR f s).vlk = s.vlk ∧ (onBilR f s).slac = s.slac ∧ (onBilR f s).met = s.met ∧ (onBilR f s).hwd = s.hwd ∧
    (onBilR f s).fwu = s.fwu ∧ (onBilR f s).tdm = s.tdm ∧ (onBilR f s).fbk = s.fbk ∧ (onBilR f s).aux = s.aux ∧
    (onBilR f s).can = s.can ∧ (onBilR f s).hkp = s.hkp ∧ (onBilR f s).jnlOld = s.jnlOld ∧ (onBilR f s).lnd = s.lnd ∧
    (onBilR f s).hst = s.hst ∧ (onBilR f s).bilR = f s.bilR :=
  ⟨rfl, rfl, rfl, rfl, rfl, rfl, rfl, rfl, rfl, rfl, rfl, rfl, rfl, rfl, rfl, rfl, rfl, rfl, rfl, rfl, rfl, rfl, rfl, rfl,
    rfl, rfl, rfl, rfl, rfl, rfl, rfl, rfl, rfl, rfl, rfl, rfl, rfl, rfl, rfl, rfl⟩
@[simp] theorem onCan_fields (k : CanIx) (f : Can → Can) (s : State) :
    (onCan k f s).pending = s.pending ∧ (onCan k f s).freeIx = s.freeIx ∧ (onCan k f s).otp = s.otp ∧
    (onCan k f s).isl = s.isl ∧ (onCan k f s).fn = s.fn ∧ (onCan k f s).live = s.live ∧ (onCan k f s).cap = s.cap ∧
    (onCan k f s).lat = s.lat ∧ (onCan k f s).arrived = s.arrived ∧ (onCan k f s).deferred = s.deferred ∧
    (onCan k f s).evs = s.evs ∧ (onCan k f s).mbx = s.mbx ∧ (onCan k f s).smp = s.smp ∧ (onCan k f s).map = s.map ∧
    (onCan k f s).flash = s.flash ∧ (onCan k f s).fl = s.fl ∧ (onCan k f s).nx = s.nx ∧ (onCan k f s).snapS = s.snapS ∧
    (onCan k f s).alc = s.alc ∧ (onCan k f s).ctl = s.ctl ∧ (onCan k f s).late = s.late ∧ (onCan k f s).thermFn = s.thermFn ∧
    (onCan k f s).cclR = s.cclR ∧ (onCan k f s).fbkWeldNote = s.fbkWeldNote ∧ (onCan k f s).fbkTripFn = s.fbkTripFn ∧
    (onCan k f s).osqR = s.osqR ∧ (onCan k f s).vlk = s.vlk ∧ (onCan k f s).slac = s.slac ∧ (onCan k f s).met = s.met ∧
    (onCan k f s).bilR = s.bilR ∧ (onCan k f s).hwd = s.hwd ∧ (onCan k f s).fwu = s.fwu ∧ (onCan k f s).tdm = s.tdm ∧
    (onCan k f s).fbk = s.fbk ∧ (onCan k f s).aux = s.aux ∧ (onCan k f s).hkp = s.hkp ∧ (onCan k f s).jnlOld = s.jnlOld ∧
    (onCan k f s).lnd = s.lnd ∧ (onCan k f s).hst = s.hst ∧ (onCan k f s).can = Vec.upd s.can k f :=
  ⟨rfl, rfl, rfl, rfl, rfl, rfl, rfl, rfl, rfl, rfl, rfl, rfl, rfl, rfl, rfl, rfl, rfl, rfl, rfl, rfl, rfl, rfl, rfl, rfl,
    rfl, rfl, rfl, rfl, rfl, rfl, rfl, rfl, rfl, rfl, rfl, rfl, rfl, rfl, rfl, rfl⟩
@[simp] theorem onFbk_fields (f : Fbk → Fbk) (s : State) :
    (onFbk f s).pending = s.pending ∧ (onFbk f s).freeIx = s.freeIx ∧ (onFbk f s).otp = s.otp ∧ (onFbk f s).isl = s.isl ∧
    (onFbk f s).fn = s.fn ∧ (onFbk f s).live = s.live ∧ (onFbk f s).cap = s.cap ∧ (onFbk f s).lat = s.lat ∧
    (onFbk f s).arrived = s.arrived ∧ (onFbk f s).deferred = s.deferred ∧ (onFbk f s).evs = s.evs ∧ (onFbk f s).mbx = s.mbx ∧
    (onFbk f s).smp = s.smp ∧ (onFbk f s).map = s.map ∧ (onFbk f s).flash = s.flash ∧ (onFbk f s).fl = s.fl ∧
    (onFbk f s).nx = s.nx ∧ (onFbk f s).snapS = s.snapS ∧ (onFbk f s).alc = s.alc ∧ (onFbk f s).ctl = s.ctl ∧
    (onFbk f s).late = s.late ∧ (onFbk f s).thermFn = s.thermFn ∧ (onFbk f s).cclR = s.cclR ∧
    (onFbk f s).fbkWeldNote = s.fbkWeldNote ∧ (onFbk f s).fbkTripFn = s.fbkTripFn ∧ (onFbk f s).osqR = s.osqR ∧
    (onFbk f s).vlk = s.vlk ∧ (onFbk f s).slac = s.slac ∧ (onFbk f s).met = s.met ∧ (onFbk f s).bilR = s.bilR ∧
    (onFbk f s).hwd = s.hwd ∧ (onFbk f s).fwu = s.fwu ∧ (onFbk f s).tdm = s.tdm ∧ (onFbk f s).aux = s.aux ∧
    (onFbk f s).can = s.can ∧ (onFbk f s).hkp = s.hkp ∧ (onFbk f s).jnlOld = s.jnlOld ∧ (onFbk f s).lnd = s.lnd ∧
    (onFbk f s).hst = s.hst ∧ (onFbk f s).fbk = f s.fbk :=
  ⟨rfl, rfl, rfl, rfl, rfl, rfl, rfl, rfl, rfl, rfl, rfl, rfl, rfl, rfl, rfl, rfl, rfl, rfl, rfl, rfl, rfl, rfl, rfl, rfl,
    rfl, rfl, rfl, rfl, rfl, rfl, rfl, rfl, rfl, rfl, rfl, rfl, rfl, rfl, rfl, rfl⟩
@[simp] theorem onBrk_fields (b : Fin 8) (g : FbkBrk → FbkBrk) (s : State) :
    (onBrk b g s).pending = s.pending ∧ (onBrk b g s).freeIx = s.freeIx ∧ (onBrk b g s).otp = s.otp ∧
    (onBrk b g s).isl = s.isl ∧ (onBrk b g s).fn = s.fn ∧ (onBrk b g s).live = s.live ∧ (onBrk b g s).cap = s.cap ∧
    (onBrk b g s).lat = s.lat ∧ (onBrk b g s).arrived = s.arrived ∧ (onBrk b g s).deferred = s.deferred ∧
    (onBrk b g s).evs = s.evs ∧ (onBrk b g s).mbx = s.mbx ∧ (onBrk b g s).smp = s.smp ∧ (onBrk b g s).map = s.map ∧
    (onBrk b g s).flash = s.flash ∧ (onBrk b g s).fl = s.fl ∧ (onBrk b g s).nx = s.nx ∧ (onBrk b g s).snapS = s.snapS ∧
    (onBrk b g s).alc = s.alc ∧ (onBrk b g s).ctl = s.ctl ∧ (onBrk b g s).late = s.late ∧ (onBrk b g s).thermFn = s.thermFn ∧
    (onBrk b g s).cclR = s.cclR ∧ (onBrk b g s).fbkWeldNote = s.fbkWeldNote ∧ (onBrk b g s).fbkTripFn = s.fbkTripFn ∧
    (onBrk b g s).osqR = s.osqR ∧ (onBrk b g s).vlk = s.vlk ∧ (onBrk b g s).slac = s.slac ∧ (onBrk b g s).met = s.met ∧
    (onBrk b g s).bilR = s.bilR ∧ (onBrk b g s).hwd = s.hwd ∧ (onBrk b g s).fwu = s.fwu ∧ (onBrk b g s).tdm = s.tdm ∧
    (onBrk b g s).aux = s.aux ∧ (onBrk b g s).can = s.can ∧ (onBrk b g s).hkp = s.hkp ∧ (onBrk b g s).jnlOld = s.jnlOld ∧
    (onBrk b g s).lnd = s.lnd ∧ (onBrk b g s).hst = s.hst ∧ (onBrk b g s).fbk = { s.fbk with brk := Vec.upd s.fbk.brk b g } :=
  ⟨rfl, rfl, rfl, rfl, rfl, rfl, rfl, rfl, rfl, rfl, rfl, rfl, rfl, rfl, rfl, rfl, rfl, rfl, rfl, rfl, rfl, rfl, rfl, rfl,
    rfl, rfl, rfl, rfl, rfl, rfl, rfl, rfl, rfl, rfl, rfl, rfl, rfl, rfl, rfl, rfl⟩
@[simp] theorem onZone_fields (z : Fin 8) (g : FbkZone → FbkZone) (s : State) :
    (onZone z g s).pending = s.pending ∧ (onZone z g s).freeIx = s.freeIx ∧ (onZone z g s).otp = s.otp ∧
    (onZone z g s).isl = s.isl ∧ (onZone z g s).fn = s.fn ∧ (onZone z g s).live = s.live ∧ (onZone z g s).cap = s.cap ∧
    (onZone z g s).lat = s.lat ∧ (onZone z g s).arrived = s.arrived ∧ (onZone z g s).deferred = s.deferred ∧
    (onZone z g s).evs = s.evs ∧ (onZone z g s).mbx = s.mbx ∧ (onZone z g s).smp = s.smp ∧ (onZone z g s).map = s.map ∧
    (onZone z g s).flash = s.flash ∧ (onZone z g s).fl = s.fl ∧ (onZone z g s).nx = s.nx ∧ (onZone z g s).snapS = s.snapS ∧
    (onZone z g s).alc = s.alc ∧ (onZone z g s).ctl = s.ctl ∧ (onZone z g s).late = s.late ∧
    (onZone z g s).thermFn = s.thermFn ∧ (onZone z g s).cclR = s.cclR ∧ (onZone z g s).fbkWeldNote = s.fbkWeldNote ∧
    (onZone z g s).fbkTripFn = s.fbkTripFn ∧ (onZone z g s).osqR = s.osqR ∧ (onZone z g s).vlk = s.vlk ∧
    (onZone z g s).slac = s.slac ∧ (onZone z g s).met = s.met ∧ (onZone z g s).bilR = s.bilR ∧ (onZone z g s).hwd = s.hwd ∧
    (onZone z g s).fwu = s.fwu ∧ (onZone z g s).tdm = s.tdm ∧ (onZone z g s).aux = s.aux ∧ (onZone z g s).can = s.can ∧
    (onZone z g s).hkp = s.hkp ∧ (onZone z g s).jnlOld = s.jnlOld ∧ (onZone z g s).lnd = s.lnd ∧ (onZone z g s).hst = s.hst ∧
    (onZone z g s).fbk = { s.fbk with zone := Vec.upd s.fbk.zone z g } :=
  ⟨rfl, rfl, rfl, rfl, rfl, rfl, rfl, rfl, rfl, rfl, rfl, rfl, rfl, rfl, rfl, rfl, rfl, rfl, rfl, rfl, rfl, rfl, rfl, rfl,
    rfl, rfl, rfl, rfl, rfl, rfl, rfl, rfl, rfl, rfl, rfl, rfl, rfl, rfl, rfl, rfl⟩
@[simp] theorem onFwu_fields (f : Fwu → Fwu) (s : State) :
    (onFwu f s).pending = s.pending ∧ (onFwu f s).freeIx = s.freeIx ∧ (onFwu f s).otp = s.otp ∧ (onFwu f s).isl = s.isl ∧
    (onFwu f s).fn = s.fn ∧ (onFwu f s).live = s.live ∧ (onFwu f s).cap = s.cap ∧ (onFwu f s).lat = s.lat ∧
    (onFwu f s).arrived = s.arrived ∧ (onFwu f s).deferred = s.deferred ∧ (onFwu f s).evs = s.evs ∧ (onFwu f s).mbx = s.mbx ∧
    (onFwu f s).smp = s.smp ∧ (onFwu f s).map = s.map ∧ (onFwu f s).flash = s.flash ∧ (onFwu f s).fl = s.fl ∧
    (onFwu f s).nx = s.nx ∧ (onFwu f s).snapS = s.snapS ∧ (onFwu f s).alc = s.alc ∧ (onFwu f s).ctl = s.ctl ∧
    (onFwu f s).late = s.late ∧ (onFwu f s).thermFn = s.thermFn ∧ (onFwu f s).cclR = s.cclR ∧
    (onFwu f s).fbkWeldNote = s.fbkWeldNote ∧ (onFwu f s).fbkTripFn = s.fbkTripFn ∧ (onFwu f s).osqR = s.osqR ∧
    (onFwu f s).vlk = s.vlk ∧ (onFwu f s).slac = s.slac ∧ (onFwu f s).met = s.met ∧ (onFwu f s).bilR = s.bilR ∧
    (onFwu f s).hwd = s.hwd ∧ (onFwu f s).tdm = s.tdm ∧ (onFwu f s).fbk = s.fbk ∧ (onFwu f s).aux = s.aux ∧
    (onFwu f s).can = s.can ∧ (onFwu f s).hkp = s.hkp ∧ (onFwu f s).jnlOld = s.jnlOld ∧ (onFwu f s).lnd = s.lnd ∧
    (onFwu f s).hst = s.hst ∧ (onFwu f s).fwu = f s.fwu :=
  ⟨rfl, rfl, rfl, rfl, rfl, rfl, rfl, rfl, rfl, rfl, rfl, rfl, rfl, rfl, rfl, rfl, rfl, rfl, rfl, rfl, rfl, rfl, rfl, rfl,
    rfl, rfl, rfl, rfl, rfl, rfl, rfl, rfl, rfl, rfl, rfl, rfl, rfl, rfl, rfl, rfl⟩
@[simp] theorem onHkp_fields (f : Hkp → Hkp) (s : State) :
    (onHkp f s).pending = s.pending ∧ (onHkp f s).freeIx = s.freeIx ∧ (onHkp f s).otp = s.otp ∧ (onHkp f s).isl = s.isl ∧
    (onHkp f s).fn = s.fn ∧ (onHkp f s).live = s.live ∧ (onHkp f s).cap = s.cap ∧ (onHkp f s).lat = s.lat ∧
    (onHkp f s).arrived = s.arrived ∧ (onHkp f s).deferred = s.deferred ∧ (onHkp f s).evs = s.evs ∧ (onHkp f s).mbx = s.mbx ∧
    (onHkp f s).smp = s.smp ∧ (onHkp f s).map = s.map ∧ (onHkp f s).flash = s.flash ∧ (onHkp f s).fl = s.fl ∧
    (onHkp f s).nx = s.nx ∧ (onHkp f s).snapS = s.snapS ∧ (onHkp f s).alc = s.alc ∧ (onHkp f s).ctl = s.ctl ∧
    (onHkp f s).late = s.late ∧ (onHkp f s).thermFn = s.thermFn ∧ (onHkp f s).cclR = s.cclR ∧
    (onHkp f s).fbkWeldNote = s.fbkWeldNote ∧ (onHkp f s).fbkTripFn = s.fbkTripFn ∧ (onHkp f s).osqR = s.osqR ∧
    (onHkp f s).vlk = s.vlk ∧ (onHkp f s).slac = s.slac ∧ (onHkp f s).met = s.met ∧ (onHkp f s).bilR = s.bilR ∧
    (onHkp f s).hwd = s.hwd ∧ (onHkp f s).fwu = s.fwu ∧ (onHkp f s).tdm = s.tdm ∧ (onHkp f s).fbk = s.fbk ∧
    (onHkp f s).aux = s.aux ∧ (onHkp f s).can = s.can ∧ (onHkp f s).jnlOld = s.jnlOld ∧ (onHkp f s).lnd = s.lnd ∧
    (onHkp f s).hst = s.hst ∧ (onHkp f s).hkp = f s.hkp :=
  ⟨rfl, rfl, rfl, rfl, rfl, rfl, rfl, rfl, rfl, rfl, rfl, rfl, rfl, rfl, rfl, rfl, rfl, rfl, rfl, rfl, rfl, rfl, rfl, rfl,
    rfl, rfl, rfl, rfl, rfl, rfl, rfl, rfl, rfl, rfl, rfl, rfl, rfl, rfl, rfl, rfl⟩
@[simp] theorem onHwd_fields (f : Hwd → Hwd) (s : State) :
    (onHwd f s).pending = s.pending ∧ (onHwd f s).freeIx = s.freeIx ∧ (onHwd f s).otp = s.otp ∧ (onHwd f s).isl = s.isl ∧
    (onHwd f s).fn = s.fn ∧ (onHwd f s).live = s.live ∧ (onHwd f s).cap = s.cap ∧ (onHwd f s).lat = s.lat ∧
    (onHwd f s).arrived = s.arrived ∧ (onHwd f s).deferred = s.deferred ∧ (onHwd f s).evs = s.evs ∧ (onHwd f s).mbx = s.mbx ∧
    (onHwd f s).smp = s.smp ∧ (onHwd f s).map = s.map ∧ (onHwd f s).flash = s.flash ∧ (onHwd f s).fl = s.fl ∧
    (onHwd f s).nx = s.nx ∧ (onHwd f s).snapS = s.snapS ∧ (onHwd f s).alc = s.alc ∧ (onHwd f s).ctl = s.ctl ∧
    (onHwd f s).late = s.late ∧ (onHwd f s).thermFn = s.thermFn ∧ (onHwd f s).cclR = s.cclR ∧
    (onHwd f s).fbkWeldNote = s.fbkWeldNote ∧ (onHwd f s).fbkTripFn = s.fbkTripFn ∧ (onHwd f s).osqR = s.osqR ∧
    (onHwd f s).vlk = s.vlk ∧ (onHwd f s).slac = s.slac ∧ (onHwd f s).met = s.met ∧ (onHwd f s).bilR = s.bilR ∧
    (onHwd f s).fwu = s.fwu ∧ (onHwd f s).tdm = s.tdm ∧ (onHwd f s).fbk = s.fbk ∧ (onHwd f s).aux = s.aux ∧
    (onHwd f s).can = s.can ∧ (onHwd f s).hkp = s.hkp ∧ (onHwd f s).jnlOld = s.jnlOld ∧ (onHwd f s).lnd = s.lnd ∧
    (onHwd f s).hst = s.hst ∧ (onHwd f s).hwd = f s.hwd :=
  ⟨rfl, rfl, rfl, rfl, rfl, rfl, rfl, rfl, rfl, rfl, rfl, rfl, rfl, rfl, rfl, rfl, rfl, rfl, rfl, rfl, rfl, rfl, rfl, rfl,
    rfl, rfl, rfl, rfl, rfl, rfl, rfl, rfl, rfl, rfl, rfl, rfl, rfl, rfl, rfl, rfl⟩
@[simp] theorem onHst_fields (f : Hst → Hst) (s : State) :
    (onHst f s).pending = s.pending ∧ (onHst f s).freeIx = s.freeIx ∧ (onHst f s).otp = s.otp ∧ (onHst f s).isl = s.isl ∧
    (onHst f s).fn = s.fn ∧ (onHst f s).live = s.live ∧ (onHst f s).cap = s.cap ∧ (onHst f s).lat = s.lat ∧
    (onHst f s).arrived = s.arrived ∧ (onHst f s).deferred = s.deferred ∧ (onHst f s).evs = s.evs ∧ (onHst f s).mbx = s.mbx ∧
    (onHst f s).smp = s.smp ∧ (onHst f s).map = s.map ∧ (onHst f s).flash = s.flash ∧ (onHst f s).fl = s.fl ∧
    (onHst f s).nx = s.nx ∧ (onHst f s).snapS = s.snapS ∧ (onHst f s).alc = s.alc ∧ (onHst f s).ctl = s.ctl ∧
    (onHst f s).late = s.late ∧ (onHst f s).thermFn = s.thermFn ∧ (onHst f s).cclR = s.cclR ∧
    (onHst f s).fbkWeldNote = s.fbkWeldNote ∧ (onHst f s).fbkTripFn = s.fbkTripFn ∧ (onHst f s).osqR = s.osqR ∧
    (onHst f s).vlk = s.vlk ∧ (onHst f s).slac = s.slac ∧ (onHst f s).met = s.met ∧ (onHst f s).bilR = s.bilR ∧
    (onHst f s).hwd = s.hwd ∧ (onHst f s).fwu = s.fwu ∧ (onHst f s).tdm = s.tdm ∧ (onHst f s).fbk = s.fbk ∧
    (onHst f s).aux = s.aux ∧ (onHst f s).can = s.can ∧ (onHst f s).hkp = s.hkp ∧ (onHst f s).jnlOld = s.jnlOld ∧
    (onHst f s).lnd = s.lnd ∧ (onHst f s).hst = f s.hst :=
  ⟨rfl, rfl, rfl, rfl, rfl, rfl, rfl, rfl, rfl, rfl, rfl, rfl, rfl, rfl, rfl, rfl, rfl, rfl, rfl, rfl, rfl, rfl, rfl, rfl,
    rfl, rfl, rfl, rfl, rfl, rfl, rfl, rfl, rfl, rfl, rfl, rfl, rfl, rfl, rfl, rfl⟩
@[simp] theorem onLnd_fields (f : Lnd → Lnd) (s : State) :
    (onLnd f s).pending = s.pending ∧ (onLnd f s).freeIx = s.freeIx ∧ (onLnd f s).otp = s.otp ∧ (onLnd f s).isl = s.isl ∧
    (onLnd f s).fn = s.fn ∧ (onLnd f s).live = s.live ∧ (onLnd f s).cap = s.cap ∧ (onLnd f s).lat = s.lat ∧
    (onLnd f s).arrived = s.arrived ∧ (onLnd f s).deferred = s.deferred ∧ (onLnd f s).evs = s.evs ∧ (onLnd f s).mbx = s.mbx ∧
    (onLnd f s).smp = s.smp ∧ (onLnd f s).map = s.map ∧ (onLnd f s).flash = s.flash ∧ (onLnd f s).fl = s.fl ∧
    (onLnd f s).nx = s.nx ∧ (onLnd f s).snapS = s.snapS ∧ (onLnd f s).alc = s.alc ∧ (onLnd f s).ctl = s.ctl ∧
    (onLnd f s).late = s.late ∧ (onLnd f s).thermFn = s.thermFn ∧ (onLnd f s).cclR = s.cclR ∧
    (onLnd f s).fbkWeldNote = s.fbkWeldNote ∧ (onLnd f s).fbkTripFn = s.fbkTripFn ∧ (onLnd f s).osqR = s.osqR ∧
    (onLnd f s).vlk = s.vlk ∧ (onLnd f s).slac = s.slac ∧ (onLnd f s).met = s.met ∧ (onLnd f s).bilR = s.bilR ∧
    (onLnd f s).hwd = s.hwd ∧ (onLnd f s).fwu = s.fwu ∧ (onLnd f s).tdm = s.tdm ∧ (onLnd f s).fbk = s.fbk ∧
    (onLnd f s).aux = s.aux ∧ (onLnd f s).can = s.can ∧ (onLnd f s).hkp = s.hkp ∧ (onLnd f s).jnlOld = s.jnlOld ∧
    (onLnd f s).hst = s.hst ∧ (onLnd f s).lnd = f s.lnd :=
  ⟨rfl, rfl, rfl, rfl, rfl, rfl, rfl, rfl, rfl, rfl, rfl, rfl, rfl, rfl, rfl, rfl, rfl, rfl, rfl, rfl, rfl, rfl, rfl, rfl,
    rfl, rfl, rfl, rfl, rfl, rfl, rfl, rfl, rfl, rfl, rfl, rfl, rfl, rfl, rfl, rfl⟩
@[simp] theorem onMet_fields (f : Met → Met) (s : State) :
    (onMet f s).pending = s.pending ∧ (onMet f s).freeIx = s.freeIx ∧ (onMet f s).otp = s.otp ∧ (onMet f s).isl = s.isl ∧
    (onMet f s).fn = s.fn ∧ (onMet f s).live = s.live ∧ (onMet f s).cap = s.cap ∧ (onMet f s).lat = s.lat ∧
    (onMet f s).arrived = s.arrived ∧ (onMet f s).deferred = s.deferred ∧ (onMet f s).evs = s.evs ∧ (onMet f s).mbx = s.mbx ∧
    (onMet f s).smp = s.smp ∧ (onMet f s).map = s.map ∧ (onMet f s).flash = s.flash ∧ (onMet f s).fl = s.fl ∧
    (onMet f s).nx = s.nx ∧ (onMet f s).snapS = s.snapS ∧ (onMet f s).alc = s.alc ∧ (onMet f s).ctl = s.ctl ∧
    (onMet f s).late = s.late ∧ (onMet f s).thermFn = s.thermFn ∧ (onMet f s).cclR = s.cclR ∧
    (onMet f s).fbkWeldNote = s.fbkWeldNote ∧ (onMet f s).fbkTripFn = s.fbkTripFn ∧ (onMet f s).osqR = s.osqR ∧
    (onMet f s).vlk = s.vlk ∧ (onMet f s).slac = s.slac ∧ (onMet f s).bilR = s.bilR ∧ (onMet f s).hwd = s.hwd ∧
    (onMet f s).fwu = s.fwu ∧ (onMet f s).tdm = s.tdm ∧ (onMet f s).fbk = s.fbk ∧ (onMet f s).aux = s.aux ∧
    (onMet f s).can = s.can ∧ (onMet f s).hkp = s.hkp ∧ (onMet f s).jnlOld = s.jnlOld ∧ (onMet f s).lnd = s.lnd ∧
    (onMet f s).hst = s.hst ∧ (onMet f s).met = f s.met :=
  ⟨rfl, rfl, rfl, rfl, rfl, rfl, rfl, rfl, rfl, rfl, rfl, rfl, rfl, rfl, rfl, rfl, rfl, rfl, rfl, rfl, rfl, rfl, rfl, rfl,
    rfl, rfl, rfl, rfl, rfl, rfl, rfl, rfl, rfl, rfl, rfl, rfl, rfl, rfl, rfl, rfl⟩
@[simp] theorem onVlk_fields (o : OutIx) (f : Vlk → Vlk) (s : State) :
    (onVlk o f s).pending = s.pending ∧ (onVlk o f s).freeIx = s.freeIx ∧ (onVlk o f s).otp = s.otp ∧
    (onVlk o f s).isl = s.isl ∧ (onVlk o f s).fn = s.fn ∧ (onVlk o f s).live = s.live ∧ (onVlk o f s).cap = s.cap ∧
    (onVlk o f s).lat = s.lat ∧ (onVlk o f s).arrived = s.arrived ∧ (onVlk o f s).deferred = s.deferred ∧
    (onVlk o f s).evs = s.evs ∧ (onVlk o f s).mbx = s.mbx ∧ (onVlk o f s).smp = s.smp ∧ (onVlk o f s).map = s.map ∧
    (onVlk o f s).flash = s.flash ∧ (onVlk o f s).fl = s.fl ∧ (onVlk o f s).nx = s.nx ∧ (onVlk o f s).snapS = s.snapS ∧
    (onVlk o f s).alc = s.alc ∧ (onVlk o f s).ctl = s.ctl ∧ (onVlk o f s).late = s.late ∧ (onVlk o f s).thermFn = s.thermFn ∧
    (onVlk o f s).cclR = s.cclR ∧ (onVlk o f s).fbkWeldNote = s.fbkWeldNote ∧ (onVlk o f s).fbkTripFn = s.fbkTripFn ∧
    (onVlk o f s).osqR = s.osqR ∧ (onVlk o f s).slac = s.slac ∧ (onVlk o f s).met = s.met ∧ (onVlk o f s).bilR = s.bilR ∧
    (onVlk o f s).hwd = s.hwd ∧ (onVlk o f s).fwu = s.fwu ∧ (onVlk o f s).tdm = s.tdm ∧ (onVlk o f s).fbk = s.fbk ∧
    (onVlk o f s).aux = s.aux ∧ (onVlk o f s).can = s.can ∧ (onVlk o f s).hkp = s.hkp ∧ (onVlk o f s).jnlOld = s.jnlOld ∧
    (onVlk o f s).lnd = s.lnd ∧ (onVlk o f s).hst = s.hst ∧ (onVlk o f s).vlk = Vec.upd s.vlk o f :=
  ⟨rfl, rfl, rfl, rfl, rfl, rfl, rfl, rfl, rfl, rfl, rfl, rfl, rfl, rfl, rfl, rfl, rfl, rfl, rfl, rfl, rfl, rfl, rfl, rfl,
    rfl, rfl, rfl, rfl, rfl, rfl, rfl, rfl, rfl, rfl, rfl, rfl, rfl, rfl, rfl, rfl⟩
@[simp] theorem onOsqR_fields (o : OutIx) (f : OsqReg → OsqReg) (s : State) :
    (onOsqR o f s).pending = s.pending ∧ (onOsqR o f s).freeIx = s.freeIx ∧ (onOsqR o f s).otp = s.otp ∧
    (onOsqR o f s).isl = s.isl ∧ (onOsqR o f s).fn = s.fn ∧ (onOsqR o f s).live = s.live ∧ (onOsqR o f s).cap = s.cap ∧
    (onOsqR o f s).lat = s.lat ∧ (onOsqR o f s).arrived = s.arrived ∧ (onOsqR o f s).deferred = s.deferred ∧
    (onOsqR o f s).evs = s.evs ∧ (onOsqR o f s).mbx = s.mbx ∧ (onOsqR o f s).smp = s.smp ∧ (onOsqR o f s).map = s.map ∧
    (onOsqR o f s).flash = s.flash ∧ (onOsqR o f s).fl = s.fl ∧ (onOsqR o f s).nx = s.nx ∧ (onOsqR o f s).snapS = s.snapS ∧
    (onOsqR o f s).alc = s.alc ∧ (onOsqR o f s).ctl = s.ctl ∧ (onOsqR o f s).late = s.late ∧
    (onOsqR o f s).thermFn = s.thermFn ∧ (onOsqR o f s).cclR = s.cclR ∧ (onOsqR o f s).fbkWeldNote = s.fbkWeldNote ∧
    (onOsqR o f s).fbkTripFn = s.fbkTripFn ∧ (onOsqR o f s).vlk = s.vlk ∧ (onOsqR o f s).slac = s.slac ∧
    (onOsqR o f s).met = s.met ∧ (onOsqR o f s).bilR = s.bilR ∧ (onOsqR o f s).hwd = s.hwd ∧ (onOsqR o f s).fwu = s.fwu ∧
    (onOsqR o f s).tdm = s.tdm ∧ (onOsqR o f s).fbk = s.fbk ∧ (onOsqR o f s).aux = s.aux ∧ (onOsqR o f s).can = s.can ∧
    (onOsqR o f s).hkp = s.hkp ∧ (onOsqR o f s).jnlOld = s.jnlOld ∧ (onOsqR o f s).lnd = s.lnd ∧ (onOsqR o f s).hst = s.hst ∧
    (onOsqR o f s).osqR = Vec.upd s.osqR o f :=
  ⟨rfl, rfl, rfl, rfl, rfl, rfl, rfl, rfl, rfl, rfl, rfl, rfl, rfl, rfl, rfl, rfl, rfl, rfl, rfl, rfl, rfl, rfl, rfl, rfl,
    rfl, rfl, rfl, rfl, rfl, rfl, rfl, rfl, rfl, rfl, rfl, rfl, rfl, rfl, rfl, rfl⟩
@[simp] theorem onCclR_fields (o : OutIx) (f : CclReg → CclReg) (s : State) :
    (onCclR o f s).pending = s.pending ∧ (onCclR o f s).freeIx = s.freeIx ∧ (onCclR o f s).otp = s.otp ∧
    (onCclR o f s).isl = s.isl ∧ (onCclR o f s).fn = s.fn ∧ (onCclR o f s).live = s.live ∧ (onCclR o f s).cap = s.cap ∧
    (onCclR o f s).lat = s.lat ∧ (onCclR o f s).arrived = s.arrived ∧ (onCclR o f s).deferred = s.deferred ∧
    (onCclR o f s).evs = s.evs ∧ (onCclR o f s).mbx = s.mbx ∧ (onCclR o f s).smp = s.smp ∧ (onCclR o f s).map = s.map ∧
    (onCclR o f s).flash = s.flash ∧ (onCclR o f s).fl = s.fl ∧ (onCclR o f s).nx = s.nx ∧ (onCclR o f s).snapS = s.snapS ∧
    (onCclR o f s).alc = s.alc ∧ (onCclR o f s).ctl = s.ctl ∧ (onCclR o f s).late = s.late ∧
    (onCclR o f s).thermFn = s.thermFn ∧ (onCclR o f s).fbkWeldNote = s.fbkWeldNote ∧ (onCclR o f s).fbkTripFn = s.fbkTripFn ∧
    (onCclR o f s).osqR = s.osqR ∧ (onCclR o f s).vlk = s.vlk ∧ (onCclR o f s).slac = s.slac ∧ (onCclR o f s).met = s.met ∧
    (onCclR o f s).bilR = s.bilR ∧ (onCclR o f s).hwd = s.hwd ∧ (onCclR o f s).fwu = s.fwu ∧ (onCclR o f s).tdm = s.tdm ∧
    (onCclR o f s).fbk = s.fbk ∧ (onCclR o f s).aux = s.aux ∧ (onCclR o f s).can = s.can ∧ (onCclR o f s).hkp = s.hkp ∧
    (onCclR o f s).jnlOld = s.jnlOld ∧ (onCclR o f s).lnd = s.lnd ∧ (onCclR o f s).hst = s.hst ∧
    (onCclR o f s).cclR = Vec.upd s.cclR o f :=
  ⟨rfl, rfl, rfl, rfl, rfl, rfl, rfl, rfl, rfl, rfl, rfl, rfl, rfl, rfl, rfl, rfl, rfl, rfl, rfl, rfl, rfl, rfl, rfl, rfl,
    rfl, rfl, rfl, rfl, rfl, rfl, rfl, rfl, rfl, rfl, rfl, rfl, rfl, rfl, rfl, rfl⟩
@[simp] theorem onSmp_fields (f : Smp → Smp) (s : State) :
    (onSmp f s).pending = s.pending ∧ (onSmp f s).freeIx = s.freeIx ∧ (onSmp f s).otp = s.otp ∧ (onSmp f s).isl = s.isl ∧
    (onSmp f s).fn = s.fn ∧ (onSmp f s).live = s.live ∧ (onSmp f s).cap = s.cap ∧ (onSmp f s).lat = s.lat ∧
    (onSmp f s).arrived = s.arrived ∧ (onSmp f s).deferred = s.deferred ∧ (onSmp f s).evs = s.evs ∧ (onSmp f s).mbx = s.mbx ∧
    (onSmp f s).map = s.map ∧ (onSmp f s).flash = s.flash ∧ (onSmp f s).fl = s.fl ∧ (onSmp f s).nx = s.nx ∧
    (onSmp f s).snapS = s.snapS ∧ (onSmp f s).alc = s.alc ∧ (onSmp f s).ctl = s.ctl ∧ (onSmp f s).late = s.late ∧
    (onSmp f s).thermFn = s.thermFn ∧ (onSmp f s).cclR = s.cclR ∧ (onSmp f s).fbkWeldNote = s.fbkWeldNote ∧
    (onSmp f s).fbkTripFn = s.fbkTripFn ∧ (onSmp f s).osqR = s.osqR ∧ (onSmp f s).vlk = s.vlk ∧ (onSmp f s).slac = s.slac ∧
    (onSmp f s).met = s.met ∧ (onSmp f s).bilR = s.bilR ∧ (onSmp f s).hwd = s.hwd ∧ (onSmp f s).fwu = s.fwu ∧
    (onSmp f s).tdm = s.tdm ∧ (onSmp f s).fbk = s.fbk ∧ (onSmp f s).aux = s.aux ∧ (onSmp f s).can = s.can ∧
    (onSmp f s).hkp = s.hkp ∧ (onSmp f s).jnlOld = s.jnlOld ∧ (onSmp f s).lnd = s.lnd ∧ (onSmp f s).hst = s.hst ∧
    (onSmp f s).smp = f s.smp :=
  ⟨rfl, rfl, rfl, rfl, rfl, rfl, rfl, rfl, rfl, rfl, rfl, rfl, rfl, rfl, rfl, rfl, rfl, rfl, rfl, rfl, rfl, rfl, rfl, rfl,
    rfl, rfl, rfl, rfl, rfl, rfl, rfl, rfl, rfl, rfl, rfl, rfl, rfl, rfl, rfl, rfl⟩
@[simp] theorem onSw_fields (k : SwIx) (f : Sw → Sw) (s : State) :
    (onSw k f s).pending = s.pending ∧ (onSw k f s).freeIx = s.freeIx ∧ (onSw k f s).otp = s.otp ∧ (onSw k f s).isl = s.isl ∧
    (onSw k f s).fn = s.fn ∧ (onSw k f s).live = s.live ∧ (onSw k f s).cap = s.cap ∧ (onSw k f s).lat = s.lat ∧
    (onSw k f s).arrived = s.arrived ∧ (onSw k f s).deferred = s.deferred ∧ (onSw k f s).evs = s.evs ∧
    (onSw k f s).mbx = s.mbx ∧ (onSw k f s).smp = s.smp ∧ (onSw k f s).map = s.map ∧ (onSw k f s).flash = s.flash ∧
    (onSw k f s).fl = s.fl ∧ (onSw k f s).nx = s.nx ∧ (onSw k f s).snapS = s.snapS ∧ (onSw k f s).alc = s.alc ∧
    (onSw k f s).ctl = s.ctl ∧ (onSw k f s).late = s.late ∧ (onSw k f s).thermFn = s.thermFn ∧ (onSw k f s).cclR = s.cclR ∧
    (onSw k f s).fbkWeldNote = s.fbkWeldNote ∧ (onSw k f s).fbkTripFn = s.fbkTripFn ∧ (onSw k f s).osqR = s.osqR ∧
    (onSw k f s).vlk = s.vlk ∧ (onSw k f s).slac = s.slac ∧ (onSw k f s).met = s.met ∧ (onSw k f s).bilR = s.bilR ∧
    (onSw k f s).hwd = s.hwd ∧ (onSw k f s).fwu = s.fwu ∧ (onSw k f s).tdm = s.tdm ∧ (onSw k f s).fbk = s.fbk ∧
    (onSw k f s).can = s.can ∧ (onSw k f s).hkp = s.hkp ∧ (onSw k f s).jnlOld = s.jnlOld ∧ (onSw k f s).lnd = s.lnd ∧
    (onSw k f s).hst = s.hst ∧ (onSw k f s).aux = { s.aux with sw := Vec.upd s.aux.sw k f } :=
  ⟨rfl, rfl, rfl, rfl, rfl, rfl, rfl, rfl, rfl, rfl, rfl, rfl, rfl, rfl, rfl, rfl, rfl, rfl, rfl, rfl, rfl, rfl, rfl, rfl,
    rfl, rfl, rfl, rfl, rfl, rfl, rfl, rfl, rfl, rfl, rfl, rfl, rfl, rfl, rfl, rfl⟩
@[simp] theorem onTdm_fields (f : Tdm → Tdm) (s : State) :
    (onTdm f s).pending = s.pending ∧ (onTdm f s).freeIx = s.freeIx ∧ (onTdm f s).otp = s.otp ∧ (onTdm f s).isl = s.isl ∧
    (onTdm f s).fn = s.fn ∧ (onTdm f s).live = s.live ∧ (onTdm f s).cap = s.cap ∧ (onTdm f s).lat = s.lat ∧
    (onTdm f s).arrived = s.arrived ∧ (onTdm f s).deferred = s.deferred ∧ (onTdm f s).evs = s.evs ∧ (onTdm f s).mbx = s.mbx ∧
    (onTdm f s).smp = s.smp ∧ (onTdm f s).map = s.map ∧ (onTdm f s).flash = s.flash ∧ (onTdm f s).fl = s.fl ∧
    (onTdm f s).nx = s.nx ∧ (onTdm f s).snapS = s.snapS ∧ (onTdm f s).alc = s.alc ∧ (onTdm f s).ctl = s.ctl ∧
    (onTdm f s).late = s.late ∧ (onTdm f s).thermFn = s.thermFn ∧ (onTdm f s).cclR = s.cclR ∧
    (onTdm f s).fbkWeldNote = s.fbkWeldNote ∧ (onTdm f s).fbkTripFn = s.fbkTripFn ∧ (onTdm f s).osqR = s.osqR ∧
    (onTdm f s).vlk = s.vlk ∧ (onTdm f s).slac = s.slac ∧ (onTdm f s).met = s.met ∧ (onTdm f s).bilR = s.bilR ∧
    (onTdm f s).hwd = s.hwd ∧ (onTdm f s).fwu = s.fwu ∧ (onTdm f s).fbk = s.fbk ∧ (onTdm f s).aux = s.aux ∧
    (onTdm f s).can = s.can ∧ (onTdm f s).hkp = s.hkp ∧ (onTdm f s).jnlOld = s.jnlOld ∧ (onTdm f s).lnd = s.lnd ∧
    (onTdm f s).hst = s.hst ∧ (onTdm f s).tdm = f s.tdm :=
  ⟨rfl, rfl, rfl, rfl, rfl, rfl, rfl, rfl, rfl, rfl, rfl, rfl, rfl, rfl, rfl, rfl, rfl, rfl, rfl, rfl, rfl, rfl, rfl, rfl,
    rfl, rfl, rfl, rfl, rfl, rfl, rfl, rfl, rfl, rfl, rfl, rfl, rfl, rfl, rfl, rfl⟩

end Sys2Proof.Machine
end

