-- ==== Sys2Proof/Machine/Package.lean ====
section
/-! DEFINITION. What the package fixes: the identity of the endpoint (R447), the printed serial and the lid (R453, R483),
the balls by their rules (R463 to R469), the pilot network (R477) and the dissipation of the switches (R479). -/

namespace Sys2Proof.Machine

/-! ### Identity (R447, R453, R483) -/

/-- The identity of the endpoint: vendor, device, revision, subsystem vendor, subsystem, class code. -/
def pciIdent (s : State) : List Nat := [0x1FB3, 0x9632, 0xB0, 0x1FB3, (orderByte s).toNat, 0x118000]

/-- A hex digit, upper case. -/
def hexDigit (n : Nat) : Char := Char.ofNat (if n < 10 then 48 + n else 55 + n)

/-- The printed form of a serial: five groups of four digits, bits [79:64] first. -/
def serialPrinted (v : BitVec 80) : List Char :=
  let group (g : Nat) : List Char := (List.range 4).map fun d => hexDigit (v.extractLsb' (16 * (4 - g) + 4 * (3 - d)) 4).toNat
  group 0 ++ ['-'] ++ group 1 ++ ['-'] ++ group 2 ++ ['-'] ++ group 3 ++ ['-'] ++ group 4

/-- Lines 1 to 3 of the lid. -/
def lidLines (s : State) : List (List Char) :=
  ["TRELAUPOL".toList, "SN9632-".toList ++ [if s.otp.orderK then 'K' else 'A'] ++ " B0".toList, serialPrinted s.otp.serial]

/-! ### Balls (R463 to R469) -/

/-- What a ball carries. -/
inductive Ball where
  | vss
  | vddCore
  | vddAna
  | vddDram
  | vddIo (bank : Fin 4)
  | vauxIn
  | vbat
  /-- CHP_p: DP, DN, UP, UN. -/
  | chp (p leg : Nat)
  /-- Outlet n: slot t of R466. -/
  | outlet (n t : Nat)
  | hs (k : Nat)
  | ls (k : Nat)
  | auxSense (k : Nat)
  /-- ESTOP of a zone: contact A, or B. -/
  | estop (z : Nat) (b : Bool)
  | testTq (b : Nat)
  | brkPos (b : Nat)
  | safeStop (c : Nat)
  | tamper (k : Nat)
  | hkIn (k : Nat)
  | can (k : Nat) (rx : Bool)
  | pulse (k : Nat)
  | vsel (k : Nat)
  /-- A ball of the blocks that stands alone, by its name. -/
  | one (name : String)
  deriving DecidableEq, Repr, Inhabited

/-- The letters of the rows (R463). -/
def rowLetters : List String :=
  ["A", "B", "C", "D", "E", "F", "G", "H", "J", "K", "L", "M", "N", "P", "T", "U", "V", "W", "Y"] ++
  ["AA", "AB", "AC", "AD", "AE", "AF", "AG", "AH", "AJ", "AK", "AL", "AM", "AN", "AP", "AT", "AU", "AV", "AW", "AY"] ++
  ["BA", "BB", "BC", "BD", "BE", "BF", "BG"]

/-- The name of a position: its row letters and its column number. -/
def posName (r c : Nat) : String × Nat := (rowLetters.getD r "", c + 1)

/-- The position of template (a, b) on a side (R464): row index, column index. -/
def sidePos (side a b : Nat) : Nat × Nat :=
  match side with
  | 0 => (a, b)
  | 1 => (b, 44 - a)
  | 2 => (44 - a, 44 - b)
  | _ => (44 - b, a)

/-- The side, and the template coordinates, of a position outside the centre. -/
def templateOf (r c : Nat) : Option (Nat × Nat × Nat) :=
  if r ≤ 11 && c ≤ 32 then some (0, r, c)
  else if 33 ≤ c && r ≤ 32 then some (1, 44 - c, r)
  else if 33 ≤ r && 12 ≤ c then some (2, 44 - r, 44 - c)
  else if c ≤ 11 && 12 ≤ r then some (3, c, 44 - r)
  else none

/-- A slot of an outlet (R466). -/
def outletBall (n t : Nat) : Ball := if t = 7 then .vddIo (if n ≤ 15 then 2 else 3) else .outlet n t

/-- A row of names. -/
def ones (l : List String) : List Ball := l.map .one

/-- The block of side 0 (R467). -/
def block0 : Nat → List Ball
  | 0 => [.one "PCIE_TXP", .one "PCIE_TXN", .vss, .one "PCIE_RXP", .one "PCIE_RXN", .vss, .one "PCIE_REFCLK_P", .one "PCIE_REFCLK_N", .vss]
  | 1 => ones ["PCIE_PERST_N", "QSPI_CS_N", "QSPI_CLK", "QSPI_D0", "QSPI_D1", "QSPI_D2", "QSPI_D3"] ++ [.vddIo 0, .vss]
  | 2 => ones ["RMII_REFCLK", "RMII_TXEN", "RMII_TXD0", "RMII_TXD1", "RMII_CRSDV", "RMII_RXD0", "RMII_RXD1", "RMII_RXER"] ++ [.vddIo 0]
  | 3 => ones ["RMII_MDC", "RMII_MDIO", "OSPI_CS_N", "OSPI_CLK", "OSPI_DQS", "OSPI_RESET_N"] ++ [.vss, .vddIo 0, .vss]
  | 4 => ones ["OSPI_D0", "OSPI_D1", "OSPI_D2", "OSPI_D3", "OSPI_D4", "OSPI_D5", "OSPI_D6", "OSPI_D7"] ++ [.vddIo 0]
  | 5 => ones ["DBG_TCK", "DBG_TMS", "DBG_TDI", "DBG_TDO", "DBG_TRST_N"] ++ [.vddIo 0, .vss, .vss, .vss]
  | 6 => [.one "XTAL25M_IN", .one "XTAL25M_OUT", .vss, .one "XTAL32K_IN", .one "XTAL32K_OUT", .vss, .vbat, .vss, .vddIo 0]
  | 7 => (List.range 8).map .tamper
  | _ => []

/-- The block of side 1 (R467). -/
def block1 : Nat → List Ball
  | 0 => [.one "TDM_TX0P", .one "TDM_TX0N", .vss, .one "TDM_TX1P", .one "TDM_TX1N", .vss, .one "TDM_REFCLK_P", .one "TDM_REFCLK_N", .vss]
  | 1 => [.one "TDM_RX0P", .one "TDM_RX0N", .vss, .one "TDM_RX1P", .one "TDM_RX1N", .vss, .one "TDM_PREF", .vddAna, .vddAna]
  | 2 => ((List.range 4).map fun k => [Ball.can k false, .can k true]).flatten ++ [.vddIo 1]
  | 3 => ((List.range 4).map fun k => [Ball.can (4 + k) false, .can (4 + k) true]).flatten ++ [.vddIo 1]
  | 4 => ones ["SITE_V_L1", "SITE_V_L2", "SITE_V_L3", "SITE_V_N", "MET_REF"] ++ [.vss, .one "GLIM_A", .one "GLIM_P", .vddIo 1]
  | 5 => ones ["SITE_I_L1_P", "SITE_I_L1_N", "SITE_I_L2_P", "SITE_I_L2_N", "SITE_I_L3_P", "SITE_I_L3_N", "SITE_I_N_P", "SITE_I_N_N"]
  | 6 => (List.range 3).map .vsel ++ (List.range 4).map .pulse ++ [.vddIo 1]
  | 7 => (List.range 8).map .hkIn
  | 8 => (List.range 8).map fun k => .hkIn (8 + k)
  | _ => []

/-- The block of side 2 (R468). -/
def block2 (a : Nat) : List Ball :=
  if a ≤ 5 then ((List.range 8).map fun b => .hs (8 * a + b)) ++ [.vauxIn]
  else if a ≤ 7 then List.replicate 9 .vauxIn
  else if a = 8 then (List.range 4).map .auxSense
  else []

/-- The block of side 3 (R468). -/
def block3 (a : Nat) : List Ball :=
  match a with
  | 5 => (List.range 8).map fun b => .estop (b / 2) (b % 2 = 1)
  | 6 => (List.range 8).map fun b => .estop (4 + b / 2) (b % 2 = 1)
  | 7 => (List.range 8).map .testTq
  | 8 => (List.range 8).map .brkPos
  | 9 => (List.range 9).map .safeStop
  | 10 => (List.range 3).map (fun c => .safeStop (9 + c)) ++ ones ["FBK_RESET", "SEAL_CLK", "SEAL_LOAD", "SEAL_DATA", "SEAL_INTACT"]
  | _ => if a ≤ 4 then (List.range 8).map fun b => .ls (8 * a + b) else []

/-- The block of a side. -/
def sideBlock (side a : Nat) : List Ball :=
  match side with | 0 => block0 a | 1 => block1 a | 2 => block2 a | _ => block3 a

/-- The ball at template (a, b) of a side; a position that no rule fills is VSS (R464 to R468). -/
def sideBall (side a b : Nat) : Ball :=
  if b ≤ 8 then (sideBlock side a).getD b .vss
  else if a ≤ 3 then .chp (24 * side + (b - 9)) a
  else if (b - 9) % 3 = 2 then .vss
  else outletBall (8 * side + (b - 9) / 3) (2 * (a - 4) + (b - 9) % 3)

/-- A ball of the centre (R469). -/
def centreBall (r c : Nat) : Ball :=
  let d := max ((r : Int) - 22).natAbs ((c : Int) - 22).natAbs
  if (r + c) % 2 = 0 then .vss
  else if d ≤ 3 then .vddDram
  else if d ≤ 9 then .vddCore
  else .vddAna

/-- The ball at row index r and column index c. -/
def ballAt (r c : Nat) : Ball :=
  match templateOf r c with
  | some (side, a, b) => sideBall side a b
  | none => centreBall r c

/-! ### The pilot network and the switches (R477, R479) -/

/-- V(CP_nn_SNS) in 0.1 mV for a pilot of `v` in 0.1 V. -/
def pilotBall (v : Int) : Int := 9000 + 60 * v

/-- The pilot in 0.1 V of a ball voltage in 0.1 mV, as the pilot engine converts it back. -/
def pilotLine (u : Int) : Int := (u - 9000) / 60

/-- The dissipation of the switches in nW: 0.3 W and the squares of the currents in mA by the resistances in mΩ. -/
def switchPower (sw : List (Nat × Nat)) : Nat := 300000000 + (sw.map fun x => x.1 * x.1 * x.2).foldl (· + ·) 0

end Sys2Proof.Machine
end

