-- ==== Sys2Proof/Tests/Slice0.lean ====
section
/-! SUPPORT. The model's own tests: refused ill-formed operands, single steps with results from the manual, and for every
clause of a statement that has hypotheses a state and operands that meet them. -/

namespace Sys2Proof.Tests
open Sys2Proof Sys2Proof.Machine
/-- The state after reset. -/
abbrev s0 : State := State.reset
/-- A state after reset with a change of the stand map. -/
def wMap (f : SiteMap → SiteMap) (s : State) : State := { s with map := f s.map }
/-- A change of outlet 0 in the stand map. -/
def wOut (f : OutCfg → OutCfg) (s : State) : State := wMap (fun m => { m with out := Vec.upd m.out 0 f }) s
/-- A change of the frame-level state, before and after the frame. -/
def wF (f : FrameState → FrameState) (s : State) : State := { s with fl := f s.fl, nx := f s.nx }
/-- A change of sequencer 0 in both. -/
def wOsq (f : Osq → Osq) (s : State) : State := wF (fun x => { x with osq := Vec.upd x.osq 0 f }) s
/-- Channel 0 in a handover state. -/
def wHand (st : HSt) : State := wF (fun x => { x with hand := Vec.upd x.hand 0 fun h => { h with st := st } }) s0
/-- A change of the latched levels. -/
def wLat (f : Levels → Levels) (s : State) : State := { s with lat := { s.lat with levels := f s.lat.levels } }
/-- The latched pilot state of outlet 0. -/
def wPilot (p : Pilot) (s : State) : State :=
  wLat (fun l => { l with pilot := Vec.upd l.pilot 0 fun x => { x with state := p } }) s
/-- A state in a tandem state. -/
def wTdm (st : TSt) : State := onTdm (fun t => { t with st := st, linkUp := true }) s0
/-- An update state. -/
def wFwu (st : FwSt) : State := onFwu (fun f => { f with st := st }) s0
/-- Outlet 0 with a T1S link, in service. -/
def wT1s : State := onVlk 0 (fun v => { v with tcp := true, layer := .iso2, t1sUp := true }) (wOut (fun o => { o with conn := 2, link := 1 }) s0)
/-- Outlet 0 with a power-line link and a modem. -/
def wPlc : State := onVlk 0 (fun v => { v with modem := some 0 }) (wOut (fun o => { o with conn := 2, link := 2 }) s0)
/-- A SLAC run. -/
def wRun : SlacRun := { mac := 1, runId := 2, opened := true, cands := 1 }
/-- Bus 0 in a mode, with one filter entry. -/
def wCan (m : Nat) (q : Nat) : State :=
  wMap (fun x => { x with can := Vec.upd x.can 0 fun c => { c with mode := m, filters := [{ enabled := true, q := q, ident := 5 }] } }) s0
/-- A frame that the entry takes. -/
def wFrame : CanFrame := { ident := 5, data := [1, 2] }
/-- Set 0 on outlet 0 with a pulse output. -/
def wSet (kind : Nat) : State :=
  wMap (fun x => { x with met := Vec.upd x.met 0 fun c => { c with kind := kind, target := some 0, pulse := some 0, mode := 1 } }) s0
/-- The last frame of a bypass window with a site meter. -/
def wSite (bad : Bool) : State :=
  onMetF (fun m => { m with winBad := bad }) { wMap (fun x => { x with site := { x.site with present := true, kind := 1, tamper := 1 } }) s0 with fn := 899999 }
/-- Switch 0 changed. -/
def wSw (f : Sw → Sw) : State := onSw 0 f s0
/-- Switch 0 with a use. -/
def wAux (u : Nat) : State := wMap (fun x => { x with aux := Vec.upd x.aux 0 fun c => { c with use := u } }) s0
/-- Heartwood with its root. -/
def wRoot : State := onHwd (fun h => { h with rootSet := true }) s0
/-- The service port enabled. -/
def wSvc : State := onFwu (fun f => { f with svcIp := 1, sess := some 7, blocks := 4096, st := .receiving }) s0
/-- The ledger entry 0 is free and set 0 of an outlet that is bindable is chosen. -/
def wBindable : State :=
  onVlk 0 (fun v => { v with authSeen := true }) (wOsq (fun q => { q with st := .associated }) (wSet 1))

/-! ### The arithmetic and the check sums of the manual -/

/-- R101: round half to even. -/
theorem test_rhe : rheDiv 5 2 = 2 ∧ rheDiv 7 2 = 4 ∧ rheDiv (-1) 2 = 0 ∧ rheDiv (-3) 2 = -2 ∧ rheDiv 8 3 = 3 := by decide
/-- R118: polynomial 1021h from FFFFh over the nine digits gives 29B1h, the high byte first. -/
theorem test_crc16 : crcBytes [0x31, 0x32, 0x33, 0x34, 0x35, 0x36, 0x37, 0x38, 0x39] = [0x29, 0xB1] := by decide +kernel
/-- CRC-32C over the nine digits is E3069283h. -/
theorem test_crc32c : crc32c [0x31, 0x32, 0x33, 0x34, 0x35, 0x36, 0x37, 0x38, 0x39] = 0xE3069283 := by decide +kernel
/-- CRC-64 over the nine digits is 62EC59E3F1A4F00Ah. -/
theorem test_crc64 : crc64 [0x31, 0x32, 0x33, 0x34, 0x35, 0x36, 0x37, 0x38, 0x39] = 0x62EC59E3F1A4F00A := by decide +kernel
/-- No row of the table gives bits. -/
theorem test_decode : decodeTableWord 32 5 = none ∧ decodeTableWord 0 0 = none := ⟨rfl, rfl⟩

/-! ### Ill-formed operands -/

theorem test_wf_uplink : Instr.wf (.uplinkReceive 0 [1]) = false := by decide
theorem test_wf_glim : Instr.wf (.glimSample ⟨4096, []⟩) = false ∧ Instr.wf (.glimSample ⟨0, [400000]⟩) = false ∧
    Instr.wf (.glimSample ⟨0, [7, 7]⟩) = false := by decide
theorem test_wf_pilot : Instr.wf (.pilotStateAccept 0 0 0 ⟨0, 400⟩ 4096) = false := by decide
theorem test_wf_sound : Instr.wf (.slacSound 0 0 0 [1]) = false ∧ Instr.wf (.slacSound 0 0 0 (List.replicate 58 256)) = false := by decide
theorem test_wf_evccid : Instr.wf (.sessionSetupReq 0 (List.replicate 65 0)) = false := by decide
theorem test_wf_subsample : Instr.wf (.meterSubsample [0]) = false ∧
    Instr.wf (.meterSubsample (List.replicate 72 (2 ^ 23))) = false ∧
    Instr.wf (.meterSubsample (List.replicate 72 (-(2 ^ 23) - 1))) = false := by decide +kernel
theorem test_wf_cycle : Instr.wf (.cycleEnd [0] 0 0 0) = false ∧ Instr.wf (.cycleEnd (List.replicate 72 91023) 0 0 0) = false ∧
    Instr.wf (.cycleEnd (List.replicate 72 5) 0 0 1000) = false := by decide +kernel
theorem test_wf_sense : Instr.wf (.auxSenseConvert [0]) = false := by decide
theorem test_wf_can : Instr.wf (.canRxFrame 0 { ident := 1, data := List.replicate 9 0 } 0) = false ∧
    Instr.wf (.canRxFrame 0 { ident := 1, fd := true, data := List.replicate 9 0 } 0) = false ∧
    Instr.wf (.canRxFrame 0 { ident := 1, fd := true, remote := true, data := [] } 0) = false ∧
    Instr.wf (.canRxFrame 0 { ident := 1, brs := true, data := [] } 0) = false ∧
    Instr.wf (.canRxFrame 0 { ident := 1, data := [] } 1000) = false := by decide +kernel
theorem test_wf_can_error : Instr.wf (.canBusError 0 .crc 256 0) = false ∧ Instr.wf (.canBusError 0 .crc 0 256) = false := by decide
theorem test_wf_echo : Instr.wf (.svcIcmpEcho 0 (List.replicate 1473 0)) = false := by
  simp only [Instr.wf, List.length_replicate]; decide
theorem test_wf_fwu : Instr.wf (.fwuOpen 1 65536 0) = false ∧ Instr.wf (.fwuOpen 1 0 4097) = false ∧
    Instr.wf (.fwuBlock 1 4096 0 0 []) = false ∧ Instr.wf (.fwuBlock 1 0 0 0 [1]) = false := by decide
theorem test_wf_manifest : Instr.wf (.fwuManifest 1 (List.replicate 65536 0)) = false := by
  simp only [Instr.wf, List.length_replicate]; decide
theorem test_wf_bar2 : Instr.wf (.bar2Write 0 []) = false ∧ Instr.wf (.bar2Write 0x3FFFFFF [1, 2]) = false := by decide
theorem test_wf_adc : Instr.wf (.hkAdcSlot 0 4096) = false := by decide
theorem test_wf_write : Instr.wf (.registerWrite 0 0 ⟨0xF, 0⟩) = false := by decide
theorem test_wf_read : Instr.wf (.hostRead .bar0 0 0 0) = false ∧ Instr.wf (.qspiRead .bar0 0 0 true) = false := by decide

/-! ### One step -/

/-- A field of the state that a command answers. -/
def after {α : Type} (c : Instr) (s : State) (f : State → α) : Option α :=
  match exec c s with
  | .next t => some (f t)
  | _ => none

/-- The front command runs first and the rest waits. -/
theorem test_queue : (match step { s0 with pending := [.hkpColdReset 0xA55A, .tlyClear] } with
    | .next t => some (t.pending, t.hkp.cause) | _ => none) = some ([.tlyClear], 8) := by decide
/-- R445: another key does nothing. -/
theorem test_wrong_key : after (.hkpColdReset 0xA55B) s0 (·.hkp.cause) = some 0 := by decide
/-- R429: input 12 is converted in the millisecond with FN mod 10 = 1. -/
theorem test_adc : after (.hkAdcSlot 12 0xABC) { s0 with fn := 1 } (fun t => (t.hkp.ins[(12 : Fin 42)].code, t.hkp.ins[(12 : Fin 42)].seen)) =
    some (0xABC, true) := by decide +kernel
/-- R429: and in no other. -/
theorem test_adc_other : after (.hkAdcSlot 12 0xABC) { s0 with fn := 2 } (fun t => t.hkp.ins[(12 : Fin 42)].seen) = some false := by
  decide +kernel
/-- R424: the communication PLL's loss is counted. -/
theorem test_pll : after (.pllLockLoss .communication) (onHkp (fun h => { h with plls := 0xF }) s0) (fun t => (t.hkp.plls, t.hkp.lockLosses)) =
    some (0xD, 1) := by decide
/-- R425: the loss of VBAT clears the clock. -/
theorem test_vbat : after .vbatLoss { s0 with live := { s0.live with rtc := 77 } } (·.live.rtc) = some 0 := by decide
/-- R409: the host writes the staging window byte by byte. -/
theorem test_bar2 : after (.bar2Write (BitVec.ofNat 26 stagingBase) [1, 2, 3]) s0 (fun t =>
    (memRead t.lnd.mem stagingBase, memRead t.lnd.mem (stagingBase + 2), memRead t.lnd.mem (stagingBase + 3))) = some (1, 3, 0) := by
  decide +kernel
/-- R409: a write elsewhere is discarded and counted. -/
theorem test_bar2_refused : after (.bar2Write 0x100 [9]) s0 (fun t => (memRead t.lnd.mem 0x100, t.lnd.hostWr)) = some (0, 1) := by
  decide +kernel
/-- R449: a write at an offset with no register is counted. -/
theorem test_unmapped : after (.registerWrite 0x1FFFFC 5 ⟨0xF, 4⟩) s0 (·.hst.cUnmapped) = some 1 := by decide +kernel
/-- R449: a write of part of a word is an access error. -/
theorem test_partial : after (.registerWrite 0x6C 5 ⟨0x3, 4⟩) s0 (fun t => (t.hst.cErr, t.hst.scratch[(0 : Fin 2)])) = some (1, 0) := by
  decide +kernel
/-- R350: a received data frame is counted; a remote frame is not. -/
theorem test_can_rx : after (.canRxFrame 0 wFrame 7) (wCan 1 1) (fun t => t.can[(0 : CanIx)].received) = some 1 ∧
    after (.canRxFrame 0 { wFrame with remote := true } 7) (wCan 1 1) (fun t => t.can[(0 : CanIx)].received) = some 0 := by decide +kernel
/-- R151: the four plateaus of the nominal pilot, with thresholds at 13, 10.5, 7.5, 4.5 and 1.5 V. -/
theorem test_pilot : [(12 : Int), 9, 6, 3].map (fun v => classifyPilot { thr := [130, 105, 75, 45, 15] } (10 * v) 0) = [.a, .b, .c, .d] := by
  decide +kernel
/-- R178: a proximity value outside its range makes a B, C or D an A. -/
theorem test_proximity : classifyPilot { thr := [130, 105, 75, 45, 15], ppMin := 10, ppMax := 20 } 60 21 = .a ∧
    classifyPilot { thr := [130, 105, 75, 45, 15], ppMin := 10, ppMax := 20 } 60 20 = .c := by decide +kernel
/-- R465 to R468: balls of a channel port, an outlet, a high side and a tamper input, with their names. -/
theorem test_balls : [ballAt 26 44, ballAt 40 26, ballAt 35 26, ballAt 43 39, ballAt 7 3] =
    [.chp 41 0, .outlet 19 0, .outlet 19 10, .hs 13, .tamper 3] := by decide +kernel
theorem test_ball_names : posName 26 44 = ("AH", 45) ∧ posName 35 26 = ("AV", 27) ∧ posName 7 3 = ("H", 4) := by decide +kernel

/-! ### Witnesses of the statements' hypotheses, clause by clause -/

theorem wit_StepRunsTheFrontCommand : ∃ (s : State), s.pending = [] :=
  ⟨s0, by decide⟩

theorem wit_StepKeepsIdentityFusesAndMemory : ∃ (s : State) (t : State), step s = .next t :=
  ⟨s0, s0, rfl⟩

theorem wit_StepKeepsTheSafeOutputs : ∃ (s : State) (t : State), SafeOut s ∧ step s = .next t :=
  ⟨s0, s0, ⟨Or.inr ⟨rfl, rfl⟩, rfl⟩⟩

theorem wit_OnlyBoundariesAndStartsMoveFn : ∃ (c : Instr) (s : State) (t : State), opensFrames c = false ∧ exec c s = .next t :=
  ⟨.metWitClear 0, s0, _, ⟨rfl, rfl⟩⟩

theorem wit_OtherCommandsLeaveTheFirebreak : ∃ (c : Instr) (s : State) (t : State), touchesFirebreak c = false ∧ exec c s = .next t :=
  ⟨.metWitClear 0, s0, _, ⟨rfl, rfl⟩⟩

theorem wit_OtherCommandsLeaveTheLandingMemory : ∃ (c : Instr) (s : State) (t : State), writesLanding c = false ∧ exec c s = .next t :=
  ⟨.metWitClear 0, s0, _, ⟨rfl, rfl⟩⟩

theorem wit_OnlyTheLifecycleLockWritesTheOtp : ∃ (c : Instr) (s : State) (t : State), writesOtp c = false ∧ exec c s = .next t :=
  ⟨.metWitClear 0, s0, _, ⟨rfl, rfl⟩⟩

theorem wit_ResetRequests :
    (∃ (s : State), s.isl.met = true) ∧
    (∃ (s : State), s.isl.met = true) ∧
    (∃ (key : BitVec 16), key ≠ 0xA55A) ∧
    (∃ (s : State), s.isl.met = true ∧ (s.tdm.st = .wait ∨ s.tdm.st = .isolated)) ∧
    (∃ (s : State), s.hkp.xtalStopped = true) ∧
    (∃ (s : State), s.hkp.shutdown = true) :=
  ⟨⟨s0, by decide⟩,
   ⟨s0, by decide⟩,
   ⟨0, by decide⟩,
   ⟨wTdm .wait, by decide⟩,
   ⟨onHkp (fun h => { h with xtalStopped := true }) s0, by decide⟩,
   ⟨onHkp (fun h => { h with shutdown := true }) s0, by decide⟩⟩

theorem wit_ClocksAndSupplies :
    (∃ (s : State), s.hkp.rtcHold = false) ∧
    (∃ (s : State), s.hkp.rtcHold = false) ∧
    (∃ (s : State), s.hkp.rtcHold = true) ∧
    (∃ (s : State), s.isl.ctl = true) :=
  ⟨⟨s0, by decide⟩,
   ⟨s0, by decide⟩,
   ⟨onHkp (fun h => { h with rtcHold := true }) s0, by decide⟩,
   ⟨s0, by decide⟩⟩

theorem wit_HousekeepingConversions :
    (∃ (i : Fin 42) (s : State), s.isl.met = true ∧ i.val / 7 = s.fn % 10 ∧ ((∀ k : Nat, s.hkp.clampAt = some (s.fn, k) → 1 + i.val % 7 ≤ k ∨ k + 2 < 1 + i.val % 7))) ∧
    (∃ (i : Fin 42) (k : Nat) (s : State), s.isl.met = true ∧ i.val / 7 = s.fn % 10 ∧ s.hkp.clampAt = some (s.fn, k) ∧ k < 1 + i.val % 7 ∧ 1 + i.val % 7 ≤ k + 2) ∧
    (∃ (i : Fin 42) (s : State), i.val / 7 ≠ s.fn % 10) ∧
    (∃ (k : Fin 16) (s : State), s.isl.met = true ∧ 3 ≤ s.hkp.hkRun[k] ∧ s.hkp.hkCond.getLsbD k.val = false) ∧
    (∃ (k : Fin 16) (s : State), (s.hkp.hkRun[k] < 3 ∨ s.hkp.hkCond.getLsbD k.val = true)) :=
  ⟨⟨0, s0, ⟨rfl, by decide, fun k h => by cases h⟩⟩,
   ⟨0, 0, onHkp (fun h => { h with clampAt := some (0, 0) }) s0, by decide⟩,
   ⟨7, s0, by decide⟩,
   ⟨0, onHkp (fun h => { h with hkRun := h.hkRun.set 0 3 }) s0, by decide⟩,
   ⟨0, s0, by decide⟩⟩

theorem wit_DieTemperature :
    (∃ (lvl : Fin 3) (s : State), s.isl.met = true ∧ s.hkp.level ≠ lvl.val ∧ thermTarget s.hkp.level (hottest s s.hkp.ins).2 = lvl.val) ∧
    (∃ (lvl : Fin 3) (s : State), (s.hkp.level = lvl.val ∨ thermTarget s.hkp.level (hottest s s.hkp.ins).2 ≠ lvl.val)) ∧
    (∃ (lv : Nat), lv ≤ 2) ∧
    (∃ (s : State), s.hkp.shutdown = false) :=
  ⟨⟨0, onHkp (fun h => { h with level := 1 }) s0, by decide⟩,
   ⟨0, s0, by decide⟩,
   ⟨0, by decide⟩,
   ⟨s0, by decide⟩⟩

theorem wit_HealthReadsAndCommands :
    (∃ (s : State), s.isl.ctl = true) ∧
    (∃ (s : State), s.isl.ctl = true) ∧
    (∃ (s : State), s.isl.ctl = true) :=
  ⟨⟨s0, by decide⟩,
   ⟨s0, by decide⟩,
   ⟨s0, by decide⟩⟩

theorem wit_FirebreakOutputs : ∃ (c : Instr), firebreakRow c = true :=
  ⟨.fbkEvalCycle, by decide⟩

theorem wit_FirebreakStates :
    (∃ (s : State), s.fbk.st = .start ∧ s.fbk.vaux = true ∧ s.fbk.sealValid = true ∧ s.fbk.img.isSome = true) ∧
    (∃ (s : State), s.fbk.st = .start) ∧
    (∃ (s : State), s.fbk.st = .run) ∧
    (∃ (r : BitVec 40) (s : State), s.fbk.st = .run ∧ s.fbk.ls &&& ~~~r = 0) ∧
    (∃ (r : BitVec 40) (s : State), s.fbk.st = .run ∧ s.fbk.ls &&& ~~~r ≠ 0) ∧
    (∃ (s : State), s.fbk.st ≠ .fault) ∧
    (∃ (s : State), s.fbk.vaux = false) ∧
    (∃ (s : State), s.fbk.st = .run) ∧
    (∃ (s : State), s.fbk.st = .held ∧ s.fbk.fromStart = true ∧ (fbkSafety s.fbk).startMode = true ∧ heldGuard s.fbk = true) ∧
    (∃ (s : State), s.fbk.st ≠ .held) ∧
    (∃ (s : State), s.fbk.st ≠ .start) :=
  ⟨⟨onFbk (fun f => { f with sealValid := true, img := some {} }) s0, by decide⟩,
   ⟨s0, by decide⟩,
   ⟨onFbk (fun f => { f with st := .run }) s0, by decide⟩,
   ⟨0, onFbk (fun f => { f with st := .run }) s0, by decide⟩,
   ⟨0, onFbk (fun f => { f with st := .run, ls := 1 }) s0, by decide⟩,
   ⟨s0, by decide⟩,
   ⟨onFbk (fun f => { f with vaux := false }) s0, by decide⟩,
   ⟨onFbk (fun f => { f with st := .run }) s0, by decide⟩,
   ⟨onFbk (fun f => { f with st := .held, fromStart := true, intact := true, sealValid := true, img := some { safety := { startMode := true } } }) s0, by decide⟩,
   ⟨s0, by decide⟩,
   ⟨onFbk (fun f => { f with st := .run }) s0, by decide⟩⟩

theorem wit_FirebreakInputs : ∃ (s : State), s.fbk.vaux = true :=
  ⟨s0, by decide⟩

theorem wit_FirebreakLatches :
    (∃ (z : Fin 8) (s : State), s.fbk.estopA.getLsbD z.val ≠ s.fbk.estopB.getLsbD z.val ∧ zoneOn s.fbk z = true ∧ (s.fbk.zone[z]).disc = false) ∧
    (∃ (o : OutIx) (s : State), s.fbk.ls.getLsbD o.val = false ∧ fbkOpen s o = false) ∧
    (∃ (o : OutIx) (s : State), s.isl.ctl = true ∧ s.fbk.weldL.getLsbD o.val = true ∧ openBoth s.fbk o.val = true) :=
  ⟨⟨0, onFbk (fun f => { f with estopA := 1, acc := 0x10000000000 }) s0, by decide⟩,
   ⟨0, s0, by decide⟩,
   ⟨0, onFbk (fun f => { f with weldL := 1, kPok := 1, kNok := 1 }) s0, by decide⟩⟩

theorem wit_FirebreakReset :
    (∃ (ms : Nat) (s : State), 50 ≤ ms ∧ ms ≤ 3000 ∧ s.fbk.jammed = false ∧ s.fbk.st = .run) ∧
    (∃ (ms : Nat) (s : State), 50 ≤ ms ∧ ms ≤ 3000 ∧ s.fbk.jammed = false ∧ s.fbk.st = .held ∧ heldGuard s.fbk = true) ∧
    (∃ (ms : Nat) (s : State), (ms < 50 ∨ 3000 < ms ∨ s.fbk.jammed = true)) ∧
    (∃ (s : State), s.fbk.jammed = false) :=
  ⟨⟨50, onFbk (fun f => { f with st := .run }) s0, by decide⟩,
   ⟨3000, onFbk (fun f => { f with st := .held, intact := true, sealValid := true, img := some {} }) s0, by decide⟩,
   ⟨49, s0, by decide⟩,
   ⟨s0, by decide⟩⟩

theorem wit_SealReads :
    (∃ (d : BitVec 64) (s : State), s.fbk.vaux = true ∧ s.fbk.st ≠ .start ∧ d.toNat / 2 ^ 56 = 0 ∧ d = s.fbk.acc) ∧
    (∃ (d : BitVec 64) (n : BitVec 64) (s : State), s.fbk.vaux = true ∧ s.fbk.st = .run ∧ n ≠ ~~~d ∧ s.fbk.badRun = 2) ∧
    (∃ (d : BitVec 64) (s : State), s.fbk.vaux = true ∧ s.fbk.st = .run ∧ d.toNat / 2 ^ 56 = 0 ∧ d ≠ s.fbk.acc ∧ s.fbk.sealEq = 2 ∧ s.fbk.sealRead = d) :=
  ⟨⟨0, onFbk (fun f => { f with st := .run }) s0, by decide⟩,
   ⟨0, 0, onFbk (fun f => { f with st := .run, badRun := 2 }) s0, by decide⟩,
   ⟨1, onFbk (fun f => { f with st := .run, sealEq := 2, sealRead := 1 }) s0, by decide⟩⟩

theorem wit_BrakeTest :
    (∃ (s : State), s.isl.ctl = true) ∧
    (∃ (b : Fin 8) (s : State), s.isl.ctl = true ∧ (s.fbk.brk[b]).failed = true) ∧
    (∃ (b : Fin 8) (s : State), s.fbk.st = .run ∧ brkPresent s.fbk b = true ∧ (s.fbk.brk[b]).phase = 0 ∧ brkIdle s b = true ∧ (s.fbk.brk[b]).failed = false ∧ (s.fbk.brk[b]).due = true) ∧
    (∃ (b : Fin 8) (s : State), (s.fbk.brk[b]).phase = 1) ∧
    (∃ (b : Fin 8) (s : State), (s.fbk.brk[b]).phase = 2) ∧
    (∃ (b : Fin 8) (n : Nat) (s : State), (s.fbk.brk[b]).phase = 3 ∧ n ≤ (fbkSafety s.fbk).brkThreshold) ∧
    (∃ (b : Fin 8) (n : Nat) (s : State), (s.fbk.brk[b]).phase = 3 ∧ (fbkSafety s.fbk).brkThreshold < n) :=
  ⟨⟨s0, by decide⟩,
   ⟨0, onBrk 0 (fun b => { b with failed := true }) s0, by decide⟩,
   ⟨0, onFbk (fun f => { f with st := .run, acc := 0x100000000 }) s0, by decide⟩,
   ⟨0, onBrk 0 (fun b => { b with phase := 1 }) s0, by decide⟩,
   ⟨0, onBrk 0 (fun b => { b with phase := 2 }) s0, by decide⟩,
   ⟨0, 4, onBrk 0 (fun b => { b with phase := 3 }) s0, by decide⟩,
   ⟨0, 5, onBrk 0 (fun b => { b with phase := 3 }) s0, by decide⟩⟩

theorem wit_BrakeFailLatch :
    (∃ (b : Fin 8) (n : Nat) (s : State), (s.fbk.brk[b]).phase = 3 ∧ (fbkSafety s.fbk).brkThreshold < n) ∧
    (∃ (c : Instr) (b : Fin 8) (s : State) (t : State), firebreakRow c = true ∧ exec c s = .next t ∧ (t.fbk.brk[b]).failed = true) ∧
    (∃ (c : Instr) (b : Fin 8) (s : State) (t : State), exec c s = .next t ∧ (s.fbk.brk[b]).failed = true) ∧
    (∃ (b : Fin 8) (s : State), s.fbk.vaux = false ∧ (s.fbk.brk[b]).failed = true) ∧
    (∃ (b : Fin 8) (s : State), s.hkp.shutdown = false ∧ s.hkp.xtalStopped = false ∧ (s.fbk.brk[b]).failed = true) ∧
    (∃ (b : Fin 8) (s : State), s.isl.ctl = true ∧ (s.fbk.brk[b]).failed = true) ∧
    (∃ (b : Fin 8) (s : State), s.fbk.st = .run ∧ brkPresent s.fbk b = true ∧ (s.fbk.brk[b]).phase = 0 ∧ brkIdle s b = true ∧ (s.fbk.brk[b]).failed = true ∧ (s.fbk.brk[b]).retestOk = false) ∧
    (∃ (b : Fin 8) (n : Nat) (s : State), (s.fbk.brk[b]).phase = 3 ∧ (s.fbk.brk[b]).failed = true ∧ n ≤ (fbkSafety s.fbk).brkThreshold) ∧
    (∃ (ms : Nat) (b : Fin 8) (s : State), 50 ≤ ms ∧ ms ≤ 3000 ∧ s.fbk.jammed = false ∧ (s.fbk.st = .held ∨ s.fbk.st = .run) ∧ (s.fbk.brk[b]).failed = true ∧ (s.fbk.brk[b]).retestOk = true) :=
  ⟨⟨0, 5, onBrk 0 (fun b => { b with phase := 3 }) s0, by decide⟩,
   ⟨.brakeTestDue 0, 0, onBrk 0 (fun b => { b with failed := true }) s0, _, ⟨rfl, rfl, by decide +kernel⟩⟩,
   ⟨.metWitClear 0, 0, onBrk 0 (fun b => { b with failed := true }) s0, _, ⟨rfl, by decide⟩⟩,
   ⟨0, onFbk (fun f => { f with vaux := false }) (onBrk 0 (fun b => { b with failed := true }) s0), by decide⟩,
   ⟨0, onBrk 0 (fun b => { b with failed := true }) s0, by decide⟩,
   ⟨0, onBrk 0 (fun b => { b with failed := true }) s0, by decide⟩,
   ⟨0, onFbk (fun f => { f with st := .run, acc := 0x100000000 }) (onBrk 0 (fun b => { b with failed := true }) s0), by decide⟩,
   ⟨0, 4, onBrk 0 (fun b => { b with phase := 3, failed := true }) s0, by decide⟩,
   ⟨50, 0, onFbk (fun f => { f with st := .held }) (onBrk 0 (fun b => { b with failed := true, retestOk := true }) s0), by decide⟩⟩

theorem wit_SampleStarts :
    (∃ (k : CluIx) (s : State), s.isl.ctl = true ∧ (s.ctl.clu[k]).next < (s.map.clu[k]).n) ∧
    (∃ (k : CluIx) (s : State), (s.map.clu[k]).n ≤ (s.ctl.clu[k]).next) :=
  ⟨⟨0, s0, by decide⟩,
   ⟨0, { s0 with ctl := { s0.ctl with clu := Vec.upd s0.ctl.clu 0 fun c => { c with next := 50 } } }, by decide⟩⟩

theorem wit_UplinkFrames :
    (∃ (bs : List Byte) (s : State), s.isl.ctl = true ∧ bs.length = 16 ∧ crcOk bs = true) ∧
    (∃ (bs : List Byte) (s : State), s.isl.ctl = true ∧ bs.length = 16 ∧ crcOk bs = false) ∧
    (∃ (bs : List Byte), bs.length ≠ 16) :=
  ⟨⟨List.replicate 14 0 ++ [0xA9, 0x6A], s0, by decide +kernel⟩,
   ⟨List.replicate 16 0, s0, by decide +kernel⟩,
   ⟨[], by decide⟩⟩

theorem wit_ChannelEvents :
    (∃ (c : ChIx) (s : State), s.isl.ctl = true ∧ ((s.ctl.units[c]).mode = .active ∨ (s.ctl.units[c]).mode = .ramp) ∧ (s.ctl.units[c]).hold = false ∧ (s.ctl.units[c]).evHold = false) ∧
    (∃ (c : ChIx) (s : State), s.isl.ctl = true ∧ shortSit s c = true ∧ (s.ctl.ports[c]).stopHeld = false) ∧
    (∃ (c : ChIx) (s : State), s.isl.ctl = true ∧ shortSit s c = true ∧ (s.ctl.ports[c]).stopHeld = false) ∧
    (∃ (c : ChIx) (s : State), s.isl.ctl = true ∧ (s.ctl.ports[c]).mismatch = false ∧ (((s.map.ch[c]).kind = 2 ∧ ((s.fl.hand[c]).st = .settled ∨ (s.fl.hand[c]).st = .idle ∨ (s.fl.hand[c]).st = .out)) ∨ ((s.map.ch[c]).kind = 0 ∧ (s.fl.hand[c]).st = .out))) ∧
    (∃ (c : ChIx) (s : State), s.isl.ctl = true ∧ (s.ctl.ports[c]).mismatch = true ∧ (s.map.ch[c]).kind = 2 ∧ ((s.fl.hand[c]).st = .settled ∨ (s.fl.hand[c]).st = .idle ∨ (s.fl.hand[c]).st = .out)) ∧
    (∃ (s : State), s.isl.ctl = true) :=
  ⟨⟨0, onUnit 0 (fun u => { u with mode := .active }) s0, by decide⟩,
   ⟨0, onUnit 0 (fun u => { u with mode := .track }) (wMap (fun m => { m with ch := Vec.upd m.ch 0 fun c => { c with kind := 1 } }) s0), by decide⟩,
   ⟨0, onUnit 0 (fun u => { u with mode := .track }) (wMap (fun m => { m with ch := Vec.upd m.ch 0 fun c => { c with kind := 1 } }) s0), by decide⟩,
   ⟨0, wMap (fun m => { m with ch := Vec.upd m.ch 0 fun c => { c with kind := 2 } }) s0, by decide⟩,
   ⟨0, onPort 0 (fun p => { p with mismatch := true }) (wMap (fun m => { m with ch := Vec.upd m.ch 0 fun c => { c with kind := 2 } }) s0), by decide⟩,
   ⟨s0, by decide⟩⟩

theorem wit_PortCommands :
    (∃ (c : ChIx) (s : State), s.isl.ctl = true ∧ chOut s c = true) ∧
    (∃ (c : ChIx) (s : State), s.isl.ctl = true ∧ chOut s c = false) ∧
    (∃ (s : State), s.isl.ctl = true) ∧
    (∃ (c : ChIx) (s : State), s.isl.ctl = true ∧ frontLow s = some c ∧ (s.map.ch[c]).kind = 1 ∧ s.fl.bus.st = .aborted ∧ s.nx.bus.st = .aborted) ∧
    (∃ (s : State), s.fl.bus.st ≠ .aborted) :=
  ⟨⟨0, s0, by decide⟩,
   ⟨0, wMap (fun m => { m with ch := Vec.upd m.ch 0 fun c => { c with kind := 1 } }) s0, by decide⟩,
   ⟨s0, by decide⟩,
   ⟨0, wF (fun x => { x with bus := { st := .aborted } }) (wMap (fun m => { m with ch := Vec.upd m.ch 0 fun c => { c with kind := 1 } }) s0), by decide⟩,
   ⟨s0, by decide⟩⟩

theorem wit_GlimSamples :
    (∃ (raw : Nat) (r : Nat) (edges : List Nat) (p : PinCfg) (s : State), s.isl.ctl = true ∧ glimPin s = some p ∧ r = (if p.glimMode ≤ 2 then raw else (glimEdges edges s).1) ∧ (glimConvert p r).2.2 = false) ∧
    (∃ (raw : Nat) (r : Nat) (edges : List Nat) (p : PinCfg) (s : State), s.isl.ctl = true ∧ glimPin s = some p ∧ r = (if p.glimMode ≤ 2 then raw else (glimEdges edges s).1) ∧ (glimConvert p r).2.2 = true) ∧
    (∃ (s : State), glimPin s = none) ∧
    (∃ (n : Nat) (s : State), 0 < n ∧ s.alc.glimEdge = true) ∧
    (∃ (s : State), 100 * glimMs ≤ s.alc.glimGap + glimMs) ∧
    (∃ (n : Nat) (s : State), s.alc.glimGap + glimMs < 100 * glimMs ∧ s.alc.glimPeriod = some n) ∧
    (∃ (p : PinCfg) (s : State), s.isl.ctl = true ∧ glimPin s = some p) ∧
    (∃ (p : PinCfg) (s : State), s.isl.ctl = true ∧ glimPin s = some p) ∧
    (∃ (s : State), s.isl.ctl = true) :=
  ⟨⟨2625, 2625, [], { glimMode := 2 }, wMap (fun m => { m with pin := Vec.upd m.pin 0 fun p => { p with glimMode := 2 } }) s0, by decide⟩,
   ⟨2626, 2626, [], { glimMode := 2 }, wMap (fun m => { m with pin := Vec.upd m.pin 0 fun p => { p with glimMode := 2 } }) s0, by decide⟩,
   ⟨s0, by decide⟩,
   ⟨5, { s0 with alc := { s0.alc with glimEdge := true } }, by decide⟩,
   ⟨{ s0 with alc := { s0.alc with glimGap := 100 * glimMs } }, by decide⟩,
   ⟨5, { s0 with alc := { s0.alc with glimPeriod := some 5 } }, by decide⟩,
   ⟨{ glimMode := 2 }, wMap (fun m => { m with pin := Vec.upd m.pin 0 fun p => { p with glimMode := 2 } }) s0, by decide⟩,
   ⟨{ glimMode := 2 }, wMap (fun m => { m with pin := Vec.upd m.pin 0 fun p => { p with glimMode := 2 } }) s0, by decide⟩,
   ⟨s0, by decide⟩⟩

theorem wit_HandoverTimeoutsAndClear :
    (∃ (c : ChIx) (s : State), s.isl.ctl = true ∧ (s.fl.hand[c]).st = .rampDown ∧ (s.nx.hand[c]).st = .rampDown) ∧
    (∃ (c : ChIx) (s : State), s.isl.ctl = true ∧ (s.fl.hand[c]).st = .opening ∧ (s.nx.hand[c]).st = .opening) ∧
    (∃ (c : ChIx) (s : State), s.isl.ctl = true ∧ (s.fl.hand[c]).st = .closing ∧ (s.nx.hand[c]).st = .closing) ∧
    (∃ (c : ChIx) (s : State), s.isl.ctl = true ∧ (s.fl.hand[c]).st = .tracking ∧ (s.nx.hand[c]).st = .tracking) ∧
    (∃ (c : ChIx) (s : State), s.isl.ctl = true ∧ (s.fl.hand[c]).st = .settled ∧ (s.nx.hand[c]).st = .settled) ∧
    (∃ (c : ChIx) (s : State), (s.fl.hand[c]).st = .idle) ∧
    (∃ (c : ChIx) (s : State), s.isl.ctl = true ∧ (s.fl.hand[c]).st = .routeFault ∧ (s.nx.hand[c]).st = .routeFault ∧ allOpen (s.ctl.portS[c]).prev = true ∧ (s.fl.hand[c]).leaving = false ∧ inService s c = true) ∧
    (∃ (c : ChIx) (s : State), s.isl.ctl = true ∧ (s.fl.hand[c]).st = .routeFault ∧ (s.nx.hand[c]).st = .routeFault ∧ allOpen (s.ctl.portS[c]).prev = false) ∧
    (∃ (c : ChIx) (s : State), (s.fl.hand[c]).st ≠ .routeFault) :=
  ⟨⟨0, wHand .rampDown, by decide⟩,
   ⟨0, wHand .opening, by decide⟩,
   ⟨0, wHand .closing, by decide⟩,
   ⟨0, wHand .tracking, by decide⟩,
   ⟨0, wHand .settled, by decide⟩,
   ⟨0, wHand .idle, by decide⟩,
   ⟨0, onPort 0 (fun p => p) (wMap (fun m => { m with ch := Vec.upd m.ch 0 fun c => { c with kind := 2 } }) { wHand .routeFault with ctl := { s0.ctl with portS := Vec.upd s0.ctl.portS 0 fun p => { p with prev := { p.prev with fb := [0xF0, 0xF0] } } } }), by decide⟩,
   ⟨0, wHand .routeFault, by decide⟩,
   ⟨0, s0, by decide⟩⟩

theorem wit_PilotInputs :
    (∃ (s : State), s.isl.com = true) ∧
    (∃ (o : OutIx) (s : State), s.isl.com = true ∧ cpSquare s o = true) ∧
    (∃ (o : OutIx) (s : State), s.isl.com = true ∧ cpSquare s o = true) ∧
    (∃ (o : OutIx) (s : State), cpSquare s o = false) :=
  ⟨⟨s0, by decide⟩,
   ⟨0, wOsq (fun q => { q with st := .plugged }) (wOut (fun o => { o with conn := 2 }) s0), by decide⟩,
   ⟨0, wOsq (fun q => { q with st := .plugged }) (wOut (fun o => { o with conn := 2 }) s0), by decide⟩,
   ⟨0, s0, by decide⟩⟩

theorem wit_OutletTimeouts :
    (∃ (o : OutIx) (s : State), OsqReady s o ∧ (s.nx.osq[o]).st = .plugged ∧ (s.nx.osq[o]).faultPending = false ∧ (s.nx.osq[o]).disableLatched = false ∧ unplugged s o = false ∧ plugged s o = true) ∧
    (∃ (o : OutIx) (s : State), OsqReady s o ∧ (s.nx.osq[o]).st = .associated ∧ (s.nx.osq[o]).authFn.isSome = true ∧ (s.nx.osq[o]).faultPending = false ∧ (s.nx.osq[o]).disableLatched = false ∧ (s.nx.osq[o]).hold = 0 ∧ unplugged s o = false) ∧
    (∃ (o : OutIx) (s : State), OsqReady s o ∧ (s.nx.osq[o]).st = .cableCheck) ∧
    (∃ (o : OutIx) (s : State), OsqReady s o ∧ (s.nx.osq[o]).st = .cableCheck) ∧
    (∃ (o : OutIx) (s : State), OsqReady s o ∧ (s.nx.osq[o]).st = .precharge) ∧
    (∃ (o : OutIx) (s : State), OsqReady s o ∧ (s.nx.osq[o]).st = .hold ∧ restartGuard s o s.nx.osq[o] = true) ∧
    (∃ (o : OutIx) (s : State), (s.nx.osq[o]).moved = true) :=
  ⟨⟨0, wOsq (fun q => { q with st := .plugged }) (wPilot .b s0), by unfold OsqReady; decide⟩,
   ⟨0, wOsq (fun q => { q with st := .associated, authFn := some 0 }) (wPilot .b s0), by unfold OsqReady; decide⟩,
   ⟨0, wOsq (fun q => { q with st := .cableCheck }) (s0), by unfold OsqReady; decide⟩,
   ⟨0, wOsq (fun q => { q with st := .cableCheck }) (s0), by unfold OsqReady; decide⟩,
   ⟨0, wOsq (fun q => { q with st := .precharge }) (s0), by unfold OsqReady; decide⟩,
   ⟨0, wF (fun x => { x with veh := Vec.upd x.veh 0 fun v => { v with bound := true } }) (wOsq (fun q => { q with st := .hold, retryLeft := 1 }) (s0)), by unfold OsqReady; decide⟩,
   ⟨0, wOsq (fun q => { q with moved := true }) s0, by decide⟩⟩

theorem wit_ContactorFailures :
    (∃ (o : OutIx) (s : State), OsqReady s o ∧ ((s.nx.osq[o]).st = .cableCheck ∨ ((s.nx.osq[o]).st = .precharge ∧ (s.nx.osq[o]).kCmd = true))) ∧
    (∃ (o : OutIx) (s : State), OsqReady s o ∧ ((s.nx.osq[o]).st = .weldCheck ∨ (s.nx.osq[o]).st = .fault ∨ ((s.nx.osq[o]).st = .precharge ∧ (s.nx.osq[o]).kCmd = false))) ∧
    (∃ (o : OutIx) (s : State), OsqReady s o ∧ (s.nx.osq[o]).st = .weldCheck) ∧
    (∃ (o : OutIx) (s : State), OsqReady s o ∧ (s.nx.osq[o]).st = .discharge ∧ (s.map.out[o]).met.isSome = true) ∧
    (∃ (s : State), s.isl.ctl = true) :=
  ⟨⟨0, wOsq (fun q => { q with st := .precharge, kCmd := true }) (s0), by unfold OsqReady; decide⟩,
   ⟨0, wOsq (fun q => { q with st := .precharge }) (s0), by unfold OsqReady; decide⟩,
   ⟨0, wOsq (fun q => { q with st := .weldCheck }) (s0), by unfold OsqReady; decide⟩,
   ⟨0, wOsq (fun q => { q with st := .discharge }) (wOut (fun o => { o with met := some 0 }) s0), by unfold OsqReady; decide⟩,
   ⟨s0, by decide⟩⟩

theorem wit_OutletCommands :
    (∃ (o : OutIx) (s : State), OsqReady s o ∧ (s.nx.osq[o]).st = .outOfService ∧ outEnabled s o = true ∧ (s.nx.osq[o]).weld = false ∧ kOpen s o = true) ∧
    (∃ (o : OutIx) (s : State), OsqReady s o ∧ (s.nx.osq[o]).st = .unplugWait ∧ unplugged s o = false) ∧
    (∃ (o : OutIx) (s : State), OsqReady s o ∧ (s.nx.osq[o]).st = .associated ∧ causesNow s o s.nx.osq[o] 4 = [] ∧ creditOut s o = false ∧ billAvail s o = true) ∧
    (∃ (o : OutIx) (s : State), OsqReady s o ∧ (s.nx.osq[o]).st = .associated ∧ causesNow s o s.nx.osq[o] 4 = [] ∧ creditOut s o = false ∧ billAvail s o = false ∧ (s.map.out[o]).unbilled = false) ∧
    (∃ (o : OutIx) (s : State), OsqReady s o ∧ (s.nx.osq[o]).st = .associated ∧ causesNow s o s.nx.osq[o] 8 = [(10, 0)] ∧ (s.nx.osq[o]).faultPending = false ∧ (s.nx.osq[o]).disableLatched = false ∧ (s.nx.osq[o]).hold = 0 ∧ unplugged s o = false) ∧
    (∃ (o : OutIx) (s : State), OsqReady s o ∧ (s.nx.osq[o]).st = .energy ∧ causesNow s o s.nx.osq[o] 16 = [(10, 0)]) ∧
    (∃ (o : OutIx) (s : State), OsqReady s o ∧ (s.nx.osq[o]).st = .fault ∧ kOpen s o = true ∧ faultClearGuard s o = true) ∧
    (∃ (o : OutIx) (s : State), OsqReady s o ∧ (s.nx.osq[o]).st = .outOfService ∧ weldClearGuard s o s.nx.osq[o] = true) ∧
    (∃ (o : OutIx) (s : State), OsqReady s o ∧ (s.nx.osq[o]).st = .energy ∧ causesNow s o s.nx.osq[o] 128 = []) ∧
    (∃ (s : State), s.isl.ctl = true ∧ s.fwu.window.isSome = true) :=
  ⟨⟨0, wOsq (fun q => { q with st := .outOfService }) (wPilot .b (wOut (fun o => { o with conn := 2 }) s0)), by unfold OsqReady; decide⟩,
   ⟨0, wOsq (fun q => { q with st := .unplugWait }) (wPilot .b s0), by unfold OsqReady; decide⟩,
   ⟨0, wF (fun x => { x with bil := { x.bil with avail := 1 } }) (wOsq (fun q => { q with st := .associated }) (wPilot .b (wOut (fun o => { o with conn := 2 }) s0))), by unfold OsqReady; decide⟩,
   ⟨0, wOsq (fun q => { q with st := .associated }) (wPilot .b (wOut (fun o => { o with conn := 2 }) s0)), by unfold OsqReady; decide⟩,
   ⟨0, wOsq (fun q => { q with st := .associated }) (wPilot .b (wOut (fun o => { o with conn := 2 }) s0)), by unfold OsqReady; decide⟩,
   ⟨0, wOsq (fun q => { q with st := .energy }) (wF (fun x => { x with veh := Vec.upd x.veh 0 fun v => { v with ready := true, v := { v.v with presentVolt := some 0 } } }) (wLat (fun l => { l with lsClosed := 1, sealAcc := 1, mail := [{ q := 6, num := 0, value := 1, fn := 0 }] }) (wPilot .c (wOut (fun o => { o with conn := 2 }) s0)))), by unfold OsqReady; decide⟩,
   ⟨0, wOsq (fun q => { q with st := .fault }) (wF (fun x => { x with veh := Vec.upd x.veh 0 fun v => { v with ready := true, v := { v.v with presentVolt := some 0 } } }) (wLat (fun l => { l with lsClosed := 1, sealAcc := 1, mail := [{ q := 6, num := 0, value := 1, fn := 0 }] }) s0)), by unfold OsqReady; decide⟩,
   ⟨0, wOsq (fun q => { q with st := .outOfService, weld := true }) (s0), by unfold OsqReady; decide⟩,
   ⟨0, wOsq (fun q => { q with st := .energy }) (wF (fun x => { x with veh := Vec.upd x.veh 0 fun v => { v with ready := true, v := { v.v with presentVolt := some 0 } } }) (wLat (fun l => { l with lsClosed := 1, sealAcc := 1, mail := [{ q := 6, num := 0, value := 1, fn := 0 }] }) (wPilot .c (wOut (fun o => { o with conn := 2 }) s0)))), by unfold OsqReady; decide⟩,
   ⟨onFwu (fun f => { f with window := some 150 }) s0, by decide⟩⟩

theorem wit_LinkMedium :
    (∃ (o : OutIx) (s : State), s.isl.com = true ∧ portOn s o = true ∧ (s.map.out[o]).link = 1) ∧
    (∃ (o : OutIx) (s : State), s.isl.com = true ∧ portOn s o = true ∧ (s.map.out[o]).link = 1) ∧
    (∃ (o : OutIx) (s : State), s.isl.com = true ∧ isLead s = true ∧ portOn s o = true ∧ ((s.map.out[o]).link = 2 ∨ (s.vlk[o]).t1sUp = false)) ∧
    (∃ (o : OutIx) (s : State), s.isl.com = true ∧ isLead s = false ∧ portOn s o = true ∧ ((s.map.out[o]).link = 2 ∨ (s.vlk[o]).t1sUp = false)) ∧
    (∃ (o : OutIx) (s : State), portOn s o = false) ∧
    (∃ (o : OutIx) (s : State), s.isl.com = true ∧ portOn s o = true ∧ (s.fl.osq[o]).st.linked = true) ∧
    (∃ (s : State), s.isl.com = true) :=
  ⟨⟨0, onVlk 0 (fun v => { v with t1sUp := false }) wT1s, by decide⟩,
   ⟨0, wT1s, by decide⟩,
   ⟨0, wPlc, by decide⟩,
   ⟨0, onTdm (fun t => { t with st := .follow }) wPlc, by decide⟩,
   ⟨0, s0, by decide⟩,
   ⟨0, wOsq (fun q => { q with st := .associated }) wT1s, by decide⟩,
   ⟨s0, by decide⟩⟩

theorem wit_SlacRuns :
    (∃ (s : State), s.isl.com = true ∧ isLead s = true) ∧
    (∃ (s : State), s.isl.com = true) ∧
    (∃ (mac : BitVec 48) (id : BitVec 64) (o : OutIx) (g : List Nat) (r : SlacRun) (s : State), s.isl.com = true ∧ portOn s o = true ∧ plc s o = true ∧ g.length = 58 ∧ runOf s mac id = some r ∧ r.opened = true ∧ r.closed = false) ∧
    (∃ (mac : BitVec 48) (id : BitVec 64) (r : SlacRun) (s : State), s.isl.com = true ∧ runOf s mac id = some r ∧ r.opened = true ∧ r.closed = false) ∧
    (∃ (mac : BitVec 48) (id : BitVec 64) (s : State), runOf s mac id = none) ∧
    (∃ (mac : BitVec 48) (id : BitVec 64) (w : OutIx) (p : OutIx) (a : Nat) (b : Nat) (r : SlacRun) (s : State), runOf s mac id = some r ∧ r.void = false ∧ r.excl.getLsbD w.val = false ∧ r.excl.getLsbD p.val = false ∧ slacCand s w = true ∧ pilotOf s w = .b ∧ a + 24 ≤ b ∧ b < 1023) ∧
    (∃ (mac : BitVec 48) (id : BitVec 64) (w : OutIx) (p : OutIx) (a : Nat) (b : Nat) (r : SlacRun) (s : State), runOf s mac id = some r ∧ r.excl.getLsbD w.val = false ∧ r.excl.getLsbD p.val = false ∧ a ≤ b ∧ b < a + 24) ∧
    (∃ (mac : BitVec 48) (id : BitVec 64) (r : SlacRun) (s : State), runOf s mac id = some r ∧ r.void = true) ∧
    (∃ (mac : BitVec 48) (id : BitVec 64) (o : OutIx) (r : SlacRun) (s : State), s.isl.com = true ∧ portOn s o = true ∧ runOf s mac id = some r ∧ r.bound = some o) ∧
    (∃ (mac : BitVec 48) (id : BitVec 64) (o : OutIx) (r : SlacRun) (s : State), runOf s mac id = some r ∧ r.bound ≠ some o) :=
  ⟨⟨s0, by decide⟩,
   ⟨s0, by decide⟩,
   ⟨1, 2, 0, List.replicate 58 0, wRun, { wPlc with slac := [wRun] }, by decide⟩,
   ⟨1, 2, wRun, { wPlc with slac := [wRun] }, by decide⟩,
   ⟨0, 0, s0, by decide⟩,
   ⟨1, 2, 0, 1, 0, 24, wRun, wPilot .b (wOsq (fun q => { q with st := .plugged }) { wPlc with slac := [wRun] }), by decide⟩,
   ⟨1, 2, 0, 1, 3, 4, wRun, { wPlc with slac := [wRun] }, by decide⟩,
   ⟨1, 2, { wRun with void := true }, { wPlc with slac := [{ wRun with void := true }] }, by decide⟩,
   ⟨1, 2, 0, { wRun with bound := some 0 }, { wPlc with slac := [{ wRun with bound := some 0 }] }, by decide⟩,
   ⟨1, 2, 0, wRun, { wPlc with slac := [wRun] }, by decide⟩⟩

theorem wit_Transport :
    (∃ (o : OutIx) (s : State), s.isl.com = true ∧ isLead s = true ∧ portOn s o = true ∧ linkReady s o = true) ∧
    (∃ (o : OutIx) (s : State), s.isl.com = true ∧ isLead s = true ∧ portOn s o = true ∧ linkReady s o = true ∧ (s.vlk[o]).tcp = false) ∧
    (∃ (o : OutIx) (s : State), s.isl.com = true ∧ isLead s = true ∧ portOn s o = true ∧ (s.vlk[o]).tcp = true) ∧
    (∃ (o : OutIx) (s : State), s.isl.com = true ∧ isLead s = true ∧ portOn s o = true ∧ (s.vlk[o]).tcp = true) ∧
    (∃ (o : OutIx) (k : Fin 128) (e : List Byte) (s : State), s.isl.com = true ∧ isLead s = true ∧ portOn s o = true ∧ (s.vlk[o]).tcp = true ∧ tlsReady s o = true ∧ tlsEntry s o = some (k, e)) ∧
    (∃ (o : OutIx) (ok : Bool) (s : State), s.isl.com = true ∧ isLead s = true ∧ portOn s o = true ∧ (s.vlk[o]).tcp = true ∧ (ok = false ∨ tlsReady s o = false ∨ tlsEntry s o = none)) ∧
    (∃ (o : OutIx) (s : State), s.isl.com = true ∧ isLead s = true ∧ portOn s o = true ∧ (s.vlk[o]).tcp = true) :=
  ⟨⟨0, wT1s, by decide⟩,
   ⟨0, onVlk 0 (fun v => { v with tcp := false }) wT1s, by decide⟩,
   ⟨0, wT1s, by decide⟩,
   ⟨0, wT1s, by decide⟩,
   ⟨0, 0, [], wLat (fun l => { l with slotValid := 1 }) (onHwd (fun h => { h with active := h.active.set 0 (some false) }) (onLnd (fun m => { m with mem := [(0x450000, 1)] }) (onVlk 0 (fun v => { v with sessLink := 0 }) wT1s))), by decide⟩,
   ⟨0, false, wT1s, by decide⟩,
   ⟨0, wT1s, by decide⟩⟩

theorem wit_VehicleRequests :
    (∃ (o : OutIx) (v : VehReq) (chain : List Byte) (sg : List Byte) (b1 : Bool) (b2 : Bool) (b3 : Bool) (b4 : Bool) (s : State) (c : Instr) (m : VehMsg), s.isl.com = true ∧ portOn s o = true ∧ (s.vlk[o]).tcp = true ∧ (s.vlk[o]).layer ≠ .none ∧ (chain = [] ∨ (s.vlk[o]).layer = .iso20) ∧ ((c, m) ∈ ([(.authorizationReq o chain sg, .authorization chain sg), (.chargeParameterDiscoveryReq o v b1 b2 b3 b4, .chargeParameters v b1 b2 b3 b4), (.cableCheckReq o, .cableCheck), (.preChargeReq o v, .preCharge v), (.powerDeliveryReq o b1, .powerDelivery b1), (.sessionStopReq o, .sessionStop), (.v2gRequest o (some (v, b1)), .other v b1)] : List (Instr × VehMsg)))) ∧
    (∃ (o : OutIx) (s : State), s.isl.com = true ∧ isLead s = true ∧ portOn s o = true ∧ (s.vlk[o]).tcp = true ∧ (s.vlk[o]).layer ≠ .none) ∧
    (∃ (o : OutIx) (s : State), s.isl.com = true ∧ isLead s = false ∧ portOn s o = true ∧ (s.vlk[o]).tcp = true ∧ (s.vlk[o]).layer ≠ .none) ∧
    (∃ (o : OutIx) (chain : List Byte) (s : State), s.isl.com = true ∧ isLead s = true ∧ portOn s o = true ∧ (s.vlk[o]).tcp = true ∧ (s.vlk[o]).layer ≠ .none ∧ (s.vlk[o]).layer ≠ .iso20 ∧ chain ≠ []) ∧
    (∃ (o : OutIx) (s : State), s.isl.com = true ∧ isLead s = true ∧ portOn s o = true ∧ (s.vlk[o]).tcp = true) :=
  ⟨⟨0, default, [], [], false, false, false, false, wT1s, .cableCheckReq 0, .cableCheck, ⟨rfl, rfl, rfl, by decide, Or.inl rfl, by simp⟩⟩,
   ⟨0, wT1s, by decide⟩,
   ⟨0, onTdm (fun t => { t with st := .follow }) wT1s, by decide⟩,
   ⟨0, [1], wT1s, by decide⟩,
   ⟨0, wT1s, by decide⟩⟩

theorem wit_CableBlock :
    (∃ (o : OutIx) (s : State), s.isl.ctl = true ∧ cableOn s o = true ∧ (s.nx.ccl[o]).resFault = false) ∧
    (∃ (o : OutIx) (s : State), (cableOn s o = false ∨ (s.nx.ccl[o]).resFault = true)) ∧
    (∃ (s : State), s.isl.ctl = true) ∧
    (∃ (s : State), s.isl.ctl = true) ∧
    (∃ (c : CableCfg) (x : Int), -65536 ≤ x ∧ x ≤ 65536 ∧ c.pumpMin ≤ 200 ∧ c.fanMin ≤ 200) ∧
    (∃ (c : CableCfg) (ceil : Nat) (i2 : Rat) (tc : Rat) (x : Int), c.pumpMin ≤ 200 ∧ (coolLoop c ceil i2 tc x).2.2 > c.fanMin) :=
  ⟨⟨0, wOut (fun o => { o with conn := 2 }) s0, by decide⟩,
   ⟨0, s0, by decide⟩,
   ⟨s0, by decide⟩,
   ⟨s0, by decide⟩,
   ⟨default, 0, by decide⟩,
   ⟨{ kpCool := 40000 }, 0, 0, 1, 0, by decide +kernel⟩⟩

theorem wit_CoolingFrames :
    (∃ (s : State), s.isl.com = true ∧ s.fn % 10 = 1) ∧
    (∃ (s : State), s.fn % 10 ≠ 1) :=
  ⟨⟨{ wMap (fun m => { m with out := m.out.map fun c => { c with conn := 2 }, can := (m.can.map fun c => { c with mode := 1, coolMask := 0xFFFFFFFF, slotTimer := some 0 }).set 1 { mode := 2, coolMask := 0xFFFF, slotTimer := some 1, coolId := 5 } }) s0 with fn := 1 }, by decide⟩,
   ⟨s0, by decide⟩⟩

theorem wit_CanReceive :
    (∃ (k : CanIx) (f : CanFrame) (s : State), (canOn s k = false ∨ (f.remote = true ∧ canRestricted s k = false))) ∧
    (∃ (k : CanIx) (f : CanFrame) (s : State), canOn s k = true ∧ f.remote = false ∧ f.data.length ≤ 64 ∧ filtHits s k f = []) ∧
    (∃ (k : CanIx) (f : CanFrame) (i : Nat) (v : Nat) (e : FiltCfg) (s : State), canOn s k = true ∧ f.remote = false ∧ f.data.length ≤ 64 ∧ filtHits s k f = [(i, e)] ∧ e.q ≠ 0 ∧ e.copy = false ∧ filtValue e f = some v) ∧
    (∃ (k : CanIx) (f : CanFrame) (i : Nat) (e : FiltCfg) (s : State), canOn s k = true ∧ f.remote = false ∧ f.data.length ≤ 64 ∧ filtHits s k f = [(i, e)] ∧ e.q = 0 ∧ (s.can[k]).unread < 64 ∧ Memory.wf s.lnd.mem = true) :=
  ⟨⟨0, wFrame, s0, by decide⟩,
   ⟨0, { wFrame with ident := 6 }, wCan 1 1, by decide⟩,
   ⟨0, wFrame, 0, 1, { enabled := true, q := 6, ident := 5 }, wCan 1 6, by decide⟩,
   ⟨0, wFrame, 0, { enabled := true, q := 0, ident := 5 }, wCan 1 0, by decide⟩⟩

theorem wit_CanTransmit :
    (∃ (k : CanIx) (s : State), s.isl.com = true ∧ lndBad (canTxBase k) 576 s = []) ∧
    (∃ (count : Nat), 8 < count) ∧
    (∃ (k : CanIx) (bs : List Byte) (s : State), bs.length = 72 ∧ (s.map.can[k]).mode = 1 ∧ field (leNat (bs.take 4)) 30 1 = 0 ∧ field (leNat (bs.take 4)) 31 1 = 0 ∧ leNat ((bs.drop 4).take 1) ≤ 8 ∧ s.lat.levels.txFill[k] + (s.can[k]).enqNow < 32 ∧ (s.can[k]).queue.length < 32) ∧
    (∃ (k : CanIx) (bs : List Byte) (s : State), bs.length = 72 ∧ (s.map.can[k]).mode = 2 ∧ field (leNat (bs.take 4)) 30 1 = 0 ∧ field (leNat (bs.take 4)) 31 1 = 0 ∧ leNat ((bs.drop 4).take 1) ≤ 7 ∧ s.lat.levels.txFill[k] + (s.can[k]).enqNow < 32 ∧ (s.can[k]).queue.length < 32 ∧ (s.can[k]).seqs.length < 128) ∧
    (∃ (k : CanIx) (s : State), 32 ≤ s.lat.levels.txFill[k] + (s.can[k]).enqNow) ∧
    (∃ (k : CanIx) (x : CanTx) (xs : List CanTx) (s : State), canSends s k = true ∧ (s.can[k]).queue = x :: xs) ∧
    (∃ (k : CanIx) (o : OutIx) (x : CanTx) (s : State), canSends s k = true ∧ (s.can[k]).cool[o] = some x) ∧
    (∃ (k : CanIx) (s : State), canOn s k = false) :=
  ⟨⟨0, s0, by decide⟩,
   ⟨9, by decide⟩,
   ⟨0, List.replicate 72 0, wCan 1 0, by decide⟩,
   ⟨0, List.replicate 72 0, wCan 2 0, by decide⟩,
   ⟨0, onCan 0 (fun c => { c with enqNow := 32 }) s0, by decide⟩,
   ⟨0, {}, [], onCan 0 (fun c => { c with queue := [{}] }) (wCan 1 0), by decide⟩,
   ⟨0, 0, {}, onCan 0 (fun c => { c with cool := c.cool.set 0 (some {}) }) (wCan 1 0), by decide⟩,
   ⟨0, s0, by decide⟩⟩

theorem wit_CanErrorStates :
    (∃ (k : CanIx) (s : State), canOn s k = true ∧ (s.can[k]).st ≠ 2) ∧
    (∃ (k : CanIx) (s : State), canOn s k = true ∧ (s.can[k]).st = 2 ∧ (s.can[k]).manual = false) ∧
    (∃ (k : CanIx) (s : State), s.isl.com = true ∧ (s.can[k]).st = 2 ∧ (s.can[k]).manual = true) ∧
    (∃ (k : CanIx) (s : State), (s.can[k]).st ≠ 2) ∧
    (∃ (k : CanIx) (s : State), canOn s k = true ∧ (s.can[k]).st ≠ 2) ∧
    (∃ (k : CanIx) (s : State), (s.can[k]).st = 2) ∧
    (∃ (k : CanIx) (f : CanFrame) (i : Nat) (e : FiltCfg) (s : State), canOn s k = true ∧ f.remote = false ∧ f.data.length ≤ 64 ∧ filtHits s k f = [(i, e)] ∧ e.q = 0 ∧ 64 ≤ (s.can[k]).unread) ∧
    (∃ (s : State), s.isl.com = true) :=
  ⟨⟨0, wCan 1 0, by decide⟩,
   ⟨0, onCan 0 (fun c => { c with st := 2 }) (wCan 1 0), by decide⟩,
   ⟨0, onCan 0 (fun c => { c with st := 2, manual := true }) s0, by decide⟩,
   ⟨0, s0, by decide⟩,
   ⟨0, wCan 1 0, by decide⟩,
   ⟨0, onCan 0 (fun c => { c with st := 2 }) s0, by decide⟩,
   ⟨0, wFrame, 0, { enabled := true, q := 0, ident := 5 }, onCan 0 (fun c => { c with unread := 64 }) (wCan 1 0), by decide⟩,
   ⟨s0, by decide⟩⟩

theorem wit_MeteringCycle :
    (∃ (s : State), s.isl.met = true) ∧
    (∃ (a : Int) (b : Int), a < 0 ∧ 0 ≤ b) ∧
    (∃ (m : Met) (ln : Fin 3 → Int) (l : Nat), m.cross = none ∧ crossIn m ln = some l) ∧
    (∃ (len : Nat) (x : Bool) (s : State), s.isl.met = true ∧ cycleLen s = some (len, x)) ∧
    (∃ (l : Nat) (s : State), s.met.cross = some l) ∧
    (∃ (s : State), s.met.cross = none ∧ s.met.hold = true ∧ (nominalLen s : Int) < s.met.clk + 256) ∧
    (∃ (s : State), s.met.cross = none ∧ (s.met.hold = false ∨ s.met.clk + 256 ≤ (nominalLen s : Int))) ∧
    (∃ (s : State), s.isl.met = true ∧ s.met.cross = none) ∧
    (∃ (l : Nat) (s : State), s.met.cross = some l) :=
  ⟨⟨s0, by decide⟩,
   ⟨-1, 0, by decide⟩,
   ⟨{ s0.met with phase := 0, ln := s0.met.ln.set 0 (-5), low := 1, clk := 80000 }, fun _ => 5, 80128, by decide⟩,
   ⟨80000, true, onMet (fun m => { m with cross := some 80000 }) s0, by decide⟩,
   ⟨80000, onMet (fun m => { m with cross := some 80000 }) s0, by decide⟩,
   ⟨onMet (fun m => { m with hold := true, clk := 90000 }) s0, by decide⟩,
   ⟨s0, by decide⟩,
   ⟨s0, by decide⟩,
   ⟨80000, onMet (fun m => { m with cross := some 80000 }) s0, by decide⟩⟩

theorem wit_PulsesAndThermalFrames :
    (∃ (k : Fin 33) (s : State), pulseOn s k = true) ∧
    (∃ (k : Fin 33) (s : State), s.isl.met = true ∧ pulseOn s k = true ∧ (s.nx.met.sets[k]).b ≠ 0 ∧ (s.fl.met.sets[k]).b ≠ 0 ∧ (s.fl.met.sets[k]).nxt ≤ s.fn ∧ s.met.pulse[k] = none) ∧
    (∃ (k : Fin 33) (s : State), ((s.nx.met.sets[k]).b = 0 ∨ s.met.pulse[k] ≠ none)) ∧
    (∃ (s : State), s.isl.met = true) ∧
    (∃ (s : State), s.fn % 10 = 0 ∧ s.thermFn ≠ some s.fn) ∧
    (∃ (s : State), s.fn % 10 ≠ 0) :=
  ⟨⟨0, wSet 1, by decide⟩,
   ⟨0, wF (fun x => { x with met := { x.met with sets := Vec.upd x.met.sets 0 fun m => { m with b := 1 } } }) (wSet 1), by decide⟩,
   ⟨0, s0, by decide⟩,
   ⟨s0, by decide⟩,
   ⟨s0, by decide⟩,
   ⟨{ s0 with fn := 1 }, by decide⟩⟩

theorem wit_MetrologyCommands :
    (∃ (s : State), s.isl.ctl = true ∧ s.fn % 900000 = 899999 ∧ (s.map.site.tamper % 2 = 1) ∧ siteOn s = true ∧ s.nx.met.winBad = true) ∧
    (∃ (s : State), s.isl.ctl = true ∧ s.fn % 900000 = 899999 ∧ (s.map.site.tamper % 2 = 1) ∧ siteOn s = true ∧ s.nx.met.winBad = false) ∧
    (∃ (s : State), s.fn % 900000 ≠ 899999) ∧
    (∃ (s : State), s.isl.ctl = true ∧ s.tdm.st = .follow ∧ s.fn % 1000 = 0) ∧
    (∃ (s : State), (s.tdm.st ≠ .follow ∨ s.fn % 1000 ≠ 0)) ∧
    (∃ (s : State), s.isl.ctl = true ∧ s.tdm.linkUp = true) ∧
    (∃ (s : State), s.tdm.linkUp = false) ∧
    (∃ (s : State), (s.tdm.st = .single ∨ s.nx.met.witLost = true)) ∧
    (∃ (s : State), s.isl.ctl = true ∧ s.tdm.st ≠ .single ∧ s.nx.met.witLost = false) ∧
    (∃ (s : State), s.isl.ctl = true) ∧
    (∃ (s : State), s.isl.ctl = true) ∧
    (∃ (s : State), s.isl.met = true ∧ s.otp.orderK = false ∧ s.otp.locked = false) ∧
    (∃ (s : State), s.isl.met = true ∧ (s.otp.orderK = true ∨ s.otp.locked = true)) ∧
    (∃ (s : State), s.isl.met = true ∧ s.otp.orderK = true) ∧
    (∃ (s : State), s.isl.met = true) :=
  ⟨⟨wSite true, by decide⟩,
   ⟨wSite false, by decide⟩,
   ⟨s0, by decide⟩,
   ⟨wTdm .follow, by decide⟩,
   ⟨s0, by decide⟩,
   ⟨wTdm .lead, by decide⟩,
   ⟨onMetF (fun m => { m with witActive := true }) s0, by decide⟩,
   ⟨s0, by decide⟩,
   ⟨wTdm .lead, by decide⟩,
   ⟨s0, by decide⟩,
   ⟨{ s0 with otp := { orderK := true } }, by decide⟩,
   ⟨s0, by decide⟩,
   ⟨{ s0 with otp := { s0.otp with orderK := true } }, by decide⟩,
   ⟨{ s0 with otp := { s0.otp with orderK := true } }, by decide⟩,
   ⟨s0, by decide⟩⟩

theorem wit_DemandIntervals :
    (∃ (m : Fin 33) (s : State), metOn33 s m = true) ∧
    (∃ (h : Nat) (s : State), s.isl.ctl = true ∧ s.nx.bil.hd = some h ∧ rtcSec s / s.nx.bil.demLen * s.nx.bil.demLen ≤ h) ∧
    (∃ (h : Nat) (s : State), s.isl.ctl = true ∧ s.nx.bil.hd = some h ∧ h < rtcSec s / s.nx.bil.demLen * s.nx.bil.demLen) ∧
    (∃ (s : State), s.isl.ctl = true) ∧
    (∃ (s : State), s.isl.ctl = true) :=
  ⟨⟨0, wSet 1, by decide⟩,
   ⟨900, wLat (fun l => { l with rtc := 1799 * 65536000 }) (onBil (fun b => { b with hd := some 900 }) s0), by decide⟩,
   ⟨900, wLat (fun l => { l with rtc := 1800 * 65536000 }) (onBil (fun b => { b with hd := some 900 }) s0), by decide⟩,
   ⟨s0, by decide⟩,
   ⟨s0, by decide⟩⟩

theorem wit_SavesAndTickets :
    (∃ (k : Fin 64) (h : Nat × Nat × List Nat) (s : State), s.isl.ctl = true ∧ s.fn % saveInt s = 0 ∧ s.bilR.noSave = false ∧ s.bilR.writing = none ∧ nextSlot s = some k ∧ s.fl.bil.hist.find? (fun h => h.1 + 1 = s.fn) = some h) ∧
    (∃ (s : State), (s.fn % saveInt s ≠ 0 ∨ s.bilR.noSave = true ∨ s.bilR.writing ≠ none)) ∧
    (∃ (k : Fin 64) (x : SaveSlot) (s : State), s.bilR.writing = some (k, x)) ∧
    (∃ (s : State), s.isl.ctl = true ∧ Memory.wf s.lnd.mem = true) ∧
    (∃ (tk : Ticket) (ts : List Ticket) (i : Fin 256) (s : State), s.isl.ctl = true ∧ s.nx.bil.toSign = tk :: ts ∧ tk.ix = some i.val ∧ Memory.wf s.lnd.mem = true) ∧
    (∃ (s : State), s.nx.bil.toSign = []) ∧
    (∃ (s : State), s.isl.ctl = true) ∧
    (∃ (k : SetIx) (s : State), s.isl.ctl = true ∧ field s.bilR.sel.toNat 0 6 = k.val ∧ metOn s k = true ∧ (s.map.met[k]).kind = 2 ∧ (s.nx.bil.sess[k]).isOpen = true ∧ (s.nx.bil.sess[k]).stop = none) ∧
    (∃ (s : State), s.isl.ctl = true) :=
  ⟨⟨0, (999, 0, []), { wF (fun x => { x with bil := { x.bil with hist := [(999, 0, [])] } }) s0 with fn := 1000 }, ⟨rfl, by decide, rfl, rfl, rfl, rfl⟩⟩,
   ⟨{ s0 with fn := 1 }, by decide⟩,
   ⟨0, { seq := 1, fn := 0, rtc := 0, hash := [], bil := {}, welds := 0 }, onBilR (fun r => { r with writing := some (0, { seq := 1, fn := 0, rtc := 0, hash := [], bil := {}, welds := 0 }) }) s0, by decide⟩,
   ⟨s0, by decide⟩,
   ⟨{ ix := some 0, seq := 1, body := [] }, [], 0, onBil (fun b => { b with toSign := [{ ix := some 0, seq := 1, body := [] }] }) s0, by decide⟩,
   ⟨s0, by decide⟩,
   ⟨s0, by decide⟩,
   ⟨0, onSess 0 (fun x => { x with isOpen := true }) (wSet 2), by decide⟩,
   ⟨s0, by decide⟩⟩

theorem wit_LedgerCommands :
    (∃ (s : State) (c : Instr) (n : Nat), s.isl.ctl = true ∧ (∀ (j : SetIx) (b : Bind), s.nx.bil.bind[j] = some b → b.due = false) ∧ (1536 ≤ field s.bilR.ledgerSel.toNat 0 11 ∨ s.bilR.unusable.contains (field s.bilR.ledgerSel.toNat 0 11) = true) ∧ ((c, n) ∈ ([(.ledgerBind, 1), (.ledgerUnbind, 2), (.ledgerLoadCredit, 3), (.ledgerCreditMode, 4), (.ledgerRetire, 5), (.ledgerClear, 6), (.ledgerRead, 7), (.ledgerExport, 8), (.ledgerForcedBind, 9)] : List (Instr × Nat)))) ∧
    (∃ (ix : Fin 1536) (s : State), s.isl.ctl = true ∧ field s.bilR.ledgerSel.toNat 0 11 = ix.val ∧ s.bilR.unusable.contains ix.val = false ∧ holder s ix = none ∧ (∀ (j : SetIx) (b : Bind), s.nx.bil.bind[j] = some b → b.due = false)) ∧
    (∃ (ix : Fin 1536) (k : SetIx) (s : State), s.isl.ctl = true ∧ field s.bilR.ledgerSel.toNat 0 11 = ix.val ∧ s.bilR.unusable.contains ix.val = false ∧ holder s ix = some k ∧ (∀ (j : SetIx) (b : Bind), s.nx.bil.bind[j] = some b → b.due = false)) ∧
    (∃ (ix : Fin 1536) (k : SetIx) (o : OutIx) (s : State), s.isl.ctl = true ∧ field s.bilR.ledgerSel.toNat 0 11 = ix.val ∧ s.bilR.unusable.contains ix.val = false ∧ holder s ix = none ∧ field s.bilR.ledgerSel.toNat 16 6 = k.val ∧ s.nx.bil.bind[k] = none ∧ metOn s k = true ∧ outOfSet s k = some o ∧ ((s.fl.osq[o]).st).bindable = true ∧ (s.vlk[o]).authSeen = true ∧ (s.bilR.ledger[ix]).phase = 0 ∧ (∀ (j : SetIx) (b : Bind), s.nx.bil.bind[j] = some b → b.due = false)) ∧
    (∃ (ix : Fin 1536) (s : State), s.isl.ctl = true ∧ field s.bilR.ledgerSel.toNat 0 11 = ix.val ∧ s.bilR.unusable.contains ix.val = false ∧ (∀ (j : SetIx) (b : Bind), s.nx.bil.bind[j] = some b → b.due = false)) :=
  ⟨⟨onBilR (fun r => { r with ledgerSel := 1536 }) s0, .ledgerBind, 1, ⟨rfl, fun j b h => by have e : ∀ j : SetIx, s0.nx.bil.bind[j] = none := (by decide); exact absurd (h.symm.trans (e j)) (by simp), Or.inl (by decide), by simp⟩⟩,
   ⟨0, s0, by decide⟩,
   ⟨0, 0, onBil (fun b => { b with bind := b.bind.set 0 (some { ix := 0, e := {}, fn := 0 }) }) (wSet 2), by decide⟩,
   ⟨0, 0, 0, wBindable, by decide⟩,
   ⟨0, s0, by decide⟩⟩

theorem wit_SwitchCommands :
    (∃ (s : State), s.isl.ctl = true) ∧
    (∃ (s : State), s.aux.held = true) ∧
    (∃ (s : State), s.aux.held = false) ∧
    (∃ (k : Fin 48) (s : State), firstWait s = some k ∧ swFree s.aux.sw[hsIx k] = true ∧ (s.aux.sw[hsIx k]).trip = false) ∧
    (∃ (s : State), firstWait s = none) ∧
    (∃ (k : Fin 48) (on : Bool) (s : State), s.isl.ctl = true ∧ (((s.map.aux[hsIx k]).use = 1 ∧ isPulse s (hsIx k) = false) ∨ ((s.map.aux[hsIx k]).use = 6 ∧ (on = false ∨ fwuHeld s = false)))) ∧
    (∃ (k : Fin 48) (s : State), s.isl.ctl = true ∧ isPulse s (hsIx k) = true) ∧
    (∃ (k : Fin 48) (on : Bool) (s : State), s.isl.ctl = true ∧ (((s.map.aux[hsIx k]).use ≠ 1 ∧ (s.map.aux[hsIx k]).use ≠ 6) ∨ ((s.map.aux[hsIx k]).use = 6 ∧ on = true ∧ fwuHeld s = true))) ∧
    (∃ (s : State), s.isl.ctl = true) ∧
    (∃ (k : SwIx) (s : State), (s.aux.sw[k]).pulse = true) ∧
    (∃ (k : SwIx) (s : State), (s.aux.sw[k]).on = true ∧ k.val < 48 ∧ (s.map.aux[k]).holdDuty ≠ 0) :=
  ⟨⟨s0, by decide⟩,
   ⟨{ s0 with aux := { s0.aux with held := true } }, by decide⟩,
   ⟨s0, by decide⟩,
   ⟨0, wSw fun x => { x with wait := true }, by decide⟩,
   ⟨s0, by decide⟩,
   ⟨0, false, wAux 6, by decide⟩,
   ⟨0, wMap (fun x => { x with aux := Vec.upd x.aux 0 fun c => { c with use := 1, timer := some 0 } }) s0, by decide⟩,
   ⟨0, false, s0, by decide⟩,
   ⟨s0, by decide⟩,
   ⟨0, wSw fun x => { x with pulse := true }, by decide⟩,
   ⟨0, wMap (fun x => { x with aux := Vec.upd x.aux 0 fun c => { c with holdDuty := 1 } }) (wSw fun x => { x with on := true }), by decide⟩⟩

theorem wit_SwitchProtection :
    (∃ (k : SwIx) (s : State), (s.aux.sw[k]).on = true) ∧
    (∃ (k : SwIx) (s : State), (s.aux.sw[k]).on = false) ∧
    (∃ (k : SwIx) (s : State), (s.aux.sw[k]).trip = true ∧ (s.aux.sw[k]).cmd = true ∧ swFree s.aux.sw[k] = true ∧ (s.aux.sw[k]).retry ≠ 0 ∧ swPermitted s k = true) ∧
    (∃ (k : SwIx) (s : State), ((s.aux.sw[k]).dt = true ∨ (s.aux.sw[k]).abs = true ∨ (s.aux.sw[k]).retry = 0 ∨ (s.aux.sw[k]).cmd = false)) ∧
    (∃ (k : SwIx) (s : State), (s.aux.sw[k]).on = true) ∧
    (∃ (k : SwIx) (s : State), (s.aux.sw[k]).on = true ∧ (s.aux.sw[k]).inrush = false ∧ openRests s k = false ∧ (s.map.aux[k]).olMode = 1 ∧ (s.aux.sw[k]).openOn = false) ∧
    (∃ (k : SwIx) (s : State), (s.aux.sw[k]).on = false ∧ (s.map.aux[k]).olMode = 3 ∧ transmits s = true) ∧
    (∃ (k : SwIx) (s : State), (s.aux.sw[k]).on = false ∧ (s.map.aux[k]).olMode = 3 ∧ transmits s = false) ∧
    (∃ (s : State), (s.aux.sums.length < 10 ∨ s.aux.sums.foldl (· + ·) 0 ≤ 96000)) ∧
    (∃ (s : State), 10 ≤ s.aux.sums.length ∧ 96000 < s.aux.sums.foldl (· + ·) 0) :=
  ⟨⟨0, wSw fun x => { x with on := true }, by decide⟩,
   ⟨0, s0, by decide⟩,
   ⟨0, wSw fun x => { x with trip := true, cmd := true, retry := 1 }, by decide⟩,
   ⟨0, s0, by decide⟩,
   ⟨0, wSw fun x => { x with on := true }, by decide⟩,
   ⟨0, wMap (fun x => { x with aux := Vec.upd x.aux 0 fun c => { c with olMode := 1 } }) (wSw fun x => { x with on := true }), by decide⟩,
   ⟨0, wMap (fun x => { x with aux := Vec.upd x.aux 0 fun c => { c with olMode := 3 } }) (s0), by decide⟩,
   ⟨0, wMap (fun x => { x with aux := Vec.upd x.aux 0 fun c => { c with olMode := 3 } }) (wTdm .isolated), by decide⟩,
   ⟨s0, by decide⟩,
   ⟨{ s0 with aux := { s0.aux with sums := List.replicate 10 9601 } }, by decide⟩⟩

theorem wit_AmendmentsAndFlash :
    (∃ (s : State), s.isl.ctl = true ∧ amendBusy s = true) ∧
    (∃ (s : State), s.isl.ctl = true ∧ amendBusy s = false ∧ lndBad stagingBase s.smp.amendLen.toNat s = []) ∧
    (∃ (s : State), s.isl.ctl = true ∧ s.smp.amState = 1) ∧
    (∃ (s : State), s.smp.amState ≠ 1) ∧
    (∃ (s : State), s.isl.ctl = true ∧ s.smp.amState = 2 ∧ s.fn < s.smp.amFn) ∧
    (∃ (s : State), (s.smp.amState ≠ 2 ∨ s.smp.amFn ≤ s.fn)) ∧
    (∃ (s : State), s.isl.ctl = true ∧ amendDue s = true) ∧
    (∃ (img : List Byte) (rest : List (List Byte)) (s : State), s.isl.ctl = true ∧ s.smp.toPersist = img :: rest) ∧
    (∃ (s : State), s.smp.toPersist = []) ∧
    (∃ (s : State), s.isl.ctl = true ∧ s.smp.flashState ≠ 1 ∧ lndBad stagingBase (min s.smp.flashLen.toNat 0x100000) s = []) ∧
    (∃ (s : State), s.isl.ctl = true ∧ s.flash.writing = some false) ∧
    (∃ (s : State), s.isl.ctl = true ∧ s.flash.writing = some true) ∧
    (∃ (s : State), s.isl.ctl = true) :=
  ⟨⟨onSmp (fun m => { m with amState := 1 }) s0, by decide⟩,
   ⟨s0, by decide⟩,
   ⟨onSmp (fun m => { m with amState := 1 }) s0, by decide⟩,
   ⟨s0, by decide⟩,
   ⟨onSmp (fun m => { m with amState := 2, amFn := 1 }) s0, by decide⟩,
   ⟨s0, by decide⟩,
   ⟨onSmp (fun m => { m with amState := 2 }) s0, by decide⟩,
   ⟨[], [], onSmp (fun m => { m with toPersist := [[]], amState := 3 }) s0, by decide⟩,
   ⟨s0, by decide⟩,
   ⟨s0, by decide⟩,
   ⟨{ s0 with flash := { s0.flash with writing := some false } }, by decide⟩,
   ⟨{ s0 with flash := { s0.flash with writing := some true } }, by decide⟩,
   ⟨s0, by decide⟩⟩

theorem wit_TandemLink :
    (∃ (s : State), s.isl.ctl = true ∧ s.map.tandem.linkMode ≠ 0 ∧ s.tdm.linkUp = false) ∧
    (∃ (s : State), s.isl.ctl = true ∧ s.tdm.linkUp = true) ∧
    (∃ (m : Marker) (a : Int) (s : State), s.isl.ctl = true ∧ s.tdm.linkUp = true ∧ ((m.fn = s.fn ∧ a ≤ 5000) ∨ s.tdm.st = .wait ∨ s.tdm.st = .isolated)) ∧
    (∃ (m : Marker) (a : Int) (s : State), (s.tdm.linkUp = false ∨ ((m.fn ≠ s.fn ∨ 5000 < a) ∧ s.tdm.st ≠ .wait ∧ s.tdm.st ≠ .isolated))) ∧
    (∃ (m : Marker) (t : Tdm), m.lead = true ∧ (t.st = .follow ∨ t.st = .sync ∨ t.st = .reseed)) ∧
    (∃ (m : Marker) (t : Tdm), (m.lead = false ∨ (t.st ≠ .follow ∧ t.st ≠ .sync ∧ t.st ≠ .reseed))) ∧
    (∃ (s : State), s.isl.ctl = true ∧ s.tdm.st ≠ .single ∧ s.tdm.got = none ∧ s.tdm.missNow = false) ∧
    (∃ (s : State), (s.tdm.st = .single ∨ s.tdm.got ≠ none ∨ s.tdm.missNow = true)) ∧
    (∃ (s : State), s.isl.ctl = true) ∧
    (∃ (k : CanIx) (s : State), s.isl.ctl = true ∧ hbBus s = some k) ∧
    (∃ (s : State), s.isl.ctl = true ∧ s.tdm.linkUp = true ∧ isLead s = false) ∧
    (∃ (s : State), s.isl.ctl = true ∧ s.tdm.linkUp = true ∧ (isLead s = false ∨ s.tdm.oldSets ≠ 0)) ∧
    (∃ (s : State), s.isl.ctl = true ∧ s.tdm.linkUp = true ∧ isLead s = false) ∧
    (∃ (s : State), (isLead s = true ∨ s.tdm.linkUp = false)) ∧
    (∃ (s : State), s.tdm.linkUp = true ∧ s.tdm.st = .lead) ∧
    (∃ (s : State), s.tdm.st = .follow) ∧
    (∃ (s : State), s.isl.ctl = true ∧ s.tdm.linkUp = true) ∧
    (∃ (s : State), s.isl.ctl = true ∧ s.tdm.linkUp = true) :=
  ⟨⟨wMap (fun m => { m with tandem := { m.tandem with enable := true, linkMode := 1, hbCan := some 0 } }) s0, by decide⟩,
   ⟨wTdm .lead, by decide⟩,
   ⟨{ fn := 0, identity := false, lead := true, state := 4 }, 0, wTdm .lead, by decide⟩,
   ⟨{ fn := 0, identity := false, lead := true, state := 4 }, 0, s0, by decide⟩,
   ⟨{ fn := 0, identity := false, lead := true, state := 4 }, { s0.tdm with st := .follow }, by decide⟩,
   ⟨{ fn := 0, identity := false, lead := false, state := 4 }, { s0.tdm with st := .follow }, by decide⟩,
   ⟨wTdm .lead, by decide⟩,
   ⟨s0, by decide⟩,
   ⟨s0, by decide⟩,
   ⟨0, wMap (fun m => { m with tandem := { m.tandem with enable := true, linkMode := 1, hbCan := some 0 } }) s0, by decide⟩,
   ⟨wTdm .follow, by decide⟩,
   ⟨wTdm .follow, by decide⟩,
   ⟨wTdm .follow, by decide⟩,
   ⟨s0, by decide⟩,
   ⟨wTdm .lead, by decide⟩,
   ⟨wTdm .follow, by decide⟩,
   ⟨wTdm .lead, by decide⟩,
   ⟨wTdm .wait, by decide⟩⟩

theorem wit_TandemRoles :
    (∃ (s : State), s.isl.ctl = true ∧ s.tdm.linkUp = true ∧ s.tdm.st = .sync) ∧
    (∃ (s : State), s.isl.ctl = true ∧ s.tdm.linkUp = true ∧ s.tdm.st = .sync ∧ Memory.wf s.lnd.mem = true) ∧
    (∃ (s : State), s.isl.ctl = true ∧ s.tdm.linkUp = true ∧ s.tdm.st = .sync) ∧
    (∃ (s : State), s.isl.ctl = true ∧ s.tdm.linkUp = true ∧ s.tdm.st = .sync) ∧
    (∃ (s : State), s.isl.ctl = true ∧ s.tdm.linkUp = true ∧ (s.tdm.st = .sync ∨ s.tdm.st = .follow)) ∧
    (∃ (s : State), s.tdm.st = .follow) ∧
    (∃ (s : State), s.tdm.st ≠ .sync ∧ s.tdm.st ≠ .follow) ∧
    (∃ (x : Snap) (s : State), s.isl.ctl = true ∧ s.tdm.reached = false ∧ s.tdm.snap = some x ∧ x.fn < s.fn) ∧
    (∃ (s : State), s.isl.ctl = true ∧ s.tdm.st = .sync ∧ s.tdm.reached = true) ∧
    (∃ (s : State), s.tdm.snap = none ∧ s.tdm.reached = false) ∧
    (∃ (s : State), s.isl.ctl = true ∧ s.tdm.st = .sync ∧ 100 ≤ s.tdm.joinFrames ∧ s.tdm.pend = none) ∧
    (∃ (s : State), s.isl.ctl = true ∧ s.tdm.st = .wait ∧ s.tdm.everMarker = false ∧ s.map.tandem.joinWait ≤ s.tdm.mapFrames ∧ s.tdm.pend = none) ∧
    (∃ (s : State), (s.tdm.st ≠ .wait ∨ s.tdm.everMarker = true)) ∧
    (∃ (s : State), s.isl.ctl = true ∧ leadLost s = true ∧ s.tdm.st = .follow ∧ s.tdm.pend = none) ∧
    (∃ (s : State), s.isl.ctl = true ∧ leadLost s = true ∧ (s.tdm.st = .sync ∨ s.tdm.st = .reseed)) ∧
    (∃ (s : State), (leadLost s = false ∨ s.tdm.st = .lead ∨ s.tdm.st = .single)) ∧
    (∃ (k : SwapKind) (s : State), s.isl.ctl = true ∧ s.tdm.swap = some (s.fn + 1, k) ∧ s.tdm.pend = none) ∧
    (∃ (f : Nat) (k : SwapKind) (s : State), s.tdm.swap = some (f, k) ∧ f ≠ s.fn + 1) ∧
    (∃ (s : State), s.isl.ctl = true) ∧
    (∃ (m : Marker) (s : State), s.tdm.st = .lead ∧ s.tdm.got = some m ∧ m.state = 4 ∧ s.tdm.pend = none) :=
  ⟨⟨wTdm .sync, by decide⟩,
   ⟨wTdm .sync, by decide⟩,
   ⟨wTdm .sync, by decide⟩,
   ⟨wTdm .sync, by decide⟩,
   ⟨wTdm .sync, by decide⟩,
   ⟨wTdm .follow, by decide⟩,
   ⟨wTdm .wait, by decide⟩,
   ⟨{}, onTdm (fun t => { t with st := .sync, bulkDone := true, snap := some {} }) ({ s0 with fn := 1 }), by decide⟩,
   ⟨onTdm (fun t => { t with st := .sync, reached := true }) (s0), by decide⟩,
   ⟨s0, by decide⟩,
   ⟨onTdm (fun t => { t with st := .sync, joinFrames := 100 }) (s0), by decide⟩,
   ⟨onTdm (fun t => { t with st := .wait, mapFrames := 60000 }) (s0), by decide⟩,
   ⟨s0, by decide⟩,
   ⟨onTdm (fun t => { t with st := .follow, missRun := 2 }) (s0), by decide⟩,
   ⟨onTdm (fun t => { t with st := .sync, missRun := 2 }) (s0), by decide⟩,
   ⟨s0, by decide⟩,
   ⟨.fault, onTdm (fun t => { t with swap := some (1, .fault) }) (s0), by decide⟩,
   ⟨2, .fault, onTdm (fun t => { t with swap := some (2, .fault) }) (s0), by decide⟩,
   ⟨s0, by decide⟩,
   ⟨{ fn := 0, identity := false, lead := true, state := 4 }, onTdm (fun t => { t with st := .lead, got := some { fn := 0, identity := false, lead := true, state := 4 } }) (s0), by decide⟩⟩

theorem wit_HeartwoodCommands :
    (∃ (a : Word) (s : State) (c : Instr) (n : Nat), s.isl.met = true ∧ s.hwd.busy = none ∧ ((c, n) ∈ ([(.hwdGenerate a, 1), (.hwdImport a, 2), (.hwdPublic a, 3), (.hwdDelete a, 4), (.hwdReseal a, 5), (.hwdResealCommit a, 6), (.hwdAttest a, 7), (.hwdBbkGenerate a, 8), (.hwdEnrollSmp a, 9)] : List (Instr × Nat)))) ∧
    (∃ (a : Word) (s : State) (c : Instr), s.hwd.busy ≠ none ∧ (c ∈ ([.hwdGenerate a, .hwdImport a, .hwdPublic a, .hwdDelete a, .hwdReseal a, .hwdResealCommit a, .hwdAttest a, .hwdBbkGenerate a, .hwdEnrollSmp a] : List Instr))) ∧
    (∃ (a : Word) (k : Fin 128) (s : State), s.isl.met = true ∧ s.hwd.busy = none ∧ argSlot a = k.val ∧ 1 ≤ argTyp a ∧ argTyp a ≤ 3 ∧ derivRefused s = false ∧ s.hwd.active[k] = none ∧ s.hwd.trngFail = false) ∧
    (∃ (a : Word) (k : Fin 128) (x : Bool) (s : State) (c : Instr), s.isl.met = true ∧ s.hwd.busy = none ∧ argSlot a = k.val ∧ 1 ≤ argTyp a ∧ argTyp a ≤ 3 ∧ derivRefused s = false ∧ s.hwd.active[k] = some x ∧ (c ∈ ([.hwdGenerate a, .hwdImport a] : List Instr))) ∧
    (∃ (a : Word) (k : Fin 128) (s : State), s.isl.met = true ∧ s.hwd.busy = none ∧ argSlot a = k.val ∧ 1 ≤ argTyp a ∧ argTyp a ≤ 3 ∧ derivRefused s = false ∧ s.hwd.active[k] = none) ∧
    (∃ (a : Word) (s : State), s.isl.met = true ∧ s.hwd.busy = none ∧ argSlot a = 0xFE ∧ derivRefused s = false) ∧
    (∃ (a : Word) (k : Fin 128) (s : State), s.isl.met = true ∧ s.hwd.busy = none ∧ argSlot a = k.val) ∧
    (∃ (s : State), s.isl.met = true ∧ s.hwd.busy = none ∧ s.fwu.target = none) ∧
    (∃ (s : State), s.isl.met = true ∧ s.hwd.busy = none) ∧
    (∃ (s : State), s.isl.met = true ∧ s.hwd.busy = none) ∧
    (∃ (a : Word) (b : Fin 8) (s : State), s.isl.met = true ∧ s.hwd.busy = none ∧ argSlot a = b.val ∧ bbkTypOk b.val (argTyp a) = true ∧ s.hwd.bbk[b] = none ∧ s.hwd.trngFail = false) ∧
    (∃ (a : Word) (s : State), s.isl.met = true ∧ s.hwd.busy = none ∧ argSlot a = 1 ∧ argTyp a = 1 ∧ (s.hwd.bbk[(1 : Fin 8)]).isSome = true ∧ s.tdm.st ≠ .single) ∧
    (∃ (s : State), s.isl.met = true ∧ s.hwd.busy = none ∧ s.hwd.smpRows = []) ∧
    (∃ (r : HwdRun) (s : State), s.isl.met = true ∧ s.hwd.busy = some r ∧ s.fwu.hwdWant = none ∧ Memory.wf s.lnd.mem = true) ∧
    (∃ (r : HwdRun) (op : Nat) (s : State), s.isl.met = true ∧ s.hwd.busy = some r ∧ s.fwu.hwdWant = some op ∧ (op = 5 ∨ op = 6)) ∧
    (∃ (s : State), s.hwd.busy = none) :=
  ⟨⟨0, s0, .hwdAttest 0, 7, ⟨rfl, rfl, by simp⟩⟩,
   ⟨0, onHwd (fun h => { h with busy := some { op := 1, result := 0 } }) s0, .hwdGenerate 0, ⟨by decide, by simp⟩⟩,
   ⟨0x100, 0, wRoot, by decide⟩,
   ⟨0x300, 0, false, onHwd (fun h => { h with active := h.active.set 0 (some false) }) wRoot, .hwdImport 0x300, ⟨rfl, rfl, rfl, by decide, by decide, rfl, rfl, by simp⟩⟩,
   ⟨0x300, 0, wRoot, by decide⟩,
   ⟨0xFE, wRoot, by decide⟩,
   ⟨0, 0, s0, by decide⟩,
   ⟨s0, by decide⟩,
   ⟨s0, by decide⟩,
   ⟨s0, by decide⟩,
   ⟨0x200, 0, s0, by decide⟩,
   ⟨0x101, onHwd (fun h => { h with bbk := h.bbk.set 1 (some { typ := 1, key := [] }) }) (wTdm .lead), by decide⟩,
   ⟨s0, by decide⟩,
   ⟨{ op := 1, result := 0 }, (onHwd (fun h => { h with busy := some { op := 1, result := 0 } }) s0), by decide⟩,
   ⟨{ op := 1, result := 0 }, 5, onFwu (fun f => { f with hwdWant := some 5 }) (onHwd (fun h => { h with busy := some { op := 1, result := 0 } }) s0), by decide⟩,
   ⟨s0, by decide⟩⟩

theorem wit_TamperAndLifecycle :
    (∃ (src : TamperSrc) (s : State), s.isl.met = true ∧ tamperArmed s src = true) ∧
    (∃ (src : TamperSrc) (s : State), s.isl.met = false ∧ tamperArmed s src = true) ∧
    (∃ (src : TamperSrc) (s : State), tamperArmed s src = false) ∧
    (∃ (s : State), s.isl.met = true) ∧
    (∃ (s : State), s.isl.met = true) ∧
    (∃ (s : State), s.isl.met = true) ∧
    (∃ (s : State), s.isl.met = true) ∧
    (∃ (s : State), s.isl.met = true ∧ s.hwd.smpRows ≠ [] ∧ s.hwd.tamperLock = true) ∧
    (∃ (s : State), s.isl.met = true ∧ (s.hwd.smpRows = [] ∨ s.hwd.tamperLock = false)) :=
  ⟨⟨.light, s0, by decide⟩,
   ⟨.voltage, { s0 with isl := { s0.isl with met := false } }, by decide⟩,
   ⟨.pin 0, s0, by decide⟩,
   ⟨s0, by decide⟩,
   ⟨s0, by decide⟩,
   ⟨s0, by decide⟩,
   ⟨s0, by decide⟩,
   ⟨onHwd (fun h => { h with smpRows := [[]], tamperLock := true }) s0, by decide⟩,
   ⟨s0, by decide⟩⟩

theorem wit_ServicePort :
    (∃ (ip : BitVec 32) (bs : List Byte) (ss : BitVec 16) (n : Nat) (m : Nat) (q : Fin 4) (crc : BitVec 32) (v : Vote) (s : State) (c : Instr), s.isl.met = true ∧ s.fwu.svcIp = 0 ∧ (c ∈ ([.svcArp ip, .svcIcmpEcho ip bs, .fwuOpen ss n m, .fwuManifest ss bs, .fwuBlock ss n q crc bs, .fwuQuery ss, .fwuClose ss, .fwuVoteReceive v] : List Instr))) ∧
    (∃ (s : State), s.isl.met = true ∧ s.fwu.svcIp ≠ 0) ∧
    (∃ (ip : BitVec 32) (s : State), s.isl.met = true ∧ s.fwu.svcIp ≠ 0 ∧ ip ≠ s.fwu.svcIp) ∧
    (∃ (s : State), s.isl.met = true ∧ s.fwu.svcIp ≠ 0) ∧
    (∃ (s : State), s.isl.met = true ∧ s.fwu.svcIp ≠ 0) ∧
    (∃ (ss : BitVec 16) (n : Nat) (bs : List Byte) (s : State), s.isl.met = true ∧ s.fwu.svcIp ≠ 0 ∧ s.fwu.sess = some ss ∧ n < s.fwu.blocks ∧ n < 4096 ∧ s.fwu.held.getLsbD n = false ∧ s.fwu.st = .receiving ∧ bs.length = 1024 ∧ Memory.wf s.lnd.mem = true) ∧
    (∃ (ss : BitVec 16) (s : State), s.isl.met = true ∧ s.fwu.svcIp ≠ 0 ∧ s.fwu.sess ≠ some ss) ∧
    (∃ (ss : BitVec 16) (s : State), s.isl.met = true ∧ s.fwu.svcIp ≠ 0 ∧ s.fwu.sess = some ss) ∧
    (∃ (s : State), s.isl.met = true ∧ s.fwu.svcIp ≠ 0) ∧
    (∃ (s : State), s.isl.met = true) :=
  ⟨⟨0, [], 0, 0, 0, 0, 0, { group := 0, unit := 0, attempt := 0, fnAct := 0, go := true }, s0, .fwuQuery 0, ⟨rfl, rfl, by simp⟩⟩,
   ⟨wSvc, by decide⟩,
   ⟨0, wSvc, by decide⟩,
   ⟨wSvc, by decide⟩,
   ⟨wSvc, by decide⟩,
   ⟨7, 4095, List.replicate 1024 0, wSvc, by decide +kernel⟩,
   ⟨0, wSvc, by decide⟩,
   ⟨7, wSvc, by decide⟩,
   ⟨wSvc, by decide⟩,
   ⟨s0, by decide⟩⟩

theorem wit_UpdateStates :
    (∃ (s : State), s.isl.ctl = true ∧ s.fwu.st = .staged) ∧
    (∃ (s : State), s.fwu.st ≠ .staged) ∧
    (∃ (s : State), s.isl.ctl = true ∧ s.fwu.st = .staged ∧ lndPoison fwBase (4096 * s.fwu.blocks) (eccRead fwBase (4096 * s.fwu.blocks) s) = true) ∧
    (∃ (s : State), s.isl.ctl = true ∧ s.fwu.st = .writing) ∧
    (∃ (s : State), s.fwu.st ≠ .writing) ∧
    (∃ (s : State), s.isl.ctl = true) ∧
    (∃ (s : State), s.isl.ctl = true ∧ s.fwu.st ≠ .verified) ∧
    (∃ (s : State), s.isl.ctl = true ∧ s.fwu.st = .verified) ∧
    (∃ (s : State), s.isl.ctl = true ∧ s.fwu.st = .scheduled ∧ s.fn + 1 < s.fwu.actFn) ∧
    (∃ (s : State), (s.fwu.st ≠ .scheduled ∨ s.fwu.actFn ≤ s.fn + 1)) ∧
    (∃ (s : State), s.isl.ctl = true ∧ s.fwu.st = .scheduled ∧ s.fn + 200 = s.fwu.actFn) ∧
    (∃ (s : State), (s.fwu.st ≠ .scheduled ∨ s.fn + 200 ≠ s.fwu.actFn)) ∧
    (∃ (s : State), s.isl.ctl = true ∧ s.fwu.st = .scheduled ∧ s.fn + 1 = s.fwu.actFn) ∧
    (∃ (s : State), (s.fwu.st ≠ .scheduled ∨ s.fn + 1 ≠ s.fwu.actFn)) ∧
    (∃ (s : State), s.isl.ctl = true ∧ s.fwu.st = .scheduled ∧ s.fwu.decided = true ∧ s.fn = s.fwu.actFn) ∧
    (∃ (s : State), (s.fwu.st ≠ .scheduled ∨ s.fwu.decided = false ∨ s.fn ≠ s.fwu.actFn)) ∧
    (∃ (s : State), s.isl.ctl = true ∧ s.fwu.st = .activating) ∧
    (∃ (s : State), s.fwu.st ≠ .activating) ∧
    (∃ (s : State), s.isl.ctl = true ∧ s.fwu.st = .trial) ∧
    (∃ (s : State), s.fwu.st ≠ .trial) ∧
    (∃ (r : Nat) (p : Bool) (s : State), s.isl.ctl = true ∧ s.fwu.revertPend = some (r, p) ∧ (s.fwu.st = .activating ∨ s.fwu.st = .trial)) ∧
    (∃ (s : State), s.fwu.revertPend = none) ∧
    (∃ (s : State), s.isl.ctl = true ∧ s.fwu.st ≠ .activating ∧ s.fwu.st ≠ .trial) ∧
    (∃ (s : State), s.isl.ctl = true ∧ s.fwu.st = .trial ∧ s.fn = commitFrame s.fwu) ∧
    (∃ (s : State), s.fwu.st = .trial ∧ s.fwu.commitDue = true) ∧
    (∃ (s : State), (s.fwu.st ≠ .trial ∨ s.fwu.commitDue = false)) ∧
    (∃ (s : State), (s.fwu.st ≠ .trial ∨ s.fn ≠ commitFrame s.fwu)) ∧
    (∃ (w : Nat) (s : State), s.isl.ctl = true ∧ s.fwu.window = some w ∧ w ≤ s.fn) ∧
    (∃ (s : State), (s.fwu.window = none ∨ (∃ w, s.fwu.window = some w ∧ s.fn < w))) ∧
    (∃ (s : State), s.isl.ctl = true) ∧
    (∃ (s : State), s.isl.ctl = true) :=
  ⟨⟨wFwu .staged, by decide⟩,
   ⟨s0, by decide⟩,
   ⟨onLnd (fun l => { l with bad := [(fwBase, true)] }) (onFwu (fun f => { f with st := .staged, blocks := 1 }) s0), by decide⟩,
   ⟨wFwu .writing, by decide⟩,
   ⟨s0, by decide⟩,
   ⟨s0, by decide⟩,
   ⟨s0, by decide⟩,
   ⟨wFwu .verified, by decide⟩,
   ⟨onFwu (fun f => { f with st := .scheduled, actFn := 2 }) s0, by decide⟩,
   ⟨s0, by decide⟩,
   ⟨onFwu (fun f => { f with st := .scheduled, actFn := 200 }) s0, by decide⟩,
   ⟨s0, by decide⟩,
   ⟨onFwu (fun f => { f with st := .scheduled, actFn := 1 }) s0, by decide⟩,
   ⟨s0, by decide⟩,
   ⟨onFwu (fun f => { f with st := .scheduled, decided := true }) s0, by decide⟩,
   ⟨s0, by decide⟩,
   ⟨wFwu .activating, by decide⟩,
   ⟨s0, by decide⟩,
   ⟨wFwu .trial, by decide⟩,
   ⟨s0, by decide⟩,
   ⟨4, false, onFwu (fun f => { f with st := .trial, revertPend := some (4, false) }) s0, by decide⟩,
   ⟨s0, by decide⟩,
   ⟨s0, by decide⟩,
   ⟨{ wFwu .trial with fn := 9999 }, by decide⟩,
   ⟨onFwu (fun f => { f with st := .trial, commitDue := true }) s0, by decide⟩,
   ⟨s0, by decide⟩,
   ⟨s0, by decide⟩,
   ⟨0, onFwu (fun f => { f with st := .activating, window := some 0 }) s0, by decide⟩,
   ⟨s0, Or.inl rfl⟩,
   ⟨s0, by decide⟩,
   ⟨s0, by decide⟩⟩

theorem wit_LandingMemory :
    (∃ (s : State), s.isl.lnd = true ∧ Memory.wf s.lnd.mem = true) ∧
    (∃ (s : State), s.isl.lnd = true ∧ ((s.lnd.scrubCfg.getLsbD 8 = true ∨ s.lnd.scrubbing = true)) ∧ s.lnd.throttled = false) ∧
    (∃ (s : State), ((s.lnd.scrubCfg.getLsbD 8 = false ∧ s.lnd.scrubbing = false) ∨ s.lnd.throttled = true)) ∧
    (∃ (s : State), s.isl.lnd = true) ∧
    (∃ (s : State), s.isl.ctl = true ∧ s.hkp.tlyEvery ≠ 0 ∧ s.hkp.level ≠ 2 ∧ Memory.wf s.lnd.mem = true) ∧
    (∃ (s : State), (s.hkp.tlyEvery = 0 ∨ s.hkp.level = 2)) :=
  ⟨⟨s0, by decide⟩,
   ⟨s0, by decide⟩,
   ⟨onLnd (fun l => { l with throttled := true }) s0, by decide⟩,
   ⟨s0, by decide⟩,
   ⟨s0, by decide⟩,
   ⟨onHkp (fun h => { h with level := 2 }) s0, by decide⟩⟩

theorem wit_HostPort :
    (∃ (s : State), s.isl.ctl = true) ∧
    (∃ (s : State), s.isl.ctl = true) ∧
    (∃ (s : State), s.isl.ctl = true) ∧
    (∃ (off : BitVec 21) (be : BitVec 4) (len : Nat) (s : State), s.isl.ctl = true ∧ (be ≠ 0xF ∨ off.toNat % 4 ≠ 0 ∨ 4 < len)) ∧
    (∃ (off : BitVec 21) (len : Nat) (s : State), s.isl.ctl = true ∧ len ≤ 4 ∧ off.toNat % 4 = 0 ∧ inSpan off.toNat = false ∧ inMsix off.toNat = false ∧ inPba off.toNat = false) ∧
    (∃ (len : Nat) (s : State), s.isl.ctl = true ∧ len ≤ 4) ∧
    (∃ (off : BitVec 21) (len : Nat) (s : State), s.isl.ctl = true ∧ len ≤ 4 ∧ off.toNat % 4 = 0 ∧ inSpan off.toNat = true) ∧
    (∃ (o : OutIx) (off : BitVec 21) (v : Word) (s : State), s.isl.ctl = true ∧ off.toNat = 0x50004 + 0x100 * o.val ∧ v &&& 0xFF ≠ 0) ∧
    (∃ (off : BitVec 26) (len : Nat) (s : State), s.isl.ctl = true ∧ len ≤ 4 ∧ off.toNat % 4 = 0 ∧ inSpan off.toNat = true) ∧
    (∃ (off : BitVec 26) (len : Nat) (s : State), s.isl.ctl = true ∧ len ≤ 4 ∧ off.toNat % 4 = 0 ∧ off.toNat < 0xC0) ∧
    (∃ (off : BitVec 26) (be : BitVec 4) (len : Nat) (s : State), s.isl.ctl = true ∧ (be ≠ 0xF ∨ off.toNat % 4 ≠ 0) ∧ len ≤ 4 ∧ off.toNat < 0xC0) ∧
    (∃ (len : Nat) (s : State), s.isl.ctl = true ∧ 4 < len) ∧
    (∃ (off : BitVec 26) (len : Nat) (s : State), s.isl.ctl = true ∧ len ≤ 4 ∧ off.toNat % 4 = 0 ∧ inSpan off.toNat = false ∧ inMsix off.toNat = false ∧ inPba off.toNat = false) ∧
    (∃ (s : State), s.isl.lnd = true) ∧
    (∃ (s : State), s.isl.ctl = true ∧ s.hst.qspiDis = false) ∧
    (∃ (s : State), s.isl.ctl = true ∧ s.hst.qspiDis = false) ∧
    (∃ (off : BitVec 26) (s : State), s.isl.ctl = true ∧ s.hst.qspiDis = false ∧ off.toNat % 4 = 0 ∧ off.toNat < 0xC0) ∧
    (∃ (len : Nat) (s : State), s.isl.ctl = true ∧ s.hst.qspiDis = false ∧ 4 < len) ∧
    (∃ (off : BitVec 26) (ws : List Word) (s : State), s.isl.ctl = true ∧ s.hst.qspiDis = false ∧ ws ≠ [] ∧ ws.length ≤ 64 ∧ (∀ i < 4 * ws.length, hostMay s (off.toNat + i) = true) ∧ Memory.wf s.lnd.mem = true) ∧
    (∃ (off : BitVec 26) (ws : List Word) (s : State), s.isl.ctl = true ∧ s.hst.qspiDis = false ∧ ws ≠ [] ∧ ((∃ i < 4 * min 64 ws.length, hostMay s (off.toNat + i) = false))) ∧
    (∃ (s : State), s.isl.ctl = true ∧ s.hst.qspiDis = false) ∧
    (∃ (off : BitVec 26) (ws : List Word) (s : State), s.isl.ctl = true ∧ s.hst.qspiDis = false ∧ (1 < ws.length ∨ (ws.length = 1 ∧ off.toNat % 4 ≠ 0))) ∧
    (∃ (s : State), s.isl.ctl = true ∧ s.hst.qspiDis = false) ∧
    (∃ (tail : Fin 4) (s : State), s.isl.ctl = true ∧ s.hst.qspiDis = false ∧ tail ≠ 0) ∧
    (∃ (s : State), s.hst.qspiDis = true) ∧
    (∃ (s : State), s.isl.ctl = true) ∧
    (∃ (s : State), s.isl.ctl = true) ∧
    (∃ (s : State), s.isl.ctl = true) :=
  ⟨⟨s0, by decide⟩,
   ⟨s0, by decide⟩,
   ⟨s0, by decide⟩,
   ⟨0, 0, 0, s0, by decide⟩,
   ⟨0xC0, 0, s0, by decide⟩,
   ⟨0, s0, by decide⟩,
   ⟨0, 0, s0, by decide⟩,
   ⟨0, 0x50004, 1, s0, by decide⟩,
   ⟨0, 0, s0, by decide⟩,
   ⟨0, 0, s0, by decide⟩,
   ⟨0, 0, 0, s0, by decide⟩,
   ⟨5, s0, by decide⟩,
   ⟨0xC0, 0, s0, by decide⟩,
   ⟨s0, by decide⟩,
   ⟨s0, by decide⟩,
   ⟨s0, by decide⟩,
   ⟨0, s0, by decide⟩,
   ⟨5, s0, by decide⟩,
   ⟨0x1600000, [0], s0, by decide⟩,
   ⟨0, [0], s0, by decide⟩,
   ⟨s0, by decide⟩,
   ⟨0, [0, 0], s0, by decide⟩,
   ⟨s0, by decide⟩,
   ⟨1, s0, by decide⟩,
   ⟨onHst (fun h => { h with qspiDis := true }) s0, by decide⟩,
   ⟨s0, by decide⟩,
   ⟨s0, by decide⟩,
   ⟨s0, by decide⟩⟩

theorem wit_StartsAndBoundaries :
    (∃ (s : State), s.hkp.shutdown = false ∧ s.hkp.xtalStopped = false ∧ bootOk s = true) ∧
    (∃ (s : State), s.hkp.shutdown = false ∧ s.hkp.xtalStopped = false ∧ s.hkp.resetReq ≠ some true ∧ bootOk s = true) ∧
    (∃ (s : State), s.hkp.shutdown = false ∧ s.hkp.xtalStopped = false ∧ bootOk s = false) ∧
    (∃ (s : State), (s.hkp.shutdown = true ∨ s.hkp.xtalStopped = true)) ∧
    (∃ (s : State), s.isl.ctl = true ∧ s.tdm.st = .single ∧ s.tdm.pend = none) ∧
    (∃ (s : State), s.isl.ctl = false) :=
  ⟨⟨s0, by decide⟩,
   ⟨s0, by decide⟩,
   ⟨onFwu (fun f => { f with rec0 := some {} }) s0, ⟨rfl, rfl, by simp [bootOk, bootRec, hashBytes, State.reset]⟩⟩,
   ⟨onHkp (fun h => { h with shutdown := true }) s0, by decide⟩,
   ⟨s0, by decide⟩,
   ⟨{ s0 with isl := { s0.isl with ctl := false } }, by decide⟩⟩

end Sys2Proof.Tests
end

section
/-! The outputs of the firebreak (R317, R321, R324): every evaluation forms LS_00 to LS_39 and SAFE_STOP_00 to
SAFE_STOP_11 from what the firebreak holds after it, and every row of the firebreak ends in an evaluation. -/

namespace Sys2Proof.Machine

theorem same_fbk {s t : State} (h : Same s t) : t.fbk = s.fbk := by
  obtain ⟨_, _, _, _, _, fbk⟩ := h
  exact fbk

theorem sameW_fbk {s t : State} (h : SameW s t) : t.fbk = s.fbk := by
  obtain ⟨_, _, _, _, fbk, _⟩ := h
  exact fbk

/-! ### Words built bit by bit -/

theorem getLsbD_setBit {m : Nat} (w : BitVec m) (b n : Nat) (hn : n < m) :
    (setBit w b).getLsbD n = (w.getLsbD n || decide (b = n)) := by
  rw [setBit, BitVec.getLsbD_or, BitVec.getLsbD_ofNat, Nat.testBit_two_pow, decide_eq_true hn, Bool.true_and]

theorem getLsbD_foldl_setBit {m : Nat} (p : Nat → Bool) (w : BitVec m) (k n : Nat) (hn : n < m) :
    ((List.range k).foldl (fun (w : BitVec m) i => cond (p i) (setBit w i) w) w).getLsbD n =
      (w.getLsbD n || (decide (n < k) && p n)) := by
  induction k with
  | zero => simp
  | succ k ih =>
    have step (v : BitVec m) : (cond (p k) (setBit v k) v).getLsbD n = (v.getLsbD n || (decide (k = n) && p n)) := by
      by_cases hkn : k = n
      · subst hkn
        cases hp : p k <;> simp [getLsbD_setBit _ _ _ hn]
      · cases p k <;> simp [getLsbD_setBit _ _ _ hn, hkn]
    have lt_succ : decide (n < k + 1) = (decide (n < k) || decide (k = n)) := by
      rw [← Bool.decide_or]
      exact decide_eq_decide.mpr (by omega)
    rw [List.range_succ, List.foldl_append, List.foldl_cons, List.foldl_nil, step, ih, lt_succ, Bool.or_assoc,
      ← Bool.and_or_distrib_right]

theorem lsWant_getLsbD (s : State) (n : Nat) (hn : n < 40) : (lsWant s).getLsbD n = lsAsked s n := by
  rw [lsWant, getLsbD_foldl_setBit _ _ _ _ hn]
  simp [hn]

theorem stopWant_getLsbD (f : Fbk) (k : CluIx) : (stopWant f).getLsbD k.val = stopOf f k.val := by
  rw [stopWant, getLsbD_foldl_setBit _ _ _ _ k.isLt]
  simp

/-! ### What each output asks of the firebreak -/

theorem lsAsked_outlet (s : State) (o : OutIx) : lsAsked s o.val = lsOutlet s o := by
  simp [lsAsked, optFin]

theorem lsAsked_brake (s : State) (b : Fin 8) :
    lsAsked s (32 + b.val) = (decide (s.fbk.st = .run) && s.fbk.vaux && !brkApplied s.fbk b) := by
  simp [lsAsked, optFin]

theorem zoneBlocks_eq_false_iff (f : Fbk) (z : Fin 8) :
    zoneBlocks f z = false ↔ zoneOn f z = true ∧ (f.zone[z]).latch = false := by
  simp [zoneBlocks]

/-- The newest fields of an outlet enable it. -/
def newestEnabled (f : Fbk) (o : OutIx) : Bool :=
  match outsOf f o with
  | [] => false
  | x :: _ => x.enabled

theorem newestEnabled_iff (f : Fbk) (o : OutIx) :
    newestEnabled f o = true ↔ ∃ i, f.img = some i ∧ (i.outs[o]).enabled = true := by
  cases h : f.img <;> simp [newestEnabled, outsOf, h]

theorem lsOutlet_eq (s : State) (o : OutIx) : lsOutlet s o =
    (decide (s.fbk.st = .run) && s.fbk.vaux && s.fbk.acc.getLsbD o.val && !s.fbk.otcL.getLsbD o.val && !s.fbk.imdL.getLsbD o.val &&
      !s.fbk.weldL.getLsbD o.val && newestEnabled s.fbk o &&
      (outsOf s.fbk o).all fun x => !zoneBlocks s.fbk x.zone && x.brake.all fun b => !brkHolds s b o) := by
  have h (x : FbkOut) : (match x.brake with | some b => !brkHolds s b o | none => true) = x.brake.all fun b => !brkHolds s b o := by
    cases x.brake <;> rfl
  simp only [← h]
  rfl

/-- R324. -/
theorem lsOutlet_iff (s : State) (o : OutIx) : lsOutlet s o = true ↔
    (s.fbk.st = .run ∧ s.fbk.vaux = true ∧ s.fbk.acc.getLsbD o.val = true ∧
      (∃ i, s.fbk.img = some i ∧ (i.outs[o]).enabled = true) ∧
      s.fbk.otcL.getLsbD o.val = false ∧ s.fbk.imdL.getLsbD o.val = false ∧ s.fbk.weldL.getLsbD o.val = false ∧
      ∀ x ∈ outsOf s.fbk o, zoneOn s.fbk x.zone = true ∧ (s.fbk.zone[x.zone]).latch = false ∧
        ∀ b, x.brake = some b → brkHolds s b o = false) := by
  simp only [lsOutlet_eq, Bool.and_eq_true, decide_eq_true_eq, Bool.not_eq_true', List.all_eq_true, Option.all_eq_true,
    newestEnabled_iff, zoneBlocks_eq_false_iff, and_assoc]
  tauto

/-- R317. -/
theorem brkApplied_eq_false_iff (f : Fbk) (b : Fin 8) : brkApplied f b = false ↔
    (brkPresent f b = true ∧
      (∃ z, (fbkSafety f).brakeZone[b] = some z ∧ zoneOn f z = true ∧ (f.zone[z]).latch = false) ∧
      (f.brk[b]).phase = 0 ∧ (f.brk[b]).failed = false ∧ (f.brk[b]).overdue = false) := by
  unfold brkApplied
  cases (fbkSafety f).brakeZone[b] <;> simp [zoneBlocks_eq_false_iff, and_assoc]

/-- R321. -/
theorem stopOf_eq_false_iff (f : Fbk) (k : Nat) : stopOf f k = false ↔
    (f.st = .run ∧ f.vaux = true ∧
      ∀ z : Fin 8, zoneOn f z = true → (f.zone[z]).latch = true → ((fbkSafety f).zoneClusters[z]).getLsbD k = false) := by
  simp [stopOf, and_assoc]

/-! ### Formed outputs -/

/-- LS_00 to LS_39 and SAFE_STOP_00 to SAFE_STOP_11 are as the functions form them from the rest of the firebreak. -/
structure OutputsFormed (t : State) : Prop where
  ls : t.fbk.ls = lsWant t
  stop : t.fbk.stop = stopWant t.fbk

theorem fbkOutputs_fbk (s : State) : (fbkOutputs s).fbk = { s.fbk with ls := lsWant s, stop := stopWant s.fbk } := by
  have trips : ((List.finRange 32).foldl (lsTrip (lsWant s)) s).fbk = s.fbk :=
    foldl_fbk _ (fun t o => same_fbk (lsTrip_same _ t o)) _ s
  have copy (u : State) : (fbkCopy u).fbk = u.fbk := same_fbk (fbkCopy_same u)
  have drive (u : State) : (lsDrive (lsWant s) u).fbk = u.fbk := same_fbk (lsDrive_same _ u)
  simp only [fbkOutputs, copy, drive, onFbk, trips]

/-- The outputs are formed from fields that forming them leaves alone. -/
theorem fbkOutputs_formed (s : State) : OutputsFormed (fbkOutputs s) := by
  have asked : lsAsked (fbkOutputs s) = lsAsked s := by
    funext i
    simp only [lsAsked, lsOutlet, brkHolds, fbkOpen, fbkOutputs_fbk]
    rfl
  constructor
  · rw [fbkOutputs_fbk, lsWant, lsWant, asked]
  · rw [fbkOutputs_fbk]; rfl

theorem fbkEval_formed (adv : Bool) (s : State) : OutputsFormed (fbkEval adv s) := by
  unfold fbkEval; split <;> exact fbkOutputs_formed _

/-- Every row of the firebreak ends in an evaluation (R308). -/
theorem exec_firebreakRow (c : Instr) (s : State) (h : firebreakRow c = true) :
    ∃ adv u, exec c s = .next (fbkEval adv u) := by
  cases c with
  | safetyImageLoad | fbkSelfTest _ | fbkEvalCycle | fbkInputAccept _ _ | zoneDiscrepancy _ | weldDetect _ | weldNotify _
  | resetEdgePair _ | resetJammed | autoStartRun | sealRead _ _ | imageCrcCheck _ | lsPulseTest _ | fbkChannelDiscrepancy _
  | vauxOutOfWindow _ | fbkThermalHold | brakeTestDue _ | brakeTestOverdue _ | brakeTestStart _ | brakeTestTorque _
  | brakeTestRelease _ | brakeTestEvaluate _ _ => exact ⟨_, _, rfl⟩
  | _ => exact nomatch h

theorem exec_firebreakRow_formed (c : Instr) (s t : State) (h : firebreakRow c = true) (ht : exec c s = .next t) :
    OutputsFormed t := by
  obtain ⟨adv, u, hu⟩ := exec_firebreakRow c s h
  obtain rfl : fbkEval adv u = t := Host.Outcome.next.inj (hu.symm.trans ht)
  exact fbkEval_formed adv u

theorem OutputsFormed.ls_outlet {t : State} (h : OutputsFormed t) (o : OutIx) : t.fbk.ls.getLsbD o.val = lsOutlet t o := by
  rw [h.ls, lsWant_getLsbD t o.val (by omega), lsAsked_outlet]

theorem OutputsFormed.ls_brake {t : State} (h : OutputsFormed t) (b : Fin 8) :
    t.fbk.ls.getLsbD (32 + b.val) = (decide (t.fbk.st = .run) && t.fbk.vaux && !brkApplied t.fbk b) := by
  rw [h.ls, lsWant_getLsbD t _ (by omega), lsAsked_brake]

theorem OutputsFormed.stop_cluster {t : State} (h : OutputsFormed t) (k : CluIx) :
    t.fbk.stop.getLsbD k.val = stopOf t.fbk k.val := by
  rw [h.stop, stopWant_getLsbD]

/-- Settles O15: every firebreak command ends in an evaluation, and an evaluation leaves the outputs formed. -/
theorem firebreakOutputs : Obligations.FirebreakOutputs := by
  unfold Obligations.FirebreakOutputs
  intro c s hc
  obtain ⟨adv, u, hu⟩ := exec_firebreakRow c s hc
  have formed := fbkEval_formed adv u
  refine ⟨_, hu, fun o => ?_, fun b => ?_, fun k => ?_⟩
  · rw [formed.ls_outlet, lsOutlet_iff]
  · simp only [formed.ls_brake, Bool.and_eq_true, decide_eq_true_eq, Bool.not_eq_true', brkApplied_eq_false_iff, and_assoc]
  · rw [formed.stop_cluster, stopOf_eq_false_iff]

end Sys2Proof.Machine
end

section
/-! The commands that leave the firebreak alone (R303): by the law of each row outside `touchesFirebreak`. -/

namespace Sys2Proof.Machine

theorem next_same_fbk {a : Ans} {s t : State} (h : ∃ s', a = .next s' ∧ Same s s') (ht : a = .next t) : t.fbk = s.fbk := by
  obtain ⟨u, hu, same⟩ := h
  obtain rfl : u = t := Host.Outcome.next.inj (hu.symm.trans ht)
  exact same_fbk same

theorem next_sameW_fbk {a : Ans} {s t : State} (h : ∃ s', a = .next s' ∧ SameW s s') (ht : a = .next t) : t.fbk = s.fbk := by
  obtain ⟨u, hu, same⟩ := h
  obtain rfl : u = t := Host.Outcome.next.inj (hu.symm.trans ht)
  exact sameW_fbk same

theorem execXtal32kStop_fbk (s t : State) (ht : execXtal32kStop s = .next t) : t.fbk = s.fbk := by
  obtain rfl := Host.Outcome.next.inj ht
  split
  · rw [tamper_fbk, same_fbk (onHkp_same _ s)]
  · rfl

theorem execTamperDetect_fbk (src : TamperSrc) (s t : State) (ht : execTamperDetect src s = .next t) : t.fbk = s.fbk := by
  obtain rfl := Host.Outcome.next.inj ht
  split
  · exact tamper_fbk src s
  · rfl

theorem execHwdLifecycleLock_fbk (s t : State) (ht : execHwdLifecycleLock s = .next t) : t.fbk = s.fbk := by
  obtain rfl := Host.Outcome.next.inj ht
  split
  · exact lifecycleLock_fbk s
  · rfl

theorem exec_fbk_of_not_touchesFirebreak (c : Instr) (s t : State) (hc : touchesFirebreak c = false)
    (ht : exec c s = .next t) : t.fbk = s.fbk := by
  cases c with
  | coldStart _ | warmReset _ | frameBoundary | amendApply | safetyImageLoad | fbkSelfTest _ | fbkEvalCycle
  | fbkInputAccept _ _ | zoneDiscrepancy _ | weldDetect _ | weldNotify _ | resetEdgePair _ | resetJammed
  | autoStartRun | sealRead _ _ | imageCrcCheck _ | lsPulseTest _ | fbkChannelDiscrepancy _ | vauxOutOfWindow _
  | fbkThermalHold | brakeTestDue _ | brakeTestOverdue _ | brakeTestStart _ | brakeTestTorque _ | brakeTestRelease _
  | brakeTestEvaluate _ _ | fbkWeldArm _ | fbkBrkTest _ | fbkBrkRepair _ | fbkLogSelWrite _ | thermalShutdown _
  | thermalRelease | qspiWrite _ _ _ | registerWrite _ _ _ => exact nomatch hc
  | hkpWarmReset key => exact next_same_fbk (execHkpWarmReset_same key s) ht
  | hkpColdReset key => exact next_same_fbk (execHkpColdReset_same key s) ht
  | hkpFnClear key => exact next_same_fbk (execHkpFnClear_same key s) ht
  | coreWatchdog => exact next_same_fbk (execCoreWatchdog_same s) ht
  | hostIslandReset kind => exact next_same_fbk (execHostIslandReset_same kind s) ht
  | hostLinkUp gen2 => exact next_same_fbk (execHostLinkUp_same gen2 s) ht
  | serviceIslandReset => exact next_same_fbk (execServiceIslandReset_same s) ht
  | pllLockLoss pll => exact next_same_fbk (execPllLockLoss_same pll s) ht
  | pllLockTimeout pll => exact next_same_fbk (execPllLockTimeout_same pll s) ht
  | xtal25Stop => exact next_same_fbk (execXtal25Stop_same s) ht
  | xtal25Return => exact next_same_fbk (execXtal25Return_same s) ht
  | xtal32kStop => exact execXtal32kStop_fbk s t ht
  | vbatLoss => exact next_same_fbk (execVbatLoss_same s) ht
  | powerFailWarning rail => exact next_same_fbk (execPowerFailWarning_same rail s) ht
  | supplyReset => exact next_same_fbk (execSupplyReset_same s) ht
  | thermalFrame => exact next_same_fbk (execThermalFrame_same s) ht
  | pipelineSelfTestFail r p => exact next_same_fbk (execPipelineSelfTestFail_same r p s) ht
  | sampleStart c => exact next_same_fbk (execSampleStart_same c s) ht
  | staleHold ch => exact next_same_fbk (execStaleHold_same ch s) ht
  | uplinkReceive ch bytes => exact next_same_fbk (execUplinkReceive_same ch bytes s) ht
  | routeFeedbackTimeout ch => exact next_same_fbk (execRouteFeedbackTimeout_same ch s) ht
  | rampDownTimeout ch => exact next_same_fbk (execRampDownTimeout_same ch s) ht
  | trackingTimeout ch => exact next_same_fbk (execTrackingTimeout_same ch s) ht
  | dwellExpiry ch => exact next_same_fbk (execDwellExpiry_same ch s) ht
  | routeMismatch ch => exact next_same_fbk (execRouteMismatch_same ch s) ht
  | shortCurrentLimit ch => exact next_same_fbk (execShortCurrentLimit_same ch s) ht
  | shortWindowExpiry ch => exact next_same_fbk (execShortWindowExpiry_same ch s) ht
  | vselChange code => exact next_same_fbk (execVselChange_same code s) ht
  | glimSample raw => exact next_same_fbk (execGlimSample_same raw s) ht
  | glimSignalLoss => exact next_same_fbk (execGlimSignalLoss_same s) ht
  | glimSignalRestore => exact next_same_fbk (execGlimSignalRestore_same s) ht
  | xfmrStaleTimeout => exact next_same_fbk (execXfmrStaleTimeout_same s) ht
  | routeFaultClear ch => exact next_same_fbk (execRouteFaultClear_same ch s) ht
  | chpPortOff ch b => exact next_same_fbk (execChpPortOff_same ch b s) ht
  | chpTest ch b => exact next_same_fbk (execChpTest_same ch b s) ht
  | chpBusClear => exact next_same_fbk (execChpBusClear_same s) ht
  | pilotStateAccept o high low wave pp => exact next_same_fbk (execPilotStateAccept_same o high low wave pp s) ht
  | pilotFault o set => exact next_same_fbk (execPilotFault_same o set s) ht
  | diodeFault o set => exact next_same_fbk (execDiodeFault_same o set s) ht
  | assocTimeout o => exact next_same_fbk (execAssocTimeout_same o s) ht
  | authTimeout o => exact next_same_fbk (execAuthTimeout_same o s) ht
  | cableCheckPassed o => exact next_same_fbk (execCableCheckPassed_same o s) ht
  | ccTimeout o => exact next_same_fbk (execCcTimeout_same o s) ht
  | pcTimeout o => exact next_same_fbk (execPcTimeout_same o s) ht
  | contactorTimeout o => exact next_same_fbk (execContactorTimeout_same o s) ht
  | weldWindowExpiry o => exact next_same_fbk (execWeldWindowExpiry_same o s) ht
  | dischargeTimeout o => exact next_same_fbk (execDischargeTimeout_same o s) ht
  | holdRestart o => exact next_same_fbk (execHoldRestart_same o s) ht
  | thermalLatchClear o => exact next_same_fbk (execThermalLatchClear_same o s) ht
  | osqEnable o => exact next_same_fbk (execOsqEnable_same o s) ht
  | osqDisable o => exact next_same_fbk (execOsqDisable_same o s) ht
  | osqAuthorize o => exact next_same_fbk (execOsqAuthorize_same o s) ht
  | osqDeny o => exact next_same_fbk (execOsqDeny_same o s) ht
  | osqStop o => exact next_same_fbk (execOsqStop_same o s) ht
  | osqFaultClear o => exact next_same_fbk (execOsqFaultClear_same o s) ht
  | osqWeldClear o => exact next_same_fbk (execOsqWeldClear_same o s) ht
  | osqRetryGrant o => exact next_same_fbk (execOsqRetryGrant_same o s) ht
  | auxCommandLoss => exact next_same_fbk (execAuxCommandLoss_same s) ht
  | auxHoldExpiry => exact next_same_fbk (execAuxHoldExpiry_same s) ht
  | t1sLinkUp o => exact next_same_fbk (execT1sLinkUp_same o s) ht
  | t1sLinkDown o => exact next_same_fbk (execT1sLinkDown_same o s) ht
  | avlnLost o => exact next_same_fbk (execAvlnLost_same o s) ht
  | slacParmReq mac runId heard => exact next_same_fbk (execSlacParmReq_same mac runId heard s) ht
  | slacStartAtten mac runId announced => exact next_same_fbk (execSlacStartAtten_same mac runId announced s) ht
  | slacSound mac runId o groups => exact next_same_fbk (execSlacSound_same mac runId o groups s) ht
  | slacWindowClose mac runId => exact next_same_fbk (execSlacWindowClose_same mac runId s) ht
  | slacMatchReq o mac runId => exact next_same_fbk (execSlacMatchReq_same o mac runId s) ht
  | seccDiscovery o => exact next_same_fbk (execSeccDiscovery_same o s) ht
  | tcpConnect o => exact next_same_fbk (execTcpConnect_same o s) ht
  | tcpRetransmitLimit o => exact next_same_fbk (execTcpRetransmitLimit_same o s) ht
  | tlsHandshake o ok => exact next_same_fbk (execTlsHandshake_same o ok s) ht
  | supportedAppProtocolReq o offers => exact next_same_fbk (execSupportedAppProtocolReq_same o offers s) ht
  | sessionSetupReq o evccid => exact next_same_fbk (execSessionSetupReq_same o evccid s) ht
  | authorizationReq o chain signed => exact next_same_fbk (execAuthorizationReq_same o chain signed s) ht
  | chargeParameterDiscoveryReq o v ready err bpt dyn =>
    exact next_same_fbk (execChargeParameterDiscoveryReq_same o v ready err bpt dyn s) ht
  | cableCheckReq o => exact next_same_fbk (execCableCheckReq_same o s) ht
  | preChargeReq o v => exact next_same_fbk (execPreChargeReq_same o v s) ht
  | powerDeliveryReq o start => exact next_same_fbk (execPowerDeliveryReq_same o start s) ht
  | sessionStopReq o => exact next_same_fbk (execSessionStopReq_same o s) ht
  | v2gRequest o req => exact next_same_fbk (execV2gRequest_same o req s) ht
  | linkDegraded o => exact next_same_fbk (execLinkDegraded_same o s) ht
  | linkLostTimeout o => exact next_same_fbk (execLinkLostTimeout_same o s) ht
  | vlkLinkReset o => exact next_same_fbk (execVlkLinkReset_same o s) ht
  | residualFault o => exact next_same_fbk (execResidualFault_same o s) ht
  | cclResidualClear o => exact next_same_fbk (execCclResidualClear_same o s) ht
  | cclManual o on pump fan => exact next_same_fbk (execCclManual_same o on pump fan s) ht
  | coolingFrameTx => exact next_same_fbk (execCoolingFrameTx_same s) ht
  | meterSubsample codes => exact next_sameW_fbk (execMeterSubsample_same codes s) ht
  | cycleEnd ones ovr siteOvr endUs => exact next_sameW_fbk (execCycleEnd_same ones ovr siteOvr endUs s) ht
  | freqHold => exact next_same_fbk (execFreqHold_same s) ht
  | pulseStart k => exact next_same_fbk (execPulseStart_same k s) ht
  | pulseEnd k => exact next_same_fbk (execPulseEnd_same k s) ht
  | bypassWindowCheck => exact next_same_fbk (execBypassWindowCheck_same s) ht
  | witnessSend => exact next_same_fbk (execWitnessSend_same s) ht
  | witnessLost => exact next_same_fbk (execWitnessLost_same s) ht
  | metCalWrite c gain val => exact next_same_fbk (execMetCalWrite_same c gain val s) ht
  | metCalCommit => exact next_same_fbk (execMetCalCommit_same s) ht
  | metCaptureEnable en site => exact next_same_fbk (execMetCaptureEnable_same en site s) ht
  | metNeutralClear => exact next_same_fbk (execMetNeutralClear_same s) ht
  | metBypassClear => exact next_same_fbk (execMetBypassClear_same s) ht
  | metTamperClear k => exact next_same_fbk (execMetTamperClear_same k s) ht
  | metWitClear k => exact next_same_fbk (execMetWitClear_same k s) ht
  | demandClose => exact next_same_fbk (execDemandClose_same s) ht
  | tariffSwitch k => exact next_same_fbk (execTariffSwitch_same k s) ht
  | save => exact next_same_fbk (execSave_same s) ht
  | saveWriteDone ok => exact next_same_fbk (execSaveWriteDone_same ok s) ht
  | ticketSigned => exact next_sameW_fbk (execTicketSigned_same s) ht
  | ticketAck ix => exact next_same_fbk (execTicketAck_same ix s) ht
  | ledgerBind => exact next_sameW_fbk (execLedgerBind_same s) ht
  | ledgerUnbind => exact next_sameW_fbk (execLedgerUnbind_same s) ht
  | ledgerLoadCredit => exact next_sameW_fbk (execLedgerLoadCredit_same s) ht
  | ledgerCreditMode => exact next_sameW_fbk (execLedgerCreditMode_same s) ht
  | ledgerRetire => exact next_sameW_fbk (execLedgerRetire_same s) ht
  | ledgerClear => exact next_sameW_fbk (execLedgerClear_same s) ht
  | ledgerRead => exact next_sameW_fbk (execLedgerRead_same s) ht
  | ledgerExport => exact next_sameW_fbk (execLedgerExport_same s) ht
  | ledgerForcedBind => exact next_sameW_fbk (execLedgerForcedBind_same s) ht
  | bilMdReset => exact next_same_fbk (execBilMdReset_same s) ht
  | bilCheckpoint => exact next_sameW_fbk (execBilCheckpoint_same s) ht
  | bilStoreTicket => exact next_same_fbk (execBilStoreTicket_same s) ht
  | bilSelSnapshot val => exact next_same_fbk (execBilSelSnapshot_same val s) ht
  | rtcSet => exact next_same_fbk (execRtcSet_same s) ht
  | rtcCompensate temp => exact next_same_fbk (execRtcCompensate_same temp s) ht
  | amendSubmit => exact next_same_fbk (execAmendSubmit_same s) ht
  | amendValidated => exact next_same_fbk (execAmendValidated_same s) ht
  | amendCancel => exact next_same_fbk (execAmendCancel_same s) ht
  | amendPersist => exact next_same_fbk (execAmendPersist_same s) ht
  | smpFlashWriteA => exact next_same_fbk (execSmpFlashWriteA_same s) ht
  | smpFlashWriteB => exact next_same_fbk (execSmpFlashWriteB_same s) ht
  | smpFlashDone ok => exact next_same_fbk (execSmpFlashDone_same ok s) ht
  | clampSelWrite val => exact next_same_fbk (execClampSelWrite_same val s) ht
  | linkTraining => exact next_same_fbk (execLinkTraining_same s) ht
  | markerReceive m => exact next_same_fbk (execMarkerReceive_same m s) ht
  | markerMissing => exact next_same_fbk (execMarkerMissing_same s) ht
  | delayMeasure roundTrip => exact next_same_fbk (execDelayMeasure_same roundTrip s) ht
  | heartbeatSend => exact next_same_fbk (execHeartbeatSend_same s) ht
  | heartbeatReceive h => exact next_same_fbk (execHeartbeatReceive_same h s) ht
  | snapPacket fn snap => exact next_same_fbk (execSnapPacket_same fn snap s) ht
  | insetPacket set => exact next_same_fbk (execInsetPacket_same set s) ht
  | protoPacket fn p => exact next_same_fbk (execProtoPacket_same fn p s) ht
  | witPacket m => exact next_same_fbk (execWitPacket_same m s) ht
  | digestPacket fn crc => exact next_same_fbk (execDigestPacket_same fn crc s) ht
  | bulkPacket b => exact next_sameW_fbk (execBulkPacket_same b s) ht
  | pairPacket p => exact next_same_fbk (execPairPacket_same p s) ht
  | joinWaitExpiry => exact next_same_fbk (execJoinWaitExpiry_same s) ht
  | reseedCatchup => exact next_same_fbk (execReseedCatchup_same s) ht
  | joinComplete => exact next_same_fbk (execJoinComplete_same s) ht
  | joinTimeout => exact next_same_fbk (execJoinTimeout_same s) ht
  | takeover => exact next_same_fbk (execTakeover_same s) ht
  | roleSwap => exact next_same_fbk (execRoleSwap_same s) ht
  | tdmRejoin => exact next_same_fbk (execTdmRejoin_same s) ht
  | tdmYield => exact next_same_fbk (execTdmYield_same s) ht
  | tdmHoldReturn => exact next_same_fbk (execTdmHoldReturn_same s) ht
  | tdmDeclareFault => exact next_same_fbk (execTdmDeclareFault_same s) ht
  | auxCommandFrame => exact next_same_fbk (execAuxCommandFrame_same s) ht
  | auxOn k on => exact next_same_fbk (execAuxOn_same k on s) ht
  | auxClear k => exact next_same_fbk (execAuxClear_same k s) ht
  | auxStaggeredStart k => exact next_same_fbk (execAuxStaggeredStart_same k s) ht
  | auxHoldStart k => exact next_same_fbk (execAuxHoldStart_same k s) ht
  | auxInrushEnd k => exact next_same_fbk (execAuxInrushEnd_same k s) ht
  | auxOvercurrent k => exact next_same_fbk (execAuxOvercurrent_same k s) ht
  | auxThermalTrip k t => exact next_same_fbk (execAuxThermalTrip_same k t s) ht
  | auxThermalLatchClear k t => exact next_same_fbk (execAuxThermalLatchClear_same k t s) ht
  | auxRestart k => exact next_same_fbk (execAuxRestart_same k s) ht
  | auxRetryRestore k => exact next_same_fbk (execAuxRetryRestore_same k s) ht
  | auxPulseEnd k => exact next_same_fbk (execAuxPulseEnd_same k s) ht
  | auxOpenLoad k kind => exact next_same_fbk (execAuxOpenLoad_same k kind s) ht
  | auxSenseConvert milliAmps => exact next_same_fbk (execAuxSenseConvert_same milliAmps s) ht
  | auxBudgetShed => exact next_same_fbk (execAuxBudgetShed_same s) ht
  | canRxFrame k f us => exact next_sameW_fbk (execCanRxFrame_same k f us s) ht
  | canTxSubmit k count => exact next_same_fbk (execCanTxSubmit_same k count s) ht
  | canTxComplete k src => exact next_same_fbk (execCanTxComplete_same k src s) ht
  | canBusOff k => exact next_same_fbk (execCanBusOff_same k s) ht
  | canAutoRecovery k => exact next_same_fbk (execCanAutoRecovery_same k s) ht
  | canRecover k => exact next_same_fbk (execCanRecover_same k s) ht
  | canHpSelWrite k val => exact next_same_fbk (execCanHpSelWrite_same k val s) ht
  | tamperDetect src => exact execTamperDetect_fbk src s t ht
  | trngHealthFail => exact next_same_fbk (execTrngHealthFail_same s) ht
  | trngRecover => exact next_same_fbk (execTrngRecover_same s) ht
  | bbkMaskRenew => exact next_same_fbk (execBbkMaskRenew_same s) ht
  | hwdGenerate arg => exact next_same_fbk (execHwdGenerate_same arg s) ht
  | hwdImport arg => exact next_same_fbk (execHwdImport_same arg s) ht
  | hwdPublic arg => exact next_same_fbk (execHwdPublic_same arg s) ht
  | hwdDelete arg => exact next_same_fbk (execHwdDelete_same arg s) ht
  | hwdReseal arg => exact next_same_fbk (execHwdReseal_same arg s) ht
  | hwdResealCommit arg => exact next_same_fbk (execHwdResealCommit_same arg s) ht
  | hwdAttest arg => exact next_same_fbk (execHwdAttest_same arg s) ht
  | hwdBbkGenerate arg => exact next_same_fbk (execHwdBbkGenerate_same arg s) ht
  | hwdEnrollSmp arg => exact next_same_fbk (execHwdEnrollSmp_same arg s) ht
  | hwdCommandDone => exact next_sameW_fbk (execHwdCommandDone_same s) ht
  | hwdTamperLock => exact next_same_fbk (execHwdTamperLock_same s) ht
  | hwdLifecycleLock => exact execHwdLifecycleLock_fbk s t ht
  | tamperCauseRead => exact next_same_fbk (execTamperCauseRead_same s) ht
  | hwdLogSelWrite val => exact next_same_fbk (execHwdLogSelWrite_same val s) ht
  | svcArp ip => exact next_same_fbk (execSvcArp_same ip s) ht
  | svcIcmpEcho ip payload => exact next_same_fbk (execSvcIcmpEcho_same ip payload s) ht
  | fwuOpen sess manLen blocks => exact next_same_fbk (execFwuOpen_same sess manLen blocks s) ht
  | fwuManifest sess image => exact next_same_fbk (execFwuManifest_same sess image s) ht
  | fwuBlock sess n q crc data => exact next_sameW_fbk (execFwuBlock_same sess n q crc data s) ht
  | fwuQuery sess => exact next_same_fbk (execFwuQuery_same sess s) ht
  | fwuClose sess => exact next_same_fbk (execFwuClose_same sess s) ht
  | fwuVoteReceive v => exact next_same_fbk (execFwuVoteReceive_same v s) ht
  | fwuSessionTimeout => exact next_same_fbk (execFwuSessionTimeout_same s) ht
  | fwuWrite => exact next_same_fbk (execFwuWrite_same s) ht
  | fwuWriteDone r => exact next_same_fbk (execFwuWriteDone_same r s) ht
  | fwuDiscard => exact next_same_fbk (execFwuDiscard_same s) ht
  | fwuSchedule => exact next_same_fbk (execFwuSchedule_same s) ht
  | fwuCancel => exact next_same_fbk (execFwuCancel_same s) ht
  | fwuRevertCmd => exact next_same_fbk (execFwuRevertCmd_same s) ht
  | fwuOwnerLock set => exact next_same_fbk (execFwuOwnerLock_same set s) ht
  | fwuOpkeyWrite => exact next_same_fbk (execFwuOpkeyWrite_same s) ht
  | fwuVote => exact next_same_fbk (execFwuVote_same s) ht
  | fwuDecision => exact next_same_fbk (execFwuDecision_same s) ht
  | fwuActivate => exact next_same_fbk (execFwuActivate_same s) ht
  | fwuReadyReport ready reason => exact next_same_fbk (execFwuReadyReport_same ready reason s) ht
  | fwuAutoRevert => exact next_same_fbk (execFwuAutoRevert_same s) ht
  | fwuResume => exact next_sameW_fbk (execFwuResume_same s) ht
  | fwuCommit => exact next_same_fbk (execFwuCommit_same s) ht
  | scrubStep => exact next_same_fbk (execScrubStep_same s) ht
  | lndSnapNow => exact next_same_fbk (execLndSnapNow_same s) ht
  | lndScrubNow => exact next_same_fbk (execLndScrubNow_same s) ht
  | bar2Write off bytes => exact next_sameW_fbk (execBar2Write_same off bytes s) ht
  | hkAdcSlot slot code => exact next_same_fbk (execHkAdcSlot_same slot code s) ht
  | hkInAlarm k => exact next_same_fbk (execHkInAlarm_same k s) ht
  | thermalLevelChange lvl => exact next_same_fbk (execThermalLevelChange_same lvl s) ht
  | tallyRingWrite => exact next_sameW_fbk (execTallyRingWrite_same s) ht
  | tlyClear => exact next_same_fbk (execTlyClear_same s) ht
  | tlyCntLoRead k => exact next_same_fbk (execTlyCntLoRead_same k s) ht
  | resetCauseRead => exact next_same_fbk (execResetCauseRead_same s) ht
  | vectorAck val => exact next_same_fbk (execVectorAck_same val s) ht
  | qspiDisable => exact next_same_fbk (execQspiDisable_same s) ht
  | qspiRead bar off len ready => exact next_same_fbk (execQspiRead_same bar off len ready s) ht
  | qspiStatus => exact next_same_fbk (execQspiStatus_same s) ht
  | tandemLinkDown => exact next_same_fbk (execTandemLinkDown_same s) ht
  | tcpConnectionClosed o => exact next_same_fbk (execTcpConnectionClosed_same o s) ht
  | debugSessionOpen => exact next_same_fbk (execDebugSessionOpen_same s) ht
  | debugSessionClose => exact next_same_fbk (execDebugSessionClose_same s) ht
  | canBusError k kind tec rec => exact next_same_fbk (execCanBusError_same k kind tec rec s) ht
  | hostRead bar off len be => exact next_same_fbk (execHostRead_same bar off len be s) ht
  | msixMaskClear vec => exact next_same_fbk (execMsixMaskClear_same vec s) ht

end Sys2Proof.Machine
end

section
/-! The fail latches and due marks of the brakes (R318 to R320): the operations that leave them standing. -/

namespace Sys2Proof.Machine

/-! ### The brakes after one operation of the firebreak -/

theorem ite_brk (c : Prop) [Decidable c] (f g : Fbk) : (if c then f else g).brk = if c then f.brk else g.brk :=
  apply_ite _ _ _ _

theorem onBrk_brk (b j : Fin 8) (g : FbkBrk → FbkBrk) (s : State) :
    (onBrk b g s).fbk.brk[j] = if b = j then g s.fbk.brk[j] else s.fbk.brk[j] :=
  upd_get s.fbk.brk b j g

theorem onBrk_brk_same (b : Fin 8) (g : FbkBrk → FbkBrk) (s : State) : (onBrk b g s).fbk.brk[b] = g s.fbk.brk[b] := by
  rw [onBrk_brk, if_pos rfl]

@[simp] theorem fbkEvent_brk (code inst : Nat) (s : State) : (fbkEvent code inst s).fbk.brk = s.fbk.brk := by
  simp [fbkEvent]

@[simp] theorem tryHeld_brk (s : State) : (tryHeld s).fbk.brk = s.fbk.brk := by
  simp [tryHeld, ite_brk]

@[simp] theorem toRun_brk (s : State) : (toRun s).fbk.brk = s.fbk.brk := by
  simp [toRun, ite_brk]

theorem toHeld_brk (f : Fbk → Fbk) (s : State) (h : (f s.fbk).brk = s.fbk.brk) : (toHeld f s).fbk.brk = s.fbk.brk := by
  simp [toHeld, ite_brk, h]

@[simp] theorem toFault_brk (cause : Nat) (s : State) : (toFault cause s).fbk.brk = s.fbk.brk := by
  simp [toFault, ite_brk]

@[simp] theorem autoRun_brk (s : State) : (autoRun s).fbk.brk = s.fbk.brk := by
  simp [autoRun, ite_brk]

@[simp] theorem imgLoad_brk (s : State) : (imgLoad s).fbk.brk = s.fbk.brk := by
  simp [imgLoad]

@[simp] theorem acceptIn_brk (i : FbkIn) (v : Bool) (f : Fbk) : (acceptIn i v f).brk = f.brk := by
  cases i <;> rfl

@[simp] theorem weldArm_brk (o : OutIx) (s : State) : (weldArm o s).fbk.brk = s.fbk.brk := by
  simp [weldArm, ite_brk]

/-- What an accepted reset edge pair leaves of a brake (R325): a fail latch goes where a retest has passed (R320). -/
def clearRetested (x : FbkBrk) : FbkBrk :=
  if x.failed && x.retestOk then { x with failed := false, repair := false, retestOk := false } else x

theorem resetAll_brk (s : State) : (resetAll s).fbk.brk = Vec.mapIx s.fbk.brk fun _ x => clearRetested x := by
  have run (u : State) : (if u.fbk.st = .held && heldGuard u.fbk then toRun u else u).fbk.brk = u.fbk.brk := by
    rw [ite_fbk, ite_brk, toRun_brk, ite_self]
  unfold resetAll
  dsimp only
  refine (run _).trans ((foldl_proj (·.fbk.brk) _ (fun t o => ?_) _ _).trans rfl)
  rw [ite_fbk, ite_brk, fbkEvent_brk]
  exact ite_self _

theorem fbkStart_brk (s : State) (b : Fin 8) :
    ((fbkStart s).fbk.brk[b]).failed = (s.fbk.brk[b]).failed ∧ ((fbkStart s).fbk.brk[b]).again = (s.fbk.brk[b]).failed ∧
      ((fbkStart s).fbk.brk[b]).due = true := by
  simp [fbkStart]

/-! ### Standing marks -/

/-- The fail latch and the due mark of every brake stand. -/
def BrakesStand (s t : State) : Prop := ∀ b : Fin 8,
  ((s.fbk.brk[b]).failed = true → (t.fbk.brk[b]).failed = true) ∧ ((s.fbk.brk[b]).due = true → (t.fbk.brk[b]).due = true)

theorem stands_refl (s : State) : BrakesStand s s := fun _ => ⟨id, id⟩
theorem stands_trans {s t u : State} (h : BrakesStand s t) (k : BrakesStand t u) : BrakesStand s u :=
  fun b => ⟨fun w => (k b).1 ((h b).1 w), fun w => (k b).2 ((h b).2 w)⟩
theorem stands_ite {s t u : State} (c : Prop) [Decidable c] (h : BrakesStand s t) (k : BrakesStand s u) :
    BrakesStand s (if c then t else u) := ite_rel c h k
theorem stands_foldl {α : Type} (f : State → α → State) (h : ∀ s x, BrakesStand s (f s x)) (l : List α) (s : State) :
    BrakesStand s (l.foldl f s) := foldl_rel BrakesStand stands_refl stands_trans f h l s
theorem stands_of_brk {s t : State} (h : t.fbk.brk = s.fbk.brk) : BrakesStand s t := fun _ => by rw [h]; exact ⟨id, id⟩
theorem stands_of_fbk {s t : State} (h : t.fbk = s.fbk) : BrakesStand s t := stands_of_brk (by rw [h])
theorem same_stands {s t : State} (h : Same s t) : BrakesStand s t := stands_of_fbk (same_fbk h)
theorem sameW_stands {s t : State} (h : SameW s t) : BrakesStand s t := stands_of_fbk (sameW_fbk h)
theorem evalFrame_stands {s t : State} (h : EvalFrame s t) : BrakesStand s t :=
  fun b => ⟨fun w => ((h.fbk.brk b).failed).trans w, (h.fbk.brk b).due⟩
theorem fbkEval_stands (adv : Bool) (s : State) : BrakesStand s (fbkEval adv s) := evalFrame_stands (fbkEval_evalFrame adv s)

theorem onBrk_stands (b : Fin 8) (g : FbkBrk → FbkBrk) (s : State) (hf : ∀ x, x.failed = true → (g x).failed = true)
    (hd : ∀ x, x.due = true → (g x).due = true) : BrakesStand s (onBrk b g s) := by
  intro j
  rw [onBrk_brk]
  split
  · exact ⟨hf _, hd _⟩
  · exact ⟨id, id⟩

theorem fbkStart_stands (s : State) : BrakesStand s (fbkStart s) := fun b =>
  ⟨fun w => (fbkStart_brk s b).1.trans w, fun _ => (fbkStart_brk s b).2.2⟩

theorem auxReset_stands (s : State) : BrakesStand s (auxReset s) := fun b =>
  ⟨fun w => by simpa [auxReset] using w, fun _ => by simp [auxReset]⟩

theorem brkTestNow_stands (b : Fin 8) (s : State) : BrakesStand s (brkTestNow b s) :=
  onBrk_stands b _ s (fun _ w => w) fun _ _ => rfl

theorem brkRepair_stands (b : Fin 8) (s : State) : BrakesStand s (brkRepair b s) :=
  onBrk_stands b _ s (fun x w => by simp [w]) fun x w => by split <;> exact w

/-! ### The rows of the firebreak -/

theorem fbkDo_stands {f : State → State} {s t : State} (ht : fbkDo f s = .next t) (h : BrakesStand s (f s)) : BrakesStand s t := by
  obtain rfl := Host.Outcome.next.inj ht
  exact stands_trans h (fbkEval_stands false _)

theorem whenOn_eval_stands {on : Bool} {f : State → State} {s t : State}
    (ht : whenOn on s (fun s => fbkEval false (f s)) = .next t) (h : BrakesStand s (f s)) : BrakesStand s t := by
  obtain rfl := Host.Outcome.next.inj ht
  exact stands_ite _ (stands_trans h (fbkEval_stands false _)) (stands_refl s)

theorem selfTest_stands (ok : Bool) (s t : State) (ht : execFbkSelfTest ok s = .next t) : BrakesStand s t :=
  fbkDo_stands ht (stands_ite _ (stands_refl s) (stands_ite _ (stands_of_brk (tryHeld_brk _)) (stands_of_brk (toFault_brk _ _))))

theorem evalCycle_stands (s t : State) (ht : execFbkEvalCycle s = .next t) : BrakesStand s t := by
  obtain rfl := Host.Outcome.next.inj ht
  exact stands_trans (stands_ite _ (stands_of_brk (autoRun_brk s)) (stands_refl s)) (fbkEval_stands true _)

theorem inputAccept_stands (i : FbkIn) (v : Bool) (s t : State) (ht : execFbkInputAccept i v s = .next t) : BrakesStand s t := by
  have accepted : BrakesStand s (onFbk (acceptIn i v) s) := stands_of_brk (acceptIn_brk i v s.fbk)
  exact fbkDo_stands ht (stands_ite _ (stands_refl s)
    (stands_ite _ (stands_trans accepted (stands_of_brk (fbkEvent_brk _ _ _))) accepted))

theorem zoneDiscrepancy_stands (z : Fin 8) (s t : State) (ht : execZoneDiscrepancy z s = .next t) : BrakesStand s t :=
  fbkDo_stands ht (stands_ite _ (evalFrame_stands (zoneDisc_evalFrame z s)) (stands_refl s))

theorem weldDetect_stands (o : OutIx) (s t : State) (ht : execWeldDetect o s = .next t) : BrakesStand s t :=
  fbkDo_stands ht (stands_ite _ (evalFrame_stands (weldLatch_evalFrame o s)) (stands_refl s))

theorem weldNotify_stands (o : OutIx) (s t : State) (ht : execWeldNotify o s = .next t) : BrakesStand s t :=
  fbkDo_stands ht (stands_trans (stands_of_fbk (t := { s with fbkWeldNote := clrBit s.fbkWeldNote o.val }) rfl)
    (evalFrame_stands (weldLatch_evalFrame o _)))

theorem resetJammed_stands (s t : State) (ht : execResetJammed s = .next t) : BrakesStand s t :=
  fbkDo_stands ht (stands_ite _ (stands_refl s) (stands_of_brk (fbkEvent_brk _ _ _)))

theorem sealRead_stands (direct inverted : BitVec 64) (s : State) : BrakesStand s (sealRead direct inverted s) := by
  have held (g : Fbk → Fbk) (c : Nat) (u : State) (h : ∀ f, (g f).brk = f.brk) : BrakesStand u (toHeld g (fbkEvent c 0 u)) :=
    stands_of_brk (by rw [toHeld_brk g _ (h _), fbkEvent_brk])
  unfold sealRead
  dsimp only
  refine stands_trans (t := onFbk _ s) (stands_of_brk ?_) (stands_ite _ (held _ 13 _ fun _ => rfl)
    (stands_ite _ (held _ 15 _ fun _ => rfl) (stands_of_brk (tryHeld_brk _))))
  rfl

theorem execSealRead_stands (d i : BitVec 64) (s t : State) (ht : execSealRead d i s = .next t) : BrakesStand s t :=
  fbkDo_stands ht (stands_ite _ (sealRead_stands d i s) (stands_refl s))

theorem imageCrcCheck_stands (ok : Bool) (s t : State) (ht : execImageCrcCheck ok s = .next t) : BrakesStand s t := by
  have marked : BrakesStand s (onFbk (fun f => { f with imgOk := ok }) s) := stands_of_brk rfl
  exact fbkDo_stands ht (stands_ite _ marked (stands_trans marked (stands_of_brk (toHeld_brk id _ rfl))))

theorem lsPulseTest_stands (r : BitVec 40) (s t : State) (ht : execLsPulseTest r s = .next t) : BrakesStand s t := by
  have counted : BrakesStand s (onFbk (fun f => { f with offTests := f.offTests + 1 }) s) := stands_of_brk rfl
  exact fbkDo_stands ht (stands_ite _ (stands_refl s)
    (stands_ite _ counted (stands_trans counted (stands_of_brk (toFault_brk _ _)))))

theorem channelDiscrepancy_stands (k : FbkFaultKind) (s t : State) (ht : execFbkChannelDiscrepancy k s = .next t) : BrakesStand s t := by
  have fault (c : Nat) : BrakesStand s (toFault c (onFbk (fun f => { f with cyclicOk := false, lastFail := c }) s)) :=
    stands_of_brk (toFault_brk c _)
  obtain rfl := Host.Outcome.next.inj ht
  exact stands_trans (fault _) (fbkEval_stands false _)

theorem vauxOutOfWindow_stands (back : Bool) (s t : State) (ht : execVauxOutOfWindow back s = .next t) : BrakesStand s t := by
  refine fbkDo_stands ht (stands_ite _ (stands_ite _ (stands_refl s) (fbkStart_stands s)) (stands_of_brk ?_))
  rw [same_fbk (allHsOff_same _)]
  rfl

theorem thermalHold_stands (s t : State) (ht : execFbkThermalHold s = .next t) : BrakesStand s t :=
  fbkDo_stands ht (stands_of_brk (toHeld_brk _ s rfl))

theorem brakeTestDue_stands (b : Fin 8) (s t : State) (ht : execBrakeTestDue b s = .next t) : BrakesStand s t :=
  fbkDo_stands ht (brkTestNow_stands b s)

theorem brakeTestOverdue_stands (b : Fin 8) (s t : State) (ht : execBrakeTestOverdue b s = .next t) : BrakesStand s t :=
  fbkDo_stands ht (stands_ite _ (stands_refl s) (stands_trans
    (onBrk_stands b (fun x => { x with overdue := true }) s (fun _ w => w) fun _ w => w) (stands_of_brk (fbkEvent_brk _ _ _))))

theorem brakeTestStart_stands (b : Fin 8) (s t : State) (ht : execBrakeTestStart b s = .next t) : BrakesStand s t :=
  fbkDo_stands ht (stands_ite _ (onBrk_stands b _ s (fun _ w => w) fun _ w => w) (stands_refl s))

theorem brakeTestTorque_stands (b : Fin 8) (s t : State) (ht : execBrakeTestTorque b s = .next t) : BrakesStand s t :=
  fbkDo_stands ht (onBrk_stands b _ s (fun _ w => by split <;> exact w) fun _ w => by split <;> exact w)

theorem brakeTestRelease_stands (b : Fin 8) (s t : State) (ht : execBrakeTestRelease b s = .next t) : BrakesStand s t :=
  fbkDo_stands ht (onBrk_stands b _ s (fun _ w => by split <;> exact w) fun _ w => by split <;> exact w)

theorem thermalShutdown_stands (k : Fin 10) (s t : State) (ht : execThermalShutdown k s = .next t) : BrakesStand s t := by
  obtain rfl := Host.Outcome.next.inj ht
  refine stands_ite _ (stands_refl s) ?_
  refine stands_trans ?_ (same_stands (stopAll_same _))
  refine stands_trans ?_ (fbkEval_stands false _)
  exact stands_trans (same_stands (onHkp_same _ s)) (stands_of_brk (toHeld_brk _ _ rfl))

theorem thermalRelease_stands (s t : State) (ht : execThermalRelease s = .next t) : BrakesStand s t := by
  obtain rfl := Host.Outcome.next.inj ht
  refine stands_ite _ ?_ (stands_refl s)
  refine stands_trans ?_ (same_stands (askReset_same _ _ _))
  refine stands_trans ?_ (fbkEval_stands false _)
  exact stands_trans (same_stands (onHkp_same _ s)) (auxReset_stands _)

end Sys2Proof.Machine
end

section
/-! The register writes, the site frame and the starts: none of them ends the fail latch or the due mark of a brake. -/

namespace Sys2Proof.Machine

/-! ### Register writes and latched commands -/

theorem fbkNow_stands (off : Nat) (v : Word) (s : State) : BrakesStand s (fbkNow off v s) := by
  unfold fbkNow
  split
  · exact stands_of_brk rfl
  · exact stands_of_brk rfl
  · exact stands_of_brk rfl
  · exact stands_refl s

theorem execFbkLogSelWrite_stands (v : Word) (s t : State) (ht : execFbkLogSelWrite v s = .next t) : BrakesStand s t := by
  obtain rfl := Host.Outcome.next.inj ht
  exact stands_of_brk rfl

theorem fbkCmd_stands (off : Nat) (v : Word) (s : State) : BrakesStand s (fbkCmd off v s) := by
  unfold fbkCmd
  refine stands_trans ?_ (fbkEval_stands false _)
  split
  · exact stands_ite _ (stands_trans (stands_ite _ (brkTestNow_stands _ s) (stands_refl s)) (brkRepair_stands _ _))
      (stands_ite _ (brkTestNow_stands _ s) (stands_refl s))
  · exact stands_ite _ (stands_foldl _ (fun t o => stands_ite _ (stands_of_brk (weldArm_brk o t)) (stands_refl t)) _ s)
      (stands_refl s)

theorem blockCmd_fbk (b r : Nat) (v : Word) (win : List Byte) (s : State) (h : b ≠ 11) : (blockCmd b r v win s).fbk = s.fbk := by
  have inst {n : Nat} (i : Nat) (g : Fin n → State) (h : ∀ k, Same s (g k)) : (withFin n i g s).fbk = s.fbk :=
    same_fbk (withFin_same i g s h)
  unfold blockCmd
  split
  · exact same_fbk (smpCmd_same v s)
  · split
    · exact same_fbk (alcCmd_same r v s)
    · exact inst _ _ fun o => alcOutCmd_same o _ v s
  · exact inst _ _ fun o => lpeCmd_same o v s
  · exact inst _ _ fun o => chpCmd_same o _ v s
  · exact inst _ _ fun o => osqCmd_same o _ v s
  · exact inst _ _ fun o => vlkCmd_same o _ v s
  · exact inst _ _ fun o => cclCmd_same o v s
  · split
    · exact same_fbk (metCtrl_same _ _ s)
    · exact same_fbk (metCmd_same r v s)
  · exact same_fbk (bilCmd_same r v s)
  · exact absurd rfl h
  · exact inst _ _ fun o => auxCmd_same o v s
  · exact inst _ _ fun o => canCmd_same o _ v win s
  · exact same_fbk (fwuCmd_same r v s)
  · exact same_fbk (lndCmd_same v s)
  · exact same_fbk (rtcSet_same s)
  · rfl

theorem hostCmd_stands (off : Nat) (v : Word) (win : List Byte) (s : State) : BrakesStand s (hostCmd off v win s) := by
  have block (b r : Nat) : BrakesStand s (blockCmd b r v win s) := by
    by_cases h : b = 11
    · subst h; exact fbkCmd_stands r v s
    · exact stands_of_fbk (blockCmd_fbk b r v win s h)
  exact stands_ite _ (stands_refl s) (stands_ite _ (same_stands (refuse_same _ s)) (block _ _))

theorem hwdNow_fbk (off : Nat) (v : Word) (s : State) : (hwdNow off v s).fbk = s.fbk := by
  unfold hwdNow
  split
  · dsimp only
    split
    · rw [lifecycleLock_fbk]; split <;> rfl
    · split <;> rfl
  all_goals simp

theorem blockNow_fbk (b r : Nat) (v : Word) (s : State) (h : b ≠ 11) : (blockNow b r v s).fbk = s.fbk := by
  have inst {n : Nat} (i : Nat) (g : Fin n → State) (h : ∀ k, Same s (g k)) : (withFin n i g s).fbk = s.fbk :=
    same_fbk (withFin_same i g s h)
  unfold blockNow
  split
  · exact same_fbk (hstNow_same r v s)
  · exact same_fbk (smpNow_same r v s)
  · exact same_fbk (alcNow_same r v s)
  · exact inst _ _ fun k => lpeNow_same k _ v s
  · exact inst _ _ fun k => chpNow_same k _ v s
  · exact inst _ _ fun k => osqNow_same k _ v s
  · exact inst _ _ fun k => vlkNow_same k _ v s
  · exact inst _ _ fun k => cclNow_same k _ v s
  · exact same_fbk (metNow_same r v s)
  · exact same_fbk (bilNow_same r v s)
  · exact same_fbk (tdmNow_same r v s)
  · exact absurd rfl h
  · exact inst _ _ fun k => auxNow_same k _ v s
  · exact inst _ _ fun k => canNow_same k _ v s
  · exact hwdNow_fbk r v s
  · exact same_fbk (fwuNow_same r v s)
  · exact same_fbk (lndNow_same r v s)
  · exact same_fbk (hkpNow_same r v s)
  · rfl

theorem blockNow_stands (b r : Nat) (v : Word) (s : State) : BrakesStand s (blockNow b r v s) := by
  by_cases h : b = 11
  · subst h; exact fbkNow_stands r v s
  · exact stands_of_fbk (blockNow_fbk b r v s h)

theorem regWrite_stands (off : Nat) (v : Word) (s : State) : BrakesStand s (regWrite off v s) := by
  have span : BrakesStand s (blockNow (off / 65536) (off % 65536) v s) := blockNow_stands _ _ v s
  exact stands_ite _ (same_stands (msixNow_same off v s)) (stands_ite _ (stands_refl s)
    (stands_ite _ (stands_ite _ (stands_trans span (same_stands (takeHostCmd_same off v _))) span)
      (same_stands (unmapped_same off s))))

theorem bar0Write_stands (off : Nat) (v : Word) (be : BitVec 4) (s : State) : BrakesStand s (bar0Write off v be s) :=
  stands_ite _ (same_stands (accessError_same _ _ _)) (regWrite_stands off v s)

theorem qspiPut_stands (bar : Bar) (off : Nat) (ws : List Word) (s : State) : BrakesStand s (qspiPut bar off ws s) := by
  cases bar with
  | bar0 =>
    match ws with
    | [] => exact stands_refl s
    | [w] => exact bar0Write_stands off w 0xF s
    | _ :: _ :: _ => exact same_stands (accessError_same false off s)
  | bar2 => exact sameW_stands (bar2Write_same off (bytesOf (ws.take 64)) s)

theorem execRegisterWrite_stands (off : BitVec 21) (v : Word) (lanes : Lanes) (s t : State)
    (ht : execRegisterWrite off v lanes s = .next t) : BrakesStand s t := by
  obtain rfl := Host.Outcome.next.inj ht
  refine stands_ite _ (stands_trans (same_stands (intEval_same s)) (stands_trans ?_ (same_stands (intEval_same _)))) (stands_refl s)
  split
  · exact same_stands (accessError_same _ _ _)
  · exact bar0Write_stands _ v _ _

theorem execQspiWrite_stands (bar : Bar) (off : BitVec 26) (data : QspiData) (s t : State)
    (ht : execQspiWrite bar off data s = .next t) : BrakesStand s t := by
  obtain rfl := Host.Outcome.next.inj ht
  refine stands_ite _ (stands_trans (same_stands (intEval_same s)) (stands_trans ?_ (same_stands (intEval_same _)))) (stands_refl s)
  split
  · exact stands_trans (same_stands (qspiCount_same _))
      (stands_trans (qspiPut_stands bar _ _ _) (same_stands (onHst_same _ _)))
  · exact same_stands (qspiCut_same _)

/-! ### The site frame -/

theorem imgEval_stands (s : State) : BrakesStand s (fbkEval false (imgLoad s)) :=
  stands_trans (stands_of_brk (imgLoad_brk s)) (fbkEval_stands false _)

theorem amendNow_stands (s : State) : BrakesStand s (amendNow s) := by
  have reject (r : Nat) : BrakesStand s (amendReject r s) := same_stands (amendReject_same r s)
  unfold amendNow
  dsimp only
  split
  · exact reject _
  · refine stands_ite _ (reject _) (stands_ite _ (reject _) (stands_trans ?_ (same_stands (smpEvent_same _ _ _))))
    exact stands_trans (same_stands (amendTake_same _ _ _ _ s)) (stands_ite _ (imgEval_stands _) (stands_refl _))

theorem execAmendApply_stands (s t : State) (ht : execAmendApply s = .next t) : BrakesStand s t := by
  obtain rfl := Host.Outcome.next.inj ht
  exact stands_ite _ (stands_ite _ (amendNow_stands s) (stands_refl s)) (stands_refl s)

theorem latchCmd_stands (s : State) (i : Item) : BrakesStand s (latchCmd s i) := by
  unfold latchCmd
  split
  · exact hostCmd_stands _ _ _ s
  · exact same_stands (amendImage_same _ s)
  · exact stands_refl s

theorem latchCmds_stands (s : State) : BrakesStand s (latchCmds s) := stands_foldl latchCmd latchCmd_stands _ s

theorem interpret_stands (old : Levels) (own : InputSet) (s : State) : BrakesStand s (interpret old own s) := by
  have applied : BrakesStand s (applyDue s) := stands_ite _ (amendNow_stands s) (stands_refl s)
  have levels := stands_trans applied (same_stands (same_trans (latchLevels_same old _) (amendTimed_same _)))
  have items := stands_trans levels (sameW_stands (latchItems_same _))
  have opened := stands_trans items (same_stands (same_trans (openResults_same _) (localCmds_same own _)))
  have commands := stands_trans opened (latchCmds_stands _)
  exact stands_trans commands (stands_ite _ (same_stands (hstEvent_same _ _ _)) (stands_refl _))

theorem openSet_stands (s : State) : BrakesStand s (openSet s) := by
  have captured := same_stands (same_trans (latchInput_same s) (same_trans (capture_same _) (takeEffect_same _)))
  have acted := stands_trans captured (interpret_stands s.lat.levels s.cap _)
  have shown := stands_trans acted (same_stands (same_trans (tdmOpen_same _) (snapshot_same _)))
  exact stands_trans shown (stands_trans (same_stands (same_trans (tdmSend_same _ _ _) (unitsStart_same _)))
    (stands_trans (sameW_stands (compute_same _)) (same_stands (intEval_same _))))

theorem sealReapply_stands (s : State) : BrakesStand s (sealReapply s) := by
  unfold sealReapply
  dsimp only
  refine stands_ite _ (stands_refl s) (stands_ite _ (stands_of_fbk rfl) ?_)
  refine stands_trans ?_ (same_stands (smpEvent_same _ _ _))
  refine stands_trans ?_ (imgEval_stands _)
  exact same_stands (same_trans (onSmp_same _ s) (same_trans (refreshMap_same _ _ _) (setModems_same _)))

theorem openBefore_stands (s : State) : BrakesStand s (openBefore s) := by
  have role : BrakesStand s (openRole s) := stands_of_fbk (sameW_fbk (s := { s with fn := nextFn s }) (openRole_same s))
  have marked := stands_trans role (same_stands (same_trans (rtcTick_same _) (same_trans (openHealth_same _)
    (same_trans (openMarks_same _) (same_trans (gapTicks_same _) (same_trans (voteRest_same _)
      (same_trans (fwuRevertStep_same _) (fwuCommitStep_same _))))))))
  exact stands_trans marked (stands_trans (sealReapply_stands _)
    (same_stands (same_trans (pilotRest_same _) (same_trans (openHost_same _) (openAvail_same _)))))

theorem boundary_stands (s : State) : BrakesStand s (boundary s) := by
  have before := stands_trans (sameW_stands (closeFrame_same s)) (openBefore_stands (closeFrame s))
  have opened := openSet_stands (openBefore (closeFrame s))
  unfold boundary
  dsimp only
  generalize openBefore (closeFrame s) = u at before opened ⊢
  generalize openSet u = v at opened ⊢
  exact stands_trans before (stands_ite _ opened (stands_refl _))

theorem execFrameBoundary_stands (s t : State) (ht : execFrameBoundary s = .next t) : BrakesStand s t := by
  have frame := boundary_stands s
  unfold execFrameBoundary whenOn at ht
  generalize boundary s = v at frame ht
  obtain rfl := Host.Outcome.next.inj ht
  exact stands_ite _ frame (stands_refl s)

/-! ### Starts (R436, R438) -/

theorem bootMap_stands (failA failB : Option Nat) (s : State) : BrakesStand s (bootMap failA failB s) := by
  have loaded := same_stands (same_trans (fbkCopy_same s) (same_trans (mapLoad_same failA failB _)
    (onLnd_keep (fun l => { l with planLoaded := true }) _ fun _ => rfl)))
  exact stands_trans loaded (stands_trans (imgEval_stands _) (same_stands (brakeLevel_same _)))

theorem firstBoundary_stands (s : State) : BrakesStand s (firstBoundary s) := by
  have started := same_stands (same_trans (ageStart_same s) (siteStart_same _))
  unfold firstBoundary
  dsimp only
  generalize siteStart (ageStart s) = u at started ⊢
  exact stands_trans (stands_trans started (same_stands (firstSets_same _ u))) (openSet_stands _)

theorem bootRun_stands (cold : Bool) (failA failB : Option Nat) (ms : Nat) (s : State) :
    BrakesStand s (bootRun cold failA failB ms s) := by
  have mapped := stands_trans (same_stands (same_trans (bootImage_same s) (bootSlots_same _)))
    (stands_trans (bootMap_stands failA failB _) (same_stands (bootRtc_same ms _)))
  unfold bootRun
  dsimp only
  generalize bootRtc ms (bootMap failA failB (bootSlots (bootImage s))) = u at mapped ⊢
  have counted : BrakesStand u { u with fn := fnFirst u } := stands_of_fbk rfl
  have ready := stands_trans counted (same_stands (same_trans (bootHealth_same cold ms _) (bootTandem_same _)))
  exact stands_trans mapped (stands_trans ready (firstBoundary_stands _))

theorem bootStart_stands (cold : Bool) (failA failB : Option Nat) (ms : Nat) (s : State) :
    BrakesStand s (bootStart cold failA failB ms s) :=
  stands_ite _ (bootRun_stands cold failA failB ms s) (same_stands (stopAll_same s))

theorem rootProvision_fbk (ok : Bool) (s : State) : (rootProvision ok s).fbk = s.fbk := by
  unfold rootProvision; split <;> rfl

theorem pendingBurn_fbk (s : State) : (pendingBurn s).fbk = s.fbk := by
  unfold pendingBurn; split <;> rfl

/-- Over a cold start the fail latches stand, and where one stands the test is due (R320). -/
theorem coldFbk_failed_due (s : State) (b : Fin 8) (h : (s.fbk.brk[b]).failed = true) :
    ((coldFbk s).fbk.brk[b]).failed = true ∧ ((coldFbk s).fbk.brk[b]).due = true := by
  unfold coldFbk
  split
  · exact ⟨(fbkStart_brk s b).1.trans h, (fbkStart_brk s b).2.2⟩
  · have h' : (s.fbk.brk[b.val]).failed = true := h
    simp [onFbk, h']

theorem coldStart_stands (x : BootFacts) (s : State) : BrakesStand (coldFbk (resetBase s)) (coldStart x s) := by
  unfold coldStart
  dsimp only
  refine stands_trans ?_ (bootStart_stands true _ _ _ _)
  refine stands_trans ?_ (same_stands (pipeAssign_same _ _))
  refine stands_trans ?_ (stands_of_fbk (pendingBurn_fbk _))
  refine stands_trans ?_ (stands_of_fbk (rootProvision_fbk _ _))
  exact same_stands (same_trans (onTdm_same _ _) (onHkp_same _ _))

theorem coldStart_failed_due (x : BootFacts) (s : State) (b : Fin 8) (h : (s.fbk.brk[b]).failed = true) :
    ((coldStart x s).fbk.brk[b]).failed = true ∧ ((coldStart x s).fbk.brk[b]).due = true := by
  obtain ⟨failed, due⟩ := coldFbk_failed_due (resetBase s) b h
  exact ⟨(coldStart_stands x s b).1 failed, (coldStart_stands x s b).2 due⟩

theorem execColdStart_failed_due (x : BootFacts) (b : Fin 8) (s : State) (hs : s.hkp.shutdown = false)
    (hx : s.hkp.xtalStopped = false) (hf : (s.fbk.brk[b]).failed = true) :
    ∃ t, exec (.coldStart x) s = .next t ∧ (t.fbk.brk[b]).failed = true ∧ (t.fbk.brk[b]).due = true := by
  have started := coldStart_failed_due x s b hf
  refine ⟨coldStart x s, ?_, started⟩
  show execColdStart x s = _
  unfold execColdStart
  generalize coldStart x s = v
  rw [hs, hx]
  rfl

theorem execColdStart_keeps_failed (x : BootFacts) (b : Fin 8) (s t : State) (ht : execColdStart x s = .next t)
    (hf : (s.fbk.brk[b]).failed = true) : (t.fbk.brk[b]).failed = true := by
  have started := (coldStart_failed_due x s b hf).1
  unfold execColdStart at ht
  generalize coldStart x s = v at started ht
  obtain rfl := Host.Outcome.next.inj ht
  split
  · exact hf
  · exact started

theorem warmReset_stands (ms : Nat) (s : State) : BrakesStand s (warmReset ms s) := by
  have kept : BrakesStand s (warmBase s) := stands_of_fbk rfl
  exact stands_trans (stands_trans kept (stands_of_fbk (pendingBurn_fbk _))) (bootStart_stands false _ _ ms _)

theorem execWarmReset_stands (ms : Nat) (s t : State) (ht : execWarmReset ms s = .next t) : BrakesStand s t := by
  have start := warmReset_stands ms s
  unfold execWarmReset at ht
  generalize warmReset ms s = v at start ht
  obtain rfl := Host.Outcome.next.inj ht
  exact stands_ite _ (stands_refl s) start

end Sys2Proof.Machine
end

section
/-! The fail latch of a brake (R320): what sets it, what it holds applied, and what clears it. -/

namespace Sys2Proof.Machine

/-! ### The rows of the brake test, by the change they make before the evaluation -/

theorem fbkDo_evalFrame {f : State → State} {s u : State} (h : f s = u) : ∃ t, fbkDo f s = .next t ∧ EvalFrame u t :=
  ⟨_, rfl, h ▸ fbkEval_evalFrame false (f s)⟩

/-- An evaluation of a test with more edges than the threshold (R319): the brake fails. -/
def failTest (edges : Nat) (x : FbkBrk) : FbkBrk :=
  { x with phase := 0, edges := BitVec.ofNat 16 edges, failed := true, repair := false, retestOk := false, again := false }

/-- One with no more (R319): the brake passes; of a repaired brake the retest has passed (R320). -/
def passTest (now edges : Nat) (x : FbkBrk) : FbkBrk :=
  { x with phase := 0, edges := BitVec.ofNat 16 edges, last := some now, due := false, overdue := false, passes := x.passes + 1,
           retestOk := x.failed && x.repair, again := false }

theorem exec_brakeTestEvaluate_idle (b : Fin 8) (n : Nat) (s : State) (hp : (s.fbk.brk[b]).phase ≠ 3) :
    ∃ t, exec (.brakeTestEvaluate b n) s = .next t ∧ EvalFrame s t :=
  fbkDo_evalFrame (if_pos hp)

theorem exec_brakeTestEvaluate_pass (b : Fin 8) (n : Nat) (s : State) (hp : (s.fbk.brk[b]).phase = 3)
    (hn : n ≤ (fbkSafety s.fbk).brkThreshold) :
    ∃ t, exec (.brakeTestEvaluate b n) s = .next t ∧ EvalFrame (onBrk b (passTest s.fbk.t n) s) t := by
  obtain ⟨t, ht, frame⟩ := fbkDo_evalFrame (u := fbkEvent 7 b.val (onBrk b (passTest s.fbk.t n) s))
    ((if_neg (not_not.mpr hp)).trans (if_pos hn))
  exact ⟨t, ht, evalFrame_trans (fbkEvent_evalFrame _ _ _) frame⟩

theorem exec_brakeTestEvaluate_fail (b : Fin 8) (n : Nat) (s : State) (hp : (s.fbk.brk[b]).phase = 3)
    (hn : (fbkSafety s.fbk).brkThreshold < n) :
    ∃ t, exec (.brakeTestEvaluate b n) s = .next t ∧ EvalFrame (onBrk b (failTest n) s) t := by
  obtain ⟨t, ht, frame⟩ := fbkDo_evalFrame (u := fbkEvent 8 b.val (onBrk b (failTest n) s))
    ((if_neg (not_not.mpr hp)).trans (if_neg (Nat.not_le.mpr hn)))
  exact ⟨t, ht, evalFrame_trans (fbkEvent_evalFrame _ _ _) frame⟩

/-- A verdict of a test never ends a fail latch. -/
theorem brakeTestEvaluate_keeps_failed (j b : Fin 8) (n : Nat) (s t : State) (ht : exec (.brakeTestEvaluate j n) s = .next t)
    (hf : (s.fbk.brk[b]).failed = true) : (t.fbk.brk[b]).failed = true := by
  have judged {g : FbkBrk → FbkBrk} {u : State} (frame : EvalFrame (onBrk j g s) u)
      (hg : ∀ x, x.failed = true → (g x).failed = true) : (u.fbk.brk[b]).failed = true := by
    rw [(frame.fbk.brk b).failed, onBrk_brk]
    split
    · exact hg _ hf
    · exact hf
  by_cases hp : (s.fbk.brk[j]).phase = 3
  · by_cases hn : n ≤ (fbkSafety s.fbk).brkThreshold
    · obtain ⟨u, hu, frame⟩ := exec_brakeTestEvaluate_pass j n s hp hn
      obtain rfl : u = t := Host.Outcome.next.inj (hu.symm.trans ht)
      exact judged frame fun _ w => w
    · obtain ⟨u, hu, frame⟩ := exec_brakeTestEvaluate_fail j n s hp (by omega)
      obtain rfl : u = t := Host.Outcome.next.inj (hu.symm.trans ht)
      exact judged frame fun _ _ => rfl
  · obtain ⟨u, hu, frame⟩ := exec_brakeTestEvaluate_idle j n s hp
    obtain rfl : u = t := Host.Outcome.next.inj (hu.symm.trans ht)
    exact (evalFrame_stands frame b).1 hf

/-- A test is due; of a failed brake the one after a new start, or the retest after repair (R320). -/
def testDue (x : FbkBrk) : Bool := if x.failed then x.again || (x.repair && !x.retestOk) else x.due

theorem testDue_of_failed {x : FbkBrk} (hf : x.failed = true) (hr : x.retestOk = false) : testDue x = (x.again || x.repair) := by
  simp [testDue, hf, hr]

/-- What BRAKE_TEST_START asks (R319): RUN, and a brake that is present, in no test, idle, with a test due. -/
def testMayStart (b : Fin 8) (s : State) : Bool :=
  decide (s.fbk.st = .run) && brkPresent s.fbk b && decide ((s.fbk.brk[b]).phase = 0) && brkIdle s b && testDue s.fbk.brk[b]

theorem exec_brakeTestStart_started (b : Fin 8) (s : State) (h : testMayStart b s = true) :
    ∃ t, exec (.brakeTestStart b) s = .next t ∧ EvalFrame (onBrk b (fun x => { x with phase := 1 }) s) t :=
  fbkDo_evalFrame (if_pos h)

theorem exec_brakeTestStart_refused (b : Fin 8) (s : State) (h : testMayStart b s = false) :
    ∃ t, exec (.brakeTestStart b) s = .next t ∧ EvalFrame s t :=
  fbkDo_evalFrame (if_neg (by simp [h] : ¬ testMayStart b s = true))

/-! ### Latch reset -/

/-- A press that counts (R325): 50 ms to 3 s of an input not jammed, in HELD or RUN. -/
def pressAccepted (ms : Nat) (s : State) : Bool :=
  decide (50 ≤ ms) && decide (ms ≤ 3000) && !s.fbk.jammed && (s.fbk.st = .held || s.fbk.st = .run)

theorem exec_resetEdgePair_accepted (ms : Nat) (s : State) (h : pressAccepted ms s = true) (b : Fin 8) :
    ∃ t, exec (.resetEdgePair ms) s = .next t ∧ BrkFrame (clearRetested s.fbk.brk[b]) t.fbk.brk[b] := by
  obtain ⟨t, ht, frame⟩ := fbkDo_evalFrame (if_pos h)
  refine ⟨t, ht, ?_⟩
  have cleared := frame.fbk.brk b
  rw [fbkEvent_brk, resetAll_brk] at cleared
  simpa [Vec.mapIx, onFbk] using cleared

theorem exec_resetEdgePair_ignored (ms : Nat) (s : State) (h : pressAccepted ms s = false) :
    ∃ t, exec (.resetEdgePair ms) s = .next t ∧ BrakesStand s t := by
  obtain ⟨t, ht, frame⟩ := fbkDo_evalFrame (if_neg (by simp [h] : ¬ pressAccepted ms s = true))
  refine ⟨t, ht, stands_trans ?_ (evalFrame_stands frame)⟩
  exact stands_of_brk rfl

theorem resetEdgePair_keeps_failed (ms : Nat) (b : Fin 8) (s t : State) (ht : exec (.resetEdgePair ms) s = .next t)
    (hf : (s.fbk.brk[b]).failed = true) :
    (t.fbk.brk[b]).failed = true ∨ ((s.fbk.brk[b]).retestOk = true ∧ 50 ≤ ms ∧ ms ≤ 3000) := by
  cases hok : pressAccepted ms s with
  | false =>
    obtain ⟨u, hu, stands⟩ := exec_resetEdgePair_ignored ms s hok
    obtain rfl : u = t := Host.Outcome.next.inj (hu.symm.trans ht)
    exact Or.inl ((stands b).1 hf)
  | true =>
    obtain ⟨u, hu, frame⟩ := exec_resetEdgePair_accepted ms s hok b
    obtain rfl : u = t := Host.Outcome.next.inj (hu.symm.trans ht)
    cases hr : (s.fbk.brk[b]).retestOk with
    | false =>
      left
      rw [frame.failed, clearRetested, hr, Bool.and_false]
      exact hf
    | true =>
      simp only [pressAccepted, Bool.and_eq_true, decide_eq_true_eq] at hok
      obtain ⟨⟨⟨hlo, hhi⟩, _⟩, _⟩ := hok
      exact Or.inr ⟨rfl, hlo, hhi⟩

theorem resetEdgePair_clears_failed (ms : Nat) (b : Fin 8) (s : State) (h : pressAccepted ms s = true)
    (hf : (s.fbk.brk[b]).failed = true) (hr : (s.fbk.brk[b]).retestOk = true) :
    ∃ t, exec (.resetEdgePair ms) s = .next t ∧ (t.fbk.brk[b]).failed = false := by
  obtain ⟨t, ht, frame⟩ := exec_resetEdgePair_accepted ms s h b
  refine ⟨t, ht, ?_⟩
  rw [frame.failed, clearRetested, hf, hr]
  rfl

/-! ### The latch over every command -/

theorem exec_keeps_failed (c : Instr) (b : Fin 8) (s t : State) (ht : exec c s = .next t) (hf : (s.fbk.brk[b]).failed = true) :
    (t.fbk.brk[b]).failed = true ∨
      ((s.fbk.brk[b]).retestOk = true ∧ ∃ ms : Nat, c = .resetEdgePair ms ∧ 50 ≤ ms ∧ ms ≤ 3000) := by
  have standing (h : BrakesStand s t) : (t.fbk.brk[b]).failed = true ∨
      ((s.fbk.brk[b]).retestOk = true ∧ ∃ ms : Nat, c = .resetEdgePair ms ∧ 50 ≤ ms ∧ ms ≤ 3000) := Or.inl ((h b).1 hf)
  cases hc : touchesFirebreak c with
  | false => exact standing (stands_of_fbk (exec_fbk_of_not_touchesFirebreak c s t hc ht))
  | true =>
    cases c with
    | resetEdgePair ms =>
      exact (resetEdgePair_keeps_failed ms b s t ht hf).imp_right fun ⟨hr, hlo, hhi⟩ => ⟨hr, ms, rfl, hlo, hhi⟩
    | brakeTestEvaluate j n => exact Or.inl (brakeTestEvaluate_keeps_failed j b n s t ht hf)
    | coldStart x => exact Or.inl (execColdStart_keeps_failed x b s t ht hf)
    | warmReset ms => exact standing (execWarmReset_stands ms s t ht)
    | frameBoundary => exact standing (execFrameBoundary_stands s t ht)
    | registerWrite off v lanes => exact standing (execRegisterWrite_stands off v lanes s t ht)
    | qspiWrite bar off data => exact standing (execQspiWrite_stands bar off data s t ht)
    | amendApply => exact standing (execAmendApply_stands s t ht)
    | safetyImageLoad => exact standing (fbkDo_stands ht (stands_of_brk (imgLoad_brk s)))
    | fbkSelfTest ok => exact standing (selfTest_stands ok s t ht)
    | fbkEvalCycle => exact standing (evalCycle_stands s t ht)
    | fbkInputAccept i v => exact standing (inputAccept_stands i v s t ht)
    | zoneDiscrepancy z => exact standing (zoneDiscrepancy_stands z s t ht)
    | weldDetect o => exact standing (weldDetect_stands o s t ht)
    | weldNotify o => exact standing (weldNotify_stands o s t ht)
    | resetJammed => exact standing (resetJammed_stands s t ht)
    | autoStartRun => exact standing (fbkDo_stands ht (stands_of_brk (autoRun_brk s)))
    | sealRead d i => exact standing (execSealRead_stands d i s t ht)
    | imageCrcCheck ok => exact standing (imageCrcCheck_stands ok s t ht)
    | lsPulseTest r => exact standing (lsPulseTest_stands r s t ht)
    | fbkChannelDiscrepancy k => exact standing (channelDiscrepancy_stands k s t ht)
    | vauxOutOfWindow back => exact standing (vauxOutOfWindow_stands back s t ht)
    | fbkThermalHold => exact standing (thermalHold_stands s t ht)
    | brakeTestDue j => exact standing (brakeTestDue_stands j s t ht)
    | brakeTestOverdue j => exact standing (brakeTestOverdue_stands j s t ht)
    | brakeTestStart j => exact standing (brakeTestStart_stands j s t ht)
    | brakeTestTorque j => exact standing (brakeTestTorque_stands j s t ht)
    | brakeTestRelease j => exact standing (brakeTestRelease_stands j s t ht)
    | fbkWeldArm o => exact standing (whenOn_eval_stands ht (stands_of_brk (weldArm_brk o s)))
    | fbkBrkTest j => exact standing (whenOn_eval_stands ht (brkTestNow_stands j s))
    | fbkBrkRepair j => exact standing (whenOn_eval_stands ht (brkRepair_stands j s))
    | fbkLogSelWrite v => exact standing (execFbkLogSelWrite_stands v s t ht)
    | thermalShutdown k => exact standing (thermalShutdown_stands k s t ht)
    | thermalRelease => exact standing (thermalRelease_stands s t ht)
    | _ => exact nomatch hc

/-- While the fail latch stands, the brake stays applied and its dependent outlets open (R317, R320, R324). -/
theorem OutputsFormed.open_of_failed {t : State} (h : OutputsFormed t) (b : Fin 8) (hf : (t.fbk.brk[b]).failed = true) :
    t.fbk.ls.getLsbD (32 + b.val) = false ∧
      ∀ o : OutIx, (∃ x ∈ outsOf t.fbk o, x.brake = some b) → t.fbk.ls.getLsbD o.val = false := by
  constructor
  · have applied : brkApplied t.fbk b = true := by simp only [brkApplied, hf, Bool.or_true, Bool.true_or]
    rw [h.ls_brake, applied, Bool.not_true, Bool.and_false]
  · rintro o ⟨x, hx, hb⟩
    have holds : brkHolds t b o = true := by simp only [brkHolds, hf, Bool.or_true, Bool.true_or]
    rw [h.ls_outlet, ← Bool.not_eq_true, lsOutlet_iff]
    rintro ⟨-, -, -, -, -, -, -, closes⟩
    obtain ⟨-, -, free⟩ := closes x hx
    exact Bool.false_ne_true ((free b hb).symm.trans holds)

/-! ### The supply cycle and the host's repair -/

theorem exec_vauxBack (s : State) (hv : s.fbk.vaux = false) :
    ∃ t, exec (.vauxOutOfWindow true) s = .next t ∧ EvalFrame (fbkStart s) t :=
  fbkDo_evalFrame (if_neg (by simp [hv] : ¬ s.fbk.vaux = true))

theorem exec_fbkBrkRepair (b : Fin 8) (s : State) (hc : s.isl.ctl = true) :
    ∃ t, exec (.fbkBrkRepair b) s = .next t ∧ EvalFrame (brkRepair b s) t :=
  ⟨_, congrArg Host.Outcome.next (if_pos hc), fbkEval_evalFrame false _⟩

theorem brkRepair_brk_of_failed (b : Fin 8) (s : State) (hf : (s.fbk.brk[b]).failed = true) :
    (brkRepair b s).fbk.brk[b] = { s.fbk.brk[b] with repair := true, retestOk := false } := by
  rw [brkRepair, onBrk_brk_same, if_pos hf]

/-- Settles O22: the verdicts of a test, a press and a new start by what each makes of the brake before its evaluation, which
keeps verdicts; every other command leaves a fail latch standing. -/
theorem brakeFailLatch : Obligations.BrakeFailLatch := by
  unfold Obligations.BrakeFailLatch
  refine ⟨fun b n s hp hn => ?failTest, fun c b s t hc ht hf => ?applied, fun c b s t ht hf => ?latched,
    fun b s hv hf => ?supply, fun x b s hs hx hf => ?cold, fun b s hc hf => ?repair,
    fun b s hst hpr hp hi hf hr => ⟨fun hd => ?retest, fun hnr hna => ?noRetest⟩, fun b n s hp hf hn => ?passTest,
    fun ms b s hlo hhi hj hst hf hr => ?cleared⟩
  case failTest =>
    obtain ⟨t, ht, frame⟩ := exec_brakeTestEvaluate_fail b n s hp hn
    have kept := frame.fbk.brk b
    rw [onBrk_brk_same] at kept
    exact ⟨t, ht, kept.failed, kept.repair, kept.retestOk⟩
  case applied => exact (exec_firebreakRow_formed c s t hc ht).open_of_failed b hf
  case latched => exact exec_keeps_failed c b s t ht hf
  case supply =>
    obtain ⟨t, ht, frame⟩ := exec_vauxBack s hv
    obtain ⟨failed, again, due⟩ := fbkStart_brk s b
    have kept := frame.fbk.brk b
    exact ⟨t, ht, kept.failed.trans (failed.trans hf), kept.due due, kept.again.trans (again.trans hf)⟩
  case cold => exact execColdStart_failed_due x b s hs hx hf
  case repair =>
    obtain ⟨t, ht, frame⟩ := exec_fbkBrkRepair b s hc
    have kept := frame.fbk.brk b
    rw [brkRepair_brk_of_failed b s hf] at kept
    exact ⟨t, ht, kept.failed.trans hf, kept.repair, kept.retestOk⟩
  case retest =>
    have may : testMayStart b s = true := by
      have due : testDue s.fbk.brk[b] = true := by
        rw [testDue_of_failed hf hr, Bool.or_eq_true]
        exact hd.symm
      rw [testMayStart, due, hi, hpr, decide_eq_true hst, decide_eq_true hp]
      rfl
    obtain ⟨t, ht, frame⟩ := exec_brakeTestStart_started b s may
    have kept := (frame.fbk.brk b).phase
    rw [onBrk_brk_same] at kept
    exact ⟨t, ht, kept⟩
  case noRetest =>
    have mayNot : testMayStart b s = false := by
      rw [testMayStart, testDue_of_failed hf hr, hna, hnr]
      exact Bool.and_false _
    obtain ⟨t, ht, frame⟩ := exec_brakeTestStart_refused b s mayNot
    exact ⟨t, ht, (frame.fbk.brk b).phase.elim (fun h => h.trans hp) And.left⟩
  case passTest =>
    obtain ⟨t, ht, frame⟩ := exec_brakeTestEvaluate_pass b n s hp hn
    have kept := frame.fbk.brk b
    rw [onBrk_brk_same] at kept
    refine ⟨t, ht, kept.failed.trans hf, kept.retestOk.trans ?_⟩
    rw [passTest, hf, Bool.true_and]
  case cleared =>
    have accepted : pressAccepted ms s = true := by
      rcases hst with hst | hst <;> simp [pressAccepted, hlo, hhi, hj, hst]
    exact resetEdgePair_clears_failed ms b s accepted hf hr

end Sys2Proof.Machine
end

section
/-! The error states of a controller (R364): bus-off and the two recoveries, the counters of an error and the change to
error-passive, what a controller in bus-off sends, the overflow of its receive FIFO, and the buffer it shows (R365). -/

namespace Sys2Proof.Machine

/-! ### One controller -/

@[simp] theorem onCan_can_same (k : CanIx) (f : Can → Can) (s : State) : (onCan k f s).can[k] = f s.can[k] := by
  rw [show (onCan k f s).can = Vec.upd s.can k f from rfl, upd_get, if_pos rfl]

theorem onCan_can_other {j k : CanIx} (hjk : j ≠ k) (f : Can → Can) (s : State) : (onCan k f s).can[j] = s.can[j] := by
  rw [show (onCan k f s).can = Vec.upd s.can k f from rfl, upd_get, if_neg hjk.symm]

theorem onCan_id (k : CanIx) (s : State) : onCan k (fun c => c) s = s := by
  have upd_id : Vec.upd s.can k (fun c => c) = s.can := Vector.set_getElem_self _
  rw [onCan, upd_id]

/-! ### An event of a controller (R364) -/

theorem canEvent_onCan_same (k : CanIx) (b data : Nat) (f : Can → Can) (s : State) :
    (canEvent k b data (onCan k f s)).can[k] = { f s.can[k] with intStatus := setBit (f s.can[k]).intStatus b } := by
  rw [← onCan_can_same k f s]
  exact onCan_can_same k _ (onCan k f s)

theorem canEvent_onCan_other {j k : CanIx} (hjk : j ≠ k) (b data : Nat) (f : Can → Can) (s : State) :
    (canEvent k b data (onCan k f s)).can[j] = s.can[j] :=
  (onCan_can_other hjk _ (onCan k f s)).trans (onCan_can_other hjk f s)

@[simp] theorem canEvent_evs (k : CanIx) (b data : Nat) (s : State) :
    (canEvent k b data s).evs = s.evs ++ [{ rank := 12, code := b + 1, num := k.val, ord := k.val, data := data }] :=
  rfl

@[simp] theorem canEvent_lnd (k : CanIx) (b data : Nat) (s : State) : (canEvent k b data s).lnd = s.lnd :=
  rfl

/-- What a change of one controller, reported by its event, leaves alone. -/
theorem canEvent_onCan_frame (k : CanIx) (b data : Nat) (f : Can → Can) (s : State) :
    canEvent k b data (onCan k f s) = { s with
      can := (canEvent k b data (onCan k f s)).can
      evs := s.evs ++ [{ rank := 12, code := b + 1, num := k.val, ord := k.val, data := data }] } :=
  rfl

/-! ### Bus-off and recovery -/

theorem exec_canBusOff (k : CanIx) (s : State) (hon : canOn s k = true) (hst : (s.can[k]).st ≠ 2) :
    exec (.canBusOff k) s =
      .next (canEvent k 0 0 (onCan k (fun c => { c with st := 2, busOffs := c.busOffs + 1 }) s)) :=
  congrArg Host.Outcome.next (if_pos (by simp [-Fin.getElem_fin, hon, hst]))

theorem exec_canAutoRecovery_of_busOff (k : CanIx) (s : State) (hon : canOn s k = true) (hst : (s.can[k]).st = 2)
    (hm : (s.can[k]).manual = false) : exec (.canAutoRecovery k) s = .next (canRecovered k s) :=
  congrArg Host.Outcome.next (if_pos (by simp [-Fin.getElem_fin, hon, hst, hm]))

theorem exec_canAutoRecovery_of_manual (k : CanIx) (s : State) (hm : (s.can[k]).manual = true) :
    exec (.canAutoRecovery k) s = .next s :=
  congrArg Host.Outcome.next (if_neg (by simp [-Fin.getElem_fin, hm]))

theorem exec_canAutoRecovery_of_not_busOff (k : CanIx) (s : State) (hst : (s.can[k]).st ≠ 2) :
    exec (.canAutoRecovery k) s = .next s :=
  congrArg Host.Outcome.next (if_neg (by simp [-Fin.getElem_fin, hst]))

theorem exec_canRecover_of_busOff (k : CanIx) (s : State) (hc : s.isl.com = true) (hst : (s.can[k]).st = 2)
    (hm : (s.can[k]).manual = true) : exec (.canRecover k) s = .next (canRecovered k s) :=
  congrArg Host.Outcome.next ((if_pos hc).trans (if_pos (by simp [-Fin.getElem_fin, hst, hm])))

theorem exec_canRecover_of_not_busOff (k : CanIx) (s : State) (hst : (s.can[k]).st ≠ 2) :
    exec (.canRecover k) s = .next s := by
  have kept : canRecover k s = s := if_neg (by simp [-Fin.getElem_fin, hst])
  change Host.Outcome.next (if s.isl.com then canRecover k s else s) = _
  rw [kept, ite_self]

/-- Either recovery: error-active, the queue kept, the event of code 2, and no other controller touched. -/
theorem canRecovered_spec (k : CanIx) (s : State) :
    ((canRecovered k s).can[k]).st = 0 ∧ ((canRecovered k s).can[k]).queue = (s.can[k]).queue ∧
    (∀ j : CanIx, j ≠ k → (canRecovered k s).can[j] = s.can[j]) ∧
    canRecovered k s = { s with
      can := (canRecovered k s).can
      evs := s.evs ++ [{ rank := 12, code := 2, num := k.val, ord := k.val }] } := by
  refine ⟨?_, ?_, fun j hj => ?_, canEvent_onCan_frame k 1 0 _ s⟩
  · rw [canRecovered, canEvent_onCan_same]
  · rw [canRecovered, canEvent_onCan_same]
  · exact canEvent_onCan_other hj 1 0 _ s

/-! ### An error on the bus -/

/-- Counters at which a controller is error-passive. (PRESUMED, entry 32.) -/
def passiveAt (tec rc : Nat) : Bool := decide (128 ≤ tec) || decide (128 ≤ rc)

theorem passiveAt_iff (tec rc : Nat) : passiveAt tec rc = true ↔ 128 ≤ tec ∨ 128 ≤ rc := by
  simp [passiveAt]

/-- A controller after an error with these counters. -/
def canErrored (kind : CanErrKind) (tec rc : Nat) (c : Can) : Can :=
  { c with tec := min 255 tec, rec_ := min 255 rc, lastErr := errCode kind, errs := c.errs + 1,
           st := if c.st = 2 then 2 else bit (passiveAt tec rc) }

theorem canErrored_st {c : Can} (hst : c.st ≠ 2) (kind : CanErrKind) (tec rc : Nat) :
    (canErrored kind tec rc c).st = bit (passiveAt tec rc) :=
  if_neg hst

theorem bit_eq_one_iff (b : Bool) : bit b = 1 ↔ b = true := by cases b <;> decide

theorem bit_eq_zero_iff (b : Bool) : bit b = 0 ↔ b = false := by cases b <;> decide

theorem canBusError_of_on (k : CanIx) (kind : CanErrKind) (tec rc : Nat) (s : State) (hon : canOn s k = true) :
    canBusError k kind tec rc s =
      if (s.can[k]).st = 0 && passiveAt tec rc then canEvent k 2 0 (onCan k (canErrored kind tec rc) s)
      else onCan k (canErrored kind tec rc) s :=
  if_neg (by simp [hon])

section
variable (k : CanIx) (kind : CanErrKind) (tec rc : Nat) (s : State) (hon : canOn s k = true)
include hon

/-- Reported or not, the controller stands as after the error, but for its interrupt status. -/
theorem canBusError_can_same :
    ∃ w, (canBusError k kind tec rc s).can[k] = { canErrored kind tec rc s.can[k] with intStatus := w } := by
  rw [canBusError_of_on k kind tec rc s hon]
  split
  · exact ⟨_, canEvent_onCan_same k 2 0 _ s⟩
  · exact ⟨_, onCan_can_same k _ s⟩

theorem canBusError_can_other {j : CanIx} (hjk : j ≠ k) : (canBusError k kind tec rc s).can[j] = s.can[j] := by
  rw [canBusError_of_on k kind tec rc s hon]
  split
  · exact canEvent_onCan_other hjk 2 0 _ s
  · exact onCan_can_other hjk _ s

theorem canBusError_evs : (canBusError k kind tec rc s).evs =
    if (s.can[k]).st = 0 && passiveAt tec rc then s.evs ++ [{ rank := 12, code := 3, num := k.val, ord := k.val }]
    else s.evs := by
  rw [canBusError_of_on k kind tec rc s hon]
  split <;> rfl

theorem canBusError_frame : canBusError k kind tec rc s = { s with
    can := (canBusError k kind tec rc s).can, evs := (canBusError k kind tec rc s).evs } := by
  rw [canBusError_of_on k kind tec rc s hon]
  split <;> rfl

end

/-! ### Sending in bus-off -/

theorem canSends_of_busOff {k : CanIx} {s : State} (hst : (s.can[k]).st = 2) : canSends s k = false := by
  simp [-Fin.getElem_fin, canSends, hst]

theorem canTxComplete_of_busOff (k : CanIx) (src : TxSource) (s : State) (hst : (s.can[k]).st = 2) :
    canTxComplete k src s = s := by
  cases src with
  | queue =>
    rw [canTxComplete]
    split
    · rfl
    · rw [canSends_of_busOff hst]
      rfl
  | heartbeat => exact if_neg (by simp [-Fin.getElem_fin, hst])
  | cooling o => exact if_neg (by simp [canSends_of_busOff hst])

/-! ### Overflow of the receive FIFO (R354, R364) -/

theorem canFifo_of_full (k : CanIx) (f : CanFrame) (us first : Nat) (s : State) (hfull : 64 ≤ (s.can[k]).unread) :
    canFifo k f us first s = canEvent k 4 0 (onCan k (fun c => { c with overflow := c.overflow + 1 }) s) :=
  if_pos hfull

/-- A controller that has heard a frame: a restricted one takes it from its queue (R293). -/
def heardFrame (f : CanFrame) (restricted : Bool) (c : Can) : Can :=
  { c with queue := if restricted then dropHeard f c.queue else c.queue }

theorem canHeard_of_on (k : CanIx) (f : CanFrame) (s : State) (hon : canOn s k = true) :
    canHeard k f s = onCan k (heardFrame f (canRestricted s k)) s := by
  cases hr : canRestricted s k with
  | false =>
    rw [canHeard, if_neg (by simp [hr])]
    exact (onCan_id k s).symm
  | true =>
    rw [canHeard, if_pos (by simp [hon, hr])]
    rfl

/-- A controller after a frame that one FIFO entry takes, before the FIFO. -/
def fifoHit (i : Nat) (c : Can) : Can :=
  { c with
    received := c.received + 1
    hits := match optFin 128 i with
      | some j => Vec.upd c.hits j (· + 1)
      | none => c.hits }

theorem canReceive_of_fifoHit (k : CanIx) (f : CanFrame) (us i : Nat) (e : FiltCfg) (s : State) (hon : canOn s k = true)
    (hrem : f.remote = false) (hlen : f.data.length ≤ 64) (hhit : filtHits s k f = [(i, e)]) (hq : e.q = 0) :
    canReceive k f us s = canFifo k f us i (onCan k (fifoHit i) s) := by
  have taken : ¬ (!canOn s k || f.remote || decide (64 < f.data.length)) = true := by simp [hon, hrem, hlen]
  rw [canReceive, if_neg taken, hhit]
  simp only [List.any_cons, List.any_nil, List.foldl_cons, List.foldl_nil, hq, ne_eq, decide_not, decide_true, Bool.not_true,
    Bool.false_and, Bool.true_or, Bool.or_self, Bool.or_false, Bool.false_eq_true, ↓reduceIte]
  rfl

theorem exec_canRxFrame_overflow (k : CanIx) (f : CanFrame) (us i : Nat) (e : FiltCfg) (s : State) (hon : canOn s k = true)
    (hrem : f.remote = false) (hlen : f.data.length ≤ 64) (hhit : filtHits s k f = [(i, e)]) (hq : e.q = 0)
    (hfull : 64 ≤ (s.can[k]).unread) :
    exec (.canRxFrame k f us) s =
      .next (canEvent k 4 0 (onCan k (fun c => { c with overflow := c.overflow + 1 })
        (onCan k (fifoHit i) (onCan k (heardFrame f (canRestricted s k)) s)))) := by
  have full : 64 ≤ ((onCan k (fifoHit i) (onCan k (heardFrame f (canRestricted s k)) s)).can[k]).unread := by
    rw [onCan_can_same, onCan_can_same]
    exact hfull
  change Host.Outcome.next (canReceive k f us (canHeard k f s)) = _
  rw [canHeard_of_on k f s hon, canReceive_of_fifoHit k f us i e (onCan k _ s) hon hrem hlen hhit hq,
    canFifo_of_full k f us i _ full]

/-- Settles O42: each clause by what its command makes of the one controller; that counters of 128 are error-passive is
the model's reading (entry 32). -/
theorem canErrorStates : Obligations.CanErrorStates := by
  unfold Obligations.CanErrorStates
  refine ⟨fun k s hon hst => ?busOff, fun k s hon hst hm => ?autoRecovery, fun k s hc hst hm => ?recover,
    fun k s hst => ⟨exec_canAutoRecovery_of_not_busOff k s hst, exec_canRecover_of_not_busOff k s hst⟩,
    fun k kind tec rc s hon hst => ?busError, fun k src s hst => ?silent,
    fun k f us i e s hon hrem hlen hhit hq hfull => ?overflow, fun k v s hc => ?shown⟩
  case busOff =>
    exact ⟨_, exec_canBusOff k s hon hst, canEvent_onCan_same k 0 0 _ s, canEvent_onCan_frame k 0 0 _ s⟩
  case autoRecovery => exact ⟨_, exec_canAutoRecovery_of_busOff k s hon hst hm, canRecovered_spec k s⟩
  case recover =>
    exact ⟨_, exec_canRecover_of_busOff k s hc hst hm, exec_canAutoRecovery_of_manual k s hm, canRecovered_spec k s⟩
  case busError =>
    obtain ⟨w, after⟩ := canBusError_can_same k kind tec rc s hon
    have evs := canBusError_evs k kind tec rc s hon
    have st : ((canBusError k kind tec rc s).can[k]).st = bit (passiveAt tec rc) := by rw [after, canErrored_st hst]
    refine ⟨_, rfl, by rw [after]; rfl, by rw [after]; rfl, by rw [after]; rfl, ?_, by rw [after]; rfl,
      fun j hj => canBusError_can_other k kind tec rc s hon hj, canBusError_frame k kind tec rc s hon,
      fun active passive => ?_, fun unreported => ?_⟩
    · rw [st, bit_eq_one_iff, passiveAt_iff]
    · rw [st, bit_eq_one_iff] at passive
      rw [evs, if_pos (by simp [-Fin.getElem_fin, active, passive])]
    · rw [st, bit_eq_zero_iff] at unreported
      rw [evs, if_neg]
      rcases unreported with was | active
      · simp [-Fin.getElem_fin, was]
      · simp [active]
  case silent => exact congrArg Host.Outcome.next (canTxComplete_of_busOff k src s hst)
  case overflow =>
    refine ⟨_, exec_canRxFrame_overflow k f us i e s hon hrem hlen hhit hq hfull, ?_, ?_, ?_, ?_⟩
    · rw [canEvent_onCan_same, onCan_can_same, onCan_can_same]
      rfl
    · rw [canEvent_onCan_same, onCan_can_same, onCan_can_same]
      rfl
    · simp only [canEvent_lnd, onCan_fields]
    · simp only [canEvent_evs, onCan_fields]
  case shown => exact congrArg Host.Outcome.next (if_pos hc)

end Sys2Proof.Machine
end

section
/-! The effect of every command on what it may not change: identity, fuses, FN and the form of the landing memory (R367,
R378, R453), FN outside boundaries and starts (R15, R427), the landing memory and the OTP outside their own commands. -/

namespace Sys2Proof.Machine

/-! ### The effect of a command -/

/-- What a command that leads from `s` to `t` keeps: the life-long facts, and besides them what its own class leaves. -/
structure Effect (c : Instr) (s t : State) : Prop where
  runs : Runs s t
  fn : opensFrames c = false → t.fn = s.fn
  mem : writesLanding c = false → t.lnd.mem = s.lnd.mem
  otp : writesOtp c = false → t.otp = s.otp

theorem effect_of_same {a : Ans} {c : Instr} {s : State} (h : ∃ t, a = .next t ∧ Same s t) : ∃ t, a = .next t ∧ Effect c s t := by
  obtain ⟨t, ht, same⟩ := h
  have kept := keeps_runs (same_keeps same)
  obtain ⟨-, otp, -, fn, mem, -⟩ := same
  exact ⟨t, ht, kept, fun _ => fn, fun _ => mem, fun _ => otp⟩

theorem effect_of_sameF {a : Ans} {c : Instr} {s : State} (h : ∃ t, a = .next t ∧ SameF s t) : ∃ t, a = .next t ∧ Effect c s t := by
  obtain ⟨t, ht, same⟩ := h
  have kept := keeps_runs (sameF_keeps same)
  obtain ⟨-, otp, -, fn, mem⟩ := same
  exact ⟨t, ht, kept, fun _ => fn, fun _ => mem, fun _ => otp⟩

theorem effect_of_sameW {a : Ans} {c : Instr} {s : State} (hc : writesLanding c = true) (h : ∃ t, a = .next t ∧ SameW s t) :
    ∃ t, a = .next t ∧ Effect c s t := by
  obtain ⟨t, ht, same⟩ := h
  have kept := keeps_runs (sameW_keeps same)
  obtain ⟨-, otp, -, fn, -, -⟩ := same
  exact ⟨t, ht, kept, fun _ => fn, fun hn => absurd (hn.symm.trans hc) Bool.false_ne_true, fun _ => otp⟩

/-- A host's write may store into the landing memory and lock the lifecycle. -/
theorem effect_of_write {a : Ans} {c : Instr} {s : State} (hl : writesLanding c = true) (ho : writesOtp c = true)
    (h : ∃ t, a = .next t ∧ Keeps s t) : ∃ t, a = .next t ∧ Effect c s t := by
  obtain ⟨t, ht, kept⟩ := h
  exact ⟨t, ht, keeps_runs kept, fun _ => kept.fn, fun hn => absurd (hn.symm.trans hl) Bool.false_ne_true,
    fun hn => absurd (hn.symm.trans ho) Bool.false_ne_true⟩

theorem effect_of_boundary {s : State} (h : ∃ t, execFrameBoundary s = .next t ∧ SameFW { s with fn := t.fn } t) :
    ∃ t, execFrameBoundary s = .next t ∧ Effect .frameBoundary s t := by
  obtain ⟨t, ht, same⟩ := h
  obtain ⟨queue, serial, order, locked, tc, mem⟩ := keeps_runs (sameFW_keeps same)
  obtain ⟨-, otp, -⟩ := same
  exact ⟨t, ht, ⟨queue, serial, order, locked, tc, mem⟩, nofun, nofun, fun _ => otp⟩

/-! ### The tamper path and the lifecycle lock -/

theorem zeroize_otp_mem (src st : Nat) (s : State) : (zeroize src st s).otp = s.otp ∧ (zeroize src st s).lnd.mem = s.lnd.mem := by
  simp [zeroize, burnFuse]

theorem tamper_otp_mem (src : TamperSrc) (s : State) : (tamper src s).otp = s.otp ∧ (tamper src s).lnd.mem = s.lnd.mem := by
  have hit : ∀ u : State, ((if u.isl.met then zeroize (tamperCode src) 0 u else tamperAsleep (tamperCode src) u).otp = u.otp) ∧
      ((if u.isl.met then zeroize (tamperCode src) 0 u else tamperAsleep (tamperCode src) u).lnd.mem = u.lnd.mem) := by
    intro u
    split
    · exact zeroize_otp_mem _ _ u
    · obtain ⟨-, otp, -, -, mem, -⟩ := tamperAsleep_same (tamperCode src) u
      exact ⟨otp, mem⟩
  obtain ⟨otp, mem⟩ := hit (tamperNote (tamperCode src) s)
  constructor
  · simp [tamper, otp]
  · simp [tamper, mem]

theorem execXtal32kStop_effect (s : State) : ∃ t, execXtal32kStop s = .next t ∧ Effect .xtal32kStop s t := by
  obtain ⟨t, ht, kept⟩ := execXtal32kStop_same s
  have frame : t.otp = s.otp ∧ t.lnd.mem = s.lnd.mem := by
    obtain rfl := Host.Outcome.next.inj ht
    split
    · obtain ⟨otp, mem⟩ := tamper_otp_mem .clock (onHkp (fun h => { h with xtal32 := false, rtcHold := true, xtal32Stops := h.xtal32Stops + 1 }) s)
      exact ⟨otp, mem⟩
    · exact ⟨rfl, rfl⟩
  exact ⟨t, ht, keeps_runs kept, fun _ => kept.fn, fun _ => frame.2, fun _ => frame.1⟩

theorem execTamperDetect_effect (src : TamperSrc) (s : State) :
    ∃ t, execTamperDetect src s = .next t ∧ Effect (.tamperDetect src) s t := by
  obtain ⟨t, ht, kept⟩ := execTamperDetect_same src s
  have frame : t.otp = s.otp ∧ t.lnd.mem = s.lnd.mem := by
    obtain rfl := Host.Outcome.next.inj ht
    split
    · exact tamper_otp_mem src s
    · exact ⟨rfl, rfl⟩
  exact ⟨t, ht, keeps_runs kept, fun _ => kept.fn, fun _ => frame.2, fun _ => frame.1⟩

theorem execHwdLifecycleLock_effect (s : State) : ∃ t, execHwdLifecycleLock s = .next t ∧ Effect .hwdLifecycleLock s t := by
  obtain ⟨t, ht, kept⟩ := execHwdLifecycleLock_same s
  have mem : t.lnd.mem = s.lnd.mem := by
    obtain rfl := Host.Outcome.next.inj ht
    unfold lifecycleLock
    split
    · split <;> rfl
    · rfl
  exact ⟨t, ht, keeps_runs kept, fun _ => kept.fn, fun _ => mem, nofun⟩

/-! ### The starts keep the OTP (R378) -/

theorem pendingBurn_otp (s : State) : (pendingBurn s).otp = s.otp := by
  unfold pendingBurn
  split <;> rfl

theorem rootProvision_otp (ok : Bool) (s : State) : (rootProvision ok s).otp = s.otp := by
  unfold rootProvision
  split <;> rfl

theorem bootStart_otp (cold : Bool) (failA failB : Option Nat) (ms : Nat) (s : State) :
    (bootStart cold failA failB ms s).otp = s.otp := by
  unfold bootStart
  split
  · obtain ⟨-, otp, -⟩ := bootRun_same cold failA failB ms s
    exact otp
  · obtain ⟨-, otp, -⟩ := stopAll_same s
    exact otp

theorem coldStart_otp (x : BootFacts) (s : State) : (coldStart x s).otp = s.otp := by
  obtain ⟨-, fbk, -⟩ := coldFbk_same (resetBase s)
  obtain ⟨-, pipes, -⟩ := pipeAssign_same x.pipesPass (pendingBurn (rootProvision x.burnOk
    (onHkp (fun h => { h with cause := if s.hkp.resetReq.isNone then setBit h.cause 0 else h.cause })
      (onTdm (fun t => { t with strapHigh := x.tdmPref }) (coldFbk (resetBase s))))))
  calc (coldStart x s).otp = _ := bootStart_otp true x.failA x.failB x.bootMs _
    _ = _ := pipes
    _ = _ := pendingBurn_otp _
    _ = _ := rootProvision_otp _ _
    _ = (coldFbk (resetBase s)).otp := rfl
    _ = s.otp := fbk

theorem warmReset_otp (ms : Nat) (s : State) : (warmReset ms s).otp = s.otp :=
  (bootStart_otp false none none ms _).trans (pendingBurn_otp _)

theorem execColdStart_effect (x : BootFacts) (s : State) : ∃ t, execColdStart x s = .next t ∧ Effect (.coldStart x) s t := by
  obtain ⟨t, ht, runs⟩ := execColdStart_same x s
  refine ⟨t, ht, runs, nofun, nofun, fun _ => ?_⟩
  obtain rfl := Host.Outcome.next.inj ht
  split
  · rfl
  · exact coldStart_otp x s

theorem execWarmReset_effect (ms : Nat) (s : State) : ∃ t, execWarmReset ms s = .next t ∧ Effect (.warmReset ms) s t := by
  obtain ⟨t, ht, runs⟩ := execWarmReset_same ms s
  refine ⟨t, ht, runs, nofun, nofun, fun _ => ?_⟩
  obtain rfl := Host.Outcome.next.inj ht
  split
  · rfl
  · exact warmReset_otp ms s

/-! ### Every command -/

theorem exec_effect (c : Instr) (s : State) : ∃ t, exec c s = .next t ∧ Effect c s t := by
  cases c with
  | coldStart facts => exact execColdStart_effect facts s
  | warmReset ms => exact execWarmReset_effect ms s
  | hkpWarmReset key => exact effect_of_same (execHkpWarmReset_same key s)
  | hkpColdReset key => exact effect_of_same (execHkpColdReset_same key s)
  | hkpFnClear key => exact effect_of_same (execHkpFnClear_same key s)
  | coreWatchdog => exact effect_of_same (execCoreWatchdog_same s)
  | hostIslandReset kind => exact effect_of_same (execHostIslandReset_same kind s)
  | hostLinkUp gen2 => exact effect_of_same (execHostLinkUp_same gen2 s)
  | serviceIslandReset => exact effect_of_same (execServiceIslandReset_same s)
  | pllLockLoss pll => exact effect_of_same (execPllLockLoss_same pll s)
  | pllLockTimeout pll => exact effect_of_same (execPllLockTimeout_same pll s)
  | xtal25Stop => exact effect_of_same (execXtal25Stop_same s)
  | xtal25Return => exact effect_of_same (execXtal25Return_same s)
  | xtal32kStop => exact execXtal32kStop_effect s
  | vbatLoss => exact effect_of_same (execVbatLoss_same s)
  | powerFailWarning rail => exact effect_of_same (execPowerFailWarning_same rail s)
  | supplyReset => exact effect_of_same (execSupplyReset_same s)
  | frameBoundary => exact effect_of_boundary (execFrameBoundary_same s)
  | thermalFrame => exact effect_of_same (execThermalFrame_same s)
  | pipelineSelfTestFail r p => exact effect_of_same (execPipelineSelfTestFail_same r p s)
  | sampleStart c => exact effect_of_same (execSampleStart_same c s)
  | staleHold ch => exact effect_of_same (execStaleHold_same ch s)
  | uplinkReceive ch bytes => exact effect_of_same (execUplinkReceive_same ch bytes s)
  | routeFeedbackTimeout ch => exact effect_of_same (execRouteFeedbackTimeout_same ch s)
  | rampDownTimeout ch => exact effect_of_same (execRampDownTimeout_same ch s)
  | trackingTimeout ch => exact effect_of_same (execTrackingTimeout_same ch s)
  | dwellExpiry ch => exact effect_of_same (execDwellExpiry_same ch s)
  | routeMismatch ch => exact effect_of_same (execRouteMismatch_same ch s)
  | shortCurrentLimit ch => exact effect_of_same (execShortCurrentLimit_same ch s)
  | shortWindowExpiry ch => exact effect_of_same (execShortWindowExpiry_same ch s)
  | vselChange code => exact effect_of_same (execVselChange_same code s)
  | glimSample raw => exact effect_of_same (execGlimSample_same raw s)
  | glimSignalLoss => exact effect_of_same (execGlimSignalLoss_same s)
  | glimSignalRestore => exact effect_of_same (execGlimSignalRestore_same s)
  | xfmrStaleTimeout => exact effect_of_same (execXfmrStaleTimeout_same s)
  | routeFaultClear ch => exact effect_of_same (execRouteFaultClear_same ch s)
  | chpPortOff ch b => exact effect_of_same (execChpPortOff_same ch b s)
  | chpTest ch b => exact effect_of_same (execChpTest_same ch b s)
  | chpBusClear => exact effect_of_same (execChpBusClear_same s)
  | pilotStateAccept o high low wave pp => exact effect_of_same (execPilotStateAccept_same o high low wave pp s)
  | pilotFault o set => exact effect_of_same (execPilotFault_same o set s)
  | diodeFault o set => exact effect_of_same (execDiodeFault_same o set s)
  | assocTimeout o => exact effect_of_same (execAssocTimeout_same o s)
  | authTimeout o => exact effect_of_same (execAuthTimeout_same o s)
  | cableCheckPassed o => exact effect_of_same (execCableCheckPassed_same o s)
  | ccTimeout o => exact effect_of_same (execCcTimeout_same o s)
  | pcTimeout o => exact effect_of_same (execPcTimeout_same o s)
  | contactorTimeout o => exact effect_of_same (execContactorTimeout_same o s)
  | weldWindowExpiry o => exact effect_of_same (execWeldWindowExpiry_same o s)
  | dischargeTimeout o => exact effect_of_same (execDischargeTimeout_same o s)
  | holdRestart o => exact effect_of_same (execHoldRestart_same o s)
  | thermalLatchClear o => exact effect_of_same (execThermalLatchClear_same o s)
  | osqEnable o => exact effect_of_same (execOsqEnable_same o s)
  | osqDisable o => exact effect_of_same (execOsqDisable_same o s)
  | osqAuthorize o => exact effect_of_same (execOsqAuthorize_same o s)
  | osqDeny o => exact effect_of_same (execOsqDeny_same o s)
  | osqStop o => exact effect_of_same (execOsqStop_same o s)
  | osqFaultClear o => exact effect_of_same (execOsqFaultClear_same o s)
  | osqWeldClear o => exact effect_of_same (execOsqWeldClear_same o s)
  | osqRetryGrant o => exact effect_of_same (execOsqRetryGrant_same o s)
  | auxCommandLoss => exact effect_of_same (execAuxCommandLoss_same s)
  | auxHoldExpiry => exact effect_of_same (execAuxHoldExpiry_same s)
  | t1sLinkUp o => exact effect_of_same (execT1sLinkUp_same o s)
  | t1sLinkDown o => exact effect_of_same (execT1sLinkDown_same o s)
  | avlnLost o => exact effect_of_same (execAvlnLost_same o s)
  | slacParmReq mac runId heard => exact effect_of_same (execSlacParmReq_same mac runId heard s)
  | slacStartAtten mac runId announced => exact effect_of_same (execSlacStartAtten_same mac runId announced s)
  | slacSound mac runId o groups => exact effect_of_same (execSlacSound_same mac runId o groups s)
  | slacWindowClose mac runId => exact effect_of_same (execSlacWindowClose_same mac runId s)
  | slacMatchReq o mac runId => exact effect_of_same (execSlacMatchReq_same o mac runId s)
  | seccDiscovery o => exact effect_of_same (execSeccDiscovery_same o s)
  | tcpConnect o => exact effect_of_same (execTcpConnect_same o s)
  | tcpRetransmitLimit o => exact effect_of_same (execTcpRetransmitLimit_same o s)
  | tlsHandshake o ok => exact effect_of_same (execTlsHandshake_same o ok s)
  | supportedAppProtocolReq o offers => exact effect_of_same (execSupportedAppProtocolReq_same o offers s)
  | sessionSetupReq o evccid => exact effect_of_same (execSessionSetupReq_same o evccid s)
  | authorizationReq o chain signed => exact effect_of_same (execAuthorizationReq_same o chain signed s)
  | chargeParameterDiscoveryReq o v ready err bpt dyn => exact effect_of_same (execChargeParameterDiscoveryReq_same o v ready err bpt dyn s)
  | cableCheckReq o => exact effect_of_same (execCableCheckReq_same o s)
  | preChargeReq o v => exact effect_of_same (execPreChargeReq_same o v s)
  | powerDeliveryReq o start => exact effect_of_same (execPowerDeliveryReq_same o start s)
  | sessionStopReq o => exact effect_of_same (execSessionStopReq_same o s)
  | v2gRequest o req => exact effect_of_same (execV2gRequest_same o req s)
  | linkDegraded o => exact effect_of_same (execLinkDegraded_same o s)
  | linkLostTimeout o => exact effect_of_same (execLinkLostTimeout_same o s)
  | vlkLinkReset o => exact effect_of_same (execVlkLinkReset_same o s)
  | residualFault o => exact effect_of_same (execResidualFault_same o s)
  | cclResidualClear o => exact effect_of_same (execCclResidualClear_same o s)
  | cclManual o on pump fan => exact effect_of_same (execCclManual_same o on pump fan s)
  | coolingFrameTx => exact effect_of_same (execCoolingFrameTx_same s)
  | meterSubsample codes => exact effect_of_sameW rfl (execMeterSubsample_same codes s)
  | cycleEnd ones ovr siteOvr endUs => exact effect_of_sameW rfl (execCycleEnd_same ones ovr siteOvr endUs s)
  | freqHold => exact effect_of_same (execFreqHold_same s)
  | pulseStart k => exact effect_of_same (execPulseStart_same k s)
  | pulseEnd k => exact effect_of_same (execPulseEnd_same k s)
  | bypassWindowCheck => exact effect_of_same (execBypassWindowCheck_same s)
  | witnessSend => exact effect_of_same (execWitnessSend_same s)
  | witnessLost => exact effect_of_same (execWitnessLost_same s)
  | metCalWrite c gain val => exact effect_of_same (execMetCalWrite_same c gain val s)
  | metCalCommit => exact effect_of_same (execMetCalCommit_same s)
  | metCaptureEnable en site => exact effect_of_same (execMetCaptureEnable_same en site s)
  | metNeutralClear => exact effect_of_same (execMetNeutralClear_same s)
  | metBypassClear => exact effect_of_same (execMetBypassClear_same s)
  | metTamperClear k => exact effect_of_same (execMetTamperClear_same k s)
  | metWitClear k => exact effect_of_same (execMetWitClear_same k s)
  | demandClose => exact effect_of_same (execDemandClose_same s)
  | tariffSwitch k => exact effect_of_same (execTariffSwitch_same k s)
  | save => exact effect_of_same (execSave_same s)
  | saveWriteDone ok => exact effect_of_same (execSaveWriteDone_same ok s)
  | ticketSigned => exact effect_of_sameW rfl (execTicketSigned_same s)
  | ticketAck ix => exact effect_of_same (execTicketAck_same ix s)
  | ledgerBind => exact effect_of_sameW rfl (execLedgerBind_same s)
  | ledgerUnbind => exact effect_of_sameW rfl (execLedgerUnbind_same s)
  | ledgerLoadCredit => exact effect_of_sameW rfl (execLedgerLoadCredit_same s)
  | ledgerCreditMode => exact effect_of_sameW rfl (execLedgerCreditMode_same s)
  | ledgerRetire => exact effect_of_sameW rfl (execLedgerRetire_same s)
  | ledgerClear => exact effect_of_sameW rfl (execLedgerClear_same s)
  | ledgerRead => exact effect_of_sameW rfl (execLedgerRead_same s)
  | ledgerExport => exact effect_of_sameW rfl (execLedgerExport_same s)
  | ledgerForcedBind => exact effect_of_sameW rfl (execLedgerForcedBind_same s)
  | bilMdReset => exact effect_of_same (execBilMdReset_same s)
  | bilCheckpoint => exact effect_of_sameW rfl (execBilCheckpoint_same s)
  | bilStoreTicket => exact effect_of_same (execBilStoreTicket_same s)
  | bilSelSnapshot val => exact effect_of_same (execBilSelSnapshot_same val s)
  | rtcSet => exact effect_of_same (execRtcSet_same s)
  | rtcCompensate temp => exact effect_of_same (execRtcCompensate_same temp s)
  | amendSubmit => exact effect_of_same (execAmendSubmit_same s)
  | amendValidated => exact effect_of_same (execAmendValidated_same s)
  | amendCancel => exact effect_of_same (execAmendCancel_same s)
  | amendApply => exact effect_of_sameF (execAmendApply_same s)
  | amendPersist => exact effect_of_same (execAmendPersist_same s)
  | smpFlashWriteA => exact effect_of_same (execSmpFlashWriteA_same s)
  | smpFlashWriteB => exact effect_of_same (execSmpFlashWriteB_same s)
  | smpFlashDone ok => exact effect_of_same (execSmpFlashDone_same ok s)
  | clampSelWrite val => exact effect_of_same (execClampSelWrite_same val s)
  | linkTraining => exact effect_of_same (execLinkTraining_same s)
  | markerReceive m => exact effect_of_same (execMarkerReceive_same m s)
  | markerMissing => exact effect_of_same (execMarkerMissing_same s)
  | delayMeasure roundTrip => exact effect_of_same (execDelayMeasure_same roundTrip s)
  | heartbeatSend => exact effect_of_same (execHeartbeatSend_same s)
  | heartbeatReceive h => exact effect_of_same (execHeartbeatReceive_same h s)
  | snapPacket fn snap => exact effect_of_same (execSnapPacket_same fn snap s)
  | insetPacket set => exact effect_of_same (execInsetPacket_same set s)
  | protoPacket fn p => exact effect_of_same (execProtoPacket_same fn p s)
  | witPacket m => exact effect_of_same (execWitPacket_same m s)
  | digestPacket fn crc => exact effect_of_same (execDigestPacket_same fn crc s)
  | bulkPacket b => exact effect_of_sameW rfl (execBulkPacket_same b s)
  | pairPacket p => exact effect_of_same (execPairPacket_same p s)
  | joinWaitExpiry => exact effect_of_same (execJoinWaitExpiry_same s)
  | reseedCatchup => exact effect_of_same (execReseedCatchup_same s)
  | joinComplete => exact effect_of_same (execJoinComplete_same s)
  | joinTimeout => exact effect_of_same (execJoinTimeout_same s)
  | takeover => exact effect_of_same (execTakeover_same s)
  | roleSwap => exact effect_of_same (execRoleSwap_same s)
  | tdmRejoin => exact effect_of_same (execTdmRejoin_same s)
  | tdmYield => exact effect_of_same (execTdmYield_same s)
  | tdmHoldReturn => exact effect_of_same (execTdmHoldReturn_same s)
  | tdmDeclareFault => exact effect_of_same (execTdmDeclareFault_same s)
  | safetyImageLoad => exact effect_of_sameF (execSafetyImageLoad_same s)
  | fbkSelfTest ok => exact effect_of_sameF (execFbkSelfTest_same ok s)
  | fbkEvalCycle => exact effect_of_sameF (execFbkEvalCycle_same s)
  | fbkInputAccept inp level => exact effect_of_sameF (execFbkInputAccept_same inp level s)
  | zoneDiscrepancy z => exact effect_of_sameF (execZoneDiscrepancy_same z s)
  | weldDetect o => exact effect_of_sameF (execWeldDetect_same o s)
  | weldNotify o => exact effect_of_sameF (execWeldNotify_same o s)
  | resetEdgePair ms => exact effect_of_sameF (execResetEdgePair_same ms s)
  | resetJammed => exact effect_of_sameF (execResetJammed_same s)
  | autoStartRun => exact effect_of_sameF (execAutoStartRun_same s)
  | sealRead direct inverted => exact effect_of_sameF (execSealRead_same direct inverted s)
  | imageCrcCheck ok => exact effect_of_sameF (execImageCrcCheck_same ok s)
  | lsPulseTest readback => exact effect_of_sameF (execLsPulseTest_same readback s)
  | fbkChannelDiscrepancy kind => exact effect_of_sameF (execFbkChannelDiscrepancy_same kind s)
  | vauxOutOfWindow back => exact effect_of_sameF (execVauxOutOfWindow_same back s)
  | fbkThermalHold => exact effect_of_sameF (execFbkThermalHold_same s)
  | brakeTestDue b => exact effect_of_sameF (execBrakeTestDue_same b s)
  | brakeTestOverdue b => exact effect_of_sameF (execBrakeTestOverdue_same b s)
  | brakeTestStart b => exact effect_of_sameF (execBrakeTestStart_same b s)
  | brakeTestTorque b => exact effect_of_sameF (execBrakeTestTorque_same b s)
  | brakeTestRelease b => exact effect_of_sameF (execBrakeTestRelease_same b s)
  | brakeTestEvaluate b edges => exact effect_of_sameF (execBrakeTestEvaluate_same b edges s)
  | fbkWeldArm o => exact effect_of_sameF (execFbkWeldArm_same o s)
  | fbkBrkTest b => exact effect_of_sameF (execFbkBrkTest_same b s)
  | fbkBrkRepair b => exact effect_of_sameF (execFbkBrkRepair_same b s)
  | fbkLogSelWrite val => exact effect_of_sameF (execFbkLogSelWrite_same val s)
  | auxCommandFrame => exact effect_of_same (execAuxCommandFrame_same s)
  | auxOn k on => exact effect_of_same (execAuxOn_same k on s)
  | auxClear k => exact effect_of_same (execAuxClear_same k s)
  | auxStaggeredStart k => exact effect_of_same (execAuxStaggeredStart_same k s)
  | auxHoldStart k => exact effect_of_same (execAuxHoldStart_same k s)
  | auxInrushEnd k => exact effect_of_same (execAuxInrushEnd_same k s)
  | auxOvercurrent k => exact effect_of_same (execAuxOvercurrent_same k s)
  | auxThermalTrip k t => exact effect_of_same (execAuxThermalTrip_same k t s)
  | auxThermalLatchClear k t => exact effect_of_same (execAuxThermalLatchClear_same k t s)
  | auxRestart k => exact effect_of_same (execAuxRestart_same k s)
  | auxRetryRestore k => exact effect_of_same (execAuxRetryRestore_same k s)
  | auxPulseEnd k => exact effect_of_same (execAuxPulseEnd_same k s)
  | auxOpenLoad k kind => exact effect_of_same (execAuxOpenLoad_same k kind s)
  | auxSenseConvert milliAmps => exact effect_of_same (execAuxSenseConvert_same milliAmps s)
  | auxBudgetShed => exact effect_of_same (execAuxBudgetShed_same s)
  | canRxFrame k f us => exact effect_of_sameW rfl (execCanRxFrame_same k f us s)
  | canTxSubmit k count => exact effect_of_same (execCanTxSubmit_same k count s)
  | canTxComplete k src => exact effect_of_same (execCanTxComplete_same k src s)
  | canBusOff k => exact effect_of_same (execCanBusOff_same k s)
  | canAutoRecovery k => exact effect_of_same (execCanAutoRecovery_same k s)
  | canRecover k => exact effect_of_same (execCanRecover_same k s)
  | canHpSelWrite k val => exact effect_of_same (execCanHpSelWrite_same k val s)
  | tamperDetect src => exact execTamperDetect_effect src s
  | trngHealthFail => exact effect_of_same (execTrngHealthFail_same s)
  | trngRecover => exact effect_of_same (execTrngRecover_same s)
  | bbkMaskRenew => exact effect_of_same (execBbkMaskRenew_same s)
  | hwdGenerate arg => exact effect_of_same (execHwdGenerate_same arg s)
  | hwdImport arg => exact effect_of_same (execHwdImport_same arg s)
  | hwdPublic arg => exact effect_of_same (execHwdPublic_same arg s)
  | hwdDelete arg => exact effect_of_same (execHwdDelete_same arg s)
  | hwdReseal arg => exact effect_of_same (execHwdReseal_same arg s)
  | hwdResealCommit arg => exact effect_of_same (execHwdResealCommit_same arg s)
  | hwdAttest arg => exact effect_of_same (execHwdAttest_same arg s)
  | hwdBbkGenerate arg => exact effect_of_same (execHwdBbkGenerate_same arg s)
  | hwdEnrollSmp arg => exact effect_of_same (execHwdEnrollSmp_same arg s)
  | hwdCommandDone => exact effect_of_sameW rfl (execHwdCommandDone_same s)
  | hwdTamperLock => exact effect_of_same (execHwdTamperLock_same s)
  | hwdLifecycleLock => exact execHwdLifecycleLock_effect s
  | tamperCauseRead => exact effect_of_same (execTamperCauseRead_same s)
  | hwdLogSelWrite val => exact effect_of_same (execHwdLogSelWrite_same val s)
  | svcArp ip => exact effect_of_same (execSvcArp_same ip s)
  | svcIcmpEcho ip payload => exact effect_of_same (execSvcIcmpEcho_same ip payload s)
  | fwuOpen sess manLen blocks => exact effect_of_same (execFwuOpen_same sess manLen blocks s)
  | fwuManifest sess image => exact effect_of_same (execFwuManifest_same sess image s)
  | fwuBlock sess n q crc data => exact effect_of_sameW rfl (execFwuBlock_same sess n q crc data s)
  | fwuQuery sess => exact effect_of_same (execFwuQuery_same sess s)
  | fwuClose sess => exact effect_of_same (execFwuClose_same sess s)
  | fwuVoteReceive v => exact effect_of_same (execFwuVoteReceive_same v s)
  | fwuSessionTimeout => exact effect_of_same (execFwuSessionTimeout_same s)
  | fwuWrite => exact effect_of_same (execFwuWrite_same s)
  | fwuWriteDone r => exact effect_of_same (execFwuWriteDone_same r s)
  | fwuDiscard => exact effect_of_same (execFwuDiscard_same s)
  | fwuSchedule => exact effect_of_same (execFwuSchedule_same s)
  | fwuCancel => exact effect_of_same (execFwuCancel_same s)
  | fwuRevertCmd => exact effect_of_same (execFwuRevertCmd_same s)
  | fwuOwnerLock set => exact effect_of_same (execFwuOwnerLock_same set s)
  | fwuOpkeyWrite => exact effect_of_same (execFwuOpkeyWrite_same s)
  | fwuVote => exact effect_of_same (execFwuVote_same s)
  | fwuDecision => exact effect_of_same (execFwuDecision_same s)
  | fwuActivate => exact effect_of_same (execFwuActivate_same s)
  | fwuReadyReport ready reason => exact effect_of_same (execFwuReadyReport_same ready reason s)
  | fwuAutoRevert => exact effect_of_same (execFwuAutoRevert_same s)
  | fwuResume => exact effect_of_sameW rfl (execFwuResume_same s)
  | fwuCommit => exact effect_of_same (execFwuCommit_same s)
  | scrubStep => exact effect_of_same (execScrubStep_same s)
  | lndSnapNow => exact effect_of_same (execLndSnapNow_same s)
  | lndScrubNow => exact effect_of_same (execLndScrubNow_same s)
  | bar2Write off bytes => exact effect_of_sameW rfl (execBar2Write_same off bytes s)
  | hkAdcSlot slot code => exact effect_of_same (execHkAdcSlot_same slot code s)
  | hkInAlarm k => exact effect_of_same (execHkInAlarm_same k s)
  | thermalLevelChange lvl => exact effect_of_same (execThermalLevelChange_same lvl s)
  | thermalShutdown sensor => exact effect_of_sameF (execThermalShutdown_same sensor s)
  | thermalRelease => exact effect_of_sameF (execThermalRelease_same s)
  | tallyRingWrite => exact effect_of_sameW rfl (execTallyRingWrite_same s)
  | tlyClear => exact effect_of_same (execTlyClear_same s)
  | tlyCntLoRead k => exact effect_of_same (execTlyCntLoRead_same k s)
  | resetCauseRead => exact effect_of_same (execResetCauseRead_same s)
  | vectorAck val => exact effect_of_same (execVectorAck_same val s)
  | qspiDisable => exact effect_of_same (execQspiDisable_same s)
  | qspiRead bar off len ready => exact effect_of_same (execQspiRead_same bar off len ready s)
  | qspiWrite bar off data => exact effect_of_write rfl rfl (execQspiWrite_same bar off data s)
  | qspiStatus => exact effect_of_same (execQspiStatus_same s)
  | registerWrite off val lanes => exact effect_of_write rfl rfl (execRegisterWrite_same off val lanes s)
  | tandemLinkDown => exact effect_of_same (execTandemLinkDown_same s)
  | tcpConnectionClosed o => exact effect_of_same (execTcpConnectionClosed_same o s)
  | debugSessionOpen => exact effect_of_same (execDebugSessionOpen_same s)
  | debugSessionClose => exact effect_of_same (execDebugSessionClose_same s)
  | canBusError k kind tec rec => exact effect_of_same (execCanBusError_same k kind tec rec s)
  | hostRead bar off len be => exact effect_of_same (execHostRead_same bar off len be s)
  | msixMaskClear vec => exact effect_of_same (execMsixMaskClear_same vec s)
theorem effect_of_exec {c : Instr} {s t : State} (ht : exec c s = .next t) : Effect c s t := by
  obtain ⟨u, hu, effect⟩ := exec_effect c s
  obtain rfl : u = t := Host.Outcome.next.inj (hu.symm.trans ht)
  exact effect

/-- A relation that every command keeps on a state without its front command is kept by a step. -/
theorem step_rel {R : State → State → Prop} (hr : ∀ s, R s s)
    (hc : ∀ (c : Instr) (rest : List Instr) (s t : State), exec c { s with pending := rest } = .next t → R s t)
    {s t : State} (ht : step s = .next t) : R s t := by
  unfold step at ht
  split at ht
  · exact Host.Outcome.next.inj ht ▸ hr s
  · exact hc _ _ s t ht

/-- Settles O3: every command runs within the life-long facts, and the queue is none of them. -/
theorem stepKeepsIdentityFusesAndMemory : Obligations.StepKeepsIdentityFusesAndMemory := by
  unfold Obligations.StepKeepsIdentityFusesAndMemory
  intro s t ht
  refine step_rel (R := fun s t => t.otp.serial = s.otp.serial ∧ t.otp.orderK = s.otp.orderK ∧
    (s.otp.locked = true → t.otp.locked = true) ∧ s.hwd.tc ≤ t.hwd.tc ∧
    (Memory.wf s.lnd.mem = true → Memory.wf t.lnd.mem = true)) ?_ ?_ ht
  · exact fun s => ⟨rfl, rfl, id, Nat.le_refl _, id⟩
  · intro c rest s t ht
    obtain ⟨-, serial, order, locked, tc, mem⟩ := (effect_of_exec ht).runs
    exact ⟨serial, order, locked, tc, mem⟩

/-- Settles O1: a step takes the front command; an empty queue idles. -/
theorem stepRunsTheFrontCommand : Obligations.StepRunsTheFrontCommand := by
  unfold Obligations.StepRunsTheFrontCommand
  refine ⟨fun c rest s => rfl, fun s hs => ?_⟩
  unfold step
  rw [hs]

/-- Settles O2: every command has an effect, and its runs leave the queue alone. -/
theorem everyCommandAnswersAndKeepsTheQueue : Obligations.EveryCommandAnswersAndKeepsTheQueue := by
  unfold Obligations.EveryCommandAnswersAndKeepsTheQueue
  intro c s
  obtain ⟨t, ht, effect⟩ := exec_effect c s
  exact ⟨t, ht, effect.runs.queue⟩

/-- Settles O5: a command that opens no frame leaves FN. -/
theorem onlyBoundariesAndStartsMoveFn : Obligations.OnlyBoundariesAndStartsMoveFn := by
  unfold Obligations.OnlyBoundariesAndStartsMoveFn
  exact fun c s t hc ht => (effect_of_exec ht).fn hc

/-- Settles O6, by the law of each row outside `touchesFirebreak`. -/
theorem otherCommandsLeaveTheFirebreak : Obligations.OtherCommandsLeaveTheFirebreak := by
  unfold Obligations.OtherCommandsLeaveTheFirebreak
  exact exec_fbk_of_not_touchesFirebreak

/-- Settles O7: the landing memory itself stands, so every byte of it reads as before. -/
theorem otherCommandsLeaveTheLandingMemory : Obligations.OtherCommandsLeaveTheLandingMemory := by
  unfold Obligations.OtherCommandsLeaveTheLandingMemory
  intro c s t hc ht a
  rw [(effect_of_exec ht).mem hc]

/-- Settles O8: only the lifecycle lock, by its row or a register write, writes the OTP. -/
theorem onlyTheLifecycleLockWritesTheOtp : Obligations.OnlyTheLifecycleLockWritesTheOtp := by
  unfold Obligations.OnlyTheLifecycleLockWritesTheOtp
  exact fun c s t hc ht => (effect_of_exec ht).otp hc

end Sys2Proof.Machine
end

section
/-! The safe outputs of the firebreak (R306, R307, R321): a row of the firebreak ends in an evaluation, which forms them
anew, and every other command keeps them. -/

namespace Sys2Proof.Machine

/-! ### The rows that end in an evaluation of their own -/

theorem whenOn_eval_guards {on : Bool} {f : State → State} {s t : State}
    (ht : whenOn on s (fun s => fbkEval false (f s)) = .next t) : Guards s t := by
  obtain rfl := Host.Outcome.next.inj ht
  exact guards_ite _ (fun _ => fbkEval_safe _ _) (guards_refl s)

theorem thermalShutdown_guards (k : Fin 10) (s t : State) (ht : execThermalShutdown k s = .next t) : Guards s t := by
  obtain rfl := Host.Outcome.next.inj ht
  exact guards_ite _ (guards_refl s) fun _ => same_guards (stopAll_same _) (fbkEval_safe _ _)

theorem thermalRelease_guards (s t : State) (ht : execThermalRelease s = .next t) : Guards s t := by
  obtain rfl := Host.Outcome.next.inj ht
  exact guards_ite _ (fun _ => same_guards (askReset_same _ _ _) (fbkEval_safe _ _)) (guards_refl s)

theorem amendApply_guards (s t : State) (ht : execAmendApply s = .next t) : Guards s t := by
  obtain rfl := Host.Outcome.next.inj ht
  exact guards_ite _ (applyDue_guards s) (guards_refl s)

/-! ### The writes of a host -/

theorem execRegisterWrite_guards (off : BitVec 21) (v : Word) (lanes : Lanes) (s t : State)
    (ht : execRegisterWrite off v lanes s = .next t) : Guards s t := by
  obtain rfl := Host.Outcome.next.inj ht
  refine guards_ite _ (guards_trans (same_guards (intEval_same s)) (guards_trans ?_ (same_guards (intEval_same _)))) (guards_refl s)
  split
  · exact same_guards (accessError_same _ _ _)
  · exact bar0Write_guards _ v _ _

theorem execQspiWrite_guards (bar : Bar) (off : BitVec 26) (data : QspiData) (s t : State)
    (ht : execQspiWrite bar off data s = .next t) : Guards s t := by
  obtain rfl := Host.Outcome.next.inj ht
  refine guards_ite _ (guards_trans (same_guards (intEval_same s)) (guards_trans ?_ (same_guards (intEval_same _)))) (guards_refl s)
  split
  · exact guards_trans (same_guards (qspiCount_same _))
      (guards_trans (qspiPut_guards bar _ _ _) (same_guards (onHst_same _ _)))
  · exact same_guards (qspiCut_same _)

/-! ### Frames and starts -/

theorem execFrameBoundary_guards (s t : State) (ht : execFrameBoundary s = .next t) : Guards s t := by
  obtain rfl := Host.Outcome.next.inj ht
  exact guards_ite _ (boundary_guards s) (guards_refl s)

theorem pendingBurn_guards (s : State) : Guards s (pendingBurn s) := guards_of_eq (pendingBurn_fbk s)

theorem coldStart_guards (x : BootFacts) (s : State) : Guards s (coldStart x s) := by
  have reset : Guards s (coldFbk (resetBase s)) := guards_trans (guards_of_eq rfl) (coldFbk_guards (resetBase s))
  have root (u : State) : Guards u (rootProvision x.burnOk u) := guards_of_eq (rootProvision_fbk x.burnOk u)
  unfold coldStart
  dsimp only
  refine guards_trans ?_ (bootStart_guards true x.failA x.failB x.bootMs _)
  refine guards_trans ?_ (same_guards (pipeAssign_same x.pipesPass _))
  refine guards_trans (guards_trans ?_ (root _)) (pendingBurn_guards _)
  refine guards_trans ?_ (same_guards (onHkp_same _ _))
  exact guards_trans reset (same_guards (onTdm_same _ _))

theorem execColdStart_guards (x : BootFacts) (s t : State) (ht : execColdStart x s = .next t) : Guards s t := by
  obtain rfl := Host.Outcome.next.inj ht
  exact guards_ite _ (guards_refl s) (coldStart_guards x s)

theorem warmReset_guards (ms : Nat) (s : State) : Guards s (warmReset ms s) := by
  have kept : Guards s (warmBase s) := guards_of_eq rfl
  exact guards_trans kept (guards_trans (pendingBurn_guards _) (bootStart_guards false none none ms _))

theorem execWarmReset_guards (ms : Nat) (s t : State) (ht : execWarmReset ms s = .next t) : Guards s t := by
  obtain rfl := Host.Outcome.next.inj ht
  exact guards_ite _ (guards_refl s) (warmReset_guards ms s)

/-! ### Every command -/

theorem exec_firebreakRow_safe {c : Instr} {s t : State} (hc : firebreakRow c = true) (ht : exec c s = .next t) : SafeOut t := by
  obtain ⟨adv, u, hu⟩ := exec_firebreakRow c s hc
  obtain rfl := Host.Outcome.next.inj (hu.symm.trans ht)
  exact fbkEval_safe adv u

theorem exec_guards (c : Instr) (s t : State) (ht : exec c s = .next t) : Guards s t := by
  cases hc : touchesFirebreak c with
  | false => exact guards_of_eq (exec_fbk_of_not_touchesFirebreak c s t hc ht)
  | true =>
    cases hr : firebreakRow c with
    | true => exact fun _ => exec_firebreakRow_safe hr ht
    | false =>
      have other : (touchesFirebreak c && !firebreakRow c) = true := by rw [hc, hr]; rfl
      cases c with
      | frameBoundary => exact execFrameBoundary_guards s t ht
      | coldStart x => exact execColdStart_guards x s t ht
      | warmReset ms => exact execWarmReset_guards ms s t ht
      | registerWrite off v lanes => exact execRegisterWrite_guards off v lanes s t ht
      | qspiWrite bar off data => exact execQspiWrite_guards bar off data s t ht
      | amendApply => exact amendApply_guards s t ht
      | fbkWeldArm o => exact whenOn_eval_guards ht
      | fbkBrkTest b => exact whenOn_eval_guards ht
      | fbkBrkRepair b => exact whenOn_eval_guards ht
      | fbkLogSelWrite v => exact Host.Outcome.next.inj ht ▸ fbkLogSel_guards v s
      | thermalShutdown k => exact thermalShutdown_guards k s t ht
      | thermalRelease => exact thermalRelease_guards s t ht
      | _ => exact nomatch other

/-- Settles O4: the outputs are safe after every command that found them safe, and the queue is no part of them. -/
theorem stepKeepsTheSafeOutputs : Obligations.StepKeepsTheSafeOutputs := by
  unfold Obligations.StepKeepsTheSafeOutputs
  exact fun s t safe ht => step_rel (R := Guards) guards_refl (fun c rest s t ht => exec_guards c { s with pending := rest } t ht) ht safe

end Sys2Proof.Machine
end

section
/-! The states of the firebreak (R303 to R308, R327): each row as the change that it makes before its evaluation, which keeps
the state, the supply, the image and the seal. -/

namespace Sys2Proof.Machine

/-! ### What an evaluation keeps -/

/-- A field of the firebreak that no evaluation touches, read after one. -/
theorem EvalFrame.fbk_eq {s t : State} (h : EvalFrame s t) : t.fbk = { s.fbk with
    t := t.fbk.t, old := t.fbk.old, zone := t.fbk.zone, otcL := t.fbk.otcL, imdL := t.fbk.imdL, weldL := t.fbk.weldL,
    weldArm := t.fbk.weldArm, weldRun := t.fbk.weldRun, openRun := t.fbk.openRun, brk := t.fbk.brk, ls := t.fbk.ls,
    stop := t.fbk.stop, trips := t.fbk.trips, log := t.fbk.log, logNext := t.fbk.logNext, logSeq := t.fbk.logSeq,
    intStatus := t.fbk.intStatus } := h.fbk.same

theorem EvalFrame.st {s t : State} (h : EvalFrame s t) : t.fbk.st = s.fbk.st := (congrArg Fbk.st h.fbk_eq :)
theorem EvalFrame.cause {s t : State} (h : EvalFrame s t) : t.fbk.cause = s.fbk.cause := (congrArg Fbk.cause h.fbk_eq :)
theorem EvalFrame.vaux {s t : State} (h : EvalFrame s t) : t.fbk.vaux = s.fbk.vaux := (congrArg Fbk.vaux h.fbk_eq :)
theorem EvalFrame.thermal {s t : State} (h : EvalFrame s t) : t.fbk.thermal = s.fbk.thermal := (congrArg Fbk.thermal h.fbk_eq :)
theorem EvalFrame.acc {s t : State} (h : EvalFrame s t) : t.fbk.acc = s.fbk.acc := (congrArg Fbk.acc h.fbk_eq :)
theorem EvalFrame.sealValid {s t : State} (h : EvalFrame s t) : t.fbk.sealValid = s.fbk.sealValid :=
  (congrArg Fbk.sealValid h.fbk_eq :)
theorem EvalFrame.img {s t : State} (h : EvalFrame s t) : t.fbk.img = s.fbk.img := (congrArg Fbk.img h.fbk_eq :)
theorem EvalFrame.imgOk {s t : State} (h : EvalFrame s t) : t.fbk.imgOk = s.fbk.imgOk := (congrArg Fbk.imgOk h.fbk_eq :)
theorem EvalFrame.selfPass {s t : State} (h : EvalFrame s t) : t.fbk.selfPass = s.fbk.selfPass := (congrArg Fbk.selfPass h.fbk_eq :)
theorem EvalFrame.cyclicOk {s t : State} (h : EvalFrame s t) : t.fbk.cyclicOk = s.fbk.cyclicOk := (congrArg Fbk.cyclicOk h.fbk_eq :)
theorem EvalFrame.lastFail {s t : State} (h : EvalFrame s t) : t.fbk.lastFail = s.fbk.lastFail := (congrArg Fbk.lastFail h.fbk_eq :)

/-! ### The changes of state (R307) -/

theorem toHeld_evalFrame (g : Fbk → Fbk) (s : State) (h : s.fbk.st = .run) :
    EvalFrame (onFbk (fun x => { g x with st := .held, fromStart := false }) s) (toHeld g s) := by
  unfold toHeld
  rw [if_pos h]
  exact fbkEvent_evalFrame _ _ _

theorem toFault_evalFrame (c : Nat) (s : State) (h : s.fbk.st ≠ .fault) :
    EvalFrame (onFbk (fun f => { f with st := .fault, cause := c }) s) (toFault c s) := by
  unfold toFault
  rw [if_neg h]
  exact evalFrame_trans (fbkEvent_evalFrame _ _ _) (fbkEvent_evalFrame _ _ _)

theorem tryHeld_evalFrame (s : State) (hst : s.fbk.st = .start) (hv : s.fbk.vaux = true) (hp : s.fbk.selfPass = true)
    (hs : s.fbk.sealValid = true) (hi : s.fbk.img.isSome = true) :
    EvalFrame (onFbk (fun f => { f with st := .held, fromStart := true }) s) (tryHeld s) := by
  unfold tryHeld
  dsimp only
  rw [if_pos (by simp [hst, hv, hp, hs, hi])]
  exact fbkEvent_evalFrame _ _ _

theorem tryHeld_of_ne_start (s : State) (h : s.fbk.st ≠ .start) : tryHeld s = s := by
  unfold tryHeld
  exact if_neg (by simp [h])

/-- The change that leaving HELD for RUN makes (R307, R328). -/
def accepted (s : State) : State :=
  { onFbk (fun f => { f with
      st := .run, acc := f.sealRead, fromStart := false, sealFault := false, sealChanged := false, sealEq := 0, thermal := false }) s with
    smp := { s.smp with resealPending := true } }

theorem toRun_evalFrame (s : State) : EvalFrame (accepted s) (toRun s) := by
  unfold toRun
  dsimp only
  exact evalFrame_trans (evalFrame_ite _ (fbkEvent_evalFrame _ _ (accepted s)) (evalFrame_refl _)) (fbkEvent_evalFrame _ _ _)

/-! ### The rows of the states -/

/-- A row whose change is framed by `v` before the evaluation is framed by it after. -/
theorem fbkDo_evalFrame_trans {f : State → State} {s v : State} (u : State) (h : f s = u) (hu : EvalFrame v u) :
    ∃ t, fbkDo f s = .next t ∧ EvalFrame v t := by
  obtain ⟨t, ht, frame⟩ := fbkDo_evalFrame h
  exact ⟨t, ht, evalFrame_trans hu frame⟩

theorem exec_fbkSelfTest_pass (s : State) (hst : s.fbk.st = .start) (hv : s.fbk.vaux = true) (hs : s.fbk.sealValid = true)
    (hi : s.fbk.img.isSome = true) : ∃ t, exec (.fbkSelfTest true) s = .next t ∧
      EvalFrame (onFbk (fun f => { f with st := .held, fromStart := true })
        (onFbk (fun f => { f with selfPass := true, cyclicOk := true }) s)) t :=
  fbkDo_evalFrame_trans _ ((if_neg (not_not.mpr hst)).trans (if_pos rfl))
    (tryHeld_evalFrame (onFbk (fun f => { f with selfPass := true, cyclicOk := true }) s) hst hv rfl hs hi)

theorem exec_fbkSelfTest_fail (s : State) (hst : s.fbk.st = .start) : ∃ t, exec (.fbkSelfTest false) s = .next t ∧
    EvalFrame (onFbk (fun f => { f with st := .fault, cause := 1 }) (onFbk (fun f => { f with lastFail := 1 }) s)) t :=
  fbkDo_evalFrame_trans _ ((if_neg (not_not.mpr hst)).trans (if_neg Bool.false_ne_true))
    (toFault_evalFrame 1 (onFbk (fun f => { f with lastFail := 1 }) s) fun h => nomatch hst.symm.trans h)

theorem exec_imageCrcCheck_bad (s : State) (hst : s.fbk.st = .run) : ∃ t, exec (.imageCrcCheck false) s = .next t ∧
    EvalFrame (onFbk (fun f => { f with st := .held, fromStart := false }) (onFbk (fun f => { f with imgOk := false }) s)) t :=
  fbkDo_evalFrame_trans _ (if_neg Bool.false_ne_true) (toHeld_evalFrame id (onFbk (fun f => { f with imgOk := false }) s) hst)

theorem exec_lsPulseTest_good (r : BitVec 40) (s : State) (hst : s.fbk.st = .run) (hr : s.fbk.ls &&& ~~~r = 0) :
    ∃ t, exec (.lsPulseTest r) s = .next t ∧ EvalFrame (onFbk (fun f => { f with offTests := f.offTests + 1 }) s) t :=
  fbkDo_evalFrame ((if_neg (not_not.mpr hst)).trans (if_pos hr))

theorem exec_lsPulseTest_bad (r : BitVec 40) (s : State) (hst : s.fbk.st = .run) (hr : s.fbk.ls &&& ~~~r ≠ 0) :
    ∃ t, exec (.lsPulseTest r) s = .next t ∧ EvalFrame (onFbk (fun f => { f with st := .fault, cause := 5 })
      (onFbk (fun f => { f with cyclicOk := false, lastFail := 5 }) (onFbk (fun f => { f with offTests := f.offTests + 1 }) s))) t :=
  fbkDo_evalFrame_trans _ ((if_neg (not_not.mpr hst)).trans (if_neg hr))
    (toFault_evalFrame 5 (onFbk (fun f => { f with cyclicOk := false, lastFail := 5 })
      (onFbk (fun f => { f with offTests := f.offTests + 1 }) s)) fun h => nomatch hst.symm.trans h)

theorem exec_fbkChannelDiscrepancy (k : FbkFaultKind) (s : State) (hst : s.fbk.st ≠ .fault) :
    ∃ t, exec (.fbkChannelDiscrepancy k) s = .next t ∧ t.fbk.st = .fault ∧ t.fbk.cyclicOk = false ∧
      t.fbk.cause = (match k with | .discrepancy => 2 | .readback => 5 | .clockMonitor => 4) := by
  have fault (c : Nat) : ∃ t, fbkDo (fun s => toFault c (onFbk (fun f => { f with cyclicOk := false, lastFail := c }) s)) s = .next t ∧
      t.fbk.st = .fault ∧ t.fbk.cyclicOk = false ∧ t.fbk.cause = c := by
    have frame := evalFrame_trans (toFault_evalFrame c (onFbk (fun f => { f with cyclicOk := false, lastFail := c }) s) hst)
      (fbkEval_evalFrame false _)
    exact ⟨_, rfl, frame.st, frame.cyclicOk, frame.cause⟩
  cases k <;> exact fault _

theorem exec_vauxOut (s : State) : ∃ t, exec (.vauxOutOfWindow false) s = .next t ∧ SafeOut t ∧
    t.fbk.st = .start ∧ t.fbk.vaux = false ∧ t.fbk.cause = 3 := by
  have off := same_fbk (allHsOff_same (onFbk (fun f => { f with vaux := false, cause := 3, st := .start }) s))
  have frame := fbkEval_evalFrame false (allHsOff (onFbk (fun f => { f with vaux := false, cause := 3, st := .start }) s))
  have row : exec (.vauxOutOfWindow false) s =
    .next (fbkEval false (allHsOff (onFbk (fun f => { f with vaux := false, cause := 3, st := .start }) s))) := rfl
  exact ⟨_, row, fbkEval_safe _ _, frame.st.trans (congrArg Fbk.st off), frame.vaux.trans (congrArg Fbk.vaux off),
    frame.cause.trans (congrArg Fbk.cause off)⟩

theorem exec_fbkThermalHold (s : State) (hst : s.fbk.st = .run) : ∃ t, exec .fbkThermalHold s = .next t ∧
    EvalFrame (onFbk (fun f => { f with thermal := true, st := .held, fromStart := false }) s) t :=
  fbkDo_evalFrame_trans _ rfl (toHeld_evalFrame (fun f => { f with thermal := true }) s hst)

theorem exec_autoStartRun (s : State) (hst : s.fbk.st = .held) (hf : s.fbk.fromStart = true)
    (hm : (fbkSafety s.fbk).startMode = true) (hg : heldGuard s.fbk = true) :
    ∃ t, exec .autoStartRun s = .next t ∧ EvalFrame (toRun s) t :=
  fbkDo_evalFrame (if_pos (by simp [hst, hf, hm, hg]))

theorem autoRun_of_ne_held (s : State) (h : s.fbk.st ≠ .held) : autoRun s = s := by
  unfold autoRun
  exact if_neg (by simp [h])

theorem exec_fbkEvalCycle_of_ne_held (s : State) (h : s.fbk.st ≠ .held) : ∃ t, exec .fbkEvalCycle s = .next t ∧ EvalFrame s t := by
  refine ⟨_, rfl, ?_⟩
  rw [autoRun_of_ne_held s h, ite_self]
  exact fbkEval_evalFrame true s

theorem imgLoad_of_ne_start (s : State) (h : s.fbk.st ≠ .start) : ∃ old : Fbk → Vector (List FbkOut) 32,
    imgLoad s = onFbk (fun f => { f with img := some (buildImg s), imgOk := true, old := old f }) s :=
  ⟨_, tryHeld_of_ne_start (onFbk _ s) h⟩

/-- Settles O16: each row by the change it makes before its evaluation. -/
theorem firebreakStates : Obligations.FirebreakStates := by
  unfold Obligations.FirebreakStates
  refine ⟨fun s hst hv hs hi => ?passed, fun s hst => ?failed, fun s => ?crcGood, fun s hst => ?crcBad, fun r s hst hr => ?pulseGood,
    fun r s hst hr => ?pulseBad, fun k s hst => exec_fbkChannelDiscrepancy k s hst, fun s => ?vauxOut, fun s hv => ?vauxBack,
    fun s hst => ?thermal, fun s hst hf hm hg => ?auto, fun s hst => ?cycle, fun s hst => ?image⟩
  case passed =>
    obtain ⟨t, ht, frame⟩ := exec_fbkSelfTest_pass s hst hv hs hi
    exact ⟨t, ht, frame.st, (congrArg Fbk.fromStart frame.fbk_eq :), frame.selfPass, frame.cyclicOk⟩
  case failed =>
    obtain ⟨t, ht, frame⟩ := exec_fbkSelfTest_fail s hst
    exact ⟨t, ht, frame.st, frame.cause, frame.lastFail⟩
  case crcGood =>
    obtain ⟨t, ht, frame⟩ := fbkDo_evalFrame (f := onFbk fun f => { f with imgOk := true }) (s := s) rfl
    exact ⟨t, ht, frame.imgOk, frame.st⟩
  case crcBad =>
    obtain ⟨t, ht, frame⟩ := exec_imageCrcCheck_bad s hst
    exact ⟨t, ht, frame.imgOk, frame.st⟩
  case pulseGood =>
    obtain ⟨t, ht, frame⟩ := exec_lsPulseTest_good r s hst hr
    exact ⟨t, ht, frame.st.trans hst, (congrArg Fbk.offTests frame.fbk_eq :), frame.cyclicOk⟩
  case pulseBad =>
    obtain ⟨t, ht, frame⟩ := exec_lsPulseTest_bad r s hst hr
    exact ⟨t, ht, frame.st, frame.cause, frame.cyclicOk, frame.lastFail⟩
  case vauxOut =>
    obtain ⟨t, ht, safe, st, vaux, cause⟩ := exec_vauxOut s
    obtain ⟨ls, stop⟩ := safe.resolve_left fun run => nomatch st.symm.trans run.1
    exact ⟨t, ht, st, vaux, cause, ls, stop⟩
  case vauxBack =>
    obtain ⟨t, ht, frame⟩ := exec_vauxBack s hv
    refine ⟨t, ht, frame.st, frame.vaux, frame.img, frame.selfPass, frame.sealValid, fun b => ?_⟩
    obtain ⟨failed, -, -⟩ := fbkStart_brk s b
    refine ⟨(frame.fbk.brk b).failed.trans failed, (frame.fbk.brk b).last.trans ?_⟩
    simp [fbkStart]
  case thermal =>
    obtain ⟨t, ht, frame⟩ := exec_fbkThermalHold s hst
    exact ⟨t, ht, frame.st, frame.thermal⟩
  case auto =>
    obtain ⟨t, ht, frame⟩ := exec_autoStartRun s hst hf hm hg
    have run := evalFrame_trans (toRun_evalFrame s) frame
    exact ⟨t, ht, run.st, run.acc, congrArg (fun u => u.smp.resealPending) run.rest⟩
  case cycle =>
    obtain ⟨t, ht, frame⟩ := exec_fbkEvalCycle_of_ne_held s hst
    exact ⟨t, ht, frame.st, frame⟩
  case image =>
    obtain ⟨_, loaded⟩ := imgLoad_of_ne_start s hst
    obtain ⟨t, ht, frame⟩ := fbkDo_evalFrame loaded
    exact ⟨t, ht, frame.img, frame.imgOk, frame.st⟩

/-! ### Accepted inputs (R308) -/

/-- An accepted input of a supplied firebreak is its level and an evaluation; the seal contact going low is an event besides. -/
theorem exec_fbkInputAccept (i : FbkIn) (v : Bool) (s : State) (hv : s.fbk.vaux = true) :
    ∃ t, exec (.fbkInputAccept i v) s = .next t ∧ EvalFrame { s with fbk := acceptIn i v s.fbk } t := by
  obtain ⟨t, ht, frame⟩ := fbkDo_evalFrame (u := if (decide (i = .sealIntact) && s.fbk.intact && !v) = true then
    fbkEvent 15 1 (onFbk (acceptIn i v) s) else onFbk (acceptIn i v) s) (if_neg (by simp [hv] : ¬ (!s.fbk.vaux) = true))
  exact ⟨t, ht, evalFrame_trans (evalFrame_ite _ (fbkEvent_evalFrame _ _ _) (evalFrame_refl _)) frame⟩

/-- Settles O17: the level is taken before the evaluation, which leaves accepted levels alone. -/
theorem firebreakInputs : Obligations.FirebreakInputs := by
  unfold Obligations.FirebreakInputs
  intro i v s hv
  obtain ⟨t, ht, frame⟩ := exec_fbkInputAccept i v s hv
  refine ⟨t, ht, fun _ => frame, ?_⟩
  cases i with
  | estopA z => exact ⟨(congrArg Fbk.estopA frame.fbk_eq :), (congrArg Fbk.estopB frame.fbk_eq :)⟩
  | estopB z => exact ⟨(congrArg Fbk.estopB frame.fbk_eq :), (congrArg Fbk.estopA frame.fbk_eq :)⟩
  | otc n => exact (congrArg Fbk.otc frame.fbk_eq :)
  | imd n => exact (congrArg Fbk.imd frame.fbk_eq :)
  | kfbP n => exact ⟨(congrArg Fbk.kP frame.fbk_eq :), (congrArg Fbk.kPok frame.fbk_eq :)⟩
  | kfbN n => exact ⟨(congrArg Fbk.kN frame.fbk_eq :), (congrArg Fbk.kNok frame.fbk_eq :)⟩
  | reset => exact (congrArg Fbk.resetIn frame.fbk_eq :)
  | sealIntact => exact (congrArg Fbk.intact frame.fbk_eq :)

/-! ### Sealed switches (R327) -/

/-- What a read of the bank leaves of the firebreak before it moves its state. -/
def sealTaken (direct inverted : BitVec 64) (f : Fbk) : Fbk :=
  let ok := !(inverted ≠ ~~~direct : Bool) && !(field direct.toNat 56 8 ≠ 0 : Bool)
  { f with
    sealRead := direct, sealValid := ok, sealIncons := inverted ≠ ~~~direct, sealRsvd := field direct.toNat 56 8 ≠ 0
    sealEq := if !ok || direct = f.acc then 0 else if f.sealEq ≠ 0 && direct = f.sealRead then min 3 (f.sealEq + 1) else 1
    badRun := if ok then 0 else f.badRun + 1, badReads := if ok then f.badReads else f.badReads + 1 }

theorem sealRead_eq (d n : BitVec 64) (s : State) : sealRead d n s =
    let u := onFbk (sealTaken d n) s
    if s.fbk.st = .run && u.fbk.sealEq = 3 then toHeld (fun f => { f with sealChanged := true }) (fbkEvent 13 0 u)
    else if s.fbk.st = .run && decide (3 ≤ u.fbk.badRun) then toHeld (fun f => { f with sealFault := true }) (fbkEvent 15 0 u)
    else tryHeld u := rfl

theorem exec_sealRead (d n : BitVec 64) (s : State) (hv : s.fbk.vaux = true) :
    ∃ t, exec (.sealRead d n) s = .next t ∧ EvalFrame (sealRead d n s) t :=
  fbkDo_evalFrame (if_pos hv)

theorem sealTaken_valid (d : BitVec 64) (f : Fbk) (hd : d.toNat / 2 ^ 56 = 0) : sealTaken d (~~~d) f = { f with
    sealRead := d, sealValid := true, sealIncons := false, sealRsvd := false, badRun := 0, badReads := f.badReads
    sealEq := if d = f.acc then 0 else if f.sealEq ≠ 0 && d = f.sealRead then min 3 (f.sealEq + 1) else 1 } := by
  have reserved : field d.toNat 56 8 = 0 := by rw [field, hd]; rfl
  simp [sealTaken, reserved]

theorem sealTaken_bad (d n : BitVec 64) (f : Fbk) (hn : n ≠ ~~~d) : sealTaken d n f = { f with
    sealRead := d, sealValid := false, sealIncons := true, sealRsvd := field d.toNat 56 8 ≠ 0, sealEq := 0
    badRun := f.badRun + 1, badReads := f.badReads + 1 } := by
  simp [sealTaken, hn]

/-- A read that is the accepted seal moves no state outside START. -/
theorem sealRead_accepted (d : BitVec 64) (s : State) (hst : s.fbk.st ≠ .start) (hd : d.toNat / 2 ^ 56 = 0) (ha : d = s.fbk.acc) :
    sealRead d (~~~d) s = onFbk (sealTaken d (~~~d)) s := by
  have quiet : (onFbk (sealTaken d (~~~d)) s).fbk.sealEq = 0 ∧ (onFbk (sealTaken d (~~~d)) s).fbk.badRun = 0 := by
    simp only [onFbk, sealTaken_valid d _ hd, if_pos ha, and_self]
  rw [sealRead_eq]
  dsimp only
  rw [quiet.1, quiet.2, if_neg (by simp), if_neg (by simp)]
  exact tryHeld_of_ne_start (onFbk _ s) hst

/-- The third bad read in a row takes RUN to HELD. -/
theorem sealRead_thirdBad (d n : BitVec 64) (s : State) (hst : s.fbk.st = .run) (hn : n ≠ ~~~d) (hb : s.fbk.badRun = 2) :
    sealRead d n s = toHeld (fun f => { f with sealFault := true }) (fbkEvent 15 0 (onFbk (sealTaken d n) s)) := by
  have third : (onFbk (sealTaken d n) s).fbk.sealEq = 0 ∧ (onFbk (sealTaken d n) s).fbk.badRun = 3 := by
    simp only [onFbk, sealTaken_bad d n _ hn, hb, and_self]
  rw [sealRead_eq]
  dsimp only
  rw [third.1, third.2, if_neg (by simp), if_pos (by simp [hst])]

/-- So does the third equal read of a new value. -/
theorem sealRead_thirdNew (d : BitVec 64) (s : State) (hst : s.fbk.st = .run) (hd : d.toNat / 2 ^ 56 = 0) (ha : d ≠ s.fbk.acc)
    (he : s.fbk.sealEq = 2) (hr : s.fbk.sealRead = d) :
    sealRead d (~~~d) s = toHeld (fun f => { f with sealChanged := true }) (fbkEvent 13 0 (onFbk (sealTaken d (~~~d)) s)) := by
  have third : (onFbk (sealTaken d (~~~d)) s).fbk.sealEq = 3 := by
    simp [onFbk, sealTaken_valid d _ hd, ha, he, hr]
  rw [sealRead_eq]
  dsimp only
  rw [third, if_pos (by simp [hst])]

/-- RUN to HELD after an event: the event leaves the state and what the change of state does not touch. -/
theorem exec_sealRead_toHeld (d n : BitVec 64) (s : State) (g : Fbk → Fbk) (c : Nat) (hv : s.fbk.vaux = true) (hst : s.fbk.st = .run)
    (h : sealRead d n s = toHeld g (fbkEvent c 0 (onFbk (sealTaken d n) s))) :
    ∃ t u, exec (.sealRead d n) s = .next t ∧ EvalFrame (onFbk (sealTaken d n) s) u ∧
      EvalFrame (onFbk (fun x => { g x with st := .held, fromStart := false }) u) t := by
  have event := fbkEvent_evalFrame c 0 (onFbk (sealTaken d n) s)
  obtain ⟨t, ht, frame⟩ := exec_sealRead d n s hv
  rw [h] at frame
  exact ⟨t, _, ht, event, evalFrame_trans (toHeld_evalFrame g _ (event.st.trans hst)) frame⟩

/-- Settles O20: the read is taken first; its equal and bad runs decide whether RUN is left. -/
theorem sealReads : Obligations.SealReads := by
  unfold Obligations.SealReads
  refine ⟨fun d s hv hst hd ha => ?accepted, fun d n s hv hst hn hb => ?bad, fun d s hv hst hd ha he hr => ?changed⟩
  case accepted =>
    obtain ⟨t, ht, frame⟩ := exec_sealRead d (~~~d) s hv
    rw [sealRead_accepted d s hst hd ha, onFbk, sealTaken_valid d _ hd] at frame
    exact ⟨t, ht, (congrArg Fbk.sealRead frame.fbk_eq :), frame.sealValid, (congrArg Fbk.badRun frame.fbk_eq :),
      (congrArg Fbk.badReads frame.fbk_eq :), frame.st, frame.acc⟩
  case bad =>
    obtain ⟨t, u, ht, event, frame⟩ := exec_sealRead_toHeld d n s _ 15 hv hst (sealRead_thirdBad d n s hst hn hb)
    rw [onFbk, sealTaken_bad d n _ hn] at event
    exact ⟨t, ht, frame.sealValid.trans event.sealValid,
      (congrArg Fbk.badReads frame.fbk_eq :).trans (congrArg Fbk.badReads event.fbk_eq :), frame.st,
      (congrArg Fbk.sealFault frame.fbk_eq :)⟩
  case changed =>
    obtain ⟨t, u, ht, event, frame⟩ := exec_sealRead_toHeld d (~~~d) s _ 13 hv hst (sealRead_thirdNew d s hst hd ha he hr)
    exact ⟨t, ht, frame.st, (congrArg Fbk.sealChanged frame.fbk_eq :), frame.acc.trans event.acc⟩

/-! ### Latches (R304, R312, R315, R316) -/

theorem zoneDisc_latch (z : Fin 8) (s : State) (hz : zoneOn s.fbk z = true) (hd : (s.fbk.zone[z]).disc = false) :
    ((zoneDisc z s).fbk.zone[z]).latch = true := by
  unfold zoneDisc
  dsimp only
  rw [if_neg (by simp [hz, hd, -Fin.getElem_fin])]
  refine (fbkEvent_evalFrame 2 z.val _).fbk.zone z ?_
  simp only [onZone, onFbk, upd_get, if_pos]

theorem weldLatch_latched (o : OutIx) (s : State) : (weldLatch o s).fbk.weldL.getLsbD o.val = true := by
  by_cases h : s.fbk.weldL.getLsbD o.val = true
  · rw [weldLatch, if_pos h]
    exact h
  · rw [weldLatch, if_neg h]
    refine (fbkEvent_evalFrame 5 o.val _).fbk.weldL o.val ?_
    simp only [onFbk]
    rw [getLsbD_setBit _ _ _ o.isLt]
    simp

/-- An outlet with a latched weld has its LS_n open (R324). -/
theorem OutputsFormed.open_of_weld {t : State} (h : OutputsFormed t) (o : OutIx) (hw : t.fbk.weldL.getLsbD o.val = true) :
    t.fbk.ls.getLsbD o.val = false := by
  rw [h.ls_outlet, ← Bool.not_eq_true, lsOutlet_iff]
  rintro ⟨-, -, -, -, -, -, free, -⟩
  exact Bool.false_ne_true (free.symm.trans hw)

theorem weldArm_armed (o : OutIx) (s : State) (hw : s.fbk.weldL.getLsbD o.val = true) :
    weldArm o s = onFbk (fun f => { f with weldArm := setBit f.weldArm o.val, openRun := f.openRun.set o 0 }) s :=
  if_pos hw

/-- Settles O18: each latch is set before the evaluation, which clears none and opens the LS_n of a latched weld. -/
theorem firebreakLatches : Obligations.FirebreakLatches := by
  unfold Obligations.FirebreakLatches
  refine ⟨fun z s hab hz hd => ?zone, fun o s hl ho => ?detect, fun o s => ?notify, fun o s hc hw ho => ?arm⟩
  case zone =>
    have row : ∃ t, exec (.zoneDiscrepancy z) s = .next t ∧ EvalFrame (zoneDisc z s) t := fbkDo_evalFrame (if_pos (bne_iff_ne.mpr hab))
    obtain ⟨t, ht, frame⟩ := row
    exact ⟨t, ht, frame.fbk.zone z (zoneDisc_latch z s hz hd), (evalFrame_trans (zoneDisc_evalFrame z s) frame).rest⟩
  case detect =>
    have row : ∃ t, exec (.weldDetect o) s = .next t ∧ EvalFrame (weldLatch o s) t :=
      fbkDo_evalFrame (if_pos (by rw [hl, ho]; rfl))
    obtain ⟨t, ht, frame⟩ := row
    have latched := frame.fbk.weldL o.val (weldLatch_latched o s)
    exact ⟨t, ht, latched, (exec_firebreakRow_formed (.weldDetect o) s t rfl ht).open_of_weld o latched⟩
  case notify =>
    obtain ⟨t, ht, frame⟩ := fbkDo_evalFrame (f := fun s => weldLatch o { s with fbkWeldNote := clrBit s.fbkWeldNote o.val }) (s := s) rfl
    have latched := frame.fbk.weldL o.val (weldLatch_latched o _)
    exact ⟨t, ht, latched, (exec_firebreakRow_formed (.weldNotify o) s t rfl ht).open_of_weld o latched,
      (congrArg State.fbkWeldNote (evalFrame_trans (weldLatch_evalFrame o _) frame).rest :)⟩
  case arm =>
    have frame := fbkEval_evalFrame false (weldArm o s)
    rw [weldArm_armed o s hw] at frame
    have row : exec (.fbkWeldArm o) s = .next (fbkEval false (weldArm o s)) := congrArg Host.Outcome.next (if_pos hc)
    rw [weldArm_armed o s hw] at row
    refine ⟨_, row, frame.fbk.arm o.val hw ?_ ho, frame.fbk.weldL o.val hw⟩
    simp only [onFbk]
    rw [getLsbD_setBit _ _ _ o.isLt]
    simp

/-! ### The brake test (R318 to R320) -/

/-- A row that changes one brake, by what its evaluation leaves of it. -/
theorem exec_onBrk {c : Instr} {b : Fin 8} {g : FbkBrk → FbkBrk} {s : State} (h : exec c s = fbkDo (onBrk b g) s) :
    ∃ t, exec c s = .next t ∧ BrkFrame (g s.fbk.brk[b]) t.fbk.brk[b] := by
  have frame := (fbkEval_evalFrame false (onBrk b g s)).fbk.brk b
  rw [onBrk_brk_same] at frame
  exact ⟨_, h, frame⟩

/-- Settles O21: each row by what it makes of its brake; the evaluation keeps verdicts and goes on with a test or aborts it. -/
theorem brakeTest : Obligations.BrakeTest := by
  unfold Obligations.BrakeTest
  refine ⟨fun b s => ?due, fun b s => ?overdue, fun b s hc => ?asked, fun b s hc hf => ?repair, fun b s hst hpr hp hi hf hd => ?start,
    fun b s hp => ?torque, fun b s hp => ?release, fun b n s hp hn => ?pass, fun b n s hp hn => ?fail, fun v s => rfl⟩
  case due =>
    obtain ⟨t, ht, kept⟩ := exec_onBrk (c := .brakeTestDue b) (g := fun x => { x with due := true }) (s := s) rfl
    exact ⟨t, ht, kept.due rfl⟩
  case overdue =>
    by_cases h : (s.fbk.brk[b]).overdue = true
    · have row : ∃ t, exec (.brakeTestOverdue b) s = .next t ∧ EvalFrame s t := fbkDo_evalFrame (if_pos h)
      obtain ⟨t, ht, frame⟩ := row
      exact ⟨t, ht, (frame.fbk.brk b).overdue h⟩
    · have row : ∃ t, exec (.brakeTestOverdue b) s = .next t ∧ EvalFrame (onBrk b (fun x => { x with overdue := true }) s) t :=
        fbkDo_evalFrame_trans _ (if_neg h) (fbkEvent_evalFrame _ _ _)
      obtain ⟨t, ht, frame⟩ := row
      have kept := frame.fbk.brk b
      rw [onBrk_brk_same] at kept
      exact ⟨t, ht, kept.overdue rfl⟩
  case asked =>
    have kept := (fbkEval_evalFrame false (brkTestNow b s)).fbk.brk b
    rw [brkTestNow, onBrk_brk_same] at kept
    exact ⟨_, congrArg Host.Outcome.next (if_pos hc), kept.due rfl⟩
  case repair =>
    obtain ⟨t, ht, frame⟩ := exec_fbkBrkRepair b s hc
    have kept := frame.fbk.brk b
    rw [brkRepair_brk_of_failed b s hf] at kept
    exact ⟨t, ht, kept.failed.trans hf, kept.repair, kept.retestOk⟩
  case start =>
    have may : testMayStart b s = true := by
      simp [testMayStart, testDue, -Fin.getElem_fin, hst, hpr, hp, hi, hf, hd]
    obtain ⟨t, ht, frame⟩ := exec_brakeTestStart_started b s may
    have kept := (frame.fbk.brk b).phase
    rw [onBrk_brk_same] at kept
    exact ⟨t, ht, kept⟩
  case torque =>
    obtain ⟨t, ht, kept⟩ := exec_onBrk (c := .brakeTestTorque b) (s := s) rfl
    rw [if_pos hp] at kept
    exact ⟨t, ht, kept.phase⟩
  case release =>
    obtain ⟨t, ht, kept⟩ := exec_onBrk (c := .brakeTestRelease b) (s := s) rfl
    rw [if_pos hp] at kept
    exact ⟨t, ht, kept.phase⟩
  case pass =>
    obtain ⟨t, ht, frame⟩ := exec_brakeTestEvaluate_pass b n s hp hn
    have kept := frame.fbk.brk b
    rw [onBrk_brk_same] at kept
    exact ⟨t, ht, kept.passes, kept.last, kept.failed, kept.edges, kept.phase.elim id And.left⟩
  case fail =>
    obtain ⟨t, ht, frame⟩ := exec_brakeTestEvaluate_fail b n s hp hn
    have kept := frame.fbk.brk b
    rw [onBrk_brk_same] at kept
    refine ⟨t, ht, kept.failed, kept.repair, kept.passes, kept.phase.elim id And.left, fun c hc => ?_⟩
    rw [(frame.fbk.brk c).failed, onBrk_brk, if_neg hc.symm]

end Sys2Proof.Machine
end

section
/-! Resets, clocks, supplies, housekeeping and temperature (chapter 18), and the tamper path that a stopped clock takes. -/

namespace Sys2Proof.Machine

theorem whenOn_on {on : Bool} {f : State → State} (s : State) (h : on = true) : whenOn on s f = .next (f s) :=
  congrArg Host.Outcome.next (if_pos h)

theorem whenOn_id {on : Bool} {f : State → State} {s : State} (h : f s = s) : whenOn on s f = .next s := by
  rw [whenOn, h, ite_self]

theorem whenOn_to {on : Bool} {f : State → State} {s t : State} (h : on = true) (hf : f s = t) : whenOn on s f = .next t :=
  (whenOn_on s h).trans (congrArg Host.Outcome.next hf)

/-- Settles O9: every field of the reset state has its default. -/
theorem resetIsSafe : Obligations.ResetIsSafe := by
  unfold Obligations.ResetIsSafe
  have outlets (o : OutIx) : (State.reset.fl.osq[o]).st = State.reset.fl.osq[(0 : OutIx)].st := by simp [State.reset]
  exact ⟨Or.inr ⟨rfl, rfl⟩, rfl, rfl, rfl, rfl, rfl, outlets, rfl, rfl, rfl, rfl, rfl, rfl⟩

/-! ### Reset requests (R434, R435, R438, R445) -/

theorem askReset_warm (c : Nat) (s : State) : askReset false c s = { s with hkp := { s.hkp with
    cause := setBit s.hkp.cause c, resetReq := if s.hkp.resetReq = some true then some true else some false } } := by
  have kind : some (false || decide (s.hkp.resetReq = some true)) = if s.hkp.resetReq = some true then some true else some false := by
    by_cases h : s.hkp.resetReq = some true <;> simp [h]
  rw [askReset, onHkp, kind]

theorem askReset_cold (c : Nat) (s : State) : askReset true c s = { s with hkp := { s.hkp with
    cause := setBit s.hkp.cause c, resetReq := some true } } := rfl

/-- Without the key a command of HKP_CTRL has no effect. -/
theorem hkpKey_refused {key : BitVec 16} (h : key ≠ hkpKey) (s : State) :
    hkpCold key s = s ∧ hkpWarm key s = s ∧ hkpFnClear key s = s :=
  ⟨if_neg h, if_neg h, if_neg (by simp [h])⟩

theorem auxReset_failed (s : State) (b : Fin 8) : ((auxReset s).fbk.brk[b]).failed = (s.fbk.brk[b]).failed := by
  simp [auxReset]

/-- Settles O10: each row by its own request. -/
theorem resetRequests : Obligations.ResetRequests := by
  unfold Obligations.ResetRequests
  refine ⟨fun s h => whenOn_on s h, fun s h => ?warm, fun key s hk => ?noKey, fun s h hw => ?clear, fun s => rfl, fun p s => ?lock,
    fun s h => congrArg Host.Outcome.next (if_pos h), fun s h => ?release⟩
  case warm => exact whenOn_to h (askReset_warm 4 (stopWarm s))
  case lock => exact congrArg Host.Outcome.next (askReset_warm 6 (stopWarm s))
  case noKey =>
    obtain ⟨cold, warm, clear⟩ := hkpKey_refused hk s
    exact ⟨whenOn_id cold, whenOn_id warm, whenOn_id clear⟩
  case clear =>
    have waits : (decide ((0xA55A : BitVec 16) = hkpKey) && (decide (s.tdm.st = .wait) || decide (s.tdm.st = .isolated))) = true := by
      rcases hw with hw | hw <;> rw [hw] <;> rfl
    exact whenOn_to h (if_pos waits)
  case release =>
    have row : exec .thermalRelease s = .next (askReset true 2 (fbkEval false (auxReset (onHkp (fun h => { h with shutdown := false }) s)))) :=
      congrArg Host.Outcome.next (if_pos h)
    have frame := fbkEval_evalFrame false (auxReset (onHkp (fun h => { h with shutdown := false }) s))
    have safe := fbkEval_safe false (auxReset (onHkp (fun h => { h with shutdown := false }) s))
    generalize fbkEval false (auxReset (onHkp (fun h => { h with shutdown := false }) s)) = u at row frame safe
    obtain ⟨ls, stop⟩ := safe.resolve_left fun run => nomatch frame.st.symm.trans run.1
    have hkp : u.hkp = { s.hkp with shutdown := false } := (congrArg State.hkp frame.rest :)
    refine ⟨askReset true 2 u, row, ?_, ?_, rfl, frame.st, ls, stop, fun b => (frame.fbk.brk b).failed.trans (auxReset_failed _ b), ?_⟩
    · rw [askReset_cold, hkp]
    · rw [askReset_cold, hkp]
      rfl
    · rw [askReset_cold, frame.rest]
      rfl

/-! ### What a tamper leaves alone (R377) -/

/-- The blocks that a tamper touches: heartwood, the bits of its valid slots, its events, and the role of a lead. -/
def TamperOnly (s t : State) : Prop := t = { s with
  hwd := t.hwd, live := { s.live with slotValid := t.live.slotValid }, arrived := t.arrived, tdm := t.tdm }

theorem tamperOnly_refl (s : State) : TamperOnly s s := rfl
theorem tamperOnly_trans {s t u : State} (h : TamperOnly s t) (k : TamperOnly t u) : TamperOnly s u := by
  unfold TamperOnly at h k ⊢
  rw [h] at k
  exact k

theorem onHwd_tamperOnly (f : Hwd → Hwd) (s : State) : TamperOnly s (onHwd f s) := rfl
theorem hwdInt_tamperOnly (b : Nat) (s : State) : TamperOnly s (hwdInt b s) := rfl
theorem hwdEvent_tamperOnly (code num : Nat) (s : State) : TamperOnly s (hwdEvent code num s) := rfl
theorem tamperLog_tamperOnly (src st : Nat) (s : State) : TamperOnly s (tamperLog src st s) := rfl
theorem tamperAsleep_tamperOnly (src : Nat) (s : State) : TamperOnly s (tamperAsleep src s) := rfl
theorem tamperNote_tamperOnly (src : Nat) (s : State) : TamperOnly s (tamperNote src s) := rfl
theorem burnFuse_tamperOnly (s : State) : TamperOnly s (burnFuse s) := rfl

theorem tamperFault_tamperOnly (s : State) : TamperOnly s (tamperFault s) := by
  unfold tamperFault
  split <;> rfl

theorem slotCheck_tamperOnly (s : State) : TamperOnly s (slotCheck s) := by
  have slots (act : Vector (Option Bool) 128) (bad : BitVec 128) :
      TamperOnly s (onHwd (fun h => { h with active := act, bad := bad }) { s with live := { s.live with slotValid := validBits act } }) := rfl
  unfold slotCheck slotPut
  dsimp only
  refine tamperOnly_trans (slots _ _) (foldl_rel TamperOnly tamperOnly_refl tamperOnly_trans _ (fun u k => ?_) _ _)
  exact tamperOnly_trans (hwdInt_tamperOnly 2 u) (hwdEvent_tamperOnly 3 k.val _)

theorem zeroize_tamperOnly (src st : Nat) (s : State) : TamperOnly s (zeroize src st s) := by
  unfold zeroize
  dsimp only
  refine tamperOnly_trans ?_ (slotCheck_tamperOnly _)
  refine tamperOnly_trans ?_ (tamperLog_tamperOnly src st _)
  exact tamperOnly_trans (onHwd_tamperOnly _ s) (burnFuse_tamperOnly _)

theorem tamper_tamperOnly (src : TamperSrc) (s : State) : TamperOnly s (tamper src s) := by
  have hit (u : State) : TamperOnly u (if u.isl.met then zeroize (tamperCode src) 0 u else tamperAsleep (tamperCode src) u) := by
    split
    · exact zeroize_tamperOnly _ _ u
    · exact tamperAsleep_tamperOnly _ u
  unfold tamper
  dsimp only
  refine tamperOnly_trans ?_ (tamperFault_tamperOnly _)
  refine tamperOnly_trans ?_ (hwdEvent_tamperOnly _ _ _)
  refine tamperOnly_trans ?_ (hwdEvent_tamperOnly _ _ _)
  refine tamperOnly_trans ?_ (hwdInt_tamperOnly _ _)
  exact tamperOnly_trans (tamperNote_tamperOnly _ s) (hit _)

theorem slotCheck_bbk (s : State) : (slotCheck s).hwd.bbk = s.hwd.bbk := by
  have fold (l : List (Fin 128)) (u : State) : (l.foldl (fun s k => hwdEvent 3 k.val (hwdInt 2 s)) u).hwd.bbk = u.hwd.bbk :=
    foldl_proj (fun u : State => u.hwd.bbk) (fun s k => hwdEvent 3 k.val (hwdInt 2 s)) (fun _ _ => rfl) l u
  unfold slotCheck slotPut
  dsimp only
  rw [fold, onHwd]

theorem burnFuse_bbk (s : State) : (burnFuse s).hwd.bbk = s.hwd.bbk := by
  show (if s.hwd.tc = 16 then { s.hwd with exhausted := true } else { s.hwd with tc := s.hwd.tc + 1 }).bbk = s.hwd.bbk
  split <;> rfl

theorem zeroize_bbk (src st : Nat) (s : State) : (zeroize src st s).hwd.bbk = Vector.replicate 8 none := by
  unfold zeroize
  dsimp only
  rw [slotCheck_bbk]
  exact burnFuse_bbk _

theorem tamperFault_hwd (s : State) : (tamperFault s).hwd = s.hwd := by
  unfold tamperFault
  split <;> rfl

/-- Whatever runs, a tamper clears the battery-backed slots. -/
theorem tamper_bbk (src : TamperSrc) (s : State) : (tamper src s).hwd.bbk = Vector.replicate 8 none := by
  have hit (u : State) : (if u.isl.met then zeroize (tamperCode src) 0 u else tamperAsleep (tamperCode src) u).hwd.bbk =
      Vector.replicate 8 none := by
    split
    · exact zeroize_bbk _ _ u
    · rfl
  unfold tamper
  dsimp only
  rw [tamperFault_hwd]
  exact hit _

/-! ### Clocks and supplies (R424 to R426, R435) -/

/-- Added or removed ticks (R425) within the range of the RTC. -/
theorem rtc_moved {r : Nat} {k : Int} (h0 : 0 ≤ (r : Int) + 2000 * k) (h1 : (r : Int) + 2000 * k < 2 ^ 32 * 65536000) :
    ((((r : Int) + 2000 * k).toNat % (2 ^ 32 * 65536000) : Nat) : Int) = r + 2000 * k := by
  rw [Nat.mod_eq_of_lt (by omega), Int.toNat_of_nonneg h0]

/-- The RTC after a compensation (R425). -/
def compensated (temp : Int) (s : State) : State :=
  let n := rtcTicks (rtcTemp temp s - Config.rtcT0 s.otp.serial) (rtcTrim s)
  { s with live := { s.live with rtc := ((s.live.rtc : Int) + 2000 * n).toNat % (2 ^ 32 * 65536000) } }

/-- What the billing of a frame changes (R252 to R257): its own state, its events and their bits. -/
def BilOnly (s t : State) : Prop := t = { s with nx := { s.nx with bil := t.nx.bil }, evs := t.evs, late := t.late }

theorem bilOnly_refl (s : State) : BilOnly s s := rfl
theorem bilOnly_trans {s t u : State} (h : BilOnly s t) (k : BilOnly t u) : BilOnly s u := by
  unfold BilOnly at h k ⊢
  rw [h] at k
  exact k

theorem crossDemand_bilOnly (late count : Bool) (s : State) : BilOnly s (crossDemand late count s) := by
  unfold crossDemand
  dsimp only
  split
  · rfl
  · split
    · rfl
    · split <;> rfl

theorem crossCal_bilOnly (late : Bool) (k : Fin 4) (s : State) : BilOnly s (crossCal late k s) := by
  unfold crossCal
  dsimp only
  split
  · split <;> rfl
  · split <;> rfl

theorem onBil_bilOnly (f : Bil → Bil) (s : State) : BilOnly s (onBil f s) := rfl
theorem bilEvent_bilOnly (code m data : Nat) (s : State) : BilOnly s (bilEvent code m data s) := rfl

theorem crossAll_bilOnly (late count : Bool) (s : State) : BilOnly s (crossAll late count s) := by
  unfold crossAll
  dsimp only
  refine bilOnly_trans ?_ (onBil_bilOnly _ _)
  exact bilOnly_trans (crossDemand_bilOnly late count s)
    (foldl_rel BilOnly bilOnly_refl bilOnly_trans _ (fun u k => crossCal_bilOnly late k u) _ _)

theorem clockSet_bilOnly (old new : Nat) (s : State) : BilOnly s (clockSet old new s) := by
  unfold clockSet
  dsimp only
  exact bilOnly_trans (onBil_bilOnly _ s) (bilEvent_bilOnly _ _ _ _)

/-- What a set clock changes of the package before billing treats the change (R426). -/
def clockTaken (s : State) : State :=
  onHkp (fun h => { h with rtcValid := true, intStatus := setBit h.intStatus 12 })
    { s with live := { s.live with rtc := rtcSetValue s },
             lat := { s.lat with levels := { s.lat.levels with rtc := rtcSetValue s } },
             cap := { s.cap with levels := { s.cap.levels with rtc := rtcSetValue s } } }

theorem rtcSet_bilOnly (s : State) : BilOnly (clockTaken s) (crossAll false false (rtcSet s)) :=
  bilOnly_trans (clockSet_bilOnly _ _ (clockTaken s)) (crossAll_bilOnly false false _)

/-- Settles O11: each row by its own change; a stopped 32 kHz crystal is a tamper, and a set clock crosses what it passes. -/
theorem clocksAndSupplies : Obligations.ClocksAndSupplies := by
  unfold Obligations.ClocksAndSupplies
  refine ⟨fun s => rfl, fun p s => ?lockLoss, fun s => rfl, fun s h => ?stop, fun s => ?vbat, fun r s => ?warning,
    fun temp s h => ?compensate, fun temp s h => congrArg Host.Outcome.next (if_pos h), fun s h => ?set⟩
  case lockLoss => rfl
  case warning =>
    show execPowerFailWarning r s = _
    simp only [execPowerFailWarning, hkpEvent, raise, onBilR, onHkp]
    rfl
  case vbat =>
    exact ⟨{ s with live := { s.live with rtc := 0 }, hkp := _, hwd := _, bilR := { s.bilR with fnAon := 0 } }, rfl, rfl, rfl, rfl, rfl, rfl, rfl, rfl⟩
  case stop =>
    have only := tamper_tamperOnly .clock (onHkp (fun h => { h with xtal32 := false, rtcHold := true, xtal32Stops := h.xtal32Stops + 1 }) s)
    have row : exec .xtal32kStop s =
        .next (tamper .clock (onHkp (fun h => { h with xtal32 := false, rtcHold := true, xtal32Stops := h.xtal32Stops + 1 }) s)) :=
      congrArg Host.Outcome.next (if_pos (by rw [h]; rfl))
    have cleared := tamper_bbk .clock (onHkp (fun h => { h with xtal32 := false, rtcHold := true, xtal32Stops := h.xtal32Stops + 1 }) s)
    generalize tamper .clock (onHkp (fun h => { h with xtal32 := false, rtcHold := true, xtal32Stops := h.xtal32Stops + 1 }) s) = t
      at row only cleared
    exact ⟨t, row, (congrArg State.hkp only :), (congrArg (fun t => t.live.rtc) only :), (congrArg State.fbk only :), (congrArg State.lnd only :),
      (congrArg State.fl only :), cleared⟩
  case compensate =>
    refine ⟨compensated temp s, congrArg Host.Outcome.next (if_neg (by rw [h]; decide)), ?_, rfl⟩
    rintro k rfl h0 h1
    exact rtc_moved h0 h1
  case set =>
    have row : exec .rtcSet s = .next (crossAll false false (rtcSet s)) := by
      show execRtcSet s = _
      rw [execRtcSet, whenOn_on s h]
    have only := rtcSet_bilOnly s
    generalize crossAll false false (rtcSet s) = t at row only
    have live : t.live.rtc = rtcSetValue s := (congrArg (fun t => t.live.rtc) only :)
    have latched : t.lat.levels.rtc = rtcSetValue s := (congrArg (fun t => t.lat.levels.rtc) only :)
    exact ⟨t, row, live, latched.trans live.symm, (congrArg (fun t => t.hkp.rtcValid) only :), (congrArg State.fbk only :),
      (congrArg State.lnd only :), (congrArg State.hwd only :)⟩

/-! ### Housekeeping (R429, R430) -/

/-- What the uses and tests of a reading change. -/
def HkOnly (s t : State) : Prop := t.hkp.ins = s.hkp.ins ∧ t = { s with
  hkp := t.hkp, evs := t.evs, met := { s.met with tempNow := t.met.tempNow }, live := { s.live with vbatMv := t.live.vbatMv } }

theorem hkOnly_refl (s : State) : HkOnly s s := ⟨rfl, rfl⟩
theorem hkOnly_trans {s t u : State} (h : HkOnly s t) (k : HkOnly t u) : HkOnly s u := by
  obtain ⟨hi, h⟩ := h
  obtain ⟨ki, k⟩ := k
  refine ⟨ki.trans hi, ?_⟩
  rw [h] at k
  exact k
theorem hkOnly_ite {s t u : State} (c : Prop) [Decidable c] (h : HkOnly s t) (k : HkOnly s u) : HkOnly s (if c then t else u) := by
  split <;> assumption

/-- The uses of a reading, one by one. -/
def useTemp (i : Fin 42) (x : Int) (s : State) : State := if i.val = 7 then { s with met := { s.met with tempNow := x } } else s
def useVbat (i : Fin 42) (x : Nat) (s : State) : State := if i.val = 37 then { s with live := { s.live with vbatMv := x } } else s
def usePeak (i : Fin 42) (x : Nat × Int) (s : State) : State :=
  if i.val < 10 then onHkp (fun h => if h.peak < x.2 then { h with peak := x.2, peakAt := x.1 } else h) s else s

theorem usePeak_hkOnly (i : Fin 42) (x : Nat × Int) (s : State) : HkOnly s (usePeak i x s) := by
  refine hkOnly_ite _ ⟨?_, rfl⟩ (hkOnly_refl s)
  show (if s.hkp.peak < x.2 then { s.hkp with peak := x.2, peakAt := x.1 } else s.hkp).ins = s.hkp.ins
  split <;> rfl

theorem hkUse_hkOnly (i : Fin 42) (s : State) : HkOnly s (hkUse i s) := by
  have temp (x : Int) : HkOnly s (useTemp i x s) := hkOnly_ite _ ⟨rfl, rfl⟩ (hkOnly_refl s)
  have vbat (x : Nat) (t : State) : HkOnly t (useVbat i x t) := hkOnly_ite _ ⟨rfl, rfl⟩ (hkOnly_refl t)
  have uses : hkUse i s = usePeak i (hottest (useVbat i (vbatOf s.hkp.ins) (useTemp i (dieTempOf s s.hkp.ins 7) s)) s.hkp.ins)
    (useVbat i (vbatOf s.hkp.ins) (useTemp i (dieTempOf s s.hkp.ins 7) s)) := rfl
  rw [uses]
  exact hkOnly_trans (hkOnly_trans (temp _) (vbat _ _)) (usePeak_hkOnly _ _ _)

theorem hkTest_hkOnly (k : Fin 16) (c : Nat) (s : State) : HkOnly s (hkTest k c s) :=
  hkOnly_ite _ ⟨rfl, rfl⟩ ⟨rfl, rfl⟩

theorem hkJudge_hkOnly (i : Fin 42) (c : Nat) (v : Vector HkIn 42) (s : State) : HkOnly s (hkJudge i c v s) := by
  have event (t : State) : HkOnly t (hkpEvent 5 i.val 0 t) := ⟨rfl, rfl⟩
  have test (t : State) : HkOnly t (match optFin 16 (i.val - 10) with | some k => if 10 ≤ i.val then hkTest k c t else t | none => t) := by
    split
    · exact hkOnly_ite _ (hkTest_hkOnly _ _ _) (hkOnly_refl t)
    · exact hkOnly_refl t
  exact hkOnly_trans (t := if (List.range 6).any fun b => supplyBad s.hkp.ins b && !supplyBad v b then hkpEvent 5 i.val 0 s else s)
    (hkOnly_ite _ (event s) (hkOnly_refl s)) (test _)

theorem hkSettles_eq_false {i : Fin 42} {s : State}
    (h : ∀ k : Nat, s.hkp.clampAt = some (s.fn, k) → 1 + i.val % 7 ≤ k ∨ k + 2 < 1 + i.val % 7) : hkSettles i s = false := by
  unfold hkSettles
  split
  case h_1 f k hk =>
    by_cases hf : f = s.fn
    · subst hf
      have := h k hk
      simp
      omega
    · simp [hf]
  case h_2 => rfl

theorem hkSettles_eq_true {i : Fin 42} {s : State} {k : Nat} (hk : s.hkp.clampAt = some (s.fn, k)) (h1 : k < 1 + i.val % 7)
    (h2 : 1 + i.val % 7 ≤ k + 2) : hkSettles i s = true := by
  simp [hkSettles, hk, h1, h2]

theorem exec_hkAdcSlot (i : Fin 42) (code : Nat) (s : State) (hm : s.isl.met = true) (hi : i.val / 7 = s.fn % 10) :
    exec (.hkAdcSlot i code) s = .next (hkConvert i code s) :=
  whenOn_to hm (if_pos hi)

/-- The overrange of a clamped reading is that of its code. -/
theorem clamped_ovr (code : Nat) :
    (decide (min 4095 code = 0) || decide (min 4095 code = 4095)) = (decide (code = 0) || decide (4095 ≤ code)) := by
  have low : min 4095 code = 0 ↔ code = 0 := by omega
  have high : min 4095 code = 4095 ↔ 4095 ≤ code := by omega
  simp only [low, high]

theorem hkConvert_stored (i : Fin 42) (code : Nat) (s : State) (hs : hkSettles i s = false) :
    HkOnly (hkStore i (min 4095 code) s) (hkConvert i code s) := by
  unfold hkConvert
  rw [if_neg (by rw [hs]; decide)]
  exact hkOnly_trans (hkJudge_hkOnly _ _ _ _) (hkUse_hkOnly _ _)

/-- Settles O12: a conversion stores its reading, and its uses and tests keep the readings. -/
theorem housekeepingConversions : Obligations.HousekeepingConversions := by
  unfold Obligations.HousekeepingConversions
  refine ⟨fun i code s hm hi hk => ?taken, fun i code k s hm hi hk h1 h2 => ?settles, fun i code s hi => whenOn_id (if_neg hi),
    fun k s hm hr hc => ?alarm, fun k s h => ?quiet⟩
  case quiet =>
    have none : (decide (s.hkp.hkRun[k] < 3) || s.hkp.hkCond.getLsbD k.val) = true := by simpa [-Fin.getElem_fin] using h
    show execHkInAlarm k s = _
    unfold execHkInAlarm
    exact whenOn_id (if_pos none)
  case taken =>
    obtain ⟨ins, rest⟩ := hkConvert_stored i code s (hkSettles_eq_false hk)
    refine ⟨_, exec_hkAdcSlot i code s hm hi, ?_, fun j hj => ?_, ?_⟩
    · rw [ins]
      simp only [hkStore, onHkp, Fin.getElem_fin, Vector.getElem_set_self, clamped_ovr]
    · rw [ins]
      simp only [hkStore, onHkp, Fin.getElem_fin]
      exact Vector.getElem_set_ne _ _ fun h => hj (Fin.ext h.symm)
    · exact rest
  case settles =>
    refine (exec_hkAdcSlot i code s hm hi).trans (congrArg Host.Outcome.next ?_)
    unfold hkConvert
    rw [if_pos (hkSettles_eq_true hk h1 h2)]
    rfl
  case alarm =>
    have third : ¬ (decide (s.hkp.hkRun[k] < 3) || s.hkp.hkCond.getLsbD k.val) = true := by
      rw [hc, Bool.or_false, decide_eq_true_eq]
      exact Nat.not_lt.mpr hr
    show execHkInAlarm k s = _
    unfold execHkInAlarm
    exact whenOn_to hm (if_neg third)

/-! ### Die temperature (R432 to R434) -/

theorem thermTarget_eq_two_iff (t : Int) (lv : Nat) : thermTarget lv t = 2 ↔ 7680 ≤ t ∨ (lv = 2 ∧ 7360 ≤ t) := by
  unfold thermTarget
  split
  · simp_all
  · split <;> simp_all

theorem thermTarget_eq_zero_iff (t : Int) (lv : Nat) (h : lv ≤ 2) : thermTarget lv t = 0 ↔ t < 6720 ∨ (lv = 0 ∧ t < 7040) := by
  unfold thermTarget
  simp only [Bool.or_eq_true, Bool.and_eq_true, decide_eq_true_eq]
  split
  · simp; omega
  · split
    · simp; omega
    · simp; omega

/-- A change of level before its event. -/
def levelled (l : Nat) (s : State) : State :=
  onLnd (fun x => { x with throttled := l = 2 }) (onHkp (fun h => { h with level := l }) s)

theorem exec_thermalLevelChange (lvl : Fin 3) (s : State) (hm : s.isl.met = true) (hl : s.hkp.level ≠ lvl.val)
    (ht : thermTarget s.hkp.level (hottest s s.hkp.ins).2 = lvl.val) :
    exec (.thermalLevelChange lvl) s = .next (levelEvent s.hkp.level lvl.val (levelled lvl.val s)) := by
  have moves : ¬ (decide (s.hkp.level = lvl.val) || decide (thermTarget s.hkp.level (hottest s s.hkp.ins).2 ≠ lvl.val)) = true := by
    simp [hl, ht]
  show execThermalLevelChange lvl s = _
  unfold execThermalLevelChange
  exact whenOn_to hm (if_neg moves)

theorem levelEvent_frame (old new : Nat) (s : State) : levelEvent old new s = { s with
    hkp := { s.hkp with intStatus := (levelEvent old new s).hkp.intStatus }, evs := (levelEvent old new s).evs } := by
  unfold levelEvent
  split
  · rfl
  · split
    · rfl
    · split <;> rfl

/-- What a shutdown by sensor k notes (R434). -/
def shut (k : Fin 10) (s : State) : State := onHkp (fun h => { h with
  shutdown := true, shutNote := true, shutRead := dieTempOf s s.hkp.ins k, shutAt := k.val, shuts := h.shuts + 1 }) s

/-- Of a running firebreak a shutdown makes HELD; one in another state stays there. -/
theorem shutdown_evalFrame (s : State) : EvalFrame (onFbk (fun f => if f.st = .run then { f with thermal := true, st := .held, fromStart := false } else f) s)
      (fbkEval false (toHeld (fun f => { f with thermal := true }) s)) := by
  refine evalFrame_trans ?_ (fbkEval_evalFrame false _)
  by_cases h : s.fbk.st = .run
  · rw [onFbk, if_pos h]
    exact toHeld_evalFrame (fun f => { f with thermal := true }) s h
  · rw [onFbk, if_neg h, toHeld, if_neg h]
    exact evalFrame_refl s

/-- Settles O13: the levels by their thresholds; a shutdown stops the islands after the firebreak is held. -/
theorem dieTemperature : Obligations.DieTemperature := by
  unfold Obligations.DieTemperature
  refine ⟨fun lvl s hm hl ht => ?changed, fun lvl s h => ?same, fun t lv h => ?levels, fun k s h => ?shutdown⟩
  case same =>
    have stays : (decide (s.hkp.level = lvl.val) || decide (thermTarget s.hkp.level (hottest s s.hkp.ins).2 ≠ lvl.val)) = true := by
      simpa using h
    show execThermalLevelChange lvl s = _
    unfold execThermalLevelChange
    exact whenOn_id (if_pos stays)
  case levels => exact ⟨thermTarget_eq_two_iff t lv, thermTarget_eq_zero_iff t lv h⟩
  case changed =>
    have frame := levelEvent_frame s.hkp.level lvl.val (levelled lvl.val s)
    refine ⟨_, exec_thermalLevelChange lvl s hm hl ht, (congrArg (fun t => t.hkp.level) frame :), (congrArg State.lnd frame :), ?_,
      fun h2 => ?_, fun h2 => ?_, fun h0 h1 => ?_⟩
    · rw [frame]
      rfl
    · rw [levelEvent, if_pos h2]
      exact ⟨rfl, rfl⟩
    · rw [levelEvent, if_neg (fun h => hl (h2.trans h.symm)), if_pos h2]
      exact ⟨rfl, rfl⟩
    · rw [levelEvent, if_neg (by omega), if_neg (by omega), if_pos h1]
      exact ⟨rfl, rfl⟩
  case shutdown =>
    have row : exec (.thermalShutdown k) s = .next (stopAll (fbkEval false (toHeld (fun f => { f with thermal := true }) (shut k s)))) :=
      congrArg Host.Outcome.next (if_neg (by rw [h]; decide))
    have frame := shutdown_evalFrame (shut k s)
    have safe := fbkEval_safe false (toHeld (fun f => { f with thermal := true }) (shut k s))
    generalize fbkEval false (toHeld (fun f => { f with thermal := true }) (shut k s)) = u at row frame safe
    refine ⟨stopAll u, row, rfl, rfl, ?_⟩
    by_cases hr : s.fbk.st = .run
    · rw [onFbk, if_pos (show (shut k s).fbk.st = .run from hr)] at frame
      obtain ⟨ls, stop⟩ := safe.resolve_left fun run => nomatch frame.st.symm.trans run.1
      exact ⟨(congrArg State.hkp frame.rest :), fun _ => ⟨frame.st, frame.thermal, ls, stop⟩, fun hn => absurd hr hn,
        (congrArg State.lnd frame.rest :), (congrArg State.hwd frame.rest :), (congrArg State.fl frame.rest :), (congrArg State.nx frame.rest :)⟩
    · rw [onFbk, if_neg (show ¬ (shut k s).fbk.st = .run from hr)] at frame
      exact ⟨(congrArg State.hkp frame.rest :), fun h => absurd h hr, fun _ => ⟨frame.st, frame.thermal⟩,
        (congrArg State.lnd frame.rest :), (congrArg State.hwd frame.rest :), (congrArg State.fl frame.rest :), (congrArg State.nx frame.rest :)⟩

/-- Settles O14: each row is its own change of the block and its answer. -/
theorem healthReadsAndCommands : Obligations.HealthReadsAndCommands := by
  unfold Obligations.HealthReadsAndCommands
  exact ⟨fun s => rfl, fun i s => rfl, fun s h => whenOn_on s h, fun s h => whenOn_on s h, fun r p s h => congrArg Host.Outcome.next (if_pos h), fun s => rfl⟩

/-! ### The debug port and the key cache (R373, R378) -/

/-- A key of slot 0 stands in the cache. -/
def cachedState : State := onHwd (fun h => { h with cache := [(0, [])] }) State.reset

/-- Refutes O55: DEBUG_SESSION_OPEN empties the key cache besides, so a state with a cached key tells its two answers apart. -/
theorem not_tamperAndLifecycle : ¬ Obligations.TamperAndLifecycle := by
  unfold Obligations.TamperAndLifecycle
  rintro ⟨-, -, -, -, -, -, -, -, -, -, -, opens, -⟩
  have model : exec .debugSessionOpen cachedState =
      .next { cachedState with hwd := { cachedState.hwd with debug := true, cache := [] } } := rfl
  have cache := congrArg (fun t => t.hwd.cache) (Host.Outcome.next.inj (model.symm.trans (opens cachedState)))
  exact absurd cache (by decide)

end Sys2Proof.Machine
end

section
/-! Tables and the channel ports (chapter 5): what a command of a port leaves alone, the frames of a port as bytes, and
the sample start (O23 to O27). -/

namespace Sys2Proof.Machine

/-! ### Tables -/

theorem upd_same {α : Type} {n : Nat} (v : Vector α n) (i : Fin n) (f : α → α) : (Vec.upd v i f)[i] = f v[i] := by
  rw [upd_get, if_pos rfl]

theorem upd_other {α : Type} {n : Nat} (v : Vector α n) (i : Fin n) (f : α → α) {j : Fin n} (h : j ≠ i) :
    (Vec.upd v i f)[j] = v[j] := by
  rw [upd_get, if_neg (Ne.symm h)]

/-- A change that keeps a projection of the element keeps it throughout the table. -/
theorem upd_proj {α β : Type} {n : Nat} (p : α → β) (v : Vector α n) (i j : Fin n) (f : α → α) (h : ∀ x, p (f x) = p x) :
    p (Vec.upd v i f)[j] = p v[j] := by
  rw [upd_get]
  split
  · exact h _
  · rfl

/-! ### What a sample leaves alone (R88) -/

/-- A state that differs in what the samples of a frame may change: units, ports, bus summary, latches of the clusters,
and the tandem link's view of the uplinks. -/
def SampleOnly (s t : State) : Prop :=
  (∀ j : CluIx, (t.ctl.clu[j]).next = (s.ctl.clu[j]).next ∧ (t.ctl.clu[j]).pipe = (s.ctl.clu[j]).pipe) ∧
  t = { s with
    ctl := { s.ctl with units := t.ctl.units, unitD := t.ctl.unitD, ports := t.ctl.ports, clu := t.ctl.clu,
                        busSum := t.ctl.busSum, lastVbm := t.ctl.lastVbm },
    tdm := t.tdm, lnd := { t.lnd with mem := s.lnd.mem }, evs := t.evs }

theorem sampleOnly_refl (s : State) : SampleOnly s s := ⟨fun _ => ⟨rfl, rfl⟩, rfl⟩

theorem sampleOnly_trans {s t u : State} (h : SampleOnly s t) (k : SampleOnly t u) : SampleOnly s u := by
  obtain ⟨hc, h⟩ := h
  obtain ⟨kc, k⟩ := k
  refine ⟨fun j => ⟨(kc j).1.trans (hc j).1, (kc j).2.trans (hc j).2⟩, ?_⟩
  rw [h] at k
  exact k

theorem sampleOnly_ite {s t u : State} (c : Prop) [Decidable c] (h : SampleOnly s t) (k : SampleOnly s u) :
    SampleOnly s (if c then t else u) := ite_rel c h k

theorem raise_sampleOnly (e : Event) (s : State) : SampleOnly s (raise s e) := ⟨fun _ => ⟨rfl, rfl⟩, rfl⟩

theorem overrun_sampleOnly (n : Nat) (s : State) : SampleOnly s (overrun n s) := ⟨fun _ => ⟨rfl, rfl⟩, rfl⟩

theorem chpEvent_sampleOnly (c : ChIx) (b ord : Nat) (s : State) : SampleOnly s (chpEvent c b ord s) :=
  ⟨fun _ => ⟨rfl, rfl⟩, rfl⟩

theorem lpeEvent_sampleOnly (c : ChIx) (b ord : Nat) (s : State) : SampleOnly s (lpeEvent c b ord s) :=
  ⟨fun _ => ⟨rfl, rfl⟩, rfl⟩

theorem enterHold_sampleOnly (c : ChIx) (ord : Nat) (s : State) : SampleOnly s (enterHold c ord s) := by
  unfold enterHold
  dsimp only
  exact sampleOnly_ite _ (sampleOnly_refl s) (sampleOnly_ite _ ⟨fun _ => ⟨rfl, rfl⟩, rfl⟩
    (sampleOnly_trans ⟨fun _ => ⟨rfl, rfl⟩, rfl⟩ (lpeEvent_sampleOnly c 1 ord _)))

theorem latchUp_sampleOnly (i : Nat) (s : State) (c : ChIx) : SampleOnly s (latchUp i s c) := by
  unfold latchUp
  dsimp only
  split
  · exact sampleOnly_ite _ (sampleOnly_trans ⟨fun _ => ⟨rfl, rfl⟩, rfl⟩ (chpEvent_sampleOnly c 4 _ _)) ⟨fun _ => ⟨rfl, rfl⟩, rfl⟩
  · have late : ∀ u : State, SampleOnly u (if inService u c = true then overrun c.val u else u) :=
      fun u => sampleOnly_ite _ (overrun_sampleOnly _ u) (sampleOnly_refl u)
    refine sampleOnly_ite _ (sampleOnly_trans (sampleOnly_trans ?_ (late _)) (chpEvent_sampleOnly c 2 _ _))
      (sampleOnly_trans ?_ (late _)) <;> exact ⟨fun _ => ⟨rfl, rfl⟩, rfl⟩

theorem holdTest_sampleOnly (i : Nat) (s : State) (c : ChIx) : SampleOnly s (holdTest i s c) :=
  sampleOnly_ite _ (enterHold_sampleOnly c _ s) (sampleOnly_refl s)

theorem trackTest_sampleOnly (s : State) (c : ChIx) : SampleOnly s (trackTest s c) :=
  sampleOnly_ite _ (sampleOnly_refl s) ⟨fun _ => ⟨rfl, rfl⟩, rfl⟩

theorem busTest_sampleOnly (s : State) : SampleOnly s (busTest s) := by
  unfold busTest
  split
  · exact sampleOnly_refl s
  · exact ⟨fun _ => ⟨rfl, rfl⟩, rfl⟩

theorem latchCluster_sampleOnly (s : State) (k : CluIx) : SampleOnly s (latchCluster s k) := by
  have latched := foldl_rel SampleOnly sampleOnly_refl sampleOnly_trans _ (latchUp_sampleOnly (s.ctl.clu[k]).latched) (chansIn k) s
  unfold latchCluster
  generalize (chansIn k).foldl (latchUp (s.ctl.clu[k]).latched) s = t at latched ⊢
  refine sampleOnly_trans latched ⟨fun j => ?_, rfl⟩
  exact ⟨upd_proj Cluster.next t.ctl.clu k j (fun x => { x with latched := x.latched + 1 }) fun _ => rfl,
    upd_proj Cluster.pipe t.ctl.clu k j (fun x => { x with latched := x.latched + 1 }) fun _ => rfl⟩

theorem testCluster_sampleOnly (s : State) (k : CluIx) : SampleOnly s (testCluster s k) := by
  have tests := foldl_rel SampleOnly sampleOnly_refl sampleOnly_trans _ trackTest_sampleOnly (chansIn k) s
  unfold testCluster
  generalize (chansIn k).foldl trackTest s = t at tests ⊢
  exact sampleOnly_ite _ (sampleOnly_trans tests (busTest_sampleOnly t)) tests

theorem latchAt_sampleOnly (i n : Nat) (s : State) : SampleOnly s (latchAt i n s) := by
  have fold := @foldl_rel CluIx SampleOnly sampleOnly_refl sampleOnly_trans
  unfold latchAt
  dsimp only
  have latched := fold _ latchCluster_sampleOnly (dueAt s i n) s
  have tested := fold _ testCluster_sampleOnly (dueAt s i n) ((dueAt s i n).foldl latchCluster s)
  refine sampleOnly_trans (sampleOnly_trans latched tested) (fold _ (fun u k => ?_) _ _)
  exact foldl_rel SampleOnly sampleOnly_refl sampleOnly_trans _ (holdTest_sampleOnly _) _ u

theorem shortDetect_sampleOnly (c : ChIx) (ord : Nat) (s : State) : SampleOnly s (shortDetect c ord s) :=
  sampleOnly_ite _ (sampleOnly_trans ⟨fun _ => ⟨rfl, rfl⟩, rfl⟩ (chpEvent_sampleOnly c 0 ord _)) (sampleOnly_refl s)

theorem limitTest_sampleOnly (i : Nat) (s : State) (c : ChIx) : SampleOnly s (limitTest i s c) := by
  unfold limitTest
  dsimp only
  refine sampleOnly_ite _ ?_ (sampleOnly_refl s)
  exact sampleOnly_ite _ (sampleOnly_trans ⟨fun _ => ⟨rfl, rfl⟩, rfl⟩ (shortDetect_sampleOnly c _ _)) ⟨fun _ => ⟨rfl, rfl⟩, rfl⟩

theorem sendDown_sampleOnly (s : State) (c : ChIx) (i : Nat) : SampleOnly s (sendDown s c i) := ⟨fun _ => ⟨rfl, rfl⟩, rfl⟩

theorem slot_sampleOnly (i : Nat) (s : State) (c : ChIx) : SampleOnly s (slot i s c) := by
  unfold slot
  dsimp only
  refine sampleOnly_ite _ (sendDown_sampleOnly s c i)
    (sampleOnly_trans (sampleOnly_trans ?_ (sendDown_sampleOnly _ c i)) (limitTest_sampleOnly i _ c))
  exact sampleOnly_ite _ (sampleOnly_trans ⟨fun _ => ⟨rfl, rfl⟩, rfl⟩ (lpeEvent_sampleOnly c 3 _ _)) ⟨fun _ => ⟨rfl, rfl⟩, rfl⟩

theorem digestUnits_sampleOnly (k : CluIx) (i : Nat) (s : State) : SampleOnly s (digestUnits k i s) :=
  sampleOnly_ite _ ⟨fun _ => ⟨rfl, rfl⟩, rfl⟩ (sampleOnly_refl s)

/-- A sample start: what a sample may change, and the count of its cluster. -/
theorem sampleStart_sampleOnly (k : CluIx) (s : State) (h : (s.ctl.clu[k]).next < (s.map.clu[k]).n) :
    ∃ u, SampleOnly s u ∧ SampleOnly { u with ctl := { u.ctl with
      clu := Vec.upd u.ctl.clu k fun x => { x with next := (s.ctl.clu[k]).next + 1 } } } (sampleStart k s) := by
  have latched := latchAt_sampleOnly (s.ctl.clu[k]).next (s.map.clu[k]).n s
  have slots := foldl_rel SampleOnly sampleOnly_refl sampleOnly_trans _ (slot_sampleOnly (s.ctl.clu[k]).next) (chansIn k)
    (latchAt (s.ctl.clu[k]).next (s.map.clu[k]).n s)
  unfold sampleStart
  dsimp only
  rw [if_neg (Nat.not_le.mpr h)]
  generalize latchAt (s.ctl.clu[k]).next (s.map.clu[k]).n s = v at latched slots ⊢
  generalize (chansIn k).foldl (slot (s.ctl.clu[k]).next) v = u at slots ⊢
  exact ⟨u, sampleOnly_trans latched slots, digestUnits_sampleOnly k _ _⟩

/-- Settles O23: the slots of a sample change no cluster's count (`SampleOnly`); the sample start alone does. -/
theorem sampleStarts : Obligations.SampleStarts := by
  unfold Obligations.SampleStarts
  refine ⟨fun k s hc hn => ?_, fun k s hn => whenOn_id (if_pos hn)⟩
  refine ⟨sampleStart k s, whenOn_on s hc, ?_⟩
  obtain ⟨u, ⟨uc, uf⟩, tc, tf⟩ := sampleStart_sampleOnly k s hn
  generalize sampleStart k s = t at tc tf ⊢
  rw [uf] at tf
  refine ⟨(tc k).1.trans (congrArg Cluster.next (upd_same _ k _)), fun j hj => ?_, fun j => ?_, (congrArg (·.ctl.rgn) tf :),
    (congrArg State.fl tf :), (congrArg State.nx tf :), (congrArg State.map tf :), (congrArg State.fbk tf :),
    (congrArg State.aux tf :), (congrArg State.hwd tf :), (congrArg (·.lnd.mem) tf :), (congrArg State.live tf :)⟩
  · exact (tc j).1.trans ((congrArg Cluster.next (upd_other u.ctl.clu k _ hj)).trans (uc j).1)
  · exact (tc j).2.trans ((upd_proj (·.pipe) u.ctl.clu k j (fun x => { x with next := (s.ctl.clu[k]).next + 1 })
      fun _ => rfl).trans (uc j).2)

/-! ### Uplink frames (R123, R125) -/

/-- Settles O24, along the two tests of a received frame: its length, then its check sum. -/
theorem uplinkFrames : Obligations.UplinkFrames := by
  unfold Obligations.UplinkFrames
  refine ⟨fun c bs s hc hl hk => ?_, fun c bs s hc hl hk => ?_, fun c bs s hl => whenOn_id (if_pos hl)⟩
  · exact whenOn_to hc ((if_neg (not_not_intro hl)).trans (if_pos hk))
  · refine ⟨_, whenOn_to hc ((if_neg (not_not_intro hl)).trans (if_neg (Bool.eq_false_iff.mp hk))), ?_⟩
    simp only [chpEvent, raise, upd_same]
    exact ⟨trivial, trivial, trivial, fun d hd => by simp only [upd_other _ c _ hd], trivial⟩

/-! ### The bytes of a downlink frame (R118, R120) -/

theorem leBytes_length (n v : Nat) : (leBytes n v).length = n := by
  induction n generalizing v with
  | zero => rfl
  | succ n ih => simp [leBytes, ih]

theorem leNat_leBytes (n v : Nat) : leNat (leBytes n v) = v % 256 ^ n := by
  induction n generalizing v with
  | zero => simp [leBytes, leNat, Nat.mod_one]
  | succ n ih =>
    rw [leBytes, leNat, ih, BitVec.toNat_ofNat, Nat.pow_succ' (m := 256), Nat.mod_mul (a := 256)]

theorem leAt_here (b : List Byte) (n v : Nat) : leAt (leBytes n v ++ b) 0 n = v % 256 ^ n := by
  rw [leAt, List.drop_zero, List.take_left' (leBytes_length n v), leNat_leBytes]

theorem leAt_skip (b : List Byte) (m v i n : Nat) : leAt (leBytes m v ++ b) (m + i) n = leAt b i n := by
  rw [leAt, ← List.drop_drop, List.drop_left' (leBytes_length m v), leAt]

/-- A frame that closes with the check sum of its body passes the test of R118. -/
theorem crcOk_append {body : List Byte} (h : body.length = 14) : crcOk (body ++ crcBytes body) = true := by
  simp [crcOk, List.drop_left' h, List.take_left' h, crcBytes]

/-- Settles O25: the body has fourteen bytes, and each field stands at its offset. -/
theorem downlinkBytes : Obligations.DownlinkBytes := by
  unfold Obligations.DownlinkBytes
  intro d
  refine ⟨?_, ?_, ?_, ?_, ?_⟩
  · simp [Downlink.bytes, crcBytes, leBytes_length]
  · exact crcOk_append (by simp [leBytes_length])
  · simp only [Downlink.bytes, List.append_assoc]
    exact (leAt_here _ 2 _).trans (Nat.mod_eq_of_lt d.seq.isLt)
  · simp only [Downlink.bytes, List.append_assoc]
    exact (leAt_skip _ 2 _ 2 2).trans ((leAt_skip _ 1 _ 1 2).trans ((leAt_skip _ 1 _ 0 2).trans (leAt_here _ 2 _)))
  · simp only [Downlink.bytes, List.append_assoc]
    exact (leAt_skip _ 2 _ 4 2).trans ((leAt_skip _ 1 _ 3 2).trans ((leAt_skip _ 1 _ 2 2).trans
      ((leAt_skip _ 2 _ 0 2).trans (leAt_here _ 2 _))))

/-! ### Events of a channel (R105, R134, R141) -/

/-- A unit that was not in hold, with no hold event yet, enters it with the event of R105. -/
theorem enterHold_fresh (c : ChIx) (ord : Nat) (s : State) (hh : (s.ctl.units[c]).hold = false) (he : (s.ctl.units[c]).evHold = false) :
    enterHold c ord s = lpeEvent c 1 ord { s with ctl := { s.ctl with
      units := Vec.upd s.ctl.units c fun u => { u with hold := true, evHold := true } } } :=
  (if_neg (by rw [hh]; simp)).trans (if_neg (by rw [he]; simp))

theorem exec_staleHold_fresh (c : ChIx) (s : State) (hc : s.isl.ctl = true)
    (hm : (s.ctl.units[c]).mode = .active ∨ (s.ctl.units[c]).mode = .ramp) (hh : (s.ctl.units[c]).hold = false)
    (he : (s.ctl.units[c]).evHold = false) : ∃ t, exec (.staleHold c) s = .next t ∧ (t.ctl.units[c]).hold = true ∧
      (t.ctl.units[c]).intStatus = setBit (s.ctl.units[c]).intStatus 1 ∧ (t.ctl.units[c]).cmd = (s.ctl.units[c]).cmd ∧
      (∀ d : ChIx, d ≠ c → t.ctl.units[d] = s.ctl.units[d]) ∧
      t = { s with ctl := { s.ctl with units := t.ctl.units }, evs := t.evs } := by
  have counted : (Vec.upd s.ctl.units c fun u => { u with staleRun := max u.staleRun 3 })[c] = _ := upd_same s.ctl.units c _
  refine ⟨_, whenOn_to hc ((if_pos hm).trans (enterHold_fresh c _ _ ((congrArg ChUnit.hold counted).trans hh)
    ((congrArg ChUnit.evHold counted).trans he))), ?_⟩
  simp only [lpeEvent, raise, upd_same]
  exact ⟨trivial, trivial, trivial, fun d hd => by simp only [upd_other _ c _ hd], trivial⟩

/-- A short found where it can be (R141, R142). -/
theorem shortDetect_found (c : ChIx) (ord : Nat) (s : State) (hs : shortSit s c = true) (hp : (s.ctl.ports[c]).stopHeld = false) :
    ((shortDetect c ord s).ctl.ports[c]).stopHeld = true ∧ ((shortDetect c ord s).ctl.ports[c]).sum.shorted = true ∧
      ((shortDetect c ord s).ctl.ports[c]).events = setBit (s.ctl.ports[c]).events 0 ∧
      (∀ d : ChIx, d ≠ c → (shortDetect c ord s).ctl.ports[d] = s.ctl.ports[d]) ∧
      shortDetect c ord s = { s with
        ctl := { s.ctl with ports := (shortDetect c ord s).ctl.ports, busSum := (shortDetect c ord s).ctl.busSum },
        evs := (shortDetect c ord s).evs } := by
  rw [show shortDetect c ord s = _ from if_pos ⟨hs, hp⟩]
  simp only [chpEvent, raise, upd_same]
  exact ⟨trivial, trivial, trivial, fun d hd => by simp only [upd_other _ c _ hd], trivial⟩

theorem exec_routeMismatch (c : ChIx) (s : State) (hc : s.isl.ctl = true)
    (h : ((s.map.ch[c]).kind = 2 ∧ ((s.fl.hand[c]).st = .settled ∨ (s.fl.hand[c]).st = .idle ∨ (s.fl.hand[c]).st = .out)) ∨
      ((s.map.ch[c]).kind = 0 ∧ (s.fl.hand[c]).st = .out)) : exec (.routeMismatch c) s = .next (setMismatch c s) := by
  show execRouteMismatch c s = _
  rw [execRouteMismatch, whenOn_on s hc]
  rcases h with ⟨hk, hs | hs | hs⟩ | ⟨hk, hs⟩ <;> (rw [hk, hs]; rfl)

theorem exec_routeMismatch_first (c : ChIx) (s : State) (hc : s.isl.ctl = true) (hm : (s.ctl.ports[c]).mismatch = false)
    (h : ((s.map.ch[c]).kind = 2 ∧ ((s.fl.hand[c]).st = .settled ∨ (s.fl.hand[c]).st = .idle ∨ (s.fl.hand[c]).st = .out)) ∨
      ((s.map.ch[c]).kind = 0 ∧ (s.fl.hand[c]).st = .out)) : ∃ t, exec (.routeMismatch c) s = .next t ∧
      (t.ctl.ports[c]).mismatch = true ∧ (t.ctl.ports[c]).cntMismatch = (s.ctl.ports[c]).cntMismatch + 1 ∧
      (t.ctl.ports[c]).events = (s.ctl.ports[c]).events ∧ (∀ d : ChIx, d ≠ c → t.ctl.ports[d] = s.ctl.ports[d]) ∧
      t = { s with ctl := { s.ctl with ports := t.ctl.ports }, evs := t.evs,
                   late := { s.late with chp := Vec.upd s.late.chp c fun w => setBit w 3 } } := by
  refine ⟨_, (exec_routeMismatch c s hc h).trans (congrArg _ (if_neg (Bool.eq_false_iff.mp hm))), ?_⟩
  simp only [chpLate, raise, upd_same]
  exact ⟨trivial, trivial, trivial, fun d hd => by simp only [upd_other _ c _ hd], trivial⟩

/-- Settles O26, event by event. -/
theorem channelEvents : Obligations.ChannelEvents := by
  unfold Obligations.ChannelEvents
  refine ⟨fun c s => exec_staleHold_fresh c s, fun c s hc hs hp => ?_, fun c s hc hs hp => ?_,
    fun c s => exec_routeMismatch_first c s, fun c s hc hm hk hs => ?_, fun v s hc => whenOn_on s hc⟩
  · exact ⟨_, whenOn_on s hc, shortDetect_found c (chOrd ((s.ctl.clu[cluOf c]).next - 1) c) s hs hp⟩
  · exact ⟨_, whenOn_on s hc, shortDetect_found c (chOrd 0 c) s hs hp⟩
  · exact (exec_routeMismatch c s hc (.inl ⟨hk, hs⟩)).trans (congrArg _ (if_pos hm))

/-! ### Commands of the ports (R131, R139, R145) -/

theorem exec_chpBusClear (c : ChIx) (s : State) (hc : s.isl.ctl = true) (hf : frontLow s = some c) (hk : (s.map.ch[c]).kind = 1)
    (h : s.fl.bus.st = .aborted) (hn : s.nx.bus.st = .aborted) : ∃ t, exec .chpBusClear s = .next t ∧
      t.nx = { s.nx with bus := { st := .off, entryFn := s.fn + 1, phi0 := 0 } } ∧
      t = { s with nx := t.nx, late := { s.late with chp := Vec.upd s.late.chp c fun w => setBit w 5 }, evs := t.evs } := by
  have front : frontLow { s with nx := { s.nx with bus := { st := .off, entryFn := s.fn + 1, phi0 := 0 } } } = some c := hf
  have go : busClear c s = busGo .off s := if_pos ⟨hk, h, hn⟩
  refine ⟨chpLate c 5 c.val { s with nx := { s.nx with bus := { st := .off, entryFn := s.fn + 1, phi0 := 0 } } }, ?_, rfl, rfl⟩
  show execChpBusClear s = _
  rw [execChpBusClear, whenOn_on s hc, hf]
  dsimp only
  rw [go, busGo]
  dsimp only
  rw [front]

/-- Settles O27, command by command. -/
theorem portCommands : Obligations.PortCommands := by
  unfold Obligations.PortCommands
  refine ⟨fun c b s hc ho => ?_, fun c b s hc ho => ?_, fun c b s hc => whenOn_on s hc, fun c s => exec_chpBusClear c s,
    fun s hs => ?_⟩
  · exact whenOn_to hc (if_neg (by rw [ho]; simp))
  · exact ⟨_, whenOn_to hc (if_pos (by rw [ho]; rfl)), rfl, rfl, rfl, rfl⟩
  · show execChpBusClear s = _
    refine whenOn_id ?_
    split
    · exact if_neg fun h => hs h.2.1
    · rfl

end Sys2Proof.Machine
end

section
/-! The yarder (chapter 3): the grid limit input and the timeouts of a handover (O28, O29). -/

namespace Sys2Proof.Machine

/-! ### The grid limit input (R64, R65) -/

/-- A state that agrees on the GLIM samples held and on the runs of R65. -/
def GlimSame (s u : State) : Prop :=
  u.alc.glimLast = s.alc.glimLast ∧ u.alc.lossRun = s.alc.lossRun ∧ u.alc.goodRun = s.alc.goodRun ∧ u.alc.glimLoss = s.alc.glimLoss

theorem glimEdges_glimSame (edges : List Nat) (s : State) : GlimSame s (glimEdges edges s).2 := by
  unfold glimEdges
  dsimp only
  split <;> exact ⟨rfl, rfl, rfl, rfl⟩

/-- The runs and the median of R65 after a sample of the quantity r, from a state u before it. -/
def glimTake (p : PinCfg) (r : Nat) (u : State) : State :=
  let lr := if (glimConvert p r).2.2 then u.alc.lossRun + 1 else 0
  let gr := if (glimConvert p r).2.2 then 0 else u.alc.goodRun + 1
  glimLive { u with alc := { u.alc with
    glimLast := ((glimConvert p r).2.1 :: u.alc.glimLast).take 3, glimRaw := (glimConvert p r).1 % 2 ^ 24,
    lossRun := min lr 3, goodRun := min gr 3,
    glimLoss := if 3 ≤ lr then true else if 3 ≤ gr then false else u.alc.glimLoss } }

/-- A GLIM sample takes the ADC code or the frequency of the edges, as the mode of the input says (R65). -/
theorem glimSample_take (raw r : Nat) (edges : List Nat) (p : PinCfg) (s : State) (hp : glimPin s = some p)
    (hr : r = if p.glimMode ≤ 2 then raw else (glimEdges edges s).1) :
    ∃ u, GlimSame s u ∧ glimSample raw edges s = glimTake p r u := by
  unfold glimSample
  rw [hp]
  dsimp only
  by_cases hm : p.glimMode ≤ 2
  · rw [if_pos hm] at hr
    simp only [if_pos hm, ← hr]
    exact ⟨if decide (p.glimMode ≤ 2) && (decide (r % 4096 = 0) || decide (r % 4096 = 4095)) then
      { s with hkp := { s.hkp with clampAt := some (s.fn, 0) } } else s, by split <;> exact ⟨rfl, rfl, rfl, rfl⟩, by split <;> rfl⟩
  · rw [if_neg hm] at hr
    simp only [if_neg hm, ← hr, decide_eq_false hm, Bool.false_and]
    exact ⟨(glimEdges edges s).2, glimEdges_glimSame edges s, rfl⟩

theorem glimTake_good (p : PinCfg) (r : Nat) (u : State) (hb : (glimConvert p r).2.2 = false) :
    (glimTake p r u).alc.lossRun = 0 ∧ (glimTake p r u).alc.goodRun = min (u.alc.goodRun + 1) 3 ∧
      (2 ≤ u.alc.goodRun → (glimTake p r u).alc.glimLoss = false) := by
  unfold glimTake
  simp only [hb, glimLive]
  refine ⟨rfl, rfl, fun h => ?_⟩
  exact (if_neg (by simp)).trans (if_pos (by simpa using h))

theorem glimTake_bad (p : PinCfg) (r : Nat) (u : State) (hb : (glimConvert p r).2.2 = true) :
    (glimTake p r u).alc.goodRun = 0 ∧ (glimTake p r u).alc.lossRun = min (u.alc.lossRun + 1) 3 ∧
      (2 ≤ u.alc.lossRun → (glimTake p r u).alc.glimLoss = true) := by
  unfold glimTake
  simp only [hb, glimLive]
  exact ⟨rfl, rfl, fun h => if_pos (by simpa using h)⟩

theorem exec_setGlimLoss {c : Instr} {b : Bool} {p : PinCfg} (s : State) (hc : s.isl.ctl = true) (hp : glimPin s = some p)
    (h : exec c s = whenOn s.isl.ctl s fun s => if (glimPin s).isSome then setGlimLoss b s else s) :
    ∃ t, exec c s = .next t ∧ t.alc.glimLoss = b ∧ t.live.glim.loss = b ∧
      t = { s with alc := t.alc, live := { s.live with glim := t.live.glim } } := by
  refine ⟨setGlimLoss b s, h.trans (whenOn_to hc (if_pos ?_)), rfl, rfl, rfl⟩
  rw [hp]
  rfl

/-- Settles O28: a sample is `glimTake` on the quantity that the mode names. -/
theorem glimSamples : Obligations.GlimSamples := by
  unfold Obligations.GlimSamples
  refine ⟨fun raw r edges p s hc hp hr hb => ?_, fun raw r edges p s hc hp hr hb => ?_, fun raw edges s hp => whenOn_id ?_,
    fun x n s hn he => ?_, fun s h => ?_, fun n s h hp => ?_, fun p s hc hp => exec_setGlimLoss s hc hp rfl,
    fun p s hc hp => exec_setGlimLoss s hc hp rfl, fun s hc => ?_⟩
  · obtain ⟨u, ⟨last, -, good, -⟩, taken⟩ := glimSample_take raw r edges p s hp hr
    obtain ⟨h1, h2, h3⟩ := glimTake_good p r u hb
    rw [good] at h2 h3
    exact ⟨_, whenOn_to hc taken, by rw [← last]; rfl, h1, h2, h3, rfl, rfl⟩
  · obtain ⟨u, ⟨-, lost, -, -⟩, taken⟩ := glimSample_take raw r edges p s hp hr
    obtain ⟨h1, h2, h3⟩ := glimTake_bad p r u hb
    rw [lost] at h2 h3
    exact ⟨_, whenOn_to hc taken, h1, h2, h3, rfl⟩
  · show glimSample raw edges s = s
    unfold glimSample
    rw [hp]
  · simp [glimEdges, he, Nat.add_assoc]
  · simp [glimEdges, h]
  · simp [glimEdges, Nat.not_le.mpr h, hp]
  · show execXfmrStaleTimeout s = _
    rw [execXfmrStaleTimeout, whenOn_on s hc]

/-! ### Handover timeouts (R80, R81, R134) -/

theorem toIdle_quiet (c : ChIx) (h : Hand) (s : State) : ((toIdle c h false s).nx.hand[c]).st = .idle ∧
    ((toIdle c h false s).nx.hand[c]).cause = 0 ∧ ((toIdle c h false s).nx.hand[c]).word = none ∧
    (∀ d : ChIx, d ≠ c → (toIdle c h false s).nx.hand[d] = s.nx.hand[d]) ∧
    toIdle c h false s = { s with nx := { s.nx with hand := (toIdle c h false s).nx.hand }, evs := (toIdle c h false s).evs } := by
  have at_ : ∀ g : Hand, (s.nx.hand.set c g)[c] = g := fun g => by simp
  refine ⟨congrArg Hand.st (at_ _), congrArg Hand.cause (at_ _), congrArg Hand.word (at_ _), fun d hd => ?_, rfl⟩
  exact Vector.getElem_set_ne c.isLt d.isLt fun e => hd (Fin.ext e.symm)

/-- Settles O29, row by row of the handover. -/
theorem handoverTimeoutsAndClear : Obligations.HandoverTimeoutsAndClear := by
  unfold Obligations.HandoverTimeoutsAndClear
  refine ⟨fun c s hc hf hn => ?_, fun c s hc hf hn => ?_, fun c s hc hf hn => ?_, fun c s hc hf hn => ?_, fun c s hc hf hn => ?_,
    fun c s hf => ?_, fun c s hc hf hn ho hl hi => ?_, fun c s hc hf hn ho => ?_, fun c s hf => ?_⟩
  · exact whenOn_to hc (if_pos ⟨hf, hn⟩)
  · show execRouteFeedbackTimeout c s = _
    rw [execRouteFeedbackTimeout, whenOn_on s hc]
    simp only [hf, hn]
    rfl
  · show execRouteFeedbackTimeout c s = _
    rw [execRouteFeedbackTimeout, whenOn_on s hc]
    simp only [hf, hn]
    rfl
  · exact whenOn_to hc (if_pos ⟨hf, hn⟩)
  · exact whenOn_to hc (if_pos ⟨hf, hn⟩)
  · refine ⟨whenOn_id (if_neg ?_), whenOn_id (if_neg ?_), whenOn_id (if_neg ?_), ?_⟩
    iterate 3 rw [hf]; simp
    · show execRouteFeedbackTimeout c s = _
      unfold execRouteFeedbackTimeout
      refine whenOn_id ?_
      dsimp only
      rw [hf]
      exact ite_self s
  · refine ⟨toIdle c s.fl.hand[c] false s, whenOn_to hc ?_, toIdle_quiet c _ s⟩
    refine (if_neg (by rw [hf, hn]; simp)).trans ((if_pos ho).trans (if_neg (by rw [hl, hi]; simp)))
  · refine ⟨_, whenOn_to hc ((if_neg (by rw [hf, hn]; simp)).trans (if_neg (by rw [ho]; simp))), rfl, rfl, rfl⟩
  · exact whenOn_id (if_pos (.inl hf))

end Sys2Proof.Machine
end

section
/-! Outlet sequencers (chapter 6): the pilot inputs (O30), and why three statements on the rows of R153 fail (O31 to O33):
`OsqReady` says nothing of a sequencer that waits for the judgement of its contactor after a restart (R166 step 6), and
no row and no command moves it then. -/

namespace Sys2Proof.Machine

/-- Settles O30, input by input. -/
theorem pilotInputs : Obligations.PilotInputs := by
  unfold Obligations.PilotInputs
  refine ⟨fun o h l d per pp s hc => whenOn_on s hc, fun o b s hc hq => whenOn_to hc (if_pos hq),
    fun o b s hc hq => whenOn_to hc (if_pos hq), fun o b s hq => ?_⟩
  have off : ¬ cpSquare s o = true := by simp [hq]
  exact ⟨whenOn_id (if_neg off), whenOn_id (if_neg off)⟩

/-! ### A sequencer that starts -/

/-- No row of R153 moves a sequencer that starts. -/
theorem osqRow_starting (o : OutIx) (ok : Osq → Bool) (f : Osq → State → State) (s : State) (h : (s.nx.osq[o]).starting = true) :
    osqRow o ok f s = .next s := by
  unfold osqRow
  refine whenOn_id ?_
  dsimp only
  rw [h]
  simp

/-- A latched disable outside a restart window leaves such a sequencer unmoved. -/
theorem osqDisable_starting (o : OutIx) (s : State) (hc : s.isl.ctl = true) (hw : s.fwu.window = none)
    (h : (s.nx.osq[o]).starting = true) : exec (.osqDisable o) s =
      .next (setOsq o { s.nx.osq[o] with hostEnabled := false, enPending := false } s) := by
  show execOsqDisable o s = _
  rw [execOsqDisable, whenOn_on s hc]
  unfold osqCommand
  rw [hw]
  exact congrArg _ (if_pos (Or.inr (Or.inl h)))

/-- The package in operation with outlet 0 in a state of R152, right after its restart (R166 step 6). -/
def restarted (x : OSt) : State :=
  { State.reset with
    isl := { State.reset.isl with ctl := true },
    fl := { State.reset.fl with osq := State.reset.fl.osq.set 0 { st := x, starting := true } },
    nx := { State.reset.nx with osq := State.reset.nx.osq.set 0 { st := x, starting := true } } }

theorem restarted_ready (x : OSt) : OsqReady (restarted x) 0 := ⟨rfl, rfl, rfl, rfl⟩

theorem restarted_starting (x : OSt) : ((restarted x).nx.osq[(0 : OutIx)]).starting = true := rfl

theorem restarted_unmoved (x : OSt) : ((restarted x).nx.osq[(0 : OutIx)]).moved = false := rfl

/-- A row that leaves the outlet where it is, right after the restart, is no transition. -/
theorem not_osqMoves_restarted {x y : OSt} {code : Nat} {a : Ans} (h : a = .next (restarted x)) :
    ¬ ∃ t, a = .next t ∧ OsqMoves 0 y code (restarted x) t := by
  rintro ⟨t, ht, moves⟩
  obtain rfl : restarted x = t := Host.Outcome.next.inj (h.symm.trans ht)
  exact absurd ((restarted_unmoved x).symm.trans moves.moved) (by decide)

/-- Refutes O31: a passed cable check does not move an outlet in CABLE_CHECK that starts. -/
theorem not_outletTimeouts : ¬ Obligations.OutletTimeouts := by
  unfold Obligations.OutletTimeouts
  rintro ⟨-, -, passed, -⟩
  obtain ⟨t, ht, moves, -⟩ := passed 0 (restarted .cableCheck) (restarted_ready _) rfl
  have stays : exec (.cableCheckPassed 0) (restarted .cableCheck) = .next (restarted .cableCheck) :=
    osqRow_starting 0 (fun q => q.st = .cableCheck) (osqPrecharge 0) _ (restarted_starting _)
  exact not_osqMoves_restarted stays ⟨t, ht, moves⟩

/-- Refutes O32: an outlet that a trip took to FAULT while it starts keeps that state when its contactor does not open. -/
theorem not_contactorFailures : ¬ Obligations.ContactorFailures := by
  unfold Obligations.ContactorFailures
  rintro ⟨-, stuck, -⟩
  obtain ⟨t, ht, moves, -⟩ := stuck 0 (restarted .fault) (restarted_ready _) (.inr (.inl rfl))
  have stays : exec (.contactorTimeout 0) (restarted .fault) = .next (restarted .fault) :=
    osqRow_starting 0 (fun _ => true) (osqContactor 0) _ (restarted_starting _)
  exact not_osqMoves_restarted stays ⟨t, ht, moves⟩

/-- Refutes O33: a disable does not move an outlet in UNPLUG_WAIT that starts. -/
theorem not_outletCommands : ¬ Obligations.OutletCommands := by
  unfold Obligations.OutletCommands
  rintro ⟨-, disable, -⟩
  obtain ⟨t, ht, moves, -⟩ := disable 0 (restarted .unplugWait) (restarted_ready _) rfl (by decide)
  have answer := osqDisable_starting 0 (restarted .unplugWait) rfl rfl (restarted_starting _)
  obtain rfl := Host.Outcome.next.inj (answer.symm.trans ht)
  exact absurd moves.moved (by decide)

end Sys2Proof.Machine
end

section
/-! The vehicle links (chapter 7): the medium of a port, its transport and its requests (O34, O36, O37). -/

namespace Sys2Proof.Machine

/-! ### Tables changed twice, or not at all -/

theorem upd_upd {α : Type} {n : Nat} (v : Vector α n) (i : Fin n) (f g : α → α) :
    Vec.upd (Vec.upd v i f) i g = Vec.upd v i fun x => g (f x) := by
  simp [Vec.upd]

theorem upd_of_fixed {α : Type} {n : Nat} (v : Vector α n) (i : Fin n) (f : α → α) (h : f v[i] = v[i]) : Vec.upd v i f = v := by
  rw [Vec.upd, h]
  simp

theorem mapIx_get {α β : Type} {n : Nat} (v : Vector α n) (f : Fin n → α → β) (j : Fin n) : (Vec.mapIx v f)[j] = f j v[j] := by
  simp [Vec.mapIx]

/-- Two tables are equal where all their elements are. -/
theorem vec_ext {α : Type} {n : Nat} {v w : Vector α n} (h : ∀ j : Fin n, v[j] = w[j]) : v = w :=
  Vector.ext fun i hi => h ⟨i, hi⟩

/-! ### The rows of a link -/

theorem linkRow_lead {o : OutIx} {ok : State → Bool} {f : State → State} {s : State} (hc : s.isl.com = true)
    (hl : isLead s = true) (hp : portOn s o = true) (hk : ok s = true) : linkRow o ok f s = .next (f s) :=
  whenOn_to hc ((if_pos (by rw [hp, hk]; rfl)).trans (if_pos hl))

theorem linkRow_follow {o : OutIx} {ok : State → Bool} {f : State → State} {s : State} (hc : s.isl.com = true)
    (hl : isLead s = false) (hp : portOn s o = true) (hk : ok s = true) : linkRow o ok f s = .next (shadow f s) :=
  whenOn_to hc ((if_pos (by rw [hp, hk]; rfl)).trans (if_neg (by rw [hl]; simp)))

theorem linkRow_off {o : OutIx} {ok : State → Bool} {f : State → State} {s : State} (hp : portOn s o = false) :
    linkRow o ok f s = .next s :=
  whenOn_id (if_neg (by rw [hp]; simp))

theorem linkRow_not {o : OutIx} {ok : State → Bool} {f : State → State} {s : State} (hk : ok s = false) :
    linkRow o ok f s = .next s :=
  whenOn_id (if_neg (by rw [hk]; simp))

theorem v2gRow_off {o : OutIx} {f : State → State} {s : State} (hp : portOn s o = false) : v2gRow o f s = .next s := linkRow_off hp

theorem heardRow_on {o : OutIx} {ok : State → Bool} {f : State → State} {s : State} (hc : s.isl.com = true)
    (hp : portOn s o = true) (hk : ok s = true) : heardRow o ok f s = .next (f s) :=
  whenOn_to hc (if_pos (by rw [hp, hk]; rfl))

theorem heardRow_off {o : OutIx} {ok : State → Bool} {f : State → State} {s : State} (hp : portOn s o = false) :
    heardRow o ok f s = .next s :=
  whenOn_id (if_neg (by rw [hp]; simp))

/-- What a follower keeps of a change of one port: the arrivals, and the gap. -/
theorem shadow_eq {f : State → State} {s : State} {o : OutIx} (g : Vlk → Vlk) (h : (f s).vlk = Vec.upd s.vlk o g) :
    shadow f s = { s with
      arrived := (f s).arrived, freeIx := (f s).freeIx, vlk := Vec.upd s.vlk o fun v => { v with gap := (g v).gap } } := by
  have gaps : (Vec.mapIx s.vlk fun o v => { v with gap := ((f s).vlk[o]).gap }) =
      Vec.upd s.vlk o fun v => { v with gap := (g v).gap } := by
    refine vec_ext fun j => ?_
    rw [mapIx_get, h, upd_get, upd_get]
    split <;> rfl
  unfold shadow
  dsimp only
  rw [gaps]

/-- A follower whose gap stays keeps the arrivals only. -/
theorem shadow_of_gap {f : State → State} {s : State} (h : ∀ o : OutIx, ((f s).vlk[o]).gap = (s.vlk[o]).gap) :
    shadow f s = { s with arrived := (f s).arrived, freeIx := (f s).freeIx } := by
  have gaps : (Vec.mapIx s.vlk fun o v => { v with gap := ((f s).vlk[o]).gap }) = s.vlk := by
    refine vec_ext fun j => ?_
    rw [mapIx_get, h]
  unfold shadow
  dsimp only
  rw [gaps]

/-- The coded length of the next message that arrives (R188). -/
def codedLength (s : State) : Nat := 1 + Config.freeNat s.freeIx % 8192

theorem codedLength_pos (s : State) : 1 ≤ codedLength s := Nat.le_add_right 1 _

theorem codedLength_le (s : State) : codedLength s ≤ 8192 := by
  have := Nat.mod_lt (Config.freeNat s.freeIx) (show 0 < 8192 by decide)
  unfold codedLength
  omega

theorem arriveVeh_eq (o : OutIx) (m : VehMsg) (s : State) : arriveVeh o m s =
    { s with arrived := s.arrived ++ [.vehicle o m (codedLength s)], freeIx := s.freeIx + 1 } := rfl

theorem onVlk_onVlk (o : OutIx) (f g : Vlk → Vlk) (s : State) : onVlk o g (onVlk o f s) = onVlk o (fun v => g (f v)) s := by
  simp only [onVlk, upd_upd]

/-- Transport that closes, after another change of the port (R185). -/
theorem loseLink_onVlk (o : OutIx) (f : Vlk → Vlk) (s : State) : loseLink o (onVlk o f s) = { s with
    vlk := Vec.upd s.vlk o fun v => { f v with tcp := false, tls := false, session := false, layer := .none },
    arrived := s.arrived ++ [.vehicle o .linkLost (codedLength s)], freeIx := s.freeIx + 1 } := by
  unfold loseLink
  rw [onVlk_onVlk]
  rfl

/-! ### The medium and the gap (R174, R185, R193, R196) -/

/-- The loss of the AVLN at a port: its match and its transport end, and what was bound to it leaves the runs (R185). -/
def avlnLoss (o : OutIx) (s : State) : State :=
  loseLink o { onVlk o (fun v => { v with matched := false }) s with slac := s.slac.filter fun r => r.bound ≠ some o }

theorem avlnLoss_eq (o : OutIx) (s : State) : avlnLoss o s = { s with
    vlk := Vec.upd s.vlk o fun v => { v with matched := false, tcp := false, tls := false, session := false, layer := .none },
    slac := s.slac.filter fun r => r.bound ≠ some o,
    arrived := s.arrived ++ [.vehicle o .linkLost (codedLength s)], freeIx := s.freeIx + 1 } :=
  loseLink_onVlk o (fun v => { v with matched := false }) { s with slac := s.slac.filter fun r => r.bound ≠ some o }

theorem exec_avlnLost_lead (o : OutIx) (s : State) (hc : s.isl.com = true) (hl : isLead s = true) (hp : portOn s o = true)
    (hd : (s.map.out[o]).link = 2 ∨ (s.vlk[o]).t1sUp = false) : exec (.avlnLost o) s = .next (avlnLoss o s) := by
  show execAvlnLost o s = _
  exact linkRow_lead hc hl hp (by simpa using hd)

theorem exec_avlnLost_follow (o : OutIx) (s : State) (hc : s.isl.com = true) (hl : isLead s = false) (hp : portOn s o = true)
    (hd : (s.map.out[o]).link = 2 ∨ (s.vlk[o]).t1sUp = false) : exec (.avlnLost o) s = .next { s with
      arrived := s.arrived ++ [.vehicle o .linkLost (codedLength s)], freeIx := s.freeIx + 1 } := by
  have row : exec (.avlnLost o) s = .next (shadow (avlnLoss o) s) := by
    show execAvlnLost o s = _
    exact linkRow_follow hc hl hp (by simpa using hd)
  have gap : ∀ p : OutIx, ((avlnLoss o s).vlk[p]).gap = (s.vlk[p]).gap := fun p => by
    rw [avlnLoss_eq]
    exact upd_proj Vlk.gap s.vlk o p _ fun _ => rfl
  rw [row, shadow_of_gap gap, avlnLoss_eq]

/-- A row that moves the gap of a linked port does so in both packages. -/
theorem linkRow_gap (o : OutIx) (ok : State → Bool) (g : Vlk → Nat) (s : State) (hc : s.isl.com = true) (hp : portOn s o = true)
    (hk : ok s = true) : linkRow o ok (onVlk o fun v => { v with gap := g v }) s =
      .next { s with vlk := Vec.upd s.vlk o fun v => { v with gap := g v } } := by
  cases hl : isLead s with
  | true => exact linkRow_lead hc hl hp hk
  | false =>
    refine (linkRow_follow hc hl hp hk).trans (congrArg _ ?_)
    exact shadow_eq (fun v => { v with gap := g v }) rfl

theorem linkReset_effect (o : OutIx) (s : State) : ((linkReset o s).vlk[o]).tcp = false ∧ ((linkReset o s).vlk[o]).tls = false ∧
    ((linkReset o s).vlk[o]).session = false ∧ ((linkReset o s).fl.veh[o]).linkLost = true ∧
    ((linkReset o s).nx.veh[o]).linkLost = true ∧
    (∀ p : OutIx, p ≠ o → (linkReset o s).vlk[p] = s.vlk[p] ∧ (linkReset o s).fl.veh[p] = s.fl.veh[p] ∧
      (linkReset o s).nx.veh[p] = s.nx.veh[p]) ∧
    linkReset o s = { s with
      vlk := (linkReset o s).vlk, fl := { s.fl with veh := (linkReset o s).fl.veh },
      nx := { s.nx with veh := (linkReset o s).nx.veh }, evs := (linkReset o s).evs } := by
  by_cases hl : (s.fl.veh[o]).linkLost = true
  · have e : linkReset o s = { onVlk o (fun v => { v with tcp := false, tls := false, session := false, layer := .none }) s with
        nx := { s.nx with veh := Vec.upd s.nx.veh o fun v => { v with linkLost := true } } } := by
      unfold linkReset latchLost
      dsimp only
      rw [if_pos (show ((onVlk o _ s).fl.veh[o]).linkLost = true from hl)]
      rfl
    rw [e]
    simp only [onVlk, upd_same]
    exact ⟨trivial, trivial, trivial, hl, trivial,
      fun p hp => ⟨upd_other _ o _ hp, trivial, upd_other _ o _ hp⟩, trivial⟩
  · have e : linkReset o s = { vlkInt o 6 (onVeh o (fun v => { v with linkLost := true })
        (onVlk o (fun v => { v with tcp := false, tls := false, session := false, layer := .none }) s)) with
        nx := { s.nx with veh := Vec.upd s.nx.veh o fun v => { v with linkLost := true } } } := by
      unfold linkReset latchLost
      dsimp only
      rw [if_neg (show ¬ ((onVlk o _ s).fl.veh[o]).linkLost = true from hl)]
      rfl
    rw [e]
    simp only [onVlk, vlkInt, raise, onVeh, upd_upd, upd_same]
    exact ⟨trivial, trivial, trivial, trivial, trivial,
      fun p hp => ⟨upd_other _ o _ hp, upd_other _ o _ hp, upd_other _ o _ hp⟩, trivial⟩

/-- Settles O34, row by row; a follower's part of each row is its `shadow`. -/
theorem linkMedium : Obligations.LinkMedium := by
  unfold Obligations.LinkMedium
  refine ⟨fun o s hc hp hk => ?_, fun o s hc hp hk => ?_,
    fun o s hc hl hp hd => ⟨_, _, exec_avlnLost_lead o s hc hl hp hd, codedLength_pos s, codedLength_le s, avlnLoss_eq o s⟩,
    fun o s hc hl hp hd => ⟨_, _, exec_avlnLost_follow o s hc hl hp hd, codedLength_pos s, codedLength_le s, rfl⟩,
    fun o s hp => ⟨show execT1sLinkUp o s = _ from heardRow_off hp, show execT1sLinkDown o s = _ from heardRow_off hp,
      show execAvlnLost o s = _ from linkRow_off hp, show execSeccDiscovery o s = _ from linkRow_off hp,
      show execTcpConnect o s = _ from linkRow_off hp, show execCableCheckReq o s = _ from v2gRow_off hp,
      show execSessionStopReq o s = _ from v2gRow_off hp, show execV2gRequest o none s = _ from linkRow_off hp⟩,
    fun o s hc hp hs => ⟨?_, ?_⟩, fun o s hc => ⟨_, whenOn_on s hc, linkReset_effect o s⟩⟩
  · show execT1sLinkUp o s = _
    cases hu : (s.vlk[o]).t1sUp with
    | false => exact heardRow_on hc hp (by rw [hu, hk]; rfl)
    | true =>
      rw [upd_of_fixed _ _ _ (by rw [← hu])]
      refine whenOn_id (if_neg ?_)
      dsimp only
      rw [hu]
      simp
  · show execT1sLinkDown o s = _
    exact heardRow_on hc hp (by simpa using hk)
  · exact linkRow_gap o (fun s => (s.fl.osq[o]).st.linked) (fun v => max v.gap 2001) s hc hp hs
  · refine ⟨_, linkRow_gap o (fun s => (s.fl.osq[o]).st.linked) (fun v => max v.gap (seqMs v + 1)) s hc hp hs, ?_⟩
    simp only [upd_same]
    exact ⟨Nat.lt_of_succ_le (le_max_right _ _), le_max_left _ _, rfl⟩

end Sys2Proof.Machine
end

section
/-! The vehicle links (chapter 7): transport and requests (O36, O37). -/

namespace Sys2Proof.Machine

/-! ### Transport (R186, R187, R192) -/

/-- A key that the engine uses stands first in the cache, which holds at most eight keys (R373). -/
theorem useKey_cache (k : Fin 128) (e : List Byte) (s : State) : (useKey k e s).2 =
    { s with hwd := { s.hwd with cache := (useKey k e s).2.hwd.cache } } ∧
    ((useKey k e s).2.hwd.cache.head?.map (·.1)) = some k ∧ (useKey k e s).2.hwd.cache.length ≤ 8 :=
  ⟨rfl, rfl, List.length_take_le 8 _⟩

theorem exec_tlsHandshake_good (o : OutIx) (k : Fin 128) (e : List Byte) (s : State) (hc : s.isl.com = true) (hl : isLead s = true)
    (hp : portOn s o = true) (ht : (s.vlk[o]).tcp = true) (hr : tlsReady s o = true) (he : tlsEntry s o = some (k, e)) :
    exec (.tlsHandshake o true) s = .next (onVlk o (fun v => { v with tls := true }) (useKey k e s).2) := by
  show execTlsHandshake o true s = _
  refine (linkRow_lead hc hl hp ht).trans (congrArg _ ?_)
  unfold tlsServe
  rw [he]
  exact if_pos (by rw [hr]; rfl)

theorem exec_tlsHandshake_bad (o : OutIx) (ok : Bool) (s : State) (hc : s.isl.com = true) (hl : isLead s = true)
    (hp : portOn s o = true) (ht : (s.vlk[o]).tcp = true) (h : ok = false ∨ tlsReady s o = false ∨ tlsEntry s o = none) :
    exec (.tlsHandshake o ok) s = .next (vlkInt o 7 (loseLink o s)) := by
  show execTlsHandshake o ok s = _
  refine (linkRow_lead hc hl hp ht).trans (congrArg _ ?_)
  unfold tlsServe
  split
  · next k e he =>
    refine if_neg ?_
    rcases h with h | h | h
    · simp [h]
    · simp [h]
    · simp [h] at he
  · rfl

/-- A port whose link is lost, with a bit of its status (R185, R195). -/
theorem vlkInt_loseLink (o : OutIx) (b : Nat) (s : State) : ((vlkInt o b (loseLink o s)).vlk[o]).tcp = false ∧
    ((vlkInt o b (loseLink o s)).vlk[o]).tls = false ∧ ((vlkInt o b (loseLink o s)).vlk[o]).layer = .none ∧
    ((vlkInt o b (loseLink o s)).vlk[o]).intStatus = setBit (s.vlk[o]).intStatus b ∧
    ((vlkInt o b (loseLink o s)).vlk[o]).decodeErr = (s.vlk[o]).decodeErr ∧
    ((vlkInt o b (loseLink o s)).vlk[o]).resp = (s.vlk[o]).resp ∧
    (vlkInt o b (loseLink o s)).arrived = s.arrived ++ [.vehicle o .linkLost (codedLength s)] := by
  have ports : (vlkInt o b (loseLink o s)).vlk[o] = { s.vlk[o] with
      tcp := false, tls := false, session := false, layer := .none, intStatus := setBit (s.vlk[o]).intStatus b } := by
    simp only [vlkInt, raise, loseLink, arriveVeh, State.fresh, onVlk, upd_upd, upd_same]
  rw [ports]
  exact ⟨rfl, rfl, rfl, rfl, rfl, rfl, rfl⟩

/-- The layers offered depend on no gap. -/
theorem offered_gap (o : OutIx) (n : Nat) (s : State) : offered (onVlk o (fun v => { v with gap := n }) s) o = offered s o := by
  have cfg : ((onVlk o (fun v => { v with gap := n }) s).vlk[o]).sessCfg = (s.vlk[o]).sessCfg :=
    upd_proj Vlk.sessCfg s.vlk o o _ fun _ => rfl
  have link : ((onVlk o (fun v => { v with gap := n }) s).vlk[o]).sessLink = (s.vlk[o]).sessLink :=
    upd_proj Vlk.sessLink s.vlk o o _ fun _ => rfl
  unfold offered tlsReady tlsSlot
  rw [cfg, link]
  rfl

/-- The layer that a port takes from an offer (R186). -/
def agreed (s : State) (o : OutIx) (ls : List Layer) : Option Layer :=
  (offered s o).find? fun l => ls.contains l && ((s.vlk[o]).tls = decide (l = .iso20))

/-- The port after an offer (R186). -/
def appProtocol (o : OutIx) (ls : List Layer) (s : State) : State :=
  match agreed s o ls with
  | some l => vlkInt o 3 (onVlk o (fun v => { v with gap := 0, layer := l }) s)
  | none => onVlk o (fun v => { v with gap := 0 }) s

theorem exec_supportedAppProtocolReq (o : OutIx) (ls : List Layer) (s : State) (hc : s.isl.com = true) (hl : isLead s = true)
    (hp : portOn s o = true) (ht : (s.vlk[o]).tcp = true) :
    exec (.supportedAppProtocolReq o ls) s = .next (appProtocol o ls s) := by
  show execSupportedAppProtocolReq o ls s = _
  refine (linkRow_lead hc hl hp ht).trans (congrArg _ ?_)
  have tls : ((onVlk o (fun v => { v with gap := 0 }) s).vlk[o]).tls = (s.vlk[o]).tls := upd_proj Vlk.tls s.vlk o o _ fun _ => rfl
  dsimp only
  rw [offered_gap, tls]
  unfold appProtocol agreed
  split
  · next l hl => simp only [hl, onVlk_onVlk]
  · next hl => simp only [hl]

theorem appProtocol_frame (o : OutIx) (ls : List Layer) (s : State) : ((appProtocol o ls s).vlk[o]).gap = 0 ∧
    appProtocol o ls s = { s with vlk := (appProtocol o ls s).vlk, evs := (appProtocol o ls s).evs } ∧
    (∀ p : OutIx, p ≠ o → (appProtocol o ls s).vlk[p] = s.vlk[p]) := by
  unfold appProtocol
  split <;> simp only [vlkInt, raise, onVlk, upd_upd, upd_same]
  · exact ⟨trivial, trivial, fun p hp => upd_other _ o _ hp⟩
  · exact ⟨trivial, trivial, fun p hp => upd_other _ o _ hp⟩

theorem appProtocol_layer (o : OutIx) (ls : List Layer) (s : State) :
    ((appProtocol o ls s).vlk[o]).layer = (agreed s o ls).getD (s.vlk[o]).layer := by
  unfold appProtocol
  split <;> rename_i h <;> rw [h] <;> simp only [vlkInt, raise, onVlk, upd_upd, upd_same] <;> rfl

/-- In TLS only ISO 15118-20 can be agreed (R186). -/
theorem agreed_iso20 (o : OutIx) (ls : List Layer) (s : State) (ho : .iso20 ∈ offered s o) (hl : .iso20 ∈ ls)
    (ht : (s.vlk[o]).tls = true) : agreed s o ls = some .iso20 := by
  unfold agreed
  rw [ht]
  cases h : (offered s o).find? fun l => ls.contains l && (true = decide (l = .iso20)) with
  | none => exact absurd (List.find?_eq_none.mp h _ ho) (by simp [hl])
  | some l =>
    have := List.find?_some h
    simp at this
    rw [this.2]

/-- The list of layers that three conditions make (R186), in the order of preference. -/
def layersOf (x y z : Bool) : List Layer :=
  (if x then [.iso20] else []) ++ (if y then [.iso2] else []) ++ (if z then [.din70121] else [])

theorem offered_layersOf (s : State) (o : OutIx) : ∃ x y z, offered s o = layersOf x y z := ⟨_, _, _, rfl⟩

theorem mem_layersOf (x y z : Bool) : (.iso2 ∈ layersOf x y z ↔ y = true) ∧ (.din70121 ∈ layersOf x y z ↔ z = true) := by
  cases x <;> cases y <;> cases z <;> decide

theorem find_layersOf (x y z : Bool) (p : Layer → Bool) (h : p .iso20 = false) : (layersOf x y z).find? p =
    if y = true ∧ p .iso2 = true then some .iso2 else if z = true ∧ p .din70121 = true then some .din70121 else none := by
  unfold layersOf
  simp only [List.find?_append]
  cases x <;> cases y <;> cases z <;> cases h2 : p .iso2 <;> cases h1 : p .din70121 <;> simp [h, h1, h2]

/-- Without TLS ISO 15118-2 goes before DIN 70121, and ISO 15118-20 cannot be agreed (R186). -/
theorem agreed_plain (o : OutIx) (ls : List Layer) (s : State) (ht : (s.vlk[o]).tls = false) :
    agreed s o ls = if .iso2 ∈ offered s o ∧ .iso2 ∈ ls then some .iso2
      else if .din70121 ∈ offered s o ∧ .din70121 ∈ ls then some .din70121 else none := by
  obtain ⟨x, y, z, ho⟩ := offered_layersOf s o
  unfold agreed
  rw [ht, ho, find_layersOf x y z _ (by simp)]
  simp [mem_layersOf]

theorem agreed_none (o : OutIx) (ls : List Layer) (s : State) (h : ∀ l ∈ offered s o, l ∉ ls) : agreed s o ls = none :=
  List.find?_eq_none.mpr fun l hl => by simp [h l hl]

/-- Settles O36, row by row of the lead's port. -/
theorem transport : Obligations.Transport := by
  unfold Obligations.Transport
  refine ⟨fun o s hc hl hp hr => show execSeccDiscovery o s = _ from linkRow_lead hc hl hp hr,
    fun o s hc hl hp hr ht => show execTcpConnect o s = _ from linkRow_lead hc hl hp (by rw [hr, ht]; rfl),
    fun o s hc hl hp ht => ?_, fun o s hc hl hp ht => ?_, fun o k e s hc hl hp ht hr he => ?_, fun o ok s hc hl hp ht h => ?_,
    fun o ls s hc hl hp ht => ?_⟩
  · refine ⟨_, codedLength s, show execTcpRetransmitLimit o s = _ from linkRow_lead hc hl hp ht, codedLength_pos s, codedLength_le s, ?_⟩
    exact loseLink_onVlk o (fun v => { v with retrans := v.retrans + 4 }) s
  · exact ⟨_, codedLength s, show execTcpConnectionClosed o s = _ from linkRow_lead hc hl hp ht, codedLength_pos s, codedLength_le s, rfl⟩
  · obtain ⟨frame, first, short⟩ := useKey_cache k e s
    exact ⟨_, exec_tlsHandshake_good o k e s hc hl hp ht hr he, by rw [frame]; rfl, first, short⟩
  · obtain ⟨tcp, tls, -, bit, -, -, lost⟩ := vlkInt_loseLink o 7 s
    exact ⟨_, codedLength s, exec_tlsHandshake_bad o ok s hc hl hp ht h, tcp, tls, bit, lost, rfl⟩
  · obtain ⟨gap, frame, others⟩ := appProtocol_frame o ls s
    refine ⟨_, exec_supportedAppProtocolReq o ls s hc hl hp ht, gap, frame, others, ?_⟩
    rw [appProtocol_layer]
    refine ⟨fun ho hi hv => ?_, fun hv ho hi => ?_, fun hv hn ho hi => ?_, fun hn => ?_⟩
    · rw [agreed_iso20 o ls s ho hi hv]; rfl
    · rw [agreed_plain o ls s hv, if_pos ⟨ho, hi⟩]; rfl
    · rw [agreed_plain o ls s hv, if_neg (not_and_or.mpr hn), if_pos ⟨ho, hi⟩]; rfl
    · rw [agreed_none o ls s hn]; rfl

/-! ### Requests (R185, R188 to R191) -/

/-- A request in both packages: the gap, and the message on the path of R18. -/
theorem linkRow_request (o : OutIx) (m : VehMsg) {ok : State → Bool} {f : State → State} (s : State) (hc : s.isl.com = true)
    (hp : portOn s o = true) (hk : ok s = true) (hf : f s = request o m s) : linkRow o ok f s = .next { s with
      vlk := Vec.upd s.vlk o fun x => { x with gap := 0 }, arrived := s.arrived ++ [.vehicle o m (codedLength s)],
      freeIx := s.freeIx + 1 } := by
  cases h : isLead s with
  | true => exact (linkRow_lead hc h hp hk).trans (congrArg _ hf)
  | false =>
    refine (linkRow_follow hc h hp hk).trans (congrArg _ ?_)
    have ports : (f s).vlk = Vec.upd s.vlk o fun x => { x with gap := 0 } := by rw [hf]; rfl
    rw [shadow_eq _ ports, hf]
    rfl

theorem v2gOk {o : OutIx} {s : State} (ht : (s.vlk[o]).tcp = true) (hl : (s.vlk[o]).layer ≠ .none) :
    ((s.vlk[o]).tcp && (s.vlk[o]).layer ≠ .none) = true := by
  rw [ht, decide_eq_true hl]
  rfl

theorem v2gRow_request (o : OutIx) (m : VehMsg) {f : State → State} (s : State) (hc : s.isl.com = true) (hp : portOn s o = true)
    (ht : (s.vlk[o]).tcp = true) (hl : (s.vlk[o]).layer ≠ .none) (hf : f s = request o m s) : v2gRow o f s = .next { s with
      vlk := Vec.upd s.vlk o fun x => { x with gap := 0 }, arrived := s.arrived ++ [.vehicle o m (codedLength s)],
      freeIx := s.freeIx + 1 } :=
  linkRow_request o m s hc hp (v2gOk ht hl) hf

/-- A session setup on the lead's port (R189). -/
def setupReq (o : OutIx) (id : List Byte) (s : State) : State :=
  request o (.sessionSetup id) (onVlk o (fun v => { v with session := true }) s)

theorem setupReq_eq (o : OutIx) (id : List Byte) (s : State) : setupReq o id s = { s with
    vlk := Vec.upd s.vlk o fun v => { v with gap := 0, session := true },
    arrived := s.arrived ++ [.vehicle o (.sessionSetup id) (codedLength s)], freeIx := s.freeIx + 1 } := by
  unfold setupReq request
  rw [onVlk_onVlk]
  rfl

theorem exec_sessionSetupReq_follow (o : OutIx) (id : List Byte) (s : State) (hc : s.isl.com = true) (hd : isLead s = false)
    (hp : portOn s o = true) (ht : (s.vlk[o]).tcp = true) (hl : (s.vlk[o]).layer ≠ .none) :
    exec (.sessionSetupReq o id) s = .next { s with
      vlk := Vec.upd s.vlk o fun v => { v with gap := 0 },
      arrived := s.arrived ++ [.vehicle o (.sessionSetup id) (codedLength s)], freeIx := s.freeIx + 1 } := by
  have row : exec (.sessionSetupReq o id) s = .next (shadow (setupReq o id) s) :=
    show v2gRow o _ s = _ from linkRow_follow hc hd hp (v2gOk ht hl)
  have ports : (setupReq o id s).vlk = Vec.upd s.vlk o fun v => { v with gap := 0, session := true } :=
    congrArg State.vlk (setupReq_eq o id s)
  rw [row, shadow_eq _ ports, setupReq_eq]

/-- A message that does not decode, on the lead's port (R188). -/
theorem decodeFail_effect (o : OutIx) (s : State) : ((decodeFail o s).vlk[o]).tcp = false ∧ ((decodeFail o s).vlk[o]).layer = .none ∧
    ((s.vlk[o]).layer ≠ .none → ((decodeFail o s).vlk[o]).resp.kind = .failed ∧ ((decodeFail o s).vlk[o]).resp.fn = s.fn) ∧
    ((decodeFail o s).vlk[o]).decodeErr = (s.vlk[o]).decodeErr + 1 ∧
    ((decodeFail o s).vlk[o]).intStatus = setBit (s.vlk[o]).intStatus 8 ∧
    (decodeFail o s).arrived = s.arrived ++ [.vehicle o .linkLost (codedLength s)] := by
  unfold decodeFail
  dsimp only
  generalize hu : onVlk o _ s = u
  have port : u.vlk[o] = { (if (s.vlk[o]).layer = .none then s.vlk[o] else
      { s.vlk[o] with resp := { (s.vlk[o]).resp with fn := s.fn, kind := .failed } }) with decodeErr := (s.vlk[o]).decodeErr + 1 } := by
    rw [← hu]
    exact (upd_same s.vlk o _).trans (by split <;> rfl)
  obtain ⟨tcp, -, layer, status, err, resp, lost⟩ := vlkInt_loseLink o 8 u
  refine ⟨tcp, layer, fun hl => ?_, ?_, ?_, ?_⟩
  · rw [resp, port, if_neg hl]
    exact ⟨rfl, rfl⟩
  · rw [err, port]
  · rw [status, port]
    split <;> rfl
  · rw [lost, ← hu]
    rfl

/-- Settles O37, request by request. -/
theorem vehicleRequests : Obligations.VehicleRequests := by
  unfold Obligations.VehicleRequests
  refine ⟨fun o v chain sg b1 b2 b3 b4 s hc hp ht hl hn c m hm => ?_, fun o id s hc hd hp ht hl => ?_, fun o id s hc hd hp ht hl => ?_,
    fun o chain sg s hc hd hp ht hl hy hn => ?_, fun o s hc hd hp ht => ?_⟩
  · refine ⟨_, codedLength s, ?_, codedLength_pos s, codedLength_le s, rfl⟩
    have row := fun (n : VehMsg) (f : State → State) (hf : f s = request o n s) => v2gRow_request o n s hc hp ht hl hf
    simp only [List.mem_cons, Prod.mk.injEq, List.not_mem_nil, or_false] at hm
    rcases hm with ⟨rfl, rfl⟩ | ⟨rfl, rfl⟩ | ⟨rfl, rfl⟩ | ⟨rfl, rfl⟩ | ⟨rfl, rfl⟩ | ⟨rfl, rfl⟩ | ⟨rfl, rfl⟩
    · exact row _ _ (if_neg (by rcases hn with h | h <;> rw [h] <;> simp))
    · exact row _ _ rfl
    · exact row _ _ rfl
    · exact row _ _ rfl
    · exact row _ _ rfl
    · exact row _ _ rfl
    · exact linkRow_request o (.other v b1) (ok := fun s => (s.vlk[o]).tcp)
        (f := fun s => if (s.vlk[o]).layer ≠ .none then request o (.other v b1) s else s) s hc hp ht (if_pos hl)
  · exact ⟨_, codedLength s, show v2gRow o (setupReq o id) s = _ from linkRow_lead hc hd hp (v2gOk ht hl),
      codedLength_pos s, codedLength_le s, setupReq_eq o id s⟩
  · exact ⟨_, codedLength s, exec_sessionSetupReq_follow o id s hc hd hp ht hl, codedLength_pos s, codedLength_le s, rfl⟩
  · obtain ⟨tcp, -, resp, err, -, lost⟩ := decodeFail_effect o s
    have row : exec (.authorizationReq o chain sg) s = .next (decodeFail o s) := by
      show v2gRow o _ s = _
      refine (linkRow_lead hc hd hp (v2gOk ht hl)).trans (congrArg _ (if_pos ?_))
      rw [decide_eq_true hy, decide_eq_true hn]
      rfl
    exact ⟨_, codedLength s, row, tcp, (resp hl).1, (resp hl).2, err, lost⟩
  · obtain ⟨tcp, layer, resp, err, bit, lost⟩ := decodeFail_effect o s
    exact ⟨_, codedLength s, show execV2gRequest o none s = _ from linkRow_lead hc hd hp ht, tcp, layer, resp, err, bit, lost⟩

end Sys2Proof.Machine
end

section
/-! The vehicle links (chapter 7): joint association (O35). -/

namespace Sys2Proof.Machine

/-! ### Runs (R179 to R183) -/

/-- A change of a run that keeps its vehicle and its number. -/
def RunKept (f : SlacRun → SlacRun) : Prop := ∀ r, (f r).mac = r.mac ∧ (f r).runId = r.runId

theorem find_map_kept (mac : BitVec 48) (id : BitVec 64) (f : SlacRun → SlacRun) (hf : RunKept f) (l : List SlacRun) :
    (l.map f).find? (fun r => r.mac = mac && r.runId = id) = (l.find? fun r => r.mac = mac && r.runId = id).map f := by
  rw [List.find?_map]
  congr 2
  funext r
  simp [(hf r).1, (hf r).2]

theorem runKept_ite (mac : BitVec 48) (id : BitVec 64) {f : SlacRun → SlacRun} (hf : RunKept f) :
    RunKept fun r => if r.mac = mac && r.runId = id then f r else r := by
  intro r
  dsimp only
  split
  · exact hf r
  · exact ⟨rfl, rfl⟩

/-- The record of a run after a change of it; a run without a record opens one. -/
theorem runOf_onRun (mac : BitVec 48) (id : BitVec 64) {f : SlacRun → SlacRun} (hf : RunKept f) (s : State) :
    runOf (onRun mac id f s) mac id = some (f ((runOf s mac id).getD { mac := mac, runId := id })) := by
  unfold onRun runOf
  cases h : s.slac.find? fun r => r.mac = mac && r.runId = id with
  | none =>
    have none_ : (s.slac.any fun r => r.mac = mac && r.runId = id) = false := by
      rw [List.find?_eq_none] at h
      exact List.any_eq_false.mpr h
    rw [if_neg (by rw [none_]; simp)]
    dsimp only
    have key : decide ((f { mac := mac, runId := id }).mac = mac) && decide ((f { mac := mac, runId := id }).runId = id) := by
      rw [(hf _).1, (hf _).2]
      simp
    rw [List.find?_append, h, Option.none_or]
    exact List.find?_cons_of_pos (p := fun r : SlacRun => decide (r.mac = mac) && decide (r.runId = id)) key
  | some r =>
    have found := List.find?_some h
    rw [if_pos (List.any_eq_true.mpr ⟨r, List.mem_of_find?_eq_some h, found⟩)]
    dsimp only
    rw [find_map_kept mac id _ (runKept_ite mac id hf), h]
    exact congrArg some (if_pos found)

theorem onRun_frame (mac : BitVec 48) (id : BitVec 64) (f : SlacRun → SlacRun) (s : State) :
    onRun mac id f s = { s with slac := (onRun mac id f s).slac } := by
  unfold onRun
  split <;> rfl

/-- The answers to a request (R179): one bit for each candidate that heard it. -/
def answers (heard : BitVec 32) (s : State) : BitVec 32 :=
  (List.finRange 32).foldl (fun (w : BitVec 32) o => if heard.getLsbD o.val && slacCand s o then setBit w o.val else w) 0

theorem foldl_setBit (p : OutIx → Bool) (l : List OutIx) (w : BitVec 32) (o : OutIx) :
    (l.foldl (fun (w : BitVec 32) o => if p o then setBit w o.val else w) w).getLsbD o.val = (w.getLsbD o.val || (p o && l.contains o)) := by
  induction l generalizing w with
  | nil => simp
  | cons x xs ih =>
    rw [List.foldl_cons, ih, List.contains_cons]
    by_cases hx : o = x
    · subst hx
      cases hp : p o <;> simp [getLsbD_setBit _ _ _ o.isLt]
    · have ne : x.val ≠ o.val := fun e => hx (Fin.ext e.symm)
      have bit : (if p x then setBit w x.val else w).getLsbD o.val = w.getLsbD o.val := by
        split
        · rw [getLsbD_setBit _ _ _ o.isLt, decide_eq_false ne, Bool.or_false]
        · rfl
      rw [bit, beq_eq_false_iff_ne.mpr hx, Bool.false_or]

theorem answers_bit (heard : BitVec 32) (s : State) (o : OutIx) :
    (answers heard s).getLsbD o.val = (heard.getLsbD o.val && slacCand s o) := by
  unfold answers
  rw [foldl_setBit fun o => heard.getLsbD o.val && slacCand s o]
  simp

theorem exec_slacParmReq (mac : BitVec 48) (id : BitVec 64) (heard : BitVec 32) (s : State) (hc : s.isl.com = true)
    (hl : isLead s = true) : exec (.slacParmReq mac id heard) s = .next (if answers heard s = 0 then s
      else onRun mac id (fun r => { r with cands := r.cands ||| answers heard s }) s) := by
  show execSlacParmReq mac id heard s = _
  rw [execSlacParmReq, whenOn_on s hc]
  show Host.Outcome.next (if answers heard s = 0 || !isLead s then s else _) = _
  rw [hl, Bool.not_true, Bool.or_false]
  by_cases h : answers heard s = 0
  · rw [if_pos h, if_pos (decide_eq_true h)]
  · rw [if_neg h, if_neg (by simpa using h)]
    rfl

/-- The attenuation values that a closed window sends (R180). -/
def attens (r : SlacRun) : List (OutIx × Nat) := (List.finRange 32).filterMap fun o => (attenOf r o).map fun a => (o, a)

/-- The port whose record carries the values of a run: the first that heard it. -/
def firstPort : List (OutIx × Nat) → OutIx
  | x :: _ => x.1
  | [] => 0

theorem exec_slacWindowClose (mac : BitVec 48) (id : BitVec 64) (r : SlacRun) (s : State) (hc : s.isl.com = true)
    (hr : runOf s mac id = some r) (ho : r.opened = true) (hx : r.closed = false) : exec (.slacWindowClose mac id) s =
      .next (arriveVeh (firstPort (attens r)) (.slacClosed mac id (attens r)) (onRun mac id (fun r => { r with closed := true }) s)) := by
  show execSlacWindowClose mac id s = _
  rw [execSlacWindowClose, whenOn_on s hc, hr]
  dsimp only
  rw [if_neg (by rw [ho, hx]; simp)]
  rfl

theorem mem_attens (r : SlacRun) (p : OutIx) (a : Nat) : (p, a) ∈ attens r ↔ attenOf r p = some a := by
  simp [attens, List.mem_filterMap, -Fin.getElem_fin]

/-- Two ports taking part, the lower value first. -/
theorem lowestTwo_pair (w p : OutIx) {a b : Nat} (h : a ≤ b) : lowestTwo [(w, a), (p, b)] = (some (w, a), some b) := by
  simp [lowestTwo, h]

/-- Neither of two ports was taken out of the comparison. -/
theorem filter_excl_pair (r : SlacRun) (w p : OutIx) (a b : Nat) (hw : r.excl.getLsbD w.val = false) (hp : r.excl.getLsbD p.val = false) :
    [(w, a), (p, b)].filter (fun x => !r.excl.getLsbD x.1.val) = [(w, a), (p, b)] := by
  simp only [List.filter, hw, hp, Bool.not_false]

theorem runOf_of_slac {s u : State} (mac : BitVec 48) (id : BitVec 64) (h : u.slac = s.slac) : runOf u mac id = runOf s mac id := by
  unfold runOf
  rw [h]

/-- A run that binds a port takes it out of the comparison of the runs that have not bound (R182). -/
def bindRun (mac : BitVec 48) (id : BitVec 64) (w : OutIx) (u : State) : State :=
  vlkInt w 1 { onRun mac id (fun x => { x with bound := some w }) u with
    slac := (onRun mac id (fun x => { x with bound := some w }) u).slac.map fun x =>
      if x.bound.isNone then { x with excl := setBit x.excl w.val } else x }

theorem runOf_bindRun (mac : BitVec 48) (id : BitVec 64) (w : OutIx) (u : State) (r : SlacRun) (h : runOf u mac id = some r) :
    runOf (bindRun mac id w u) mac id = some { r with bound := some w } := by
  have kept : RunKept fun x => if x.bound.isNone then { x with excl := setBit x.excl w.val } else x := by
    intro x
    dsimp only
    split <;> exact ⟨rfl, rfl⟩
  have run := runOf_onRun mac id (f := fun x => { x with bound := some w }) (fun _ => ⟨rfl, rfl⟩) u
  unfold runOf at run ⊢
  show List.find? _ (List.map _ _) = _
  rw [find_map_kept mac id _ kept, run]
  unfold runOf at h
  rw [h]
  rfl

theorem bindRun_vlk (mac : BitVec 48) (id : BitVec 64) (w : OutIx) (u : State) :
    (bindRun mac id w u).vlk[w] = { u.vlk[w] with intStatus := setBit (u.vlk[w]).intStatus 1 } := by
  have ports : (onRun mac id (fun x => { x with bound := some w }) u).vlk = u.vlk := by rw [onRun_frame]
  unfold bindRun
  simp only [vlkInt, raise, onVlk, upd_same, ports]

theorem onPorts_get (cand : OutIx → Bool) (f : Vlk → Vlk) (s : State) (w : OutIx) (hc : cand w = true) :
    (onPorts cand f s).vlk[w] = f s.vlk[w] := by
  unfold onPorts
  rw [mapIx_get, hc]
  rfl

theorem runOf_onPorts (mac : BitVec 48) (id : BitVec 64) (cand : OutIx → Bool) (f : Vlk → Vlk) (s : State) :
    runOf (onPorts cand f s) mac id = runOf s mac id := by
  simp only [runOf, onPorts]

theorem slacDecide_bound (mac : BitVec 48) (id : BitVec 64) (w p : OutIx) (a b : Nat) (r : SlacRun) (s : State)
    (hr : runOf s mac id = some r) (hv : r.void = false) (hw : r.excl.getLsbD w.val = false) (hp : r.excl.getLsbD p.val = false)
    (hcw : slacCand s w = true) (hb : pilotOf s w = .b) (h : a + 24 ≤ b) (hm : b < 1023) :
    ∃ q, runOf (slacDecide mac id [(w, a), (p, b)] s) mac id = some q ∧ q.bound = some w ∧
      ((slacDecide mac id [(w, a), (p, b)] s).vlk[w]).slacResult = 1 ∧ ((slacDecide mac id [(w, a), (p, b)] s).vlk[w]).slacBest = a ∧
      ((slacDecide mac id [(w, a), (p, b)] s).vlk[w]).slacNext = b ∧ ((slacDecide mac id [(w, a), (p, b)] s).vlk[w]).slacWinner = w.val := by
  have decided : ∃ cand : OutIx → Bool, cand w = true ∧ slacDecide mac id [(w, a), (p, b)] s = bindRun mac id w (onPorts cand (fun v =>
      { v with slacResult := 1, slacBest := min 1023 a, slacNext := min 1023 b, slacWinner := w.val }) s) := by
    have wins : (decide (a + 24 ≤ b) && !r.void && slacCand s w && decide (pilotOf s w = .b)) = true := by
      rw [decide_eq_true h, hv, hcw, hb]
      rfl
    refine ⟨fun o => r.cands.getLsbD o.val || (slacCand s o && [(w, a), (p, b)].any (·.1 = o)), by simp [hcw], ?_⟩
    unfold slacDecide
    simp only [hr, Option.getD_some, filter_excl_pair r w p a b hw hp, lowestTwo_pair w p (show a ≤ b by omega), wins, if_true]
    rfl
  obtain ⟨cand, hcand, decided⟩ := decided
  have port := bindRun_vlk mac id w (onPorts cand (fun v =>
    { v with slacResult := 1, slacBest := min 1023 a, slacNext := min 1023 b, slacWinner := w.val }) s)
  rw [onPorts_get _ _ _ _ hcand] at port
  rw [decided, port]
  refine ⟨_, runOf_bindRun mac id w _ r ((runOf_onPorts mac id _ _ s).trans hr), rfl, rfl, min_eq_right (by omega), min_eq_right (by omega), rfl⟩

/-- A run without a decision for a port leaves no record (R181 to R183): at a take-over (R194), or short of the 6 dB. -/
theorem slacDecide_unbound (mac : BitVec 48) (id : BitVec 64) (att : List (OutIx × Nat)) (r : SlacRun) (s : State)
    (hr : runOf s mac id = some r) (h : r.void = true ∨ ∃ w a b, b < a + 24 ∧
      lowestTwo (att.filter fun x => !r.excl.getLsbD x.1.val) = (some (w, a), some b)) :
    runOf (slacDecide mac id att s) mac id = none := by
  unfold slacDecide
  simp only [hr, Option.getD_some]
  generalize lowestTwo (att.filter fun x => !r.excl.getLsbD x.1.val) = low at h ⊢
  split
  · next w hw =>
    exfalso
    rcases h with h | ⟨v, a, b, hab, rfl⟩
    · simp only [h] at hw
      split at hw <;> simp at hw
    · simp only [decide_eq_false (show ¬ a + 24 ≤ b by omega)] at hw
      simp at hw
  · rw [runOf_of_slac mac id (foldl_proj State.slac _ (fun u o => ?_) _ _)]
    · unfold runOf
      rw [List.find?_eq_none]
      intro x hx
      rw [List.mem_filter] at hx
      intro hm
      rw [hm] at hx
      simp at hx
    · unfold raiseIf
      (repeat' split) <;> rfl

/-- Settles O35, row by row; a decision is that of `slacDecide_bound` or `slacDecide_unbound`. -/
theorem slacRuns : Obligations.SlacRuns := by
  unfold Obligations.SlacRuns
  refine ⟨fun mac id heard s hc hl => ?_, fun mac id n s hc => ?_, fun mac id o g r s hc hp hm hg hr ho hx => ?_,
    fun mac id r s hc hr ho hx => ?_, fun mac id s hr => ?_, slacDecide_bound,
    fun mac id w p a b r s hr hw hp hab hba => ?_, fun mac id w p a b r s hr hv => slacDecide_unbound mac id _ r s hr (.inl hv),
    fun mac id o r s hc hp hr hb => ?_, fun mac id o r s hr hb => ?_⟩
  · refine ⟨_, exec_slacParmReq mac id heard s hc hl, ?_⟩
    have run := runOf_onRun mac id (f := fun r => { r with cands := r.cands ||| answers heard s }) (fun _ => ⟨rfl, rfl⟩) s
    split
    · next none_ =>
      refine ⟨rfl, fun o ho hd => ?_, fun o r _ hr hb => ⟨r, hr, hb⟩⟩
      have bit := answers_bit heard s o
      rw [none_, ho, hd] at bit
      simp at bit
    · refine ⟨onRun_frame mac id _ s, fun o ho hd => ⟨_, run, ?_⟩, fun o r hn hr hb => ?_⟩
      · simp only [BitVec.getLsbD_or, answers_bit, ho, hd]
        simp
      · obtain rfl := Option.some.inj (run.symm.trans hr)
        have off : (answers heard s).getLsbD o.val = false := by
          rw [answers_bit]
          rcases hn with h | h <;> simp only [h, Bool.false_and, Bool.and_false]
        simp only [BitVec.getLsbD_or, off, Bool.or_false] at hb
        cases h : runOf s mac id with
        | none => rw [h] at hb; simp at hb
        | some q => rw [h] at hb; exact ⟨q, rfl, hb⟩
  · have run := runOf_onRun mac id (f := fun r => if r.opened then r else { r with opened := true, announced := n })
      (fun r => by dsimp only; split <;> exact ⟨rfl, rfl⟩) s
    refine ⟨_, _, show execSlacStartAtten mac id n s = _ from whenOn_on s hc, onRun_frame mac id _ s, run, ?_, fun h => ?_⟩
    · split
      · next h => exact h
      · rfl
    · rcases h with h | ⟨q, h, hq⟩
      · rw [h]; rfl
      · rw [h, Option.getD_some, if_neg (by rw [hq]; simp)]
  · have kept : RunKept fun r => if r.opened && !r.closed then
        { r with sounds := Vec.upd r.sounds o fun x => (x.1 + 1, x.2 + (g.take 58).foldl (· + ·) 0) } else r := by
      intro r
      dsimp only
      split <;> exact ⟨rfl, rfl⟩
    have run := runOf_onRun mac id kept s
    rw [hr, Option.getD_some, if_pos (by rw [ho, hx]; rfl)] at run
    refine ⟨_, _, show execSlacSound mac id o g s = _ from heardRow_on hc hp hm, onRun_frame mac id _ s, run, ?_,
      fun p hp => upd_other _ o _ hp, rfl, rfl⟩
    dsimp only
    rw [upd_same, List.take_of_length_le hg.le, List.sum_eq_foldl]
  · have run := runOf_onRun mac id (f := fun r => { r with closed := true }) (fun _ => ⟨rfl, rfl⟩) s
    rw [hr] at run
    have frame := onRun_frame mac id (fun r => { r with closed := true }) s
    refine ⟨_, firstPort (attens r), codedLength s, attens r, exec_slacWindowClose mac id r s hc hr ho hx, mem_attens r,
      codedLength_pos s, codedLength_le s, ?_⟩
    generalize onRun mac id (fun r => { r with closed := true }) s = u at run frame ⊢
    refine ⟨(runOf_of_slac mac id rfl).trans run, ?_⟩
    rw [arriveVeh_eq, frame]
    rfl
  · show execSlacWindowClose mac id s = _
    refine whenOn_id ?_
    rw [hr]
  · exact slacDecide_unbound mac id _ r s hr (.inr ⟨w, a, b, hba, by rw [filter_excl_pair r w p a b hw hp, lowestTwo_pair w p hab]⟩)
  · have bound : (match runOf s mac id with | some r => decide (r.bound = some o) | none => false) = true := by rw [hr]; simpa using hb
    refine ⟨arriveVeh o (.slacMatch mac id) s, codedLength s, ?_, codedLength_pos s, codedLength_le s, rfl⟩
    show execSlacMatchReq o mac id s = _
    cases hl : isLead s with
    | true => exact linkRow_lead hc hl hp bound
    | false => exact (linkRow_follow hc hl hp bound).trans (congrArg _ (shadow_of_gap fun _ => rfl))
  · show execSlacMatchReq o mac id s = _
    exact linkRow_not (by rw [hr]; simpa using hb)

end Sys2Proof.Machine
end

section
/-! The cable block (chapter 8): faults, manual drive and ranges (O38). -/

namespace Sys2Proof.Machine

theorem exec_residualFault (o : OutIx) (s : State) (hc : s.isl.ctl = true) (ho : cableOn s o = true)
    (hf : (s.nx.ccl[o]).resFault = false) : ∃ t, exec (.residualFault o) s = .next t ∧
      t.nx.ccl[o] = { s.nx.ccl[o] with resFault := true, resRun := max (s.nx.ccl[o]).resRun 3000 } ∧
      (∀ p : OutIx, p ≠ o → t.nx.ccl[p] = s.nx.ccl[p]) ∧
      t = { s with
        nx := { s.nx with ccl := t.nx.ccl }, late := { s.late with ccl := Vec.upd s.late.ccl o fun w => setBit w 2 },
        evs := s.evs ++ [{ rank := 7, code := 4, num := o.val, ord := 8 * o.val + 4 }] } := by
  refine ⟨cclEvent o 4 (some 2) { s with nx := { s.nx with ccl := Vec.upd s.nx.ccl o fun b =>
      { b with resFault := true, resRun := max b.resRun 3000 } } }, ?_, upd_same s.nx.ccl o _, fun p hp => upd_other s.nx.ccl o _ hp, rfl⟩
  show execResidualFault o s = _
  rw [execResidualFault, whenOn_on s hc]
  exact congrArg _ (if_neg (by rw [ho, hf]; simp))

theorem clampI_le {lo hi x : Int} (h : lo ≤ hi) : clampI lo hi x ≤ hi := by
  unfold clampI
  split
  · exact h
  · split <;> omega

theorem le_clampI {lo hi x : Int} (h : lo ≤ hi) : lo ≤ clampI lo hi x := by
  unfold clampI
  split
  · exact le_rfl
  · split <;> omega

theorem zero_or_le {c : Prop} [Decidable c] {a n : Nat} (h : a ≤ n) : (if c then 0 else a) ≤ n := by
  split
  · exact Nat.zero_le n
  · exact h

theorem iCalc_le (c : CableCfg) (ceil : Nat) (tc gf tin : Rat) : iCalc c ceil tc gf tin ≤ ceil :=
  zero_or_le (zero_or_le (zero_or_le (Nat.min_le_left _ _)))

theorem clampI_or_same {c : Prop} [Decidable c] {lo hi x y : Int} (h : lo ≤ hi) :
    (if c then clampI lo hi y else x) = x ∨ (lo ≤ (if c then clampI lo hi y else x) ∧ (if c then clampI lo hi y else x) ≤ hi) := by
  split
  · exact .inr ⟨le_clampI h, clampI_le h⟩
  · exact .inl rfl

/-- The loop: an integrator in its range, and one effort u of 0 to 2 that drives the pump first and the fan above 1 (R210). -/
theorem coolLoop_effort (c : CableCfg) (ceil : Nat) (i2 tc : Rat) (x : Int) : ∃ (y : Int) (u : Nat), u ≤ 65536 ∧
    (y = x ∨ (-65536 ≤ y ∧ y ≤ 65536)) ∧
    coolLoop c ceil i2 tc x = (y, max c.pumpMin (200 * min u 32768 / 32768), max c.fanMin (200 * (u - 32768) / 32768)) := by
  refine ⟨_, _, ?_, ?_, rfl⟩
  · exact Int.toNat_le.mpr (clampI_le (by decide))
  · exact clampI_or_same (by decide)

/-- Settles O38, clause by clause; the ranges are those of `coolLoop_effort`. -/
theorem cableBlock : Obligations.CableBlock := by
  unfold Obligations.CableBlock
  refine ⟨exec_residualFault, fun o s h => ?_, fun o s hc => show execCclResidualClear o s = _ from whenOn_on s hc, fun o on pump fan s hc => ?_, iCalc_le,
    fun c ceil i2 tc x h0 h1 hp hf => ?_, fun c ceil i2 tc x hp hfan => ?_⟩
  · show execResidualFault o s = _
    refine whenOn_id (if_pos ?_)
    rcases h with h | h <;> simp only [h, Bool.not_false, Bool.true_or, Bool.or_true]
  · refine ⟨_, show execCclManual o on pump fan s = _ from whenOn_on s hc, ?_⟩
    simp only [cclManual, upd_same]
    exact ⟨trivial, Nat.min_le_left _ _, Nat.min_le_left _ _, fun h => Nat.min_eq_right h, fun h => Nat.min_eq_right h,
      fun p hp => upd_other _ o _ hp, trivial⟩
  · obtain ⟨y, u, hu, hy, e⟩ := coolLoop_effort c ceil i2 tc x
    rw [e]
    dsimp only
    omega
  · obtain ⟨y, u, hu, -, e⟩ := coolLoop_effort c ceil i2 tc x
    rw [e] at hfan ⊢
    dsimp only at hfan ⊢
    omega

end Sys2Proof.Machine
end

section
/-! The bytes of the landing memory: what a read gives after a write at its place. -/

namespace Sys2Proof.Machine

theorem memReadBytes_length (m : Memory) (a n : Nat) : (memReadBytes m a n).length = n := by
  induction n generalizing a with
  | zero => rfl
  | succ n ih => rw [memReadBytes, List.length_cons, ih]

/-- Two memories that agree on the addresses of a read give the same bytes. -/
theorem memReadBytes_congr {m n : Memory} (a k : Nat) (h : ∀ b, a ≤ b → b < a + k → memRead m b = memRead n b) :
    memReadBytes m a k = memReadBytes n a k := by
  induction k generalizing a with
  | zero => rfl
  | succ k ih =>
    rw [memReadBytes, memReadBytes, h a le_rfl (by omega), ih (a + 1) fun b h1 h2 => h b (by omega) (by omega)]

/-- A read of what was written. -/
theorem memReadBytes_memWriteBytes (m : Memory) (a : Nat) (bs : List Byte) (h : Memory.wf m = true) :
    memReadBytes (memWriteBytes m a bs) a bs.length = bs := by
  induction bs generalizing m a with
  | nil => rfl
  | cons v vs ih =>
    have head : memRead (memWriteBytes (memWrite m a v) (a + 1) vs) a = v := by
      rw [memRead_memWriteBytes_off _ _ _ _ (memWrite_wf m a v h) (.inl (by omega)), memRead_memWrite m a a v h, if_pos rfl]
    rw [List.length_cons, memReadBytes, memWriteBytes, head, ih _ _ (memWrite_wf m a v h)]

/-- A write of a string is a write of its parts in turn. -/
theorem memWriteBytes_append (m : Memory) (a : Nat) (bs cs : List Byte) :
    memWriteBytes m a (bs ++ cs) = memWriteBytes (memWriteBytes m a bs) (a + bs.length) cs := by
  induction bs generalizing m a with
  | nil => rfl
  | cons v vs ih =>
    rw [List.cons_append, memWriteBytes, ih, memWriteBytes, List.length_cons, Nat.add_right_comm, ← Nat.add_assoc]

/-- A read of a part of what was written. -/
theorem memReadBytes_part (m : Memory) (a : Nat) (pre bs post : List Byte) (h : Memory.wf m = true) :
    memReadBytes (memWriteBytes m a (pre ++ bs ++ post)) (a + pre.length) bs.length = bs := by
  have there := memReadBytes_memWriteBytes (memWriteBytes m a pre) (a + pre.length) bs (memWriteBytes_wf m a pre h)
  rw [List.append_assoc, memWriteBytes_append, memWriteBytes_append]
  refine Eq.trans (memReadBytes_congr _ _ fun b h1 h2 => ?_) there
  exact memRead_memWriteBytes_off _ _ _ _ (memWriteBytes_wf _ _ _ (memWriteBytes_wf m a pre h)) (.inl (by omega))

/-- A read of the first bytes of what was written. -/
theorem memReadBytes_front (m : Memory) (a : Nat) (bs post : List Byte) (h : Memory.wf m = true) :
    memReadBytes (memWriteBytes m a (bs ++ post)) a bs.length = bs :=
  memReadBytes_part m a [] bs post h

end Sys2Proof.Machine
end

section
/-! Cabinet buses (chapter 14): cooling frames (O39). -/

namespace Sys2Proof.Machine

/-! ### One cooling frame (R362) -/

/-- The identifier of the cooling frame of an outlet. -/
def coolIdent (s : State) (k : CanIx) (o : OutIx) : BitVec 29 := BitVec.ofNat 29 ((s.map.can[k]).coolId + o.val)

/-- Pump and fan of an outlet. -/
def coolData (s : State) (o : OutIx) : List Byte := [BitVec.ofNat 8 (s.fl.ccl[o]).pump, BitVec.ofNat 8 (s.fl.ccl[o]).fan]

/-- The outlet is in the mask of the bus and has a cable block. -/
def coolWanted (s : State) (k : CanIx) (o : OutIx) : Bool := (s.map.can[k]).coolMask.getLsbD o.val && cableOn s o

/-- The controller with the cooling frame of an outlet. -/
def coolPort (s : State) (k : CanIx) (o : OutIx) (c : Can) : Can :=
  if coolWanted s k o then
    if (s.map.can[k]).mode = 2 then
      { (seqUse (coolIdent s k o) (s.map.can[k]).coolExt c).2 with
        cool := c.cool.set o (some { ident := coolIdent s k o, ext := (s.map.can[k]).coolExt,
                                     seq := some ((seqOf c (coolIdent s k o) (s.map.can[k]).coolExt).getD 0),
                                     data := (seqOf c (coolIdent s k o) (s.map.can[k]).coolExt).getD 0 :: coolData s o }) }
    else { c with cool := c.cool.set o (some { ident := coolIdent s k o, ext := (s.map.can[k]).coolExt, data := coolData s o }) }
  else c

theorem coolOne_eq (k : CanIx) (s : State) (o : OutIx) : coolOne k s o = onCan k (coolPort s k o) s := by
  have want : (!(s.map.can[k]).coolMask.getLsbD o.val || !cableOn s o) = !coolWanted s k o := by
    rw [coolWanted, Bool.not_and]
  unfold coolOne
  dsimp only
  rw [want]
  cases hw : coolWanted s k o with
  | false =>
    have same : coolPort s k o s.can[k] = s.can[k] := if_neg (by rw [hw]; simp)
    exact (congrArg (fun v => { s with can := v }) (upd_of_fixed s.can k (coolPort s k o) same)).symm
  | true =>
    refine congrArg (fun f => onCan k f s) ?_
    funext c
    exact (if_pos hw).symm

theorem coolPort_frame (s : State) (k : CanIx) (o : OutIx) (c : Can) :
    coolPort s k o c = { c with cool := (coolPort s k o c).cool, seqs := (coolPort s k o c).seqs } ∧
    ((s.map.can[k]).mode ≠ 2 → (coolPort s k o c).seqs = c.seqs) := by
  unfold coolPort
  split
  · split
    · next h => exact ⟨rfl, fun hn => absurd h hn⟩
    · exact ⟨rfl, fun _ => rfl⟩
  · exact ⟨rfl, fun _ => rfl⟩

/-- Two outlets of a bus have frames of their own (R362). -/
theorem coolIdent_ne (s : State) (k : CanIx) {o x : OutIx} (h : x ≠ o) : coolIdent s k x ≠ coolIdent s k o := by
  intro e
  have e := congrArg BitVec.toNat e
  simp only [coolIdent, BitVec.toNat_ofNat] at e
  have hx := x.isLt
  have ho := o.isLt
  have ne : x.val ≠ o.val := fun e => h (Fin.ext e)
  omega

theorem seqOf_seqUse_same (ident : BitVec 29) (ext : Bool) (c : Can) :
    seqOf (seqUse ident ext c).2 ident ext = some ((seqOf c ident ext).getD 0 + 1) := by
  simp [seqUse, seqOf]

theorem seqOf_seqUse_other {i j : BitVec 29} (ext : Bool) (c : Can) (h : i ≠ j) :
    seqOf (seqUse i ext c).2 j ext = seqOf c j ext := by
  have keeps : ∀ l : List (BitVec 29 × Bool × Byte), (l.filter fun x => !(x.1 = i && x.2.1 = ext)).find? (fun x => x.1 = j && x.2.1 = ext) =
      l.find? fun x => x.1 = j && x.2.1 = ext := by
    intro l
    rw [List.find?_filter]
    congr 1
    funext x
    by_cases hx : x.1 = j
    · have : x.1 ≠ i := fun e => h (e.symm.trans hx)
      simp [hx, Ne.symm h]
    · simp [hx]
  unfold seqUse seqOf
  dsimp only
  rw [List.find?_cons_of_neg (by simp [h]), keeps]

theorem coolPort_other (s : State) (k : CanIx) {o x : OutIx} (h : x ≠ o) (c : Can) : (coolPort s k x c).cool[o] = c.cool[o] ∧
    seqOf (coolPort s k x c) (coolIdent s k o) (s.map.can[k]).coolExt = seqOf c (coolIdent s k o) (s.map.can[k]).coolExt := by
  have ne : x.val ≠ o.val := fun e => h (Fin.ext e)
  unfold coolPort
  split
  · split
    · exact ⟨Vector.getElem_set_ne x.isLt o.isLt ne, seqOf_seqUse_other _ c (coolIdent_ne s k h)⟩
    · exact ⟨Vector.getElem_set_ne x.isLt o.isLt ne, rfl⟩
  · exact ⟨rfl, rfl⟩

/-- The cooling frames of a list of outlets. -/
def coolPorts (s : State) (k : CanIx) (l : List OutIx) (c : Can) : Can := l.foldl (fun c o => coolPort s k o c) c

theorem coolPorts_frame (s : State) (k : CanIx) (l : List OutIx) (c : Can) :
    coolPorts s k l c = { c with cool := (coolPorts s k l c).cool, seqs := (coolPorts s k l c).seqs } ∧
    ((s.map.can[k]).mode ≠ 2 → (coolPorts s k l c).seqs = c.seqs) := by
  induction l generalizing c with
  | nil => exact ⟨rfl, fun _ => rfl⟩
  | cons x xs ih =>
    obtain ⟨f1, m1⟩ := coolPort_frame s k x c
    obtain ⟨f2, m2⟩ := ih (coolPort s k x c)
    refine ⟨?_, fun h => (m2 h).trans (m1 h)⟩
    rw [show coolPorts s k (x :: xs) c = coolPorts s k xs (coolPort s k x c) from rfl]
    generalize coolPort s k x c = d at f1 f2 ⊢
    generalize coolPorts s k xs d = e at f2 ⊢
    rw [f1] at f2
    exact f2

theorem coolPorts_not_mem (s : State) (k : CanIx) (o : OutIx) (l : List OutIx) (h : o ∉ l) (c : Can) :
    (coolPorts s k l c).cool[o] = c.cool[o] ∧
    seqOf (coolPorts s k l c) (coolIdent s k o) (s.map.can[k]).coolExt = seqOf c (coolIdent s k o) (s.map.can[k]).coolExt := by
  induction l generalizing c with
  | nil => exact ⟨rfl, rfl⟩
  | cons x xs ih =>
    rw [List.mem_cons, not_or] at h
    obtain ⟨f1, m1⟩ := coolPort_other s k (Ne.symm h.1) c
    obtain ⟨f2, m2⟩ := ih h.2 (coolPort s k x c)
    exact ⟨f2.trans f1, m2.trans m1⟩

/-- An outlet's frame and sequence byte come of its own step alone. -/
theorem coolPorts_mem (s : State) (k : CanIx) (o : OutIx) (l : List OutIx) (hl : l.Nodup) (h : o ∈ l) (c : Can) :
    ∃ d : Can, d.cool[o] = c.cool[o] ∧
      seqOf d (coolIdent s k o) (s.map.can[k]).coolExt = seqOf c (coolIdent s k o) (s.map.can[k]).coolExt ∧
      (coolPorts s k l c).cool[o] = (coolPort s k o d).cool[o] ∧
      seqOf (coolPorts s k l c) (coolIdent s k o) (s.map.can[k]).coolExt =
        seqOf (coolPort s k o d) (coolIdent s k o) (s.map.can[k]).coolExt := by
  induction l generalizing c with
  | nil => cases h
  | cons x xs ih =>
    rw [List.nodup_cons] at hl
    by_cases hx : x = o
    · subst hx
      exact ⟨c, rfl, rfl, coolPorts_not_mem s k x xs hl.1 _⟩
    · obtain ⟨d, d1, d2, d3⟩ := ih hl.2 ((List.mem_cons.mp h).resolve_left (Ne.symm hx)) (coolPort s k x c)
      obtain ⟨f1, m1⟩ := coolPort_other s k hx c
      exact ⟨d, d1.trans f1, d2.trans m1, d3⟩

/-! ### All buses -/

/-- The bus sends cooling frames. -/
def coolSends (s : State) (k : CanIx) : Bool :=
  canOn s k && transmits s && !canRestricted s k && (s.map.can[k]).slotTimer.isSome

/-- The controller of a bus after its cooling frames. -/
def coolBus (s : State) (k : CanIx) (c : Can) : Can := if coolSends s k then coolPorts s k (List.finRange 32) c else c

theorem foldl_coolOne (k : CanIx) (l : List OutIx) (s : State) (v : Vector Can 8) :
    l.foldl (coolOne k) { s with can := v } = onCan k (coolPorts s k l) { s with can := v } := by
  induction l generalizing v with
  | nil =>
    rw [onCan, upd_of_fixed _ _ _ rfl]
    rfl
  | cons x xs ih =>
    rw [List.foldl_cons, coolOne_eq]
    refine (ih (Vec.upd v k (coolPort s k x))).trans ?_
    simp only [onCan, upd_upd]
    rfl

theorem coolingBus_eq (k : CanIx) (s : State) (v : Vector Can 8) :
    coolingBus k { s with can := v } = { s with can := Vec.upd v k (coolBus s k) } := by
  have sends : (!canOn { s with can := v } k || !transmits { s with can := v } || canRestricted { s with can := v } k ||
      (s.map.can[k]).slotTimer.isNone) = !coolSends s k := by
    simp only [coolSends, Bool.not_and, Bool.not_not, Option.not_isSome]
    rfl
  unfold coolingBus
  rw [sends]
  cases h : coolSends s k with
  | false =>
    have same : coolBus s k v[k] = v[k] := if_neg (by rw [h]; simp)
    exact (congrArg (fun v => { s with can := v }) (upd_of_fixed v k (coolBus s k) same)).symm
  | true =>
    refine (foldl_coolOne k _ s v).trans ?_
    have bus : coolBus s k = coolPorts s k (List.finRange 32) := funext fun c => if_pos h
    rw [bus]
    rfl

theorem foldl_coolingBus (l : List CanIx) (s : State) (v : Vector Can 8) :
    l.foldl (fun s k => coolingBus k s) { s with can := v } = { s with can := l.foldl (fun v k => Vec.upd v k (coolBus s k)) v } := by
  induction l generalizing v with
  | nil => rfl
  | cons k ks ih => rw [List.foldl_cons, coolingBus_eq, ih, List.foldl_cons]

/-- A table changed at each place of a list without repetition. -/
theorem foldl_upd_get {α : Type} {n : Nat} (g : Fin n → α → α) (l : List (Fin n)) (hl : l.Nodup) (v : Vector α n) (j : Fin n) :
    (l.foldl (fun v k => Vec.upd v k (g k)) v)[j] = if j ∈ l then g j v[j] else v[j] := by
  induction l generalizing v with
  | nil => simp
  | cons x xs ih =>
    rw [List.nodup_cons] at hl
    rw [List.foldl_cons, ih hl.2, upd_get]
    by_cases hx : x = j
    · subst hx
      simp [hl.1]
    · simp [hx, Ne.symm hx]

theorem exec_coolingFrameTx (s : State) (hc : s.isl.com = true) (hf : s.fn % 10 = 1) : ∃ t, exec .coolingFrameTx s = .next t ∧
    t = { s with can := t.can } ∧ ∀ k : CanIx, t.can[k] = coolBus s k s.can[k] := by
  refine ⟨{ s with can := (List.finRange 8).foldl (fun v k => Vec.upd v k (coolBus s k)) s.can }, ?_, rfl, fun k => ?_⟩
  · show execCoolingFrameTx s = _
    rw [execCoolingFrameTx, whenOn_on s hc]
    exact congrArg _ ((if_pos hf).trans (foldl_coolingBus (List.finRange 8) s s.can))
  · exact (foldl_upd_get (coolBus s) _ (List.nodup_finRange 8) s.can k).trans (if_pos (List.mem_finRange k))

theorem coolBus_frame (s : State) (k : CanIx) (c : Can) :
    coolBus s k c = { c with cool := (coolBus s k c).cool, seqs := (coolBus s k c).seqs } ∧
    ((s.map.can[k]).mode ≠ 2 → (coolBus s k c).seqs = c.seqs) := by
  unfold coolBus
  split
  · exact coolPorts_frame s k _ c
  · exact ⟨rfl, fun _ => rfl⟩

theorem coolSends_of (s : State) (k : CanIx) (h1 : canOn s k = true) (h2 : transmits s = true) (h3 : canRestricted s k = false)
    (h4 : (s.map.can[k]).slotTimer ≠ none) : coolSends s k = true := by
  rw [coolSends, h1, h2, h3, Option.isSome_iff_ne_none.mpr h4]
  rfl

/-- What an outlet in the mask of a sending bus gets. -/
theorem coolBus_wanted (s : State) (k : CanIx) (o : OutIx) (c : Can) (hs : coolSends s k = true) :
    ∃ d : Can, seqOf d (coolIdent s k o) (s.map.can[k]).coolExt = seqOf c (coolIdent s k o) (s.map.can[k]).coolExt ∧
      (coolBus s k c).cool[o] = (coolPort s k o d).cool[o] ∧
      seqOf (coolBus s k c) (coolIdent s k o) (s.map.can[k]).coolExt =
        seqOf (coolPort s k o d) (coolIdent s k o) (s.map.can[k]).coolExt := by
  obtain ⟨d, -, h2, h3, h4⟩ := coolPorts_mem s k o _ (List.nodup_finRange 32) (List.mem_finRange o) c
  rw [coolBus, if_pos hs]
  exact ⟨d, h2, h3, h4⟩

theorem coolPort_leadOnly (s : State) (k : CanIx) (o : OutIx) (c : Can) (hw : coolWanted s k o = true) (hm : (s.map.can[k]).mode = 1) :
    (coolPort s k o c).cool[o] = some { ident := coolIdent s k o, ext := (s.map.can[k]).coolExt, data := coolData s o } := by
  unfold coolPort
  rw [if_pos hw, if_neg (by rw [hm]; decide)]
  simp

theorem coolPort_dual (s : State) (k : CanIx) (o : OutIx) (c : Can) (hw : coolWanted s k o = true) (hm : (s.map.can[k]).mode = 2) :
    (coolPort s k o c).cool[o] = some {
      ident := coolIdent s k o, ext := (s.map.can[k]).coolExt,
      seq := some ((seqOf c (coolIdent s k o) (s.map.can[k]).coolExt).getD 0),
      data := (seqOf c (coolIdent s k o) (s.map.can[k]).coolExt).getD 0 :: coolData s o } ∧
    seqOf (coolPort s k o c) (coolIdent s k o) (s.map.can[k]).coolExt =
      some ((seqOf c (coolIdent s k o) (s.map.can[k]).coolExt).getD 0 + 1) := by
  unfold coolPort
  rw [if_pos hw, if_pos hm]
  exact ⟨by simp, seqOf_seqUse_same _ _ c⟩

theorem coolBus_unwanted (s : State) (k : CanIx) (o : OutIx) (c : Can) (h : coolSends s k = false ∨ coolWanted s k o = false) :
    (coolBus s k c).cool[o] = c.cool[o] := by
  unfold coolBus
  split
  · next hs =>
    obtain ⟨d, h1, -, h3, -⟩ := coolPorts_mem s k o _ (List.nodup_finRange 32) (List.mem_finRange o) c
    rw [h3, ← h1]
    unfold coolPort
    rw [if_neg]
    rcases h with h | h
    · rw [hs] at h; cases h
    · rw [h]; simp
  · rfl

/-- Settles O39: the controller of each bus is that of `coolBus`, whose steps are `coolPort` outlet by outlet. -/
theorem coolingFrames : Obligations.CoolingFrames := by
  unfold Obligations.CoolingFrames
  refine ⟨fun s hc hf => ?_, fun s hf => ?_⟩
  · obtain ⟨t, ht, frame, bus⟩ := exec_coolingFrameTx s hc hf
    refine ⟨t, ht, frame, fun k => ?_⟩
    rw [bus k]
    obtain ⟨bf, bm⟩ := coolBus_frame s k s.can[k]
    refine ⟨bf, bm, fun o => ⟨fun h1 h2 h3 h4 h5 h6 => ?_, fun h => ?_⟩⟩
    · have hw : coolWanted s k o = true := by rw [coolWanted, h5, h6]; rfl
      obtain ⟨d, d1, d2, d3⟩ := coolBus_wanted s k o s.can[k] (coolSends_of s k h1 h2 h3 h4)
      refine ⟨fun hm => d2.trans (coolPort_leadOnly s k o d hw hm), fun hm => ⟨_, rfl, ?_, ?_⟩⟩
      · exact (d3.trans (coolPort_dual s k o d hw hm).2).trans (by rw [d1]; rfl)
      · exact (d2.trans (coolPort_dual s k o d hw hm).1).trans (by rw [d1]; rfl)
    · refine coolBus_unwanted s k o s.can[k] ?_
      unfold coolSends coolWanted
      rcases h with h | h | h | h | h | h <;> simp only [h, Bool.false_and, Bool.and_false, Bool.not_true, Option.isSome_none, true_or, or_true]
  · show execCoolingFrameTx s = _
    exact whenOn_id (if_neg hf)

end Sys2Proof.Machine
end

section
/-! Cabinet buses (chapter 14): receiving (O40) and sending (O41). -/

namespace Sys2Proof.Machine

/-! ### The sensor mailbox (R355) -/

theorem mailOf_put_same (l : Levels) (m : MailSlot) : mailOf { l with mail := mailPut m l.mail } m.q m.num m.sub = some m := by
  simp [mailOf, mailPut]

theorem mailOf_put_other (l : Levels) (m : MailSlot) {q n u : Nat} (h : ¬ (q = m.q ∧ n = m.num ∧ u = m.sub)) :
    mailOf { l with mail := mailPut m l.mail } q n u = mailOf l q n u := by
  have key : ∀ x : MailSlot, (x.q = q && x.num = n && x.sub = u) = true → (!(x.q = m.q && x.num = m.num && x.sub = m.sub)) = true := by
    intro x hx
    simp only [Bool.and_eq_true, decide_eq_true_eq] at hx
    obtain ⟨⟨rfl, rfl⟩, rfl⟩ := hx
    simpa [and_assoc, not_and, imp_iff_not_or, or_assoc] using h
  have head : ¬ (m.q = q && m.num = n && m.sub = u) = true := by
    simp only [Bool.and_eq_true, decide_eq_true_eq]
    exact fun e => h ⟨e.1.1.symm, e.1.2.symm, e.2.symm⟩
  unfold mailOf mailPut
  dsimp only
  rw [List.find?_cons_of_neg (by simpa using head), List.find?_filter]
  congr 1
  funext x
  cases hx : (decide (x.q = q) && decide (x.num = n) && decide (x.sub = u)) with
  | false => simp
  | true => simpa using key x hx

/-! ### Receiving (R352 to R357) -/

theorem exec_canRxFrame (k : CanIx) (f : CanFrame) (us : Nat) (s : State) :
    exec (.canRxFrame k f us) s = .next (canReceive k f us (canHeard k f s)) := rfl

theorem canReceive_taken {k : CanIx} {f : CanFrame} {s : State} (hon : canOn s k = true) (hrem : f.remote = false)
    (hlen : f.data.length ≤ 64) : ¬ (!canOn s k || f.remote || decide (64 < f.data.length)) = true := by
  simp [hon, hrem, hlen]

theorem canReceive_of_noHit (k : CanIx) (f : CanFrame) (us : Nat) (s : State) (hon : canOn s k = true) (hrem : f.remote = false)
    (hlen : f.data.length ≤ 64) (hhit : filtHits s k f = []) :
    canReceive k f us s = onCan k (fun c => { c with received := c.received + 1 }) s := by
  rw [canReceive, if_neg (canReceive_taken hon hrem hlen), hhit]
  rfl

theorem canReceive_of_quantityHit (k : CanIx) (f : CanFrame) (us i v : Nat) (e : FiltCfg) (s : State) (hon : canOn s k = true)
    (hrem : f.remote = false) (hlen : f.data.length ≤ 64) (hhit : filtHits s k f = [(i, e)]) (hq : e.q ≠ 0) (hcopy : e.copy = false)
    (hv : filtValue e f = some v) : canReceive k f us s = filtQuantity k i e f (onCan k (fifoHit i) s) := by
  rw [canReceive, if_neg (canReceive_taken hon hrem hlen), hhit]
  simp only [List.any_cons, List.any_nil, List.foldl_cons, List.foldl_nil, hq, hcopy, hv, decide_false, Option.isNone_some, Bool.and_false,
    Bool.or_self, Bool.false_eq_true, ↓reduceIte]
  rfl

/-- The slot that a quantity entry fills. -/
def mailSlotOf (k : CanIx) (i v : Nat) (e : FiltCfg) (s : State) : MailSlot :=
  { q := e.q, num := e.num, sub := e.sub, can := k, entry := i, value := v, fn := s.fn, action := e.action }

theorem filtQuantity_frame (k : CanIx) (i v : Nat) (e : FiltCfg) (f : CanFrame) (s : State) (hv : filtValue e f = some v) :
    (filtQuantity k i e f s).live = { s.live with mail := mailPut (mailSlotOf k i v e s) s.live.mail } ∧
    ((filtQuantity k i e f s).can[k]).received = (s.can[k]).received ∧
    (∀ j : CanIx, j ≠ k → (filtQuantity k i e f s).can[j] = s.can[j]) ∧
    filtQuantity k i e f s = { s with
      live := { s.live with mail := (filtQuantity k i e f s).live.mail }, can := (filtQuantity k i e f s).can } := by
  unfold filtQuantity
  rw [hv]
  dsimp only
  split
  · exact ⟨rfl, by rw [onCan_can_same], fun j hj => onCan_can_other hj _ _, rfl⟩
  · exact ⟨rfl, rfl, fun _ _ => rfl, rfl⟩

/-- The bytes of a FIFO entry (R354). -/
def fifoHead (f : CanFrame) (s : State) : List Byte :=
  leBytes 8 s.fn ++ leBytes 4 (f.ident.toNat + 2 ^ 29 * bit f.ext + 2 ^ 30 * bit f.fd + 2 ^ 31 * bit f.brs) ++ leBytes 1 f.data.length

def fifoEntry (f : CanFrame) (us first : Nat) (s : State) : List Byte :=
  fifoHead f s ++ leBytes 1 first ++ leBytes 2 us ++ f.data ++ List.replicate (64 - f.data.length) 0

theorem fifoHead_length (f : CanFrame) (s : State) : (fifoHead f s).length = 13 := by
  simp [fifoHead, leBytes_length]

theorem fifoEntry_length (f : CanFrame) (us first : Nat) (s : State) (h : f.data.length ≤ 64) : (fifoEntry f us first s).length = 80 := by
  simp only [fifoEntry, List.length_append, fifoHead_length, leBytes_length, List.length_replicate]
  omega

theorem canFifo_of_room (k : CanIx) (f : CanFrame) (us first : Nat) (s : State) (h : (s.can[k]).unread < 64) :
    canFifo k f us first s = canBit k 3 (onCan k (fun c => { c with rxWr := c.rxWr + 1, unread := c.unread + 1 })
      (lndWrite (canRxBase k + 80 * (s.can[k]).rxWr.toNat) (fifoEntry f us first s) s)) :=
  if_neg (Nat.not_le.mpr h)

theorem lndWrite_mem (a : Nat) (bs : List Byte) (s : State) : (lndWrite a bs s).lnd.mem = memWriteBytes s.lnd.mem a bs := rfl

theorem lndWrite_can (a : Nat) (bs : List Byte) (s : State) : (lndWrite a bs s).can = s.can := rfl

theorem onCan_lnd (k : CanIx) (f : Can → Can) (s : State) : (onCan k f s).lnd = s.lnd := rfl

theorem canFifo_effect (k : CanIx) (f : CanFrame) (us first : Nat) (s : State) (h : (s.can[k]).unread < 64) (hlen : f.data.length ≤ 64)
    (hm : Memory.wf s.lnd.mem = true) :
    ((canFifo k f us first s).can[k]).rxWr = (s.can[k]).rxWr + 1 ∧ ((canFifo k f us first s).can[k]).unread = (s.can[k]).unread + 1 ∧
    memReadBytes (canFifo k f us first s).lnd.mem (canRxBase k + 80 * (s.can[k]).rxWr.toNat) 13 = fifoHead f s ∧
    memReadBytes (canFifo k f us first s).lnd.mem (canRxBase k + 80 * (s.can[k]).rxWr.toNat + 16) f.data.length = f.data ∧
    ∀ a : Nat, a < canRxBase k + 80 * (s.can[k]).rxWr.toNat ∨ canRxBase k + 80 * (s.can[k]).rxWr.toNat + 80 ≤ a →
      memRead (canFifo k f us first s).lnd.mem a = memRead s.lnd.mem a := by
  have mem : (canFifo k f us first s).lnd.mem =
      memWriteBytes s.lnd.mem (canRxBase k + 80 * (s.can[k]).rxWr.toNat) (fifoEntry f us first s) := by
    rw [canFifo_of_room k f us first s h, canBit, onCan_lnd, onCan_lnd, lndWrite_mem]
  have ports : (canFifo k f us first s).can[k] =
      { s.can[k] with rxWr := (s.can[k]).rxWr + 1, unread := (s.can[k]).unread + 1, intStatus := setBit (s.can[k]).intStatus 3 } := by
    rw [canFifo_of_room k f us first s h, canBit, onCan_can_same, onCan_can_same, lndWrite_can]
  have front := memReadBytes_front s.lnd.mem (canRxBase k + 80 * (s.can[k]).rxWr.toNat) (fifoHead f s)
    (leBytes 1 first ++ leBytes 2 us ++ f.data ++ List.replicate (64 - f.data.length) 0) hm
  have body := memReadBytes_part s.lnd.mem (canRxBase k + 80 * (s.can[k]).rxWr.toNat) (fifoHead f s ++ leBytes 1 first ++ leBytes 2 us)
    f.data (List.replicate (64 - f.data.length) 0) hm
  have off := fun a => memRead_memWriteBytes_off s.lnd.mem (canRxBase k + 80 * (s.can[k]).rxWr.toNat) a (fifoEntry f us first s) hm
  rw [fifoHead_length] at front
  simp only [List.length_append, fifoHead_length, leBytes_length] at body
  simp only [← List.append_assoc] at front
  rw [fifoEntry_length f us first s hlen] at off
  rw [mem, ports]
  exact ⟨rfl, rfl, front, body, off⟩

/-! ### Sending (R359 to R361) -/

theorem canRefuse_effect (k : CanIx) (s : State) : ((canRefuse k s).can[k]).queue = (s.can[k]).queue ∧
    ((canRefuse k s).can[k]).refused = (s.can[k]).refused + 1 ∧ (canRefuse k s).hst.cRefused = s.hst.cRefused + 1 := by
  have port : (canRefuse k s).can[k] = { s.can[k] with refused := (s.can[k]).refused + 1, intStatus := setBit (s.can[k]).intStatus 5 } := by
    show (canBit k 5 (onCan k _ s)).can[k] = _
    rw [canBit, onCan_can_same, onCan_can_same]
  rw [port]
  exact ⟨rfl, rfl, rfl⟩

theorem canSent_effect (k : CanIx) (brs : Bool) (s : State) : ((canSent k brs s).can[k]).queue = (s.can[k]).queue ∧
    ((canSent k brs s).can[k]).sent = (s.can[k]).sent + 1 ∧ (∀ j : CanIx, j ≠ k → (canSent k brs s).can[j] = s.can[j]) ∧
    canSent k brs s = { s with can := (canSent k brs s).can, freeIx := (canSent k brs s).freeIx } := by
  unfold canSent
  dsimp only
  split
  · have port : (onCan k (fun c => { c with sent := c.sent + 1 }) s).fresh.2.can = (onCan k (fun c => { c with sent := c.sent + 1 }) s).can := rfl
    refine ⟨?_, ?_, fun j hj => ?_, rfl⟩
    · simp only [onCan_can_same, port]
    · simp only [onCan_can_same, port]
    · rw [onCan_can_other hj, port, onCan_can_other hj]
  · exact ⟨by rw [onCan_can_same], by rw [onCan_can_same], fun j hj => onCan_can_other hj _ s, rfl⟩

theorem canSent_plain (k : CanIx) (s : State) : canSent k false s = onCan k (fun c => { c with sent := c.sent + 1 }) s := rfl

theorem canEnqueue_room (x : CanTx) (c : Can) (h : c.queue.length < 32) : canEnqueue x c = { c with
    queue := c.queue ++ [x], peak := max c.peak (c.queue.length + 1), enqNow := c.enqNow + 1, enqLog := (x :: c.enqLog).take 32 } := by
  have room : decide (32 ≤ c.queue.length) = false := decide_eq_false (Nat.not_le.mpr h)
  unfold canEnqueue
  dsimp only
  rw [room]
  simp

/-- The frame that a classic request asks for, before its sequence byte (R359). -/
def classicTx (bs : List Byte) (q : Option Byte) : CanTx :=
  { ident := BitVec.ofNat 29 (leNat (bs.take 4)), ext := decide (field (leNat (bs.take 4)) 29 1 = 1), fd := false, brs := false, seq := q,
    data := (match q with | some b => [b] | none => []) ++ (bs.drop 8).take (leNat ((bs.drop 4).take 1)) }

/-- The host's bytes of a request. -/
theorem host_length (bs : List Byte) {n : Nat} (h : bs.length = 72) (hn : n ≤ 64) : ((bs.drop 8).take n).length = n := by
  rw [List.length_take, List.length_drop, h, Nat.min_eq_left (by omega)]

/-- A classic length needs no padding (R359). -/
theorem pad_classic {d : List Byte} {n : Nat} (hd : d.length = n) (hn : n ≤ 8) : d ++ List.replicate (fdLen n - d.length) 0 = d := by
  rw [fdLen, if_pos hn, hd, Nat.sub_self]
  exact List.append_nil d

theorem canRequest_leadOnly (k : CanIx) (bs : List Byte) (s : State) (hb : bs.length = 72) (hm : (s.map.can[k]).mode = 1)
    (hfd : field (leNat (bs.take 4)) 30 1 = 0) (hbrs : field (leNat (bs.take 4)) 31 1 = 0) (hl : leNat ((bs.drop 4).take 1) ≤ 8)
    (hf : s.lat.levels.txFill[k] + (s.can[k]).enqNow < 32) :
    canRequest k bs s = onCan k (canEnqueue (classicTx bs none)) s := by
  have fits : ¬ 32 < s.lat.levels.txFill[k] + (s.can[k]).enqNow + 1 := by omega
  have short : ¬ 8 < leNat ((bs.drop 4).take 1) := by omega
  unfold canRequest
  simp only [hm, hfd, hbrs, fits, short, bit, decide_false, Bool.false_and, Bool.or_false, Bool.false_eq_true, ↓reduceIte,
    Nat.add_zero, show ¬ (1 : Nat) = 0 by decide, show ¬ (1 : Nat) = 2 by decide, show ¬ (0 : Nat) = 1 by decide]
  rw [pad_classic (host_length bs hb (by omega)) hl]
  rfl

theorem canRequest_dual (k : CanIx) (bs : List Byte) (s : State) (hb : bs.length = 72) (hm : (s.map.can[k]).mode = 2)
    (hfd : field (leNat (bs.take 4)) 30 1 = 0) (hbrs : field (leNat (bs.take 4)) 31 1 = 0) (hl : leNat ((bs.drop 4).take 1) ≤ 7)
    (hf : s.lat.levels.txFill[k] + (s.can[k]).enqNow < 32) (hq : (s.can[k]).seqs.length < 128) :
    canRequest k bs s = onCan k (fun c =>
      canEnqueue (classicTx bs (some ((seqOf c (BitVec.ofNat 29 (leNat (bs.take 4))) (decide (field (leNat (bs.take 4)) 29 1 = 1))).getD 0)))
        (seqUse (BitVec.ofNat 29 (leNat (bs.take 4))) (decide (field (leNat (bs.take 4)) 29 1 = 1)) c).2) s := by
  have fits : ¬ 32 < s.lat.levels.txFill[k] + (s.can[k]).enqNow + 1 := by omega
  have short : ¬ 8 < leNat ((bs.drop 4).take 1) + 1 := by omega
  have known : ¬ 128 ≤ (s.can[k]).seqs.length := Nat.not_le.mpr hq
  unfold canRequest
  simp only [hm, hfd, hbrs, fits, short, known, bit, decide_false, decide_true, Bool.false_and, Bool.true_and, Bool.and_false, Bool.or_false,
    Bool.false_eq_true, ↓reduceIte, show ¬ (2 : Nat) = 0 by decide, show ¬ (0 : Nat) = 1 by decide]
  refine congrArg (fun f => onCan k f s) (funext fun c => ?_)
  have pad := fun q : Byte => pad_classic (d := q :: (bs.drop 8).take (leNat ((bs.drop 4).take 1)))
    (congrArg (· + 1) (host_length bs hb (show leNat ((bs.drop 4).take 1) ≤ 64 by omega))) (by omega)
  rw [pad]
  rfl

theorem canRequest_full (k : CanIx) (bs : List Byte) (s : State) (hf : 32 ≤ s.lat.levels.txFill[k] + (s.can[k]).enqNow) :
    canRequest k bs s = canRefuse k s := by
  have full : decide (32 < s.lat.levels.txFill[k] + (s.can[k]).enqNow + 1) = true := decide_eq_true (by omega)
  unfold canRequest
  simp only [full, Bool.or_true, Bool.true_or, ↓reduceIte]

theorem exec_canTxSubmit (k : CanIx) (count : BitVec 4) (s : State) (hc : s.isl.com = true) (hb : lndBad (canTxBase k) 576 s = []) :
    exec (.canTxSubmit k count) s = .next (canSubmit k count.toNat (lndRead (canTxBase k) 576 s) s) := by
  show execCanTxSubmit k count s = _
  rw [execCanTxSubmit, whenOn_on s hc, latchRead]
  simp only [lndPoison, eccRead, hb, List.any_nil, List.foldl_nil, Bool.false_eq_true, ↓reduceIte]

theorem exec_canTxComplete (k : CanIx) (src : TxSource) (s : State) : exec (.canTxComplete k src) s = .next (canTxComplete k src s) := rfl

theorem canSends_of_off {k : CanIx} {s : State} (h : canOn s k = false) : canSends s k = false := by
  rw [canSends, h]
  rfl

theorem canTxComplete_of_off (k : CanIx) (src : TxSource) (s : State) (h : canOn s k = false) : canTxComplete k src s = s := by
  have off := canSends_of_off h
  unfold canTxComplete
  cases src with
  | queue =>
    dsimp only
    split
    · rfl
    · exact if_neg (by rw [off]; simp)
  | heartbeat => exact if_neg (by rw [h]; simp)
  | cooling o => exact if_neg (by rw [off]; simp)

theorem canTxComplete_queue (k : CanIx) (x : CanTx) (xs : List CanTx) (s : State) (hs : canSends s k = true)
    (hq : (s.can[k]).queue = x :: xs) : canTxComplete k .queue s = canSent k x.brs (onCan k (fun c => { c with queue := xs }) s) := by
  unfold canTxComplete
  dsimp only
  rw [hq]
  exact if_pos hs

/-- Settles O41: the requests of a submit by what `canRequest` makes of one, and the completion of each source. -/
theorem canTransmit : Obligations.CanTransmit := by
  unfold Obligations.CanTransmit
  refine ⟨exec_canTxSubmit, fun k count win s hn => ⟨_, if_pos hn, canRefuse_effect k s⟩,
    fun k bs s hb hm hfd hbrs hl hf hq => ?_, fun k bs s hb hm hfd hbrs hl hf hq hn => ?_, fun k bs s hf => ?_,
    fun k x xs s hs hq => ?_, fun k o x s hs hx => ?_, fun k src s h => congrArg _ (canTxComplete_of_off k src s h)⟩
  · rw [canRequest_leadOnly k bs s hb hm hfd hbrs hl hf, onCan_can_same, canEnqueue_room _ _ hq]
    exact ⟨classicTx bs none, rfl, rfl, rfl, rfl, rfl, rfl, rfl⟩
  · rw [canRequest_dual k bs s hb hm hfd hbrs hl hf hn, onCan_can_same]
    exact ⟨classicTx bs (some _), _, rfl, congrArg Can.queue (canEnqueue_room _ (seqUse _ _ s.can[k]).2 hq), rfl, rfl, rfl⟩
  · rw [canRequest_full k bs s hf]
    exact canRefuse_effect k s
  · obtain ⟨queue, sent, others, frame⟩ := canSent_effect k x.brs (onCan k (fun c => { c with queue := xs }) s)
    refine ⟨_, (exec_canTxComplete k .queue s).trans (congrArg _ (canTxComplete_queue k x xs s hs hq)), ?_, ?_, fun j hj => ?_, frame⟩
    · rw [queue, onCan_can_same]
    · rw [sent, onCan_can_same]
    · rw [others j hj, onCan_can_other hj]
  · have done : canTxComplete k (.cooling o) s = canSent k false (onCan k (fun c => { c with cool := c.cool.set o none }) s) :=
      if_pos (by rw [hs, hx]; rfl)
    rw [exec_canTxComplete, done, canSent_plain]
    simp only [onCan, upd_upd]

end Sys2Proof.Machine

namespace Sys2Proof
open Machine

/-- Settles O40, by what the filters make of a frame: none, a quantity, the FIFO. -/
theorem canReceive : Obligations.CanReceive := by
  unfold Obligations.CanReceive
  refine ⟨fun k f us s h => ?_, fun k f us s hon hrem hlen hhit => ?_, fun k f us i v e s hon hrem hlen hhit hq hcopy hv => ?_,
    fun k f us i e s hon hrem hlen hhit hq hroom hm => ?_⟩
  · have unheard : canHeard k f s = s := if_neg (by rcases h with h | h <;> simp [h])
    rw [exec_canRxFrame, unheard]
    exact congrArg _ (if_pos (by rcases h with h | h <;> simp [h]))
  · rw [exec_canRxFrame, canHeard_of_on k f s hon, canReceive_of_noHit k f us (onCan k _ s) hon hrem hlen hhit]
    simp only [onCan, upd_upd, heardFrame]
  · refine ⟨_, exec_canRxFrame k f us s, ?_⟩
    rw [canHeard_of_on k f s hon, canReceive_of_quantityHit k f us i v e (onCan k _ s) hon hrem hlen hhit hq hcopy hv]
    obtain ⟨live, recv, others, frame⟩ := filtQuantity_frame k i v e f
      (onCan k (fifoHit i) (onCan k (heardFrame f (canRestricted s k)) s)) hv
    generalize filtQuantity k i e f (onCan k (fifoHit i) (onCan k (heardFrame f (canRestricted s k)) s)) = t at live recv others frame ⊢
    refine ⟨?_, fun q n u h => ?_, ?_, fun j hj => ?_, frame⟩
    · rw [live]
      exact mailOf_put_same s.live (mailSlotOf k i v e s)
    · rw [live]
      exact mailOf_put_other s.live (mailSlotOf k i v e s) h
    · rw [recv, onCan_can_same, onCan_can_same]
      rfl
    · rw [others j hj, onCan_can_other hj, onCan_can_other hj]
  · have heard : (onCan k (fifoHit i) (onCan k (heardFrame f (canRestricted s k)) s)).can[k] =
        fifoHit i (heardFrame f (canRestricted s k) s.can[k]) := by rw [onCan_can_same, onCan_can_same]
    have wr : ((onCan k (fifoHit i) (onCan k (heardFrame f (canRestricted s k)) s)).can[k]).rxWr = (s.can[k]).rxWr := by rw [heard]; rfl
    have un : ((onCan k (fifoHit i) (onCan k (heardFrame f (canRestricted s k)) s)).can[k]).unread = (s.can[k]).unread := by rw [heard]; rfl
    have effect := canFifo_effect k f us i (onCan k (fifoHit i) (onCan k (heardFrame f (canRestricted s k)) s)) (by rw [un]; exact hroom) hlen hm
    rw [wr, un] at effect
    refine ⟨_, ?_, effect⟩
    rw [exec_canRxFrame, canHeard_of_on k f s hon, canReceive_of_fifoHit k f us i e (onCan k _ s) hon hrem hlen hhit hq]

end Sys2Proof
end

section
/-! Metrology (chapter 9): the sub-samples and the cycle (O43). -/

namespace Sys2Proof.Machine

/-! ### What a ring entry leaves unchanged -/

/-- Nothing changed but the landing block and the events. -/
def LndEvs (s t : State) : Prop := t = { s with lnd := t.lnd, evs := t.evs }

theorem lndEvs_refl (s : State) : LndEvs s s := rfl
theorem lndEvs_trans {s t u : State} (h : LndEvs s t) (k : LndEvs t u) : LndEvs s u := by
  unfold LndEvs at h k ⊢
  rw [h] at k
  exact k

theorem onLnd_lndEvs (f : Lnd → Lnd) (s : State) : LndEvs s (onLnd f s) := rfl
theorem lndEvent_lndEvs (b data : Nat) (s : State) : LndEvs s (lndEvent b data s) := rfl
theorem lndWrite_lndEvs (a : Nat) (bs : List Byte) (s : State) : LndEvs s (lndWrite a bs s) := rfl

theorem ringAdd_lndEvs (q : Fin 64) (n : Nat) (s : State) : LndEvs s (ringAdd q n s) :=
  ite_rel _ (lndEvs_refl s) (ite_rel _ (lndEvs_trans (onLnd_lndEvs _ s) (lndEvent_lndEvs _ _ _)) (onLnd_lndEvs _ s))

theorem ringPut_lndEvs (q : Fin 64) (base : Nat) (bs : List Byte) (s : State) : LndEvs s (ringPut q base bs s) :=
  ite_rel _ (lndEvs_refl s) (lndEvs_trans (lndWrite_lndEvs _ bs s) (ringAdd_lndEvs q _ _))

theorem ringAdd_mem (q : Fin 64) (n : Nat) (s : State) : (ringAdd q n s).lnd.mem = s.lnd.mem := by
  unfold ringAdd
  dsimp only
  split
  · rfl
  · split <;> rfl

/-! ### A sub-sample (R222, R225) -/

theorem subWords_getD (codes : List Int) (s : State) (c : Fin 72) :
    (subWords codes s).getD c.val 0 = if cvOn s c then corrected s.met c (rawCode codes s c) (-52) else 0 := by
  simp [subWords, List.getD_eq_getElem?_getD]

/-- A corrected sub-sample of a powered converter, as O43 writes it. -/
def subWord (codes : List Int) (s : State) (c : Fin 72) : Int :=
  corrected s.met c (clampI (-8388608) 8388607 (codes.getD c.val 0)) (-52)

theorem subWords_on (codes : List Int) (s : State) (c : Fin 72) (h : cvOn s c = true) :
    (subWords codes s).getD c.val 0 = subWord codes s c := by
  rw [subWords_getD, if_pos h, rawCode, if_pos h, subWord]

theorem cvOn_even (s : State) (k : SetIx) : cvOn s ⟨2 * k.val, by omega⟩ = metOn s k := by
  have lt : 2 * k.val < 64 := by omega
  have half : 2 * k.val / 2 = k.val := by omega
  simp [cvOn, lt, half]

theorem cvOn_odd (s : State) (k : SetIx) : cvOn s ⟨2 * k.val + 1, by omega⟩ = metOn s k := by
  have lt : 2 * k.val + 1 < 64 := by omega
  have half : (2 * k.val + 1) / 2 = k.val := by omega
  simp [cvOn, lt, half]

theorem sampOf_pw (codes : List Int) (s : State) (k : SetIx) : (sampOf codes s).pw[k.val] =
    if metOn s k then subWord codes s ⟨2 * k.val, by omega⟩ * subWord codes s ⟨2 * k.val + 1, by omega⟩ else 0 := by
  have pw : (sampOf codes s).pw[k.val] = (subWords codes s).getD (2 * k.val) 0 * (subWords codes s).getD (2 * k.val + 1) 0 := by
    simp [sampOf]
  have even := subWords_getD codes s ⟨2 * k.val, by omega⟩
  rw [pw]
  split
  case isTrue on =>
    exact congrArg₂ (· * ·) (subWords_on codes s ⟨2 * k.val, by omega⟩ ((cvOn_even s k).trans on))
      (subWords_on codes s ⟨2 * k.val + 1, by omega⟩ ((cvOn_odd s k).trans on))
  case isFalse off =>
    rw [cvOn_even, if_neg off] at even
    rw [even, Int.zero_mul]

/-- The crossing that a sub-sample shows. -/
def crossNow (codes : List Int) (s : State) : Option Nat :=
  crossIn s.met fun p => (subWords codes s).getD (64 + p.val) 0 - (subWords codes s).getD 67 0

/-- The sub-sample waits for the end of the cycle. -/
def subWaits (codes : List Int) (s : State) (len : Nat) : Bool :=
  (crossNow codes s).isSome || decide ((len : Int) < (sampOf codes s).clk)

/-- What a sub-sample makes of the metering hardware that it has joined, or in which it waits. -/
def subNext (codes : List Int) (s : State) (m : Met) : Met :=
  { phaseStep (fun p => (subWords codes s).getD (64 + p.val) 0 - (subWords codes s).getD 67 0) m with
    clk := (sampOf codes s).clk, cross := crossNow codes s,
    hold := m.hold || ((crossNow codes s).isNone && decide (91022 < (sampOf codes s).clk)),
    vSum := Vec.mapIx m.vSum fun k a => a + (subWords codes s).getD (2 * k.val) 0, vN := m.vN + 1 }

theorem subNext_sums (codes : List Int) (s : State) (m : Met) : (subNext codes s m).n = m.n ∧ (subNext codes s m).tail = m.tail ∧
    (subNext codes s m).sFwd = m.sFwd ∧ (subNext codes s m).sRev = m.sRev ∧ (subNext codes s m).vN = m.vN + 1 := ⟨rfl, rfl, rfl, rfl, rfl⟩

theorem subNext_clock (codes : List Int) (s : State) (m : Met) : (subNext codes s m).clk = s.met.clk + 256 ∧
    (subNext codes s m).cross = crossNow codes s := ⟨rfl, rfl⟩

/-- What a sub-sample makes of the metering hardware `m`, the nominal length being `len`. -/
def subMet (codes : List Int) (s : State) (len : Nat) (m : Met) : Met :=
  subNext codes s (if subWaits codes s len then { m with tail := m.tail ++ [sampOf codes s] } else addSamp m (sampOf codes s))

/-- What a sub-sample makes of a state whose capture ring has taken it. -/
def subTaken (codes : List Int) (s u : State) : State := onMet (subMet codes s (nominalLen u)) u

theorem subsample_eq (codes : List Int) (s : State) : subsample codes s = subTaken codes s
    ((capWords codes ((s.met.n = 0 && s.met.tail = []) || (s.met.cross.isNone && (crossNow codes s).isSome)) s).foldl
      (fun s w => ringPut 5 captureBase w s) s) := rfl

theorem subsample_effect (codes : List Int) (s : State) : (subsample codes s).met = subMet codes s (nominalLen s) s.met ∧
    subsample codes s = { s with met := (subsample codes s).met, lnd := (subsample codes s).lnd, evs := (subsample codes s).evs } := by
  rw [subsample_eq]
  generalize capWords codes _ s = ws
  have kept := foldl_rel LndEvs lndEvs_refl lndEvs_trans (fun s w => ringPut 5 captureBase w s)
    (fun s w => ringPut_lndEvs 5 captureBase w s) ws s
  generalize List.foldl _ s ws = u at kept ⊢
  rw [LndEvs] at kept
  rw [kept]
  exact ⟨rfl, rfl⟩

theorem addSamp_fwd (m : Met) (x : Samp) (k : Fin 33) : (addSamp m x).sFwd[k.val] = m.sFwd[k.val] + max 0 x.pw[k.val] :=
  mapIx_get m.sFwd (fun k a => a + max 0 x.pw[k]) k

theorem addSamp_rev (m : Met) (x : Samp) (k : Fin 33) : (addSamp m x).sRev[k.val] = m.sRev[k.val] + max 0 (-x.pw[k.val]) :=
  mapIx_get m.sRev (fun k a => a + max 0 (-x.pw[k])) k

theorem addSamp_kept (m : Met) (x : Samp) : (addSamp m x).n = m.n + 1 ∧ (addSamp m x).tail = m.tail ∧ (addSamp m x).vN = m.vN := by
  unfold addSamp
  exact ⟨rfl, rfl, rfl⟩

theorem subMet_waits (codes : List Int) (s : State) (len : Nat) (m : Met) (h : subWaits codes s len = true) :
    (subMet codes s len m).n = m.n ∧ (subMet codes s len m).tail = m.tail ++ [sampOf codes s] ∧
    (subMet codes s len m).sFwd = m.sFwd ∧ (subMet codes s len m).sRev = m.sRev ∧ (subMet codes s len m).vN = m.vN + 1 := by
  rw [subMet, if_pos h]
  exact subNext_sums codes s _

theorem subMet_joins (codes : List Int) (s : State) (len : Nat) (m : Met) (h : subWaits codes s len = false) :
    (subMet codes s len m).n = m.n + 1 ∧ (subMet codes s len m).tail = m.tail ∧
    (subMet codes s len m).sFwd = (addSamp m (sampOf codes s)).sFwd ∧ (subMet codes s len m).sRev = (addSamp m (sampOf codes s)).sRev ∧
    (subMet codes s len m).vN = m.vN + 1 := by
  obtain ⟨n, tail, vN⟩ := addSamp_kept m (sampOf codes s)
  rw [subMet, if_neg (by rw [h]; simp), ← n, ← tail, ← vN]
  exact subNext_sums codes s _

theorem exec_meterSubsample (codes : List Int) (s : State) (h : s.isl.met = true) :
    exec (.meterSubsample codes) s = .next (subsample codes s) := whenOn_on s h

/-! ### Crossings (R222) -/

theorem crossOff_nearest (a b : Int) (ha : a < 0) (hb : 0 ≤ b) : 2 * (256 * -a) - (b - a) ≤ 2 * crossOff a b * (b - a) ∧
    2 * crossOff a b * (b - a) < 2 * (256 * -a) + (b - a) := by
  have low := Int.ediv_mul_le (2 * (256 * -a) + (b - a) - 1) (b := 2 * (b - a)) (by omega)
  have high := Int.lt_ediv_add_one_mul_self (2 * (256 * -a) + (b - a) - 1) (b := 2 * (b - a)) (by omega)
  rw [← crossOff] at low high
  have twice : crossOff a b * (2 * (b - a)) = 2 * crossOff a b * (b - a) := by ring
  have next : (crossOff a b + 1) * (2 * (b - a)) = 2 * crossOff a b * (b - a) + 2 * (b - a) := by ring
  rw [twice] at low
  rw [next] at high
  omega

theorem crossIn_bounds (m : Met) (ln : Fin 3 → Int) (l : Nat) (hc : m.cross = none) (h : crossIn m ln = some l) :
    63016 ≤ l ∧ l ≤ 91022 ∧ ∃ p : Fin 3, p.val = m.phase ∧ m.ln[p] < 0 ∧ 0 ≤ ln p ∧ m.low.getLsbD p.val = true := by
  unfold crossIn at h
  rw [hc] at h
  rcases hp : optFin 3 m.phase with _ | p
  · rw [hp] at h
    cases h
  · rw [hp] at h
    dsimp only at h
    split at h
    case isFalse => cases h
    case isTrue ok =>
      obtain ⟨rfl⟩ := h
      simp only [crossHeld, Bool.and_eq_true, decide_eq_true_eq] at ok
      obtain ⟨⟨⟨⟨neg, pos⟩, low⟩, least⟩, most⟩ := ok
      refine ⟨by omega, by omega, p, ?_, neg, pos, low⟩
      unfold optFin at hp
      split at hp
      · obtain ⟨rfl⟩ := hp
        rfl
      · cases hp

/-! ### The end of a cycle (R222 to R229) -/

/-- Nothing changed but what sub-samples add up. -/
def SumsOnly (m t : Met) : Prop := t = { m with
  sFwd := t.sFwd, sRev := t.sRev, sq := t.sq, peak := t.peak, n := t.n, ovr := t.ovr }

theorem sumsOnly_refl (m : Met) : SumsOnly m m := rfl
theorem sumsOnly_trans {m n o : Met} (h : SumsOnly m n) (k : SumsOnly n o) : SumsOnly m o := by
  unfold SumsOnly at h k ⊢
  rw [h] at k
  exact k

theorem sumsOnly_put (m : Met) (fwd rev : Vector Int 33) (sq : Vector Int 11) (peak : Vector Int 3) (n : Nat) (ovr : BitVec 72) :
    SumsOnly m { m with sFwd := fwd, sRev := rev, sq := sq, peak := peak, n := n, ovr := ovr } := rfl

theorem addSamp_sumsOnly (m : Met) (x : Samp) : SumsOnly m (addSamp m x) := sumsOnly_put m _ _ _ _ _ _

theorem foldl_addSamp_sumsOnly (xs : List Samp) (m : Met) : SumsOnly m (xs.foldl addSamp m) := by
  induction xs generalizing m with
  | nil => exact sumsOnly_refl m
  | cons x xs ih =>
    rw [List.foldl_cons]
    exact sumsOnly_trans (addSamp_sumsOnly m x) (ih (addSamp m x))

theorem foldl_addSamp_fwd (xs : List Samp) (m : Met) (k : Fin 33) :
    (xs.foldl addSamp m).sFwd[k.val] = m.sFwd[k.val] + (xs.map fun y : Samp => max 0 y.pw[k.val]).sum := by
  induction xs generalizing m with
  | nil => simp
  | cons x xs ih =>
    rw [List.foldl_cons, ih, addSamp_fwd, List.map_cons, List.sum_cons, Int.add_assoc]

theorem flatten_map_length {α β : Type} (f : α → List β) (n : Nat) (l : List α) (h : ∀ x, (f x).length = n) :
    (l.map f).flatten.length = n * l.length := by
  induction l with
  | nil => rfl
  | cons x xs ih => rw [List.map_cons, List.flatten_cons, List.length_append, h, ih, List.length_cons, Nat.mul_succ, Nat.add_comm]

theorem cycleBytes_length (r : CycleRec) (hv : r.site.rmsV.length = 4) (hi : r.site.rmsI.length = 4) : (cycleBytes r).length = 576 := by
  have volts := flatten_map_length (leBytes 2) 2 r.site.rmsV (leBytes_length 2)
  have amps := flatten_map_length (leBytes 2) 2 r.site.rmsI (leBytes_length 2)
  rw [hv] at volts
  rw [hi] at amps
  unfold cycleBytes
  simp only [List.length_append, leBytes_length, List.length_replicate, volts, amps]
  rw [flatten_map_length _ 16 r.sets.toList (fun e => by simp only [List.length_append, leBytes_length]), Vector.length_toList]

/-- The energy of a set before its division, with the fraction that the last cycle kept (R225). -/
def energyFwd (s : State) (k : Fin 33) : Nat := s.met.resFwd[k] + (s.met.sFwd[k] * ksOf (ratios s k).1 (ratios s k).2).toNat

/-- What a closed cycle makes of the metering hardware: its sums start again, and the fraction of each energy stays. -/
def MetClosed (s : State) (g : Met → Met) : Prop := ∀ m, (g m).n = 0 ∧ (g m).sFwd = Vector.replicate 33 0 ∧
  (g m).sRev = Vector.replicate 33 0 ∧ (g m).seq = m.seq + 1 ∧ (g m).tail = m.tail ∧ (g m).clk = m.clk ∧
  ∀ k : Fin 33, (g m).resFwd[k] = energyFwd s k % 2 ^ 80

/-- The record of a closed cycle. -/
def RecClosed (len : Nat) (x : Bool) (s : State) (r : CycleRec) : Prop :=
  r.fn = s.fn ∧ r.seq = s.met.seq ∧ r.len = len ∧ r.freqHold = !x ∧ r.site.rmsV.length = 4 ∧ r.site.rmsI.length = 4 ∧
  (∀ k : SetIx, metOn s k = true → (r.sets[k]).eFwd = energyFwd s ⟨k.val, by omega⟩ / 2 ^ 80) ∧
  ∀ k : SetIx, metOn s k = false → r.sets[k] = { unassigned := true }

theorem closeCycle_eq (len : Nat) (ones : List Nat) (ov : BitVec 72) (us : Nat) (x : Bool) (s : State) :
    ∃ (r : CycleRec) (g : Met → Met), RecClosed len x s r ∧ MetClosed s g ∧ ∃ u : State,
      u = ringAdd 4 576 (lndWrite (cycleBase + 576 * s.met.ringIx) (cycleBytes r) s) ∧
      closeCycle len ones ov us x s = { onMet g u with arrived := u.arrived ++ [.cycle r] } := by
  unfold closeCycle
  dsimp only
  refine ⟨_, _, ?_, ?_, _, rfl, rfl⟩
  · refine ⟨rfl, rfl, rfl, rfl, ?_, ?_, fun k on => ?_, fun k off => ?_⟩
    · dsimp only
      split <;> rfl
    · dsimp only
      split <;> rfl
    · simp [on, energyFwd]
    · simp [off]
  · refine fun m => ⟨rfl, rfl, rfl, rfl, rfl, rfl, fun k => ?_⟩
    dsimp only
    rw [mapIx_get]
    rfl

/-- The sub-samples of the tail that belong to a cycle of `len` clocks. -/
def inCycle (len : Nat) (s : State) : List Samp := s.met.tail.filter fun y => decide (y.clk ≤ (len : Int))

theorem joinTail_met (len : Nat) (s : State) : (joinTail len s).met =
    { (inCycle len s).foldl addSamp s.met with tail := s.met.tail.filter fun y => decide ((len : Int) < y.clk) } := rfl

theorem joinTail_frame (len : Nat) (s : State) : joinTail len s = { s with met := (joinTail len s).met } := rfl

theorem joinTail_kept (len : Nat) (s : State) : (joinTail len s).met.seq = s.met.seq ∧ (joinTail len s).met.clk = s.met.clk ∧
    (joinTail len s).met.ringIx = s.met.ringIx ∧ (joinTail len s).met.resFwd = s.met.resFwd ∧
    ∀ k : SetIx, (joinTail len s).met.sFwd[k.val] =
      s.met.sFwd[k.val] + ((inCycle len s).map fun y : Samp => max 0 y.pw[k.val]).sum := by
  have fwd := fun k : SetIx => foldl_addSamp_fwd (inCycle len s) s.met ⟨k.val, by omega⟩
  have only := foldl_addSamp_sumsOnly (inCycle len s) s.met
  rw [joinTail_met]
  generalize (inCycle len s).foldl addSamp s.met = m at fwd only ⊢
  exact ⟨(congrArg Met.seq only :), (congrArg Met.clk only :), (congrArg Met.ringIx only :), (congrArg Met.resFwd only :), fwd⟩

theorem energyFwd_joinTail (len : Nat) (s : State) (k : SetIx) : energyFwd (joinTail len s) ⟨k.val, by omega⟩ =
    s.met.resFwd[k.val] + ((s.met.sFwd[k.val] + ((inCycle len s).map fun y : Samp => max 0 y.pw[k.val]).sum) *
      ksOf (s.map.met[k]).divider (s.map.met[k]).shunt).toNat := by
  obtain ⟨-, -, -, res, fwd⟩ := joinTail_kept len s
  have ratio : ratios (joinTail len s) ⟨k.val, by omega⟩ = ((s.map.met[k]).divider, (s.map.met[k]).shunt) := by
    rw [joinTail_frame]
    exact dif_pos k.isLt
  rw [← fwd k, ← res, energyFwd, ratio]
  rfl

/-- The sub-samples that came after the boundary, counted from it. -/
def afterCycle (len : Nat) (m : Met) : List Samp := m.tail.map fun x => { x with clk := x.clk - len }

/-- The metering hardware at the start of a cycle, before its first sub-sample. -/
def cycleStart (len : Nat) (m : Met) : Met :=
  { m with tail := [], cross := none, clk := m.clk - len, peakLast := m.peak, peak := Vector.replicate 3 0 }

theorem nextCycle_eq (len : Nat) (s : State) :
    nextCycle len s = { s with met := (afterCycle len s.met).foldl addSamp (cycleStart len s.met) } := rfl

theorem nextMet_kept (len : Nat) (m : Met) (n : Met) (h : n = (afterCycle len m).foldl addSamp (cycleStart len m)) :
    n.seq = m.seq ∧ n.cross = none ∧ n.tail = [] ∧ n.clk = m.clk - len ∧ n.resFwd = m.resFwd ∧
    (m.tail = [] → n.n = m.n ∧ n.sFwd = m.sFwd ∧ n.sRev = m.sRev) := by
  have only := foldl_addSamp_sumsOnly (afterCycle len m) (cycleStart len m)
  rw [← h] at only
  refine ⟨(congrArg Met.seq only :), (congrArg Met.cross only :), (congrArg Met.tail only :), (congrArg Met.clk only :),
    (congrArg Met.resFwd only :), fun empty => ?_⟩
  rw [h, afterCycle, empty]
  exact ⟨rfl, rfl, rfl⟩

theorem exec_cycleEnd (ones : List Nat) (ov : BitVec 64) (sv : BitVec 8) (us len : Nat) (x : Bool) (s : State) (hm : s.isl.met = true)
    (hl : cycleLen s = some (len, x)) : exec (.cycleEnd ones ov sv us) s =
      .next (nextCycle len (closeCycle len ones (sv ++ ov) us x (joinTail len s))) := by
  show whenOn s.isl.met s _ = _
  rw [whenOn_on s hm, cycleEnd, hl]

theorem cycleEnd_effect (ones : List Nat) (ov : BitVec 72) (us len : Nat) (x : Bool) (s : State) : ∃ (t : State) (r : CycleRec),
    t = nextCycle len (closeCycle len ones ov us x (joinTail len s)) ∧ RecClosed len x (joinTail len s) r ∧
    t.arrived = s.arrived ++ [.cycle r] ∧ t.met.seq = s.met.seq + 1 ∧ t.met.cross = none ∧ t.met.tail = [] ∧
    t.met.clk = s.met.clk - len ∧ (∀ k : Fin 33, t.met.resFwd[k] = energyFwd (joinTail len s) k % 2 ^ 80) ∧
    ((∀ y ∈ s.met.tail, y.clk ≤ (len : Int)) →
      t.met.n = 0 ∧ t.met.sFwd = Vector.replicate 33 0 ∧ t.met.sRev = Vector.replicate 33 0) ∧
    t.lnd.mem = memWriteBytes s.lnd.mem (cycleBase + 576 * s.met.ringIx) (cycleBytes r) ∧
    t = { s with met := t.met, lnd := t.lnd, evs := t.evs, arrived := t.arrived } := by
  obtain ⟨r, g, rec, closed, u, hu, eq⟩ := closeCycle_eq len ones ov us x (joinTail len s)
  obtain ⟨seq, clk, ring, -, -⟩ := joinTail_kept len s
  have frame : LndEvs (joinTail len s) u :=
    hu ▸ lndEvs_trans (lndWrite_lndEvs _ (cycleBytes r) (joinTail len s)) (ringAdd_lndEvs 4 576 _)
  have mem : u.lnd.mem = memWriteBytes s.lnd.mem (cycleBase + 576 * s.met.ringIx) (cycleBytes r) := by
    rw [hu, ringAdd_mem, lndWrite_mem, ring]
    rfl
  have met : u.met = (joinTail len s).met := (congrArg State.met frame :)
  obtain ⟨n, fwd, rev, seq', tail, clk', res⟩ := closed (joinTail len s).met
  obtain ⟨nseq, ncross, ntail, nclk, nres, nsums⟩ := nextMet_kept len (g (joinTail len s).met) _ rfl
  have out : nextCycle len (closeCycle len ones ov us x (joinTail len s)) = { u with
      met := (afterCycle len (g (joinTail len s).met)).foldl addSamp (cycleStart len (g (joinTail len s).met)),
      arrived := s.arrived ++ [.cycle r] } := by
    rw [eq, nextCycle_eq, frame]
    rfl
  refine ⟨_, r, rfl, rec, ?_⟩
  rw [out]
  refine ⟨rfl, nseq.trans (seq'.trans (by rw [seq])), ncross, ntail, nclk.trans (by rw [clk', clk]), fun k => ?_, fun all => ?_, mem, ?_⟩
  · dsimp only
    rw [nres, res]
  · have none_after : s.met.tail.filter (fun y => decide ((len : Int) < y.clk)) = [] := by
      refine List.filter_eq_nil_iff.mpr fun y hy => ?_
      simpa using all y hy
    obtain ⟨hn, hf, hr⟩ := nsums (tail.trans none_after)
    exact ⟨hn.trans n, hf.trans fwd, hr.trans rev⟩
  · rw [frame, joinTail_frame]

/-! ### Clauses that turn on the hold and the crossing (R222, R223) -/

theorem cycleLen_cross (l : Nat) (s : State) (h : s.met.cross = some l) : cycleLen s = some (l, true) := by
  rw [cycleLen, h]

theorem cycleLen_hold (s : State) (hc : s.met.cross = none) (hh : s.met.hold = true) (hl : (nominalLen s : Int) < s.met.clk + 256) :
    cycleLen s = some (nominalLen s, false) := by
  rw [cycleLen, hc]
  exact if_pos (by simp [hh, hl])

theorem cycleLen_running (s : State) (hc : s.met.cross = none) (h : s.met.hold = false ∨ s.met.clk + 256 ≤ (nominalLen s : Int)) :
    cycleLen s = none := by
  rw [cycleLen, hc]
  refine if_neg ?_
  simp only [Bool.and_eq_true, decide_eq_true_eq, not_and, Int.not_lt]
  rcases h with h | h
  · exact fun on => absurd (h.symm.trans on) Bool.false_ne_true
  · exact fun _ => h

theorem exec_freqHold_free (s : State) (hm : s.isl.met = true) (hc : s.met.cross = none) :
    exec .freqHold s = .next { s with met := { s.met with hold := true } } := by
  show whenOn s.isl.met s _ = _
  have met : { s.met with hold := s.met.hold || s.met.cross.isNone } = { s.met with hold := true } := by
    rw [hc, Option.isNone_none, Bool.or_true]
  rw [whenOn_on s hm, onMet, met]

theorem exec_freqHold_crossed (l : Nat) (s : State) (hc : s.met.cross = some l) : exec .freqHold s = .next s := by
  refine whenOn_id ?_
  have met : { s.met with hold := s.met.hold || s.met.cross.isNone } = s.met := by
    rw [hc, Option.isNone_some, Bool.or_false]
  rw [onMet, met]

/-- Settles O43: a sub-sample by whether it waits, the crossing by its rounding, and the end of a cycle as a close and a start. -/
theorem meteringCycle : Obligations.MeteringCycle := by
  unfold Obligations.MeteringCycle
  refine ⟨fun codes s hm => ?_, crossOff_nearest, crossIn_bounds, fun len us x ones ov sv s hm hl => ?_, cycleLen_cross, cycleLen_hold,
    fun us ones ov sv s hc h => whenOn_id (by rw [cycleEnd, cycleLen_running s hc h]), exec_freqHold_free, exec_freqHold_crossed⟩
  · obtain ⟨met, frame⟩ := subsample_effect codes s
    refine ⟨_, exec_meterSubsample codes s hm, ?_⟩
    generalize subsample codes s = t at met frame ⊢
    obtain ⟨clk, cross⟩ : t.met.clk = s.met.clk + 256 ∧ t.met.cross = crossNow codes s := by
      rw [met]
      exact subNext_clock codes s _
    cases waits : subWaits codes s (nominalLen s) with
    | true =>
      obtain ⟨n, tail, fwd, rev, vN⟩ := subMet_waits codes s (nominalLen s) s.met waits
      rw [← met] at n tail fwd rev vN
      refine ⟨vN, clk, frame, cross, fun _ => ⟨n, tail, fwd, rev⟩, fun none fits => ?_⟩
      rw [cross] at none
      have clock : (sampOf codes s).clk = s.met.clk + 256 := rfl
      simp only [subWaits, none, clock, Option.isSome_none, Bool.false_or, decide_eq_true_eq] at waits
      omega
    | false =>
      obtain ⟨n, tail, fwd, rev, vN⟩ := subMet_joins codes s (nominalLen s) s.met waits
      rw [← met] at n tail fwd rev vN
      refine ⟨vN, clk, frame, cross, fun late => ?_, fun _ _ => ⟨n, tail, fun k => ?_⟩⟩
      · have clock : (sampOf codes s).clk = s.met.clk + 256 := rfl
        simp only [subWaits, clock, Bool.or_eq_false_iff, Option.isSome_eq_false_iff, Option.isNone_iff_eq_none, decide_eq_false_iff_not] at waits
        rw [cross] at late
        rcases late with late | late
        · exact absurd waits.1 late
        · exact absurd late waits.2
      · have fwdK := addSamp_fwd s.met (sampOf codes s) ⟨k.val, by omega⟩
        have revK := addSamp_rev s.met (sampOf codes s) ⟨k.val, by omega⟩
        dsimp only at fwdK revK
        rw [fwd, rev, fwdK, revK, sampOf_pw]
        refine ⟨fun on => ?_, fun off => ?_⟩
        · rw [if_pos on]
          exact ⟨rfl, rfl⟩
        · rw [if_neg (by rw [off]; simp)]
          simp
  · obtain ⟨t, r, eq, rec, arrived, seq, cross, tail, clk, res, sums, mem, frame⟩ := cycleEnd_effect ones (sv ++ ov) us len x s
    obtain ⟨rfn, rseq, rlen, rhold, volts, amps, on, off⟩ := rec
    obtain ⟨kseq, -, -, -, -⟩ := joinTail_kept len s
    refine ⟨t, r, ?_, arrived, rfn, rseq.trans kseq, rlen, rhold, seq, cross, tail, clk, sums, fun k hk => ?_, fun k hk => ?_,
      fun wf a ha => ?_, frame⟩
    · rw [eq]
      exact exec_cycleEnd ones ov sv us len x s hm hl
    · have resK := res ⟨k.val, by omega⟩
      have energy := energyFwd_joinTail len s k
      rw [inCycle] at energy
      rw [on k hk]
      have split := Nat.div_add_mod (energyFwd (joinTail len s) ⟨k.val, by omega⟩) (2 ^ 80)
      have below := Nat.mod_lt (energyFwd (joinTail len s) ⟨k.val, by omega⟩) (y := 2 ^ 80) (by simp)
      rw [← resK] at split below
      refine ⟨?_, below⟩
      exact_mod_cast split.trans energy
    · rw [off k hk]
      exact ⟨rfl, rfl, rfl⟩
    · rw [mem]
      exact memRead_memWriteBytes_off s.lnd.mem _ a (cycleBytes r) wf (by rwa [cycleBytes_length r volts amps])

end Sys2Proof.Machine
end

section
/-! Metrology (chapter 9): pulses and the thermal frame (O44), checks and commands (O45). -/

namespace Sys2Proof.Machine

/-! ### Pulses (R235, R236) -/

theorem pulseQ_pos (mode : Nat) : 0 < pulseQ mode := by
  unfold pulseQ
  split
  · omega
  · split <;> omega

theorem metEvent_sets (k code : Nat) (b sb : Option Nat) (s : State) : (metEvent k code b sb s).nx = s.nx := by
  unfold metEvent
  cases b <;> cases sb <;> cases optFin 32 k <;> rfl

theorem metEvent_met (k code : Nat) (b sb : Option Nat) (s : State) : (metEvent k code b sb s).met = s.met := by
  unfold metEvent
  cases b <;> cases sb <;> cases optFin 32 k <;> rfl

theorem nx_ite_metEvent (c : Prop) [Decidable c] (k code : Nat) (b sb : Option Nat) (s : State) :
    (if c then metEvent k code b sb s else s).nx = s.nx := by
  split
  · exact metEvent_sets k code b sb s
  · rfl

theorem onSet_get (k : Fin 33) (f : MetSet → MetSet) (s : State) : (onSet k f s).nx.met.sets[k] = f s.nx.met.sets[k] := upd_same _ _ _

/-- The µWh that a record adds to the pulses of a set (R218). -/
def pulseGain (k : Fin 33) (r : CycleRec) (s : State) : Nat :=
  if pulseMode s k ≤ 3 then (recEnergy r k).fwd else (recEnergy r k).rev

theorem pulseStep_set (k : Fin 33) (r : CycleRec) (s : State) (on : pulseOn s k = true) :
    ((pulseStep k r s).nx.met.sets[k]).acc = ((s.nx.met.sets[k]).acc + pulseGain k r s) % pulseQ (pulseMode s k) ∧
    ((pulseStep k r s).nx.met.sets[k]).b =
      (s.nx.met.sets[k]).b + ((s.nx.met.sets[k]).acc + pulseGain k r s) / pulseQ (pulseMode s k) := by
  unfold pulseStep
  rw [if_neg (by rw [on]; simp)]
  dsimp only
  rw [nx_ite_metEvent, onSet_get]
  exact ⟨rfl, rfl⟩

theorem pulseStep_keeps_energy (k : Fin 33) (r : CycleRec) (s : State) (on : pulseOn s k = true) :
    ((pulseStep k r s).nx.met.sets[k]).acc < pulseQ (pulseMode s k) ∧
    ((pulseStep k r s).nx.met.sets[k]).acc + pulseQ (pulseMode s k) * ((pulseStep k r s).nx.met.sets[k]).b =
      (s.nx.met.sets[k]).acc + pulseQ (pulseMode s k) * (s.nx.met.sets[k]).b + pulseGain k r s := by
  obtain ⟨acc, b⟩ := pulseStep_set k r s on
  rw [acc, b]
  refine ⟨Nat.mod_lt _ (pulseQ_pos _), ?_⟩
  have split := Nat.mod_add_div ((s.nx.met.sets[k]).acc + pulseGain k r s) (pulseQ (pulseMode s k))
  rw [Nat.mul_add]
  omega

/-- What a pulse that starts makes of its set, `b` being left of the backlog. -/
def pulseTaken (fn spacing b : Nat) (x : MetSet) : MetSet :=
  { x with b := b, nxt := if x.nxt = fn + 1 then x.nxt else fn + spacing, backlog := x.backlog && decide (2 * x.per < b) }

/-- The set of a pulse that starts, in the results of the frame. -/
def pulseLeft (k : Fin 33) (s : State) : State := onSet k (pulseTaken s.fn (s.fl.met.sets[k]).s ((s.nx.met.sets[k]).b - 1)) s

/-- The width of a pulse that starts, in half milliseconds. -/
def pulseWidth (k : Fin 33) (s : State) : Nat := if 4 ≤ (s.fl.met.sets[k]).s then 4 else (s.fl.met.sets[k]).s

theorem exec_pulseStart (k : Fin 33) (s : State) (hm : s.isl.met = true) (on : pulseOn s k = true) (hb : (s.nx.met.sets[k]).b ≠ 0)
    (hf : (s.fl.met.sets[k]).b ≠ 0) (hn : (s.fl.met.sets[k]).nxt ≤ s.fn) (hp : s.met.pulse[k] = none) :
    exec (.pulseStart k) s = .next (if isLead s then
      onMet (fun m => { m with pulse := m.pulse.set k (some (pulseWidth k s)) }) (pulseLeft k s) else pulseLeft k s) := by
  show execPulseStart k s = _
  rw [execPulseStart, whenOn_on s hm]
  refine congrArg _ (if_neg ?_)
  rw [on, hp]
  simp [-Fin.getElem_fin, hb, hf, hn]

theorem exec_pulseStart_none (k : Fin 33) (s : State) (h : (s.nx.met.sets[k]).b = 0 ∨ s.met.pulse[k] ≠ none) :
    exec (.pulseStart k) s = .next s := by
  show execPulseStart k s = _
  refine whenOn_id (if_pos ?_)
  rcases h with h | h
  · simp [-Fin.getElem_fin, h]
  · rw [← Option.isSome_iff_ne_none] at h
    simp [-Fin.getElem_fin, h]

theorem pulseLeft_effect (k : Fin 33) (s : State) : ((pulseLeft k s).nx.met.sets[k]).b = (s.nx.met.sets[k]).b - 1 ∧
    ((pulseLeft k s).nx.met.sets[k]).acc = (s.nx.met.sets[k]).acc ∧
    (∀ j : Fin 33, j ≠ k → (pulseLeft k s).nx.met.sets[j] = s.nx.met.sets[j]) := by
  refine ⟨?_, ?_, fun j hj => upd_other _ _ _ hj⟩
  · rw [pulseLeft, onSet_get]
    rfl
  · rw [pulseLeft, onSet_get]
    rfl

/-! ### The thermal frame (R197, R233) -/

/-- Nothing changed but the cable blocks and the events. -/
def CableOnly (s t : State) : Prop := t = { s with
  nx := { s.nx with ccl := t.nx.ccl }, cclR := t.cclR, late := { s.late with ccl := t.late.ccl }, evs := t.evs }

/-- The block of one outlet is as before. -/
def CableKept (p : OutIx) (s t : State) : Prop :=
  t.nx.ccl[p] = s.nx.ccl[p] ∧ t.cclR[p] = s.cclR[p] ∧ t.late.ccl[p] = s.late.ccl[p]

/-- A change of the block of `o` alone. -/
def CableAt (o : OutIx) (s t : State) : Prop := CableOnly s t ∧ ∀ p : OutIx, p ≠ o → CableKept p s t

theorem cableOnly_refl (s : State) : CableOnly s s := rfl
theorem cableOnly_trans {s t u : State} (h : CableOnly s t) (k : CableOnly t u) : CableOnly s u := by
  unfold CableOnly at h k ⊢
  rw [h] at k
  exact k

theorem cableKept_refl (p : OutIx) (s : State) : CableKept p s s := ⟨rfl, rfl, rfl⟩
theorem cableKept_trans {p : OutIx} {s t u : State} (h : CableKept p s t) (k : CableKept p t u) : CableKept p s u :=
  ⟨k.1.trans h.1, k.2.1.trans h.2.1, k.2.2.trans h.2.2⟩

theorem cableAt_refl (o : OutIx) (s : State) : CableAt o s s := ⟨rfl, fun p _ => cableKept_refl p s⟩
theorem cableAt_trans {o : OutIx} {s t u : State} (h : CableAt o s t) (k : CableAt o t u) : CableAt o s u :=
  ⟨cableOnly_trans h.1 k.1, fun p hp => cableKept_trans (h.2 p hp) (k.2 p hp)⟩

/-- An event of a block: nothing of the other blocks, and nothing of its observer. -/
def CableTold (o : OutIx) (s t : State) : Prop := CableAt o s t ∧ t.nx.ccl = s.nx.ccl

theorem cableTold_refl (o : OutIx) (s : State) : CableTold o s s := ⟨cableAt_refl o s, rfl⟩
theorem cableTold_trans {o : OutIx} {s t u : State} (h : CableTold o s t) (k : CableTold o t u) : CableTold o s u :=
  ⟨cableAt_trans h.1 k.1, k.2.trans h.2⟩

theorem cclEvent_told (o : OutIx) (code : Nat) (b : Option Nat) (s : State) : CableTold o s (cclEvent o code b s) := by
  cases b with
  | none => exact ⟨⟨rfl, fun _ _ => ⟨rfl, rfl, rfl⟩⟩, rfl⟩
  | some k => exact ⟨⟨rfl, fun _ hp => ⟨rfl, rfl, upd_other s.late.ccl o _ hp⟩⟩, rfl⟩

theorem cclEvent_told_when {o : OutIx} {s t : State} (h : CableTold o s t) (c : Bool) (code : Nat) (b : Option Nat) :
    CableTold o s (if c then cclEvent o code b t else t) := by
  split
  · exact cableTold_trans h (cclEvent_told o code b t)
  · exact h

/-- A block put in the place of an outlet, with its registers. -/
def cablePut (o : OutIx) (b : Ccl) (f : CclReg → CclReg) (s : State) : State :=
  { s with nx := { s.nx with ccl := s.nx.ccl.set o b }, cclR := Vec.upd s.cclR o f }

theorem cablePut_at (o : OutIx) (b : Ccl) (f : CclReg → CclReg) (s : State) : CableAt o s (cablePut o b f s) :=
  ⟨rfl, fun _ hp => ⟨upd_other s.nx.ccl o (fun _ => b) hp, upd_other s.cclR o f hp, rfl⟩⟩

theorem cableStep_off (s : State) (o : OutIx) (h : cableOn s o = false) : cableStep s o = s := if_pos (by rw [h]; rfl)

theorem headroom_le (c : CableCfg) (ceil : Nat) (x gf tin : Rat) (p : Bool) (old d : Nat) :
    (if p then iCalc c ceil x gf tin else max (iCalc c ceil x gf tin) (old - d)) ≤ max ceil old := by
  have calc_le := iCalc_le c ceil x gf tin
  split <;> omega

theorem cableStep_on (s : State) (o : OutIx) (h : cableOn s o = true) : ∃ (b : Ccl) (f : CclReg → CclReg), b.ran = true ∧
    b.iHr ≤ max (s.map.out[o]).iCeil (s.nx.ccl[o]).iHr ∧ CableTold o (cablePut o b f s) (cableStep s o) := by
  unfold cableStep
  rw [if_neg (by rw [h]; simp)]
  refine ⟨_, _, ?_, ?_, cclEvent_told_when (cclEvent_told_when (cclEvent_told_when (cclEvent_told_when (cclEvent_told_when
    (cclEvent_told_when (foldl_rel (CableTold o) (cableTold_refl o) cableTold_trans _ (fun t k => ?_) _ _) _ _ _) _ _ _) _ _ _) _ _ _) _ _ _) _ _ _⟩
  · rfl
  · exact headroom_le _ _ _ _ _ _ _ _
  · exact cclEvent_told_when (cableTold_refl o t) _ _ _

theorem cableStep_at (s : State) (o : OutIx) : CableAt o s (cableStep s o) := by
  cases h : cableOn s o with
  | false =>
    rw [cableStep_off s o h]
    exact cableAt_refl o s
  | true =>
    obtain ⟨b, f, -, -, told⟩ := cableStep_on s o h
    exact cableAt_trans (cablePut_at o b f s) told.1

theorem cableStep_ran (s : State) (o : OutIx) (h : cableOn s o = true) : ((cableStep s o).nx.ccl[o]).ran = true ∧
    ((cableStep s o).nx.ccl[o]).iHr ≤ max (s.map.out[o]).iCeil (s.nx.ccl[o]).iHr := by
  obtain ⟨b, f, ran, hr, told⟩ := cableStep_on s o h
  have put : (cableStep s o).nx.ccl[o] = b := by
    rw [told.2]
    exact upd_same s.nx.ccl o fun _ => b
  rw [put]
  exact ⟨ran, hr⟩

theorem cableStep_map (s : State) (o : OutIx) : (cableStep s o).map = s.map := (congrArg State.map (cableStep_at s o).1 :)

theorem foldl_cableStep_only (l : List OutIx) (s : State) : CableOnly s (l.foldl cableStep s) :=
  foldl_rel CableOnly cableOnly_refl cableOnly_trans cableStep (fun s o => (cableStep_at s o).1) l s

theorem foldl_cableStep_kept (p : OutIx) (l : List OutIx) (s : State) (h : p ∉ l ∨ cableOn s p = false) :
    CableKept p s (l.foldl cableStep s) := by
  induction l generalizing s with
  | nil => exact cableKept_refl p s
  | cons o os ih =>
    have step : CableKept p s (cableStep s o) := by
      by_cases hp : p = o
      · subst hp
        rw [cableStep_off s p (h.resolve_left (by simp))]
        exact cableKept_refl p s
      · exact (cableStep_at s o).2 p hp
    refine cableKept_trans step (ih _ (h.imp (fun out mem => out (List.mem_cons_of_mem o mem)) fun off => ?_))
    rw [cableOn, cableStep_map]
    exact off

theorem foldl_cableStep_ran (p : OutIx) (l : List OutIx) (s : State) (hl : l.Nodup) (hp : p ∈ l) (on : cableOn s p = true) :
    ((l.foldl cableStep s).nx.ccl[p]).ran = true ∧
    ((l.foldl cableStep s).nx.ccl[p]).iHr ≤ max (s.map.out[p]).iCeil (s.nx.ccl[p]).iHr := by
  induction l generalizing s with
  | nil => cases hp
  | cons o os ih =>
    obtain ⟨fresh, rest⟩ := List.nodup_cons.mp hl
    rw [List.foldl_cons]
    by_cases ho : p = o
    · subst ho
      rw [(foldl_cableStep_kept p os (cableStep s p) (.inl fresh)).1]
      exact cableStep_ran s p on
    · have same := ((cableStep_at s o).2 p ho).1
      have later := ih (cableStep s o) rest ((List.mem_cons.mp hp).resolve_left ho) (by rw [cableOn, cableStep_map]; exact on)
      rwa [cableStep_map, same] at later

/-- The cable blocks in a thermal frame. -/
def thermBlocks (s : State) : State :=
  if s.isl.ctl then (List.finRange 32).foldl cableStep { s with thermFn := some s.fn } else { s with thermFn := some s.fn }

theorem thermBlocks_only (s : State) : CableOnly { s with thermFn := some s.fn } (thermBlocks s) :=
  ite_rel _ (foldl_cableStep_only _ _) (cableOnly_refl _)

theorem thermBlocks_kept (p : OutIx) (s : State) (h : s.isl.ctl = false ∨ cableOn s p = false) : CableKept p s (thermBlocks s) := by
  unfold thermBlocks
  split
  case isTrue on =>
    exact foldl_cableStep_kept p _ { s with thermFn := some s.fn } (.inr (h.resolve_left (by rw [on]; simp)))
  case isFalse => exact cableKept_refl p s

theorem thermBlocks_ran (p : OutIx) (s : State) (hc : s.isl.ctl = true) (on : cableOn s p = true) :
    ((thermBlocks s).nx.ccl[p]).ran = true ∧ ((thermBlocks s).nx.ccl[p]).iHr ≤ max (s.map.out[p]).iCeil (s.nx.ccl[p]).iHr := by
  rw [thermBlocks, if_pos hc]
  exact foldl_cableStep_ran p _ { s with thermFn := some s.fn } (List.nodup_finRange 32) (List.mem_finRange p) on

/-- The state after a thermal frame. -/
def thermDone (s : State) : State := if (thermBlocks s).isl.met then refStep (thermBlocks s) else thermBlocks s

theorem exec_thermalFrame_due (s : State) (hf : s.fn % 10 = 0) (ht : s.thermFn ≠ some s.fn) :
    exec .thermalFrame s = .next (thermDone s) := by
  refine congrArg Host.Outcome.next (if_neg ?_)
  simp [hf, ht]

theorem exec_thermalFrame_done (s : State) (h : s.fn % 10 ≠ 0 ∨ s.thermFn = some s.fn) : exec .thermalFrame s = .next s := by
  refine congrArg Host.Outcome.next (if_pos ?_)
  simpa using h

theorem thermDone_met (s : State) : (s.isl.met = true → (thermDone s).met.tempNext = s.met.tempNow) ∧
    (s.isl.met = false → (thermDone s).met = s.met) := by
  have met : (thermBlocks s).met = s.met := (congrArg State.met (thermBlocks_only s) :)
  have isl : (thermBlocks s).isl = s.isl := (congrArg State.isl (thermBlocks_only s) :)
  unfold thermDone
  rw [isl]
  refine ⟨fun on => ?_, fun off => ?_⟩
  · rw [if_pos on, ← met]
    rfl
  · rw [if_neg (by rw [off]; simp), met]

theorem thermDone_frame (s : State) : thermDone s = { thermBlocks s with met := (thermDone s).met } := by
  unfold thermDone
  split <;> rfl

/-- Settles O44: the pulses by the division that each record leaves, the thermal frame by its fold over the cable blocks. -/
theorem pulsesAndThermalFrames : Obligations.PulsesAndThermalFrames := by
  unfold Obligations.PulsesAndThermalFrames
  refine ⟨pulseStep_keeps_energy, fun k s hm on hb hf hn hp => ?_, exec_pulseStart_none, fun k s hm => whenOn_on s hm, fun s hf ht => ?_,
    fun s hf => exec_thermalFrame_done s (.inl hf)⟩
  · obtain ⟨b, acc, others⟩ := pulseLeft_effect k s
    refine ⟨_, exec_pulseStart k s hm on hb hf hn hp, ?_⟩
    cases lead : isLead s with
    | true => exact ⟨by rw [if_pos rfl]; exact (congrArg (· + 1) b).trans (Nat.succ_pred hb), acc, fun _ => by simp [onMet, pulseWidth], nofun,
        fun j hj => upd_other s.met.pulse k (fun _ => some (pulseWidth k s)) hj, others, rfl⟩
    | false => exact ⟨(congrArg (· + 1) b).trans (Nat.succ_pred hb), acc, nofun, fun _ => rfl, fun _ _ => rfl, others, rfl⟩
  · have only := thermBlocks_only s
    have frame := thermDone_frame s
    obtain ⟨ref, still⟩ := thermDone_met s
    have ran := fun o => thermBlocks_ran o s
    have kept := fun o => thermBlocks_kept o s
    refine ⟨thermDone s, exec_thermalFrame_due s hf ht, ?_⟩
    generalize thermBlocks s = u at only frame ran kept
    generalize thermDone s = t at frame ref still ⊢
    have fnU : u.fn = s.fn := (congrArg State.fn only :)
    have thermU : u.thermFn = some s.fn := (congrArg State.thermFn only :)
    have fn : t.fn = s.fn := (congrArg State.fn frame :).trans fnU
    have therm : t.thermFn = some s.fn := (congrArg State.thermFn frame :).trans thermU
    have blocks : t.nx.ccl = u.nx.ccl := (congrArg (·.nx.ccl) frame :)
    have regs : t.cclR = u.cclR := (congrArg (·.cclR) frame :)
    have late : t.late.ccl = u.late.ccl := (congrArg (·.late.ccl) frame :)
    rw [blocks, regs, late]
    refine ⟨therm, exec_thermalFrame_done t (.inr (by rw [therm, fn])), ref, still, ran, kept, ?_⟩
    rw [frame, only]

/-! ### The bypass window (R239) -/

/-- The energy that the site meter counts beyond the sets and the losses of the window (R239). -/
def bypassGap (s : State) : Nat := (s.nx.met.winSite - s.nx.met.winDc -
  ((s.nx.met.winDc.natAbs * lossOf s / 1000 + s.alc.house.toNat * 250000 : Nat) : Int)).natAbs

/-- What the window allows. -/
def bypassTol (s : State) : Nat :=
  s.nx.met.winFwd * field s.met.tamperCfg.toNat 0 8 / 1000 + field s.met.tamperCfg.toNat 8 8 * 1000000000

theorem bypassRuns {s : State} (hf : s.fn % 900000 = 899999) (ht : s.map.site.tamper % 2 = 1) (ho : siteOn s = true) :
    ¬ (decide (s.fn % 900000 ≠ 899999) || decide (s.map.site.tamper % 2 = 0) || !siteOn s) = true := by
  simp [hf, ht, ho]

theorem exec_bypassWindowCheck_bad (s : State) (hc : s.isl.ctl = true) (hf : s.fn % 900000 = 899999) (ht : s.map.site.tamper % 2 = 1)
    (ho : siteOn s = true) (hb : s.nx.met.winBad = true) : exec .bypassWindowCheck s =
      .next (metEvent 32 7 none none (onMetF (fun m => { m with bypassSkip := true }) s)) := by
  show execBypassWindowCheck s = _
  rw [execBypassWindowCheck, whenOn_on s hc]
  exact congrArg _ ((if_neg (bypassRuns hf ht ho)).trans (if_pos hb))

/-- The window counts: the flag of R239 in the results of the frame. -/
def bypassKept (s : State) : State :=
  onMetF (fun m => { m with bypassSkip := false, bypass := s.nx.met.bypass || decide (bypassTol s < bypassGap s) }) s

theorem exec_bypassWindowCheck_good (s : State) (hc : s.isl.ctl = true) (hf : s.fn % 900000 = 899999) (ht : s.map.site.tamper % 2 = 1)
    (ho : siteOn s = true) (hb : s.nx.met.winBad = false) : exec .bypassWindowCheck s =
      .next (if decide (bypassTol s < bypassGap s) && !s.nx.met.bypass then metEvent 32 5 (some 3) none (bypassKept s) else bypassKept s) := by
  show execBypassWindowCheck s = _
  rw [execBypassWindowCheck, whenOn_on s hc]
  exact congrArg _ ((if_neg (bypassRuns hf ht ho)).trans (if_neg (by rw [hb]; simp)))

theorem exec_bypassWindowCheck_other (s : State) (hf : s.fn % 900000 ≠ 899999) : exec .bypassWindowCheck s = .next s := by
  show execBypassWindowCheck s = _
  exact whenOn_id (if_pos (by simp [hf]))

/-! ### The witness (R242, R243) -/

theorem exec_witnessSend_idle (s : State) (h : s.tdm.st ≠ .follow ∨ s.fn % 1000 ≠ 0) : exec .witnessSend s = .next s := by
  show execWitnessSend s = _
  refine whenOn_id (if_neg ?_)
  rw [Bool.and_eq_true, decide_eq_true_eq, decide_eq_true_eq]
  exact fun both => h.elim (fun n => n both.1) fun n => n both.2

theorem exec_witnessLost_idle (s : State) (h : s.tdm.st = .single ∨ s.nx.met.witLost = true) : exec .witnessLost s = .next s := by
  show execWitnessLost s = _
  exact whenOn_id (if_pos (by rcases h with h | h <;> simp [h]))

theorem exec_witnessLost (s : State) (hc : s.isl.ctl = true) (ht : s.tdm.st ≠ .single) (hw : s.nx.met.witLost = false) :
    exec .witnessLost s = .next (metEvent 32 8 (some 7) none
      (witnessRestart (onMetF (fun m => { m with witLost := true, witActive := false }) s))) := by
  show execWitnessLost s = _
  rw [execWitnessLost, whenOn_on s hc]
  exact congrArg _ (if_neg (by simp [ht, hw]))

/-- The state after a lost witness. -/
def witnessGone (s : State) : State :=
  metEvent 32 8 (some 7) none (witnessRestart (onMetF (fun m => { m with witLost := true, witActive := false }) s))

theorem witnessGone_met (s : State) : (witnessGone s).met = s.met := by
  rw [witnessGone, metEvent_met]
  rfl

theorem witnessGone_late (s : State) : (witnessGone s).late.met = setBit s.late.met 7 := rfl

theorem witnessGone_nx (s : State) : (witnessGone s).nx.met = { s.nx.met with
    witLost := true, witActive := false, hist := [], emax := Vector.replicate 33 {}, witFn := s.fn } := by
  rw [witnessGone, metEvent_sets]
  rfl

/-! ### The calibration (R234) -/

/-- A gain as the calibration takes it. -/
def gainOf (v : Word) : Nat := min 0x60000000 (max 0x20000000 v.toNat)

theorem calWrite_gain (c : Fin 72) (v : Word) (s : State) (h : calOpen s = true) : calWrite c true v s =
    if s.met.gain[c] = gainOf v then onMet (fun m => { m with gain := m.gain.set c (gainOf v) }) s
    else metEvent (if c.val < 64 then c.val / 2 else 32) 11 (some 10) none (onMet (fun m => { m with gain := m.gain.set c (gainOf v) }) s) :=
  if_neg (by rw [h]; simp)

theorem calWrite_offset (c : Fin 72) (v : Word) (s : State) (h : calOpen s = true) : calWrite c false v s =
    if s.met.off[c] = signed 24 v.toNat then onMet (fun m => { m with off := m.off.set c (signed 24 v.toNat) }) s
    else metEvent (if c.val < 64 then c.val / 2 else 32) 11 (some 10) none
      (onMet (fun m => { m with off := m.off.set c (signed 24 v.toNat) }) s) :=
  if_neg (by rw [h]; simp)

theorem met_ite_metEvent (c : Prop) [Decidable c] (k code : Nat) (b sb : Option Nat) (s : State) :
    (if c then s else metEvent k code b sb s).met = s.met := by
  split
  · rfl
  · exact metEvent_met k code b sb s

theorem calWrite_closed (c : Fin 72) (g : Bool) (v : Word) (s : State) (h : calOpen s = false) :
    calWrite c g v s = refuse (0x80100 + 16 * c.val + if g then 4 else 8) s := if_pos (by rw [h]; rfl)

theorem exec_metCalWrite (c : Fin 72) (g : Bool) (v : Word) (s : State) (hm : s.isl.met = true) :
    exec (.metCalWrite c g v) s = .next (calWrite c g v s) := whenOn_on s hm

theorem exec_metCalCommit (s : State) (hm : s.isl.met = true) : exec .metCalCommit s = .next (calCommit s) := whenOn_on s hm

theorem exec_metTamperClear (k : SetIx) (s : State) (hc : s.isl.ctl = true) : exec (.metTamperClear k) s =
    .next (onSet ⟨k.val, by omega⟩ (fun x => { x with reversed := false, mismatch := false }) s) := whenOn_on s hc

theorem exec_metWitClear (k : SetIx) (s : State) (hc : s.isl.ctl = true) : exec (.metWitClear k) s =
    .next (onSet ⟨k.val, by omega⟩ (fun x => { x with witFlag := false }) s) := whenOn_on s hc

/-- A change of one set is one of its place in the table. -/
theorem onSet_effect (k : SetIx) (f : MetSet → MetSet) (s : State) :
    (onSet ⟨k.val, by omega⟩ f s).nx.met.sets[k.val] = f s.nx.met.sets[k.val] ∧
    (∀ j : Fin 33, j.val ≠ k.val → (onSet ⟨k.val, by omega⟩ f s).nx.met.sets[j] = s.nx.met.sets[j]) ∧
    onSet ⟨k.val, by omega⟩ f s =
      { s with nx := { s.nx with met := { s.nx.met with sets := (onSet ⟨k.val, by omega⟩ f s).nx.met.sets } } } :=
  ⟨upd_same s.nx.met.sets ⟨k.val, by omega⟩ f,
    fun _ hj => upd_other s.nx.met.sets ⟨k.val, by omega⟩ f fun e => hj (congrArg Fin.val e), rfl⟩

/-- Settles O45, clause by clause: each command is its effect on the block, with at most one event. -/
theorem metrologyCommands : Obligations.MetrologyCommands := by
  unfold Obligations.MetrologyCommands
  refine ⟨fun s hc hf ht ho hb => ⟨_, exec_bypassWindowCheck_bad s hc hf ht ho hb, rfl, rfl⟩, fun s hc hf ht ho hb => ?_,
    exec_bypassWindowCheck_other, fun s hc ht hf => ?_, exec_witnessSend_idle, fun m s hc hl => ?_, fun m s hl => ?_,
    exec_witnessLost_idle, fun s hc ht hw => ⟨witnessGone s, exec_witnessLost s hc ht hw, ?_⟩,
    fun s hc => ⟨whenOn_on s hc, whenOn_on s hc⟩, fun k s hc => ⟨⟨_, exec_metTamperClear k s hc, onSet_effect k _ s⟩,
      ⟨_, exec_metWitClear k s hc, onSet_effect k _ s⟩⟩, fun c v s hm hk hl => ⟨?_, ?_, ?_⟩, fun c g v s hm h => ?_, fun s hm hk => ?_,
    fun en site s hm => whenOn_on s hm⟩
  · refine ⟨_, exec_bypassWindowCheck_good s hc hf ht ho hb, ?_⟩
    rw [nx_ite_metEvent]
    refine ⟨rfl, fun on => ?_, fun off => ?_, ?_⟩
    · show (s.nx.met.bypass || _) = true
      rw [on, Bool.true_or]
    · show (s.nx.met.bypass || _) = true ↔ _
      rw [off, Bool.false_or, decide_eq_true_eq]
      exact Iff.rfl
    · split <;> rfl
  · show execWitnessSend s = _
    rw [execWitnessSend, whenOn_on s hc]
    exact congrArg _ (if_pos (by simp [ht, hf]))
  · show execWitPacket m s = _
    rw [execWitPacket, whenOn_on s hc]
    refine congrArg _ ((if_pos hl).trans ?_)
    cases m <;> rfl
  · show execWitPacket m s = _
    exact whenOn_id (if_neg (by rw [hl]; simp))
  · rw [witnessGone_nx, witnessGone_met, witnessGone_late]
    exact ⟨rfl, rfl, rfl, rfl, rfl, rfl, rfl, rfl⟩
  · have opened : calOpen s = true := by simp [calOpen, hk, hl]
    have put : (s.met.gain.set c (gainOf v))[c] = gainOf v := upd_same s.met.gain c fun _ => gainOf v
    refine ⟨_, exec_metCalWrite c true v s hm, ?_⟩
    rw [calWrite_gain c v s opened, met_ite_metEvent]
    refine ⟨?_, ?_, fun h0 h1 => ?_, rfl, fun d hd => upd_other s.met.gain c (fun _ => gainOf v) hd, fun ne => ?_⟩
    · exact le_of_le_of_eq (by unfold gainOf; omega) put.symm
    · exact le_of_eq_of_le put (by unfold gainOf; omega)
    · exact put.trans (by unfold gainOf; omega)
    · rw [if_neg fun e => ne (put.trans e.symm)]
      rfl
  · have opened : calOpen s = true := by simp [calOpen, hk, hl]
    refine ⟨_, exec_metCalWrite c false v s hm, ?_⟩
    rw [calWrite_offset c v s opened, met_ite_metEvent]
    exact ⟨upd_same s.met.off c fun _ => signed 24 v.toNat, rfl, fun d hd => upd_other s.met.off c (fun _ => signed 24 v.toNat) hd⟩
  · rw [exec_metCalCommit s hm]
    exact congrArg _ (if_neg (by rw [hk]; simp))
  · have closed : calOpen s = false := by rcases h with h | h <;> simp [calOpen, h]
    refine ⟨_, exec_metCalWrite c g v s hm, ?_⟩
    rw [calWrite_closed c g v s closed]
    exact ⟨rfl, rfl, rfl⟩
  · refine ⟨_, exec_metCalCommit s hm, ?_⟩
    rw [calCommit, if_pos hk]
    exact ⟨rfl, rfl⟩

end Sys2Proof.Machine
end

section
/-! Billing (chapter 10): saves, checkpoints and tickets (O47). -/

namespace Sys2Proof.Machine

/-! ### Saves (R270) -/

theorem save_due (k : Fin 64) (h : Nat × Nat × List Nat) (s : State) (hi : s.fn % saveInt s = 0) (hn : s.bilR.noSave = false)
    (hw : s.bilR.writing = none) (hk : nextSlot s = some k) (hh : s.fl.bil.hist.find? (fun h => h.1 + 1 = s.fn) = some h) :
    save s = onBilR (fun r => { r with
      writing := some (k, { seq := s.bilR.saveSeq + 1, fn := h.1, rtc := h.2.1, hash := s.smp.activeHash, bil := s.fl.bil,
                            welds := weldFlags s.fl, tagKey := ledgerKey s })
      fnAon := h.1, fnMram := h.1 }) s := by
  rw [save, if_neg (by rw [hw, hn]; simp [hi]), hk, hh]

theorem save_idle (s : State) (h : s.fn % saveInt s ≠ 0 ∨ s.bilR.noSave = true ∨ s.bilR.writing ≠ none) : save s = s := by
  refine if_pos ?_
  rw [← Option.isSome_iff_ne_none] at h
  simpa [or_assoc] using h

theorem nextSlot_ne_bad (k : Fin 64) (s : State) (h : s.bilR.badSlots.getLsbD k.val = true) : nextSlot s ≠ some k := by
  intro eq
  obtain ⟨i, -, hi⟩ := List.exists_of_findSome?_eq_some eq
  split at hi
  case isTrue => cases hi
  case isFalse good =>
    unfold optFin at hi
    split at hi
    · obtain ⟨rfl⟩ := hi
      exact good h
    · cases hi

theorem saveDone_of (ok : Bool) (k : Fin 64) (x : SaveSlot) (s : State) (h : s.bilR.writing = some (k, x)) : saveDone ok s =
    if ok then onBilR (fun r => { r with writing := none, slots := r.slots.set k (some x), lastSlot := k.val, saveSeq := x.seq })
        { s with hkp := { s.hkp with savesAfter := if s.hkp.supplyWarn then s.hkp.savesAfter + 1 else s.hkp.savesAfter } }
    else bilEvent 8 noMeter k.val (onBilR (fun r => { r with
      writing := none, slots := r.slots.set k none, lastSlot := k.val, badSlots := setBit r.badSlots k.val }) s) := by
  unfold saveDone
  rw [h]

/-! ### The bytes of a checkpoint (R270, R274) -/

/-- The bytes of a slot up to its frame. -/
def slotFront (x : SaveSlot) : List Byte := [0x42, 0x53, 0x41, 0x56] ++ leBytes 8 x.seq

theorem slotFront_length (x : SaveSlot) : (slotFront x).length = 12 := by
  rw [slotFront, List.length_append, leBytes_length]
  rfl

theorem bytes128_length (v : BitVec 128) : (bytes128 v).length = 16 := by
  simp [bytes128]

theorem take_filled_length (bs : List Byte) (n : Nat) : ((bs ++ List.replicate n 0).take n).length = n := by
  rw [List.length_take, List.length_append, List.length_replicate]
  omega

theorem slotBytes_parts (s : State) (x : SaveSlot) : ∃ rest : List Byte,
    slotBytes s x = slotFront x ++ leBytes 8 x.fn ++ rest ∧ rest.length = 32748 := by
  unfold slotBytes slotFront
  simp only [List.append_assoc]
  refine ⟨_, rfl, ?_⟩
  simp only [List.length_append, leBytes_length, bytes128_length, take_filled_length, List.length_replicate]
  rw [flatten_map_length _ 4 x.bil.cal.toList (fun c => leBytes_length 4 _), Vector.length_toList]

/-- The slot that a checkpoint writes. -/
def ckptSlot (s : State) : SaveSlot :=
  { seq := s.bilR.saveSeq, fn := s.fn, rtc := s.lat.levels.rtc, hash := s.smp.activeHash, bil := s.nx.bil, welds := weldFlags s.nx,
    tagKey := ledgerKey s }

theorem onBil_lnd (f : Bil → Bil) (s : State) : (onBil f s).lnd = s.lnd := rfl
theorem onBilR_lnd (f : BilReg → BilReg) (s : State) : (onBilR f s).lnd = s.lnd := rfl
theorem bilInt_lnd (b : Nat) (s : State) : (bilInt b s).lnd = s.lnd := rfl

theorem checkpoint_eq (s : State) : checkpoint s = bilInt 10 (onBilR (fun r => { r with ckptReq := false })
    (onBil (fun b => { b with ckptFn := s.fn }) (lndWrite checkpointBase (slotBytes s (ckptSlot s)) s))) := rfl

theorem checkpoint_mem (s : State) : (checkpoint s).lnd.mem = memWriteBytes s.lnd.mem checkpointBase (slotBytes s (ckptSlot s)) := by
  rw [checkpoint_eq, bilInt_lnd, onBilR_lnd, onBil_lnd, lndWrite_mem]

theorem checkpoint_ckptFn (s : State) : (checkpoint s).nx.bil.ckptFn = s.fn := by
  rw [checkpoint_eq]
  rfl

theorem exec_bilCheckpoint (s : State) (hc : s.isl.ctl = true) : exec .bilCheckpoint s = .next (checkpoint s) := whenOn_on s hc

/-! ### Tickets (R268) -/

theorem optFin_val {n : Nat} (i : Fin n) : optFin n i.val = some i := dif_pos i.isLt

theorem signTicket_of (tk : Ticket) (ts : List Ticket) (i : Fin 256) (s : State) (h : s.nx.bil.toSign = tk :: ts) (hi : tk.ix = some i.val) :
    signTicket s = lndWrite (ticketBase + 576 * i.val) (ticketBytes s tk)
      (onBilR (fun r => { r with tickets := r.tickets.set i (ticketBytes s tk) }) (onBil (fun b => { b with toSign := ts }) s)) := by
  unfold signTicket
  rw [h]
  dsimp only
  rw [hi, Option.bind_some, optFin_val]

/-- A signed ticket in its ring and in the mirror of the ring. -/
theorem signTicket_effect (tk : Ticket) (ts : List Ticket) (i : Fin 256) (s : State) (h : s.nx.bil.toSign = tk :: ts)
    (hi : tk.ix = some i.val) : (signTicket s).nx.bil.toSign = ts ∧ (signTicket s).bilR.tickets = s.bilR.tickets.set i (ticketBytes s tk) ∧
    (signTicket s).lnd.mem = memWriteBytes s.lnd.mem (ticketBase + 576 * i.val) (ticketBytes s tk) := by
  rw [signTicket_of tk ts i s h hi, lndWrite_mem, onBilR_lnd, onBil_lnd]
  generalize ticketBytes s tk = bs
  exact ⟨rfl, rfl, rfl⟩

theorem signTicket_none (s : State) (h : s.nx.bil.toSign = []) : signTicket s = s := by
  unfold signTicket
  rw [h]

theorem storeTicket_of (k : SetIx) (s : State) (hk : field s.bilR.sel.toNat 0 6 = k.val) (on : metOn s k = true)
    (kind : (s.map.met[k]).kind = 2) (opened : (s.nx.bil.sess[k]).isOpen = true) (run : (s.nx.bil.sess[k]).stop = none) :
    storeTicket s = stopSess k 0 0 s := by
  unfold storeTicket
  rw [hk, optFin_val]
  exact if_pos (by rw [on, kind, opened, run]; rfl)

/-! ### The snapshot of an item (R276) -/

theorem field_masked (v : Word) (lo n : Nat) (h : lo + n ≤ 14) : field (v &&& 0x3FFF).toNat lo n = field v.toNat lo n := by
  have low : (v &&& 0x3FFF).toNat = v.toNat % 2 ^ 14 := by
    rw [BitVec.toNat_and]
    exact Nat.and_two_pow_sub_one_eq_mod v.toNat 14
  have widths : 2 ^ 14 = 2 ^ lo * (2 ^ n * 2 ^ (14 - lo - n)) := by
    rw [← Nat.pow_add, ← Nat.pow_add]
    congr 1
    omega
  rw [field, field, low, widths, Nat.mod_mul_right_div_self, Nat.mod_mul_right_mod]

theorem selItem_total (m : Fin 33) (v : Word) (s : State) (hm : field v.toNat 0 6 = m.val) (hi : field v.toNat 6 4 = 1) :
    (selItem s (v &&& 0x3FFF)).1 = if v.getLsbD 13 then ((s.fl.bil.m[m]).t).rev else ((s.fl.bil.m[m]).t).fwd := by
  have dir : (v &&& 0x3FFF).getLsbD 13 = v.getLsbD 13 := by simp
  unfold selItem
  rw [field_masked v 0 6 (by omega), field_masked v 6 4 (by omega), hm, hi, optFin_val, dir]
  rfl

/-- Settles O47, clause by clause; the memory clauses are those of one write at its place. -/
theorem savesAndTickets : Obligations.SavesAndTickets := by
  unfold Obligations.SavesAndTickets
  refine ⟨fun k h s hc hi hn hw hk hh => ?_, fun s h => whenOn_id (save_idle s h), fun k x s hw => ⟨?_, ?_⟩, fun s hc wf => ?_,
    fun tk ts i s hc ht hi wf => ?_, fun s h => whenOn_id (signTicket_none s h), fun ix s hc => ⟨_, whenOn_on s hc, rfl, rfl, rfl, rfl⟩,
    fun k s hc hk on kind opened run => ?_, fun v s hc => ⟨_, whenOn_on s hc, rfl, rfl, rfl, fun m hm hi => selItem_total m v s hm hi⟩⟩
  · have before : h.1 + 1 = s.fn := by simpa using List.find?_some hh
    refine ⟨_, _, (whenOn_on s hc).trans (congrArg _ (save_due k h s hi hn hw hk hh)), rfl, rfl, before, rfl, rfl, rfl, before, rfl, rfl, rfl⟩
  · refine ⟨_, congrArg Host.Outcome.next (saveDone_of true k x s hw), rfl, ?_, rfl, fun j hj => ?_, rfl, rfl⟩
    · exact upd_same s.bilR.slots k fun _ => some x
    · exact upd_other s.bilR.slots k (fun _ => some x) hj
  · refine ⟨_, congrArg Host.Outcome.next (saveDone_of false k x s hw), rfl, ?_, rfl, fun j hj => ?_, rfl, ?_⟩
    · exact upd_same s.bilR.slots k fun _ => none
    · exact upd_other s.bilR.slots k (fun _ => none) hj
    · refine nextSlot_ne_bad k _ ?_
      exact (getLsbD_setBit s.bilR.badSlots k.val k.val k.isLt).trans (by simp)
  · obtain ⟨rest, parts, len⟩ := slotBytes_parts s (ckptSlot s)
    have whole : (slotBytes s (ckptSlot s)).length = 32768 := by
      rw [parts, List.length_append, List.length_append, slotFront_length, leBytes_length, len]
    have magic := memReadBytes_front s.lnd.mem checkpointBase [0x42, 0x53, 0x41, 0x56]
      (leBytes 8 (ckptSlot s).seq ++ leBytes 8 (ckptSlot s).fn ++ rest) wf
    have frame := memReadBytes_part s.lnd.mem checkpointBase (slotFront (ckptSlot s)) (leBytes 8 (ckptSlot s).fn) rest wf
    rw [slotFront_length, leBytes_length, ← parts] at frame
    rw [← List.append_assoc, ← List.append_assoc, ← slotFront, ← parts] at magic
    refine ⟨checkpoint s, exec_bilCheckpoint s hc, checkpoint_ckptFn s, ?_, ?_, fun a ha => ?_⟩
    · rw [checkpoint_mem]
      exact magic
    · rw [checkpoint_mem]
      exact frame
    · rw [checkpoint_mem]
      exact memRead_memWriteBytes_off s.lnd.mem _ a _ wf (by rwa [whole])
  · obtain ⟨rest, ring, mem⟩ := signTicket_effect tk ts i s ht hi
    refine ⟨signTicket s, whenOn_on s hc, rest, ?_, ?_, fun j hj => ?_, fun a ha => ?_⟩
    · rw [ring]
      exact upd_same s.bilR.tickets i fun _ => ticketBytes s tk
    · rw [mem]
      exact memReadBytes_memWriteBytes s.lnd.mem _ (ticketBytes s tk) wf
    · rw [ring]
      exact upd_other s.bilR.tickets i (fun _ => ticketBytes s tk) hj
    · rw [mem]
      exact memRead_memWriteBytes_off s.lnd.mem _ a (ticketBytes s tk) wf ha
  · refine ⟨_, _, (whenOn_on s hc).trans (congrArg _ (storeTicket_of k s hk on kind opened run)), upd_same s.nx.bil.sess k _, rfl, rfl, rfl,
      fun j hj => upd_other s.nx.bil.sess k _ hj, rfl⟩

end Sys2Proof.Machine
end

section
/-! Billing (chapter 10): the commands of the battery ledger (O48). -/

namespace Sys2Proof.Machine

/-! ### Home entries (R254, R258, R261) -/

/-- No home entry is due. -/
def NoneDue (s : State) : Prop := ∀ (j : SetIx) (b : Bind), s.nx.bil.bind[j] = some b → b.due = false

/-- What step 5 of R254 does for one set. -/
def dueStep (s : State) (k : SetIx) : State :=
  match s.nx.bil.bind[k] with
  | some b => if b.due then homeWrite k s else s
  | none => s

theorem homeDue_eq (s : State) : homeDue s = (List.finRange 32).foldl dueStep s := rfl

theorem dueStep_none (s : State) (k : SetIx) (h : NoneDue s) : dueStep s k = s := by
  unfold dueStep
  cases hb : s.nx.bil.bind[k] with
  | none => rfl
  | some b => exact if_neg (by rw [h k b hb]; simp)

theorem homeDue_none (s : State) (h : NoneDue s) : homeDue s = s := by
  have fold (l : List SetIx) : l.foldl dueStep s = s := by
    induction l with
    | nil => rfl
    | cons k ks ih => rw [List.foldl_cons, dueStep_none s k h, ih]
  rw [homeDue_eq, fold]

theorem tagEntry_keeps (ix : Nat) (s : State) : (tagEntry ix s).bilR.ledger = s.bilR.ledger ∧ (tagEntry ix s).nx = s.nx ∧
    (tagEntry ix s).lnd = s.lnd := by
  unfold tagEntry
  dsimp only
  split <;> exact ⟨rfl, rfl, rfl⟩

theorem homePut_effect (ix : Fin 1536) (e : Ledger) (s : State) : (homePut ix e s).bilR.ledger = s.bilR.ledger.set ix e ∧
    (homePut ix e s).nx = s.nx := by
  obtain ⟨ledger, nx, -⟩ := tagEntry_keeps ix.val (onBilR (fun r => { r with ledger := r.ledger.set ix e }) s)
  exact ⟨ledger, nx⟩

theorem ledger_homePut_same (ix : Fin 1536) (e : Ledger) (s : State) : (homePut ix e s).bilR.ledger[ix] = e := by
  rw [(homePut_effect ix e s).1]
  exact upd_same s.bilR.ledger ix fun _ => e

theorem ledger_homePut_other (ix : Fin 1536) (e : Ledger) (s : State) {j : Fin 1536} (h : j ≠ ix) :
    (homePut ix e s).bilR.ledger[j] = s.bilR.ledger[j] := by
  rw [(homePut_effect ix e s).1]
  exact upd_other s.bilR.ledger ix (fun _ => e) h

/-- A working copy whose home entry has been written. -/
def homed (b : Bind) : Bind := { b with e := { b.e with writes := b.e.writes + 1 }, due := false }

theorem homeWrite_of (k : SetIx) (b : Bind) (s : State) (h : s.nx.bil.bind[k] = some b) : homeWrite k s =
    homePut b.ix { b.e with writes := b.e.writes + 1 }
      (onBind k (fun x => { x with e := { b.e with writes := b.e.writes + 1 }, due := false }) s) := by
  unfold homeWrite
  rw [h]

theorem homeWrite_bind (k : SetIx) (s : State) : (homeWrite k s).nx.bil.bind = Vec.upd s.nx.bil.bind k (Option.map homed) := by
  cases hb : s.nx.bil.bind[k] with
  | none =>
    have same : homeWrite k s = s := by
      unfold homeWrite
      rw [hb]
    rw [same, upd_of_fixed]
    rw [hb, Option.map_none]
  | some b =>
    rw [homeWrite_of k b s hb, (homePut_effect _ _ _).2]
    show Vec.upd s.nx.bil.bind k _ = Vec.upd s.nx.bil.bind k _
    unfold Vec.upd
    rw [hb]
    rfl

theorem homeWrite_result (k : SetIx) (s : State) : (homeWrite k s).nx.bil.ledgerResult = s.nx.bil.ledgerResult := by
  unfold homeWrite
  split
  · rfl
  · rw [(homePut_effect _ _ _).2]
    rfl

theorem dueStep_result (s : State) (k : SetIx) : (dueStep s k).nx.bil.ledgerResult = s.nx.bil.ledgerResult := by
  unfold dueStep
  split
  · split
    · exact homeWrite_result k s
    · rfl
  · rfl

theorem homeDue_result (s : State) : (homeDue s).nx.bil.ledgerResult = s.nx.bil.ledgerResult := by
  rw [homeDue_eq]
  exact foldl_proj (fun s => s.nx.bil.ledgerResult) dueStep dueStep_result (List.finRange 32) s

/-- A binding after step 5 of R254. -/
def afterDue (b : Bind) : Bind := if b.due then homed b else b

theorem dueStep_bind (s : State) (k : SetIx) : (dueStep s k).nx.bil.bind = Vec.upd s.nx.bil.bind k (Option.map afterDue) := by
  unfold dueStep
  cases hb : s.nx.bil.bind[k] with
  | none => rw [upd_of_fixed _ _ _ (by rw [hb, Option.map_none])]
  | some b =>
    cases due : b.due with
    | false =>
      dsimp only
      rw [if_neg (by rw [due]; simp), upd_of_fixed _ _ (Option.map afterDue) (by rw [hb, Option.map_some, afterDue, due]; rfl)]
    | true =>
      dsimp only
      rw [if_pos due, homeWrite_bind, Vec.upd, Vec.upd, hb, Option.map_some, Option.map_some, afterDue, if_pos due]

theorem homeDue_bind (s : State) (k : SetIx) : (homeDue s).nx.bil.bind[k] = (s.nx.bil.bind[k]).map afterDue := by
  have fold (l : List SetIx) (s : State) : (l.foldl dueStep s).nx.bil.bind =
      l.foldl (fun v k => Vec.upd v k (Option.map afterDue)) s.nx.bil.bind := by
    induction l generalizing s with
    | nil => rfl
    | cons k ks ih => rw [List.foldl_cons, ih, dueStep_bind, List.foldl_cons]
  rw [homeDue_eq, fold, foldl_upd_get (fun _ => Option.map afterDue) _ (List.nodup_finRange 32), if_pos (List.mem_finRange k)]

/-! ### A command and its result (R259) -/

/-- The result of a command, told by its registers and its event. -/
def ledgerTold (op r : Nat) (s : State) : State :=
  bilEvent 5 noMeter (16 * op + r) (onBil (fun b => { b with ledgerOp := op, ledgerResult := r, ledgerDone := true }) s)

/-- The entry that BIL_LEDGER_SEL names cannot be used. -/
def LedgerBarred (s : State) : Prop :=
  1536 ≤ field s.bilR.ledgerSel.toNat 0 11 ∨ s.bilR.unusable.contains (field s.bilR.ledgerSel.toNat 0 11) = true

/-- The entry that BIL_LEDGER_SEL names is `ix`, and can be used. -/
def LedgerNames (s : State) (ix : Fin 1536) : Prop :=
  field s.bilR.ledgerSel.toNat 0 11 = ix.val ∧ s.bilR.unusable.contains ix.val = false

theorem ledgerCmd_barred (op : Nat) (s : State) (h : LedgerBarred s) : ∃ r, (r = 1 ∨ r = 7) ∧ ledgerCmd op s = ledgerTold op r s := by
  unfold ledgerCmd
  dsimp only
  cases hn : optFin 1536 (field s.bilR.ledgerSel.toNat 0 11) with
  | none => exact ⟨1, .inl rfl, rfl⟩
  | some ix =>
    refine ⟨7, .inr rfl, ?_⟩
    have small : field s.bilR.ledgerSel.toNat 0 11 < 1536 := by
      unfold optFin at hn
      split at hn
      · assumption
      · cases hn
    dsimp only
    rw [if_pos (h.resolve_left (by omega))]
    rfl

theorem ledgerCmd_of (op : Nat) (ix : Fin 1536) (s : State) (h : LedgerNames s ix) :
    ledgerCmd op s = ledgerTold op (ledgerOp op ix s).1 (ledgerOp op ix s).2 := by
  obtain ⟨names, usable⟩ := h
  unfold ledgerCmd
  dsimp only
  rw [names, optFin_val]
  dsimp only
  rw [usable]
  rfl

/-- A command that leaves the bindings as they are ends with its result. -/
theorem ledgerRun_of (op r : Nat) (ix : Fin 1536) (s t : State) (h : LedgerNames s ix) (hd : NoneDue s)
    (ho : ledgerOp op ix s = (r, t)) (hb : t.nx.bil.bind = s.nx.bil.bind) : ledgerRun op s = ledgerTold op r t := by
  rw [ledgerRun, ledgerCmd_of op ix s h, ho]
  refine homeDue_none _ fun j b hj => hd j b ?_
  rw [← hb]
  exact hj

theorem ledgerRun_barred (op : Nat) (s : State) (h : LedgerBarred s) (hd : NoneDue s) :
    ∃ r, (r = 1 ∨ r = 7) ∧ ledgerRun op s = ledgerTold op r s := by
  obtain ⟨r, hr, cmd⟩ := ledgerCmd_barred op s h
  refine ⟨r, hr, ?_⟩
  rw [ledgerRun, cmd]
  exact homeDue_none _ hd

/-- A refused command leaves the ledger, the bindings, the sessions and the landing block. -/
theorem ledgerTold_keeps (op r : Nat) (s : State) : (ledgerTold op r s).nx.bil.ledgerOp = op ∧ (ledgerTold op r s).nx.bil.ledgerDone = true ∧
    (ledgerTold op r s).nx.bil.ledgerResult = r ∧ (ledgerTold op r s).bilR = s.bilR ∧
    (ledgerTold op r s).nx.bil.bind = s.nx.bil.bind ∧ (ledgerTold op r s).nx.bil.sess = s.nx.bil.sess ∧
    (ledgerTold op r s).lnd = s.lnd := ⟨rfl, rfl, rfl, rfl, rfl, rfl, rfl⟩

theorem exec_ledger (s : State) (hc : s.isl.ctl = true) (c : Instr) (n : Nat)
    (h : (c, n) ∈ ([(.ledgerBind, 1), (.ledgerUnbind, 2), (.ledgerLoadCredit, 3), (.ledgerCreditMode, 4), (.ledgerRetire, 5),
      (.ledgerClear, 6), (.ledgerRead, 7), (.ledgerExport, 8), (.ledgerForcedBind, 9)] : List (Instr × Nat))) :
    exec c s = .next (ledgerRun n s) := by
  simp only [List.mem_cons, Prod.mk.injEq, List.not_mem_nil, or_false] at h
  rcases h with ⟨rfl, rfl⟩ | ⟨rfl, rfl⟩ | ⟨rfl, rfl⟩ | ⟨rfl, rfl⟩ | ⟨rfl, rfl⟩ | ⟨rfl, rfl⟩ | ⟨rfl, rfl⟩ | ⟨rfl, rfl⟩ | ⟨rfl, rfl⟩ <;>
    exact whenOn_on s hc

/-! ### Entries that no set holds -/

theorem entryOf_free (ix : Fin 1536) (s : State) (h : holder s ix = none) : entryOf s ix = s.bilR.ledger[ix] := by
  unfold entryOf
  rw [h]
  rfl

theorem onEntry_free (ix : Fin 1536) (f : Ledger → Ledger) (s : State) (h : holder s ix = none) :
    onEntry ix f s = homePut ix { f s.bilR.ledger[ix] with writes := (s.bilR.ledger[ix]).writes + 1 } s := by
  unfold onEntry
  rw [h]

theorem bind_homePut (ix : Fin 1536) (e : Ledger) (s : State) : (homePut ix e s).nx.bil.bind = s.nx.bil.bind := by
  rw [(homePut_effect ix e s).2]

/-- A command whose effect is the write of a home entry. -/
theorem ledgerRun_homePut (op r : Nat) (ix : Fin 1536) (e : Ledger) (s : State) (h : LedgerNames s ix) (hd : NoneDue s)
    (ho : ledgerOp op ix s = (r, homePut ix e s)) : (ledgerRun op s).nx.bil.ledgerResult = r ∧ (ledgerRun op s).bilR.ledger[ix] = e ∧
    ∀ j : Fin 1536, j ≠ ix → (ledgerRun op s).bilR.ledger[j] = s.bilR.ledger[j] := by
  obtain ⟨-, -, result, regs, -, -, -⟩ := ledgerTold_keeps op r (homePut ix e s)
  rw [ledgerRun_of op r ix s _ h hd ho (bind_homePut ix e s), regs]
  exact ⟨result, ledger_homePut_same ix e s, fun j hj => ledger_homePut_other ix e s hj⟩

/-- A command that is refused. -/
theorem ledgerRun_refused (op r : Nat) (ix : Fin 1536) (s : State) (h : LedgerNames s ix) (hd : NoneDue s)
    (ho : ledgerOp op ix s = (r, s)) : (ledgerRun op s).nx.bil.ledgerResult = r ∧ (ledgerRun op s).bilR.ledger = s.bilR.ledger ∧
    (ledgerRun op s).nx.bil.bind = s.nx.bil.bind ∧ (ledgerRun op s).lnd = s.lnd := by
  rw [ledgerRun_of op r ix s _ h hd ho rfl]
  exact ⟨rfl, rfl, rfl, rfl⟩

/-! ### Unbind (R259, R261) -/

theorem holder_bind (ix : Fin 1536) (k : SetIx) (s : State) (h : holder s ix = some k) : ∃ b, s.nx.bil.bind[k] = some b ∧ b.ix = ix := by
  have found := List.find?_some h
  split at found
  next b hb => exact ⟨b, hb, by simpa using found⟩
  next => cases found

theorem unbind_effect (k : SetIx) (b : Bind) (s : State) (h : s.nx.bil.bind[k] = some b) : (unbind k s).nx.bil.bind[k] = none ∧
    (∀ j : SetIx, j ≠ k → (unbind k s).nx.bil.bind[j] = s.nx.bil.bind[j]) ∧ ((unbind k s).bilR.ledger[b.ix]).unbindSec = rtcSec s := by
  have timed : (onBind k (fun x => { x with e := { x.e with unbindSec := rtcSec s } }) s).nx.bil.bind[k] =
      some { b with e := { b.e with unbindSec := rtcSec s } } := by
    refine (upd_same s.nx.bil.bind k _).trans ?_
    rw [h, Option.map_some]
  have binds : (unbind k s).nx.bil.bind = (homeWrite k (onBind k (fun x => { x with e := { x.e with unbindSec := rtcSec s } }) s)).nx.bil.bind.set k none :=
    rfl
  have regs : (unbind k s).bilR = (homeWrite k (onBind k (fun x => { x with e := { x.e with unbindSec := rtcSec s } }) s)).bilR := rfl
  refine ⟨?_, fun j hj => ?_, ?_⟩
  · rw [binds]
    exact upd_same _ k fun _ => none
  · rw [binds]
    refine (upd_other _ k (fun _ => none) hj).trans ?_
    rw [homeWrite_bind]
    exact (upd_other _ k _ hj).trans (upd_other s.nx.bil.bind k _ hj)
  · rw [regs, homeWrite_of k _ _ timed]
    exact congrArg Ledger.unbindSec (ledger_homePut_same b.ix _ _)

/-- The session of a storage set stops with its binding. -/
def unbindFrom (k : SetIx) (s : State) : State :=
  if (s.nx.bil.sess[k]).isOpen && (s.nx.bil.sess[k]).stop.isNone then stopSess k 0 0 s else s

theorem unbindFrom_keeps (k : SetIx) (s : State) : (unbindFrom k s).nx.bil.bind = s.nx.bil.bind ∧ rtcSec (unbindFrom k s) = rtcSec s := by
  unfold unbindFrom
  split <;> exact ⟨rfl, rfl⟩

theorem ledgerOp_unbind (ix : Fin 1536) (k : SetIx) (s : State) (h : holder s ix = some k) :
    ledgerOp 2 ix s = if (s.map.met[k]).kind = 2 then (0, unbind k (unbindFrom k s)) else (6, s) := by
  unfold ledgerOp
  rw [h]
  rfl

theorem ledgerRun_unbind (ix : Fin 1536) (k : SetIx) (s : State) (h : LedgerNames s ix) (hd : NoneDue s) (hk : holder s ix = some k)
    (kind : (s.map.met[k]).kind = 2) : (ledgerRun 2 s).nx.bil.ledgerResult = 0 ∧ (ledgerRun 2 s).nx.bil.bind[k] = none ∧
      ((ledgerRun 2 s).bilR.ledger[ix]).unbindSec = rtcSec s ∧
      ∀ j : SetIx, j ≠ k → (ledgerRun 2 s).nx.bil.bind[j] = s.nx.bil.bind[j] := by
  obtain ⟨b, hb, rfl⟩ := holder_bind ix k s hk
  obtain ⟨binds, clock⟩ := unbindFrom_keeps k s
  obtain ⟨gone, others, sec⟩ := unbind_effect k b (unbindFrom k s) (by rw [binds, hb])
  have run : ledgerRun 2 s = ledgerTold 2 0 (unbind k (unbindFrom k s)) := by
    rw [ledgerRun, ledgerCmd_of 2 b.ix s h, ledgerOp_unbind b.ix k s hk, if_pos kind]
    refine homeDue_none _ fun j c hj => ?_
    by_cases hjk : j = k
    · subst hjk
      exact absurd (hj.symm.trans gone) (Option.some_ne_none c)
    · exact hd j c (((congrArg (·[j]) binds).symm.trans (others j hjk).symm).trans hj)
  rw [run]
  exact ⟨rfl, gone, sec.trans clock, fun j hj => (others j hj).trans (congrArg (·[j]) binds)⟩

/-! ### Bind (R259) -/

theorem bind_ite_onSess (c : Prop) [Decidable c] (k : SetIx) (f : BSess → BSess) (s : State) :
    (if c then onSess k f s else s).nx.bil.bind = s.nx.bil.bind := by
  split <;> rfl

/-- The entry of an outlet's bind: what it takes of the request, and the tag of the vehicle. -/
def boundEntry (forced : Bool) (e : Ledger) (ident : BitVec 128) (lease : Word) (t : BitVec 64) : Ledger :=
  { e with ident := ident, lease := lease, phase := 1, tag := if forced || e.tag = 0 then t else e.tag,
           forcedTag := e.forcedTag || forced, count := e.count + 1 }

/-- The binding that an outlet's bind makes. -/
def boundTo (forced : Bool) (ix : Fin 1536) (fn : Nat) (e : Ledger) : Bind :=
  { ix := ix, e := e, fn := fn, confirmed := !forced, forced := forced, due := true }

theorem ledgerTake_bind (forced : Bool) (ix : Fin 1536) (k : SetIx) (t : BitVec 64) (s : State) (h0 : (entryOf s ix).phase = 0) :
    (ledgerTake forced ix k 1 (some t) s).nx.bil.bind = s.nx.bil.bind.set k
      (some (boundTo forced ix s.fn (boundEntry forced (entryOf s ix) s.bilR.ledgerId s.bilR.ledgerLease t))) := by
  unfold ledgerTake
  dsimp only
  rw [bind_ite_onSess, bind_ite_onSess, h0, if_pos rfl, if_neg (by simp : ¬ (decide ((1 : Nat) = 2) && _ && _) = true)]
  rfl

/-- An outlet's set may be bound to a free entry. -/
structure MayBind (ix : Fin 1536) (k : SetIx) (o : OutIx) (s : State) : Prop where
  free : holder s ix = none
  named : field s.bilR.ledgerSel.toNat 16 6 = k.val
  unbound : s.nx.bil.bind[k] = none
  assigned : metOn s k = true
  serves : outOfSet s k = some o
  admits : ((s.fl.osq[o]).st).bindable = true
  seen : (s.vlk[o]).authSeen = true
  unused : (s.bilR.ledger[ix]).phase = 0

theorem bindTarget_outlet (k : SetIx) (o : OutIx) (s : State) (on : metOn s k = true) (ho : outOfSet s k = some o)
    (hb : ((s.fl.osq[o]).st).bindable = true) (ha : (s.vlk[o]).authSeen = true) :
    bindTarget s k = some (1, some (linkTag (s.vlk[o]).evccid), none) := by
  unfold bindTarget
  rw [if_neg (by rw [on]; simp), ho]
  exact if_pos (by rw [hb, ha]; rfl)

theorem ledgerBind_free (forced : Bool) (ix : Fin 1536) (k : SetIx) (o : OutIx) (s : State) (h : MayBind ix k o s)
    (ht : forced = true ∨ (s.bilR.ledger[ix]).tag = 0) :
    ledgerBind forced ix s = (0, ledgerTake forced ix k 1 (some (linkTag (s.vlk[o]).evccid)) s) := by
  obtain ⟨free, named, unbound, assigned, serves, admits, seen, unused⟩ := h
  unfold ledgerBind
  rw [named, optFin_val]
  dsimp only
  rw [free, unbound, bindTarget_outlet k o s assigned serves admits seen, entryOf_free ix s free, unused]
  rcases ht with ht | ht <;> simp [-Fin.getElem_fin, ht]

theorem ledgerRun_bind (op : Nat) (forced : Bool) (ix : Fin 1536) (k : SetIx) (o : OutIx) (s : State) (hn : LedgerNames s ix)
    (h : MayBind ix k o s) (ht : forced = true ∨ (s.bilR.ledger[ix]).tag = 0) (ho : ledgerOp op ix s = ledgerBind forced ix s) :
    (ledgerRun op s).nx.bil.ledgerResult = 0 ∧ (ledgerRun op s).nx.bil.bind[k] = some (homed (boundTo forced ix s.fn
      (boundEntry forced s.bilR.ledger[ix] s.bilR.ledgerId s.bilR.ledgerLease (linkTag (s.vlk[o]).evccid)))) := by
  have entry := entryOf_free ix s h.free
  have binds := ledgerTake_bind forced ix k (linkTag (s.vlk[o]).evccid) s (by rw [entry, h.unused])
  rw [entry] at binds
  rw [ledgerRun, ledgerCmd_of op ix s hn, ho, ledgerBind_free forced ix k o s h ht, homeDue_result, homeDue_bind]
  dsimp only
  generalize ledgerTake forced ix k 1 (some (linkTag (s.vlk[o]).evccid)) s = t at binds ⊢
  generalize boundEntry forced s.bilR.ledger[ix] s.bilR.ledgerId s.bilR.ledgerLease (linkTag (s.vlk[o]).evccid) = e at binds ⊢
  obtain ⟨-, -, result, -, kept, -, -⟩ := ledgerTold_keeps op 0 t
  have there : t.nx.bil.bind[k] = some (boundTo forced ix s.fn e) := by
    rw [binds]
    exact upd_same s.nx.bil.bind k fun _ => some (boundTo forced ix s.fn e)
  rw [kept, there, Option.map_some]
  exact ⟨result, rfl⟩

/-! ### The window of an entry (R260) -/

theorem entryBytes_length (s : State) (ix : Nat) (e : Ledger) : (entryBytes s ix e).length = 256 := by
  unfold entryBytes
  simp only [List.length_append, leBytes_length, bytes128_length, List.length_replicate, b80]
  rw [flatten_map_length _ 20 e.perTariff.toList (fun w => by simp only [List.length_append, leBytes_length]), Vector.length_toList]

theorem ledgerWin_mem (ix : Fin 1536) (sign : Bool) (s : State) : ∃ rest : List Byte, rest.length = 256 ∧
    (ledgerWin ix sign s).lnd.mem = memWriteBytes s.lnd.mem ledgerWindow (entryBytes s ix.val s.bilR.ledger[ix] ++ rest) := by
  unfold ledgerWin
  simp only [List.append_assoc, lndWrite_mem]
  refine ⟨_, ?_, rfl⟩
  simp only [List.length_append, leBytes_length, take_filled_length, List.length_replicate, serialBytes, List.length_cons,
    List.length_nil]

theorem ledgerWin_frame (ix : Fin 1536) (sign : Bool) (s : State) : LndEvs s (ledgerWin ix sign s) := lndWrite_lndEvs _ _ s

theorem ledgerWin_keeps (ix : Fin 1536) (sign : Bool) (s : State) : (ledgerWin ix sign s).bilR = s.bilR ∧
    (ledgerWin ix sign s).nx = s.nx := by
  have frame := ledgerWin_frame ix sign s
  generalize ledgerWin ix sign s = t at frame ⊢
  exact ⟨(congrArg State.bilR frame :), (congrArg State.nx frame :)⟩

theorem ledgerRun_window (op : Nat) (sign : Bool) (ix : Fin 1536) (s : State) (h : LedgerNames s ix) (hd : NoneDue s)
    (ho : ledgerOp op ix s = (0, ledgerWin ix sign s)) : (ledgerRun op s).nx.bil.ledgerResult = 0 ∧
      (ledgerRun op s).bilR.ledger = s.bilR.ledger ∧ (ledgerRun op s).nx.bil.bind = s.nx.bil.bind ∧
      (Memory.wf s.lnd.mem = true → memReadBytes (ledgerRun op s).lnd.mem ledgerWindow 256 = entryBytes s ix.val s.bilR.ledger[ix] ∧
        ∀ a : Nat, a < ledgerWindow ∨ ledgerWindow + 512 ≤ a → memRead (ledgerRun op s).lnd.mem a = memRead s.lnd.mem a) := by
  obtain ⟨regs, nx⟩ := ledgerWin_keeps ix sign s
  obtain ⟨rest, len, mem⟩ := ledgerWin_mem ix sign s
  have binds : (ledgerWin ix sign s).nx.bil.bind = s.nx.bil.bind := by rw [nx]
  obtain ⟨-, -, result, told, tbind, -, tlnd⟩ := ledgerTold_keeps op 0 (ledgerWin ix sign s)
  rw [ledgerRun_of op 0 ix s _ h hd ho binds, told, tbind, tlnd, mem, regs, binds]
  refine ⟨result, rfl, rfl, fun wf => ⟨?_, fun a ha => ?_⟩⟩
  · have front := memReadBytes_front s.lnd.mem ledgerWindow (entryBytes s ix.val s.bilR.ledger[ix]) rest wf
    rwa [entryBytes_length] at front
  · refine memRead_memWriteBytes_off s.lnd.mem _ a _ wf ?_
    rwa [List.length_append, entryBytes_length, len]

/-- Settles O48: each command by its result and effect on a named entry, with the home entries that it makes due. -/
theorem ledgerCommands : Obligations.LedgerCommands := by
  unfold Obligations.LedgerCommands
  refine ⟨fun s hc hd hb c n hcn => ?_, fun ix s hc hn hu hf hd => ?_, fun ix k s hc hn hu hk hd => ?_,
    fun ix k o s hc hn hu hf hsel hbk hon ho hst ha hp hd => ?_, fun ix s hc hn hu hd => ?_⟩
  · obtain ⟨r, hr, run⟩ := ledgerRun_barred n s hb hd
    refine ⟨_, exec_ledger s hc c n hcn, ?_⟩
    rw [run]
    exact ⟨rfl, rfl, hr, rfl, rfl, rfl, rfl⟩
  · have names : LedgerNames s ix := ⟨hn, hu⟩
    refine ⟨⟨_, exec_ledger s hc _ 3 (by simp), ?_⟩, ⟨_, exec_ledger s hc _ 4 (by simp), ?_⟩, ⟨_, exec_ledger s hc _ 5 (by simp), ?_⟩,
      fun phase => ⟨_, exec_ledger s hc _ 6 (by simp), ?_⟩, fun phase => ⟨_, exec_ledger s hc _ 6 (by simp), ?_⟩⟩
    · exact ledgerRun_homePut 3 0 ix _ s names hd (congrArg (Prod.mk 0) (onEntry_free ix _ s hf))
    · obtain ⟨result, entry, -⟩ := ledgerRun_homePut 4 0 ix _ s names hd (congrArg (Prod.mk 0) (onEntry_free ix _ s hf))
      exact ⟨result, entry⟩
    · have op : ledgerOp 5 ix s = (0, onEntry ix (fun e => { e with phase := 3 }) s) := if_neg (by rw [hf]; simp)
      obtain ⟨result, entry, -⟩ := ledgerRun_homePut 5 0 ix _ s names hd (op.trans (congrArg (Prod.mk 0) (onEntry_free ix _ s hf)))
      exact ⟨result, entry⟩
    · exact ledgerRun_homePut 6 0 ix {} s names hd (if_pos (by rw [entryOf_free ix s hf, phase]))
    · obtain ⟨result, ledger, -, -⟩ := ledgerRun_refused 6 9 ix s names hd (if_neg (by rwa [entryOf_free ix s hf]))
      exact ⟨result, ledger⟩
  · have names : LedgerNames s ix := ⟨hn, hu⟩
    refine ⟨⟨_, exec_ledger s hc _ 5 (by simp), ?_⟩, fun kind => ⟨_, exec_ledger s hc _ 2 (by simp), ?_⟩,
      fun kind => ⟨_, exec_ledger s hc _ 2 (by simp), ?_⟩⟩
    · obtain ⟨result, ledger, binds, -⟩ := ledgerRun_refused 5 2 ix s names hd (if_pos (by rw [hk]; rfl))
      exact ⟨result, ledger, binds⟩
    · exact ledgerRun_unbind ix k s names hd hk kind
    · obtain ⟨result, -, binds, -⟩ := ledgerRun_refused 2 6 ix s names hd ((ledgerOp_unbind ix k s hk).trans (if_neg kind))
      exact ⟨result, binds⟩
  · have names : LedgerNames s ix := ⟨hn, hu⟩
    have may : MayBind ix k o s := ⟨hf, hsel, hbk, hon, ho, hst, ha, hp⟩
    refine ⟨fun tag => ?_, ?_⟩
    · obtain ⟨result, bound⟩ := ledgerRun_bind 1 false ix k o s names may (.inr tag) rfl
      exact ⟨_, _, exec_ledger s hc _ 1 (by simp), result, bound, rfl, rfl, rfl, if_pos (by simpa using tag), rfl, rfl⟩
    · obtain ⟨result, bound⟩ := ledgerRun_bind 9 true ix k o s names may (.inl rfl) rfl
      exact ⟨_, _, exec_ledger s hc _ 9 (by simp), result, bound, rfl, rfl, rfl, Bool.or_true _, rfl⟩
  · have names : LedgerNames s ix := ⟨hn, hu⟩
    refine ⟨⟨_, exec_ledger s hc _ 7 (by simp), ledgerRun_window 7 false ix s names hd rfl⟩,
      fun lk tk => ⟨_, exec_ledger s hc _ 8 (by simp), ?_⟩, fun no => ⟨_, exec_ledger s hc _ 8 (by simp), ?_⟩⟩
    · obtain ⟨result, ledger, binds, -⟩ := ledgerRun_window 8 true ix s names hd (if_pos (by rw [lk, tk]; rfl))
      exact ⟨result, ledger, binds⟩
    · obtain ⟨result, -, -, lnd⟩ := ledgerRun_refused 8 8 ix s names hd (if_neg (by rcases no with no | no <;> simp [no]))
      exact ⟨result, lnd⟩

end Sys2Proof.Machine
end

section
/-! Switches (chapter 13): the inrush window that a coil's high side opens at its low side (R335) refutes O49 and O50. -/

namespace Sys2Proof.Machine

/-- The control die runs; HS_00 drives the coil of outlet 0, is commanded on and waits for a temperature latch to clear, while
LS_00, in series with it, conducts past its inrush window. -/
def coilPair : State :=
  { State.reset with
    isl := { State.reset.isl with ctl := true },
    map := { State.reset.map with aux := State.reset.map.aux.set 0 { use := 2, target := some 0 } },
    aux := { State.reset.aux with sw := (State.reset.aux.sw.set 0 { cmd := true }).set 48 { on := true } } }

/-- What each command makes of LS_00: a new inrush window in place of none. -/
theorem inrush_coilPair : ((coilPair.aux.sw[(48 : SwIx)]).inrush) = false ∧ ((auxClear 0 coilPair).aux.sw[(48 : SwIx)]).inrush = true ∧
    ((latchClear 0 .deltaT coilPair).aux.sw[(48 : SwIx)]).inrush = true := by decide

/-- A state in which LS_00 has its inrush window does not keep the switch as it was. -/
theorem coilPair_moved {t : State} (h : (t.aux.sw[(48 : SwIx)]).inrush = true) :
    ¬ ∀ j : SwIx, j ≠ 0 → t.aux.sw[j] = coilPair.aux.sw[j] := fun others =>
  absurd ((congrArg Sw.inrush (others 48 (by decide))).symm.trans h) (by rw [inrush_coilPair.1]; simp)

/-- Refutes O49: a clear that lets HS_00 turn on begins the inrush window of LS_00. -/
theorem not_switchCommands : ¬ Obligations.SwitchCommands := by
  unfold Obligations.SwitchCommands
  rintro ⟨-, -, -, -, -, -, -, -, -, clear, -⟩
  obtain ⟨t, ht, -, -, -, -, -, -, others, -⟩ := clear 0 coilPair rfl
  obtain rfl := Host.Outcome.next.inj ht
  exact coilPair_moved inrush_coilPair.2.1 others

/-- Refutes O50: a temperature latch that clears lets HS_00 turn on, which begins the inrush window of LS_00. -/
theorem not_switchProtection : ¬ Obligations.SwitchProtection := by
  unfold Obligations.SwitchProtection
  rintro ⟨-, -, -, clear, -⟩
  obtain ⟨t, ht, -, -, -, -, others⟩ := clear 0 .deltaT coilPair
  obtain rfl := Host.Outcome.next.inj ht
  exact coilPair_moved inrush_coilPair.2.2 others

end Sys2Proof.Machine
end

section
/-! The stand map (chapter 2): amendments and flash writes (O51). -/

namespace Sys2Proof.Machine

/-! ### Reasons of a rejected image (R40) -/

theorem error_ne_zero_ite {α : Type} {c : Prop} [Decidable c] {x y : Except (Nat × Nat) α} (hx : ∀ e, x = .error e → e.1 ≠ 0)
    (hy : ∀ e, y = .error e → e.1 ≠ 0) : ∀ e, (if c then x else y) = .error e → e.1 ≠ 0 := by
  split <;> assumption

theorem error_reason {α : Type} {r o : Nat} (h : r ≠ 0) : ∀ e, (Except.error (r, o) : Except (Nat × Nat) α) = .error e → e.1 ≠ 0 := by
  rintro _ ⟨rfl⟩
  exact h

theorem walkRecs_reason (img : List Byte) (stop n off : Nat) (acc : List Rec) : ∀ e, walkRecs img stop n off acc = .error e → e.1 ≠ 0 := by
  induction n generalizing off acc with
  | zero => exact nofun
  | succ n ih =>
    unfold walkRecs
    exact error_ne_zero_ite nofun (error_ne_zero_ite (error_reason (by decide)) (error_ne_zero_ite (error_reason (by decide))
      (error_ne_zero_ite (error_reason (by decide)) (ih _ _))))

theorem checkOwn_reason (s : State) (img : List Byte) (am : Bool) : ∀ e, checkOwn s img none am = .error e → e.1 ≠ 0 := by
  unfold checkOwn checkImage
  refine error_ne_zero_ite (error_reason (by decide)) (error_ne_zero_ite (error_reason (by decide))
    (error_ne_zero_ite (error_reason (by decide)) ?_))
  split
  · exact error_reason (by decide)
  · refine error_ne_zero_ite (error_reason (by decide)) ?_
    split
    · exact error_reason (by decide)
    · exact error_ne_zero_ite (error_reason (by decide)) (error_ne_zero_ite (error_reason (by decide)) (walkRecs_reason _ _ _ _ _))

theorem amendFault_reason (img : List Byte) (rs : List Rec) (applied : Nat) (base : List Byte) (r : Nat)
    (h : amendFault img rs applied base = some r) : r ≠ 0 := by
  unfold amendFault at h
  split at h
  · cases h; decide
  · split at h
    · cases h; decide
    · split at h
      · cases h; decide
      · split at h
        · cases h; decide
        · split at h
          · cases h; decide
          · cases h

/-! ### Validation (R50) -/

theorem amendValidate_effect (s : State) (h : s.smp.amState = 1) :
    (∃ r, r ≠ 0 ∧ amendValidate s = amendReject r s) ∨
    (s.smp.amLatchFn + 8 ≤ getF s.smp.amImage 80 8 ∧ amendValidate s =
      smpEvent 1 0 (onSmp (fun m => { m with amState := 2, amFn := getF s.smp.amImage 80 8 }) s)) := by
  unfold amendValidate
  rw [if_neg (by rw [h]; simp)]
  dsimp only
  split
  next e he => exact .inl ⟨e.1, checkOwn_reason s _ true e he, rfl⟩
  next rs _ =>
    split
    next r hr => exact .inl ⟨r, amendFault_reason _ _ _ _ r hr, rfl⟩
    next =>
      split
      next => exact .inl ⟨16, by decide, rfl⟩
      next late => exact .inr ⟨Nat.le_of_not_lt late, rfl⟩

/-! ### The records of an amendment take effect (R52) -/

/-- What no part of `amendTake` behind its first step changes of the block. -/
def AmendKept (m n : Smp) : Prop := n.toPersist = m.toPersist ∧ n.amState = m.amState ∧ n.amAppliedAt = m.amAppliedAt ∧
  n.lastAmendFn = m.lastAmendFn ∧ n.amendCount = m.amendCount ∧ n.hash = m.hash ∧ n.amendHashes = m.amendHashes

theorem amendKept_refl (m : Smp) : AmendKept m m := ⟨rfl, rfl, rfl, rfl, rfl, rfl, rfl⟩
theorem amendKept_trans {m n o : Smp} (h : AmendKept m n) (k : AmendKept n o) : AmendKept m o := by
  obtain ⟨h1, h2, h3, h4, h5, h6, h7⟩ := h
  obtain ⟨k1, k2, k3, k4, k5, k6, k7⟩ := k
  exact ⟨k1.trans h1, k2.trans h2, k3.trans h3, k4.trans h4, k5.trans h5, k6.trans h6, k7.trans h7⟩

theorem addClamps_kept (es : List ClampEntry) (s : State) : AmendKept s.smp (addClamps es s).smp ∧
    (addClamps es s).smp.recs = s.smp.recs ∧ (addClamps es s).smp.sealApplied = s.smp.sealApplied := by
  unfold addClamps
  induction es generalizing s with
  | nil => exact ⟨amendKept_refl _, rfl, rfl⟩
  | cons e es ih => exact ih (addClamp s e)

/-- The block where a map takes force. -/
def takenSmp (base : List Rec) (sw : BitVec 64) (a : Applied) (m : Smp) : Smp :=
  { m with recs := base, lost := a.lost, pulseTimer := a.pulse, timers := timersOf a, landingFree := granulesFree a, sealApplied := sw,
           ents := a.ents }

theorem takeMap_kept (base : List Rec) (sw : BitVec 64) (a : Applied) (s : State) : AmendKept s.smp (takeMap base sw a s).smp ∧
    (takeMap base sw a s).smp.recs = base ∧ (takeMap base sw a s).smp.sealApplied = sw :=
  addClamps_kept (a.ents.diff s.smp.ents) (onSmp (takenSmp base sw a) s)

theorem refreshMap_kept (recs : List Rec) (sw : BitVec 64) (s : State) : AmendKept s.smp (refreshMap recs sw s).smp ∧
    (refreshMap recs sw s).smp.recs = recs ∧ (refreshMap recs sw s).smp.sealApplied = sw := by
  unfold refreshMap
  dsimp only
  generalize runPasses recs sw s.smp.lost s.smp.pulseTimer = a
  generalize keepGoing s.map (decodeMap a.recs) s.fl.hand = m
  exact takeMap_kept recs sw a { s with map := m }

/-- The first step of an amendment that applies. -/
def amendMarks (img : List Byte) (s : State) : State :=
  onSmp (fun m => { m with
    amState := 3, amAppliedAt := s.fn, amendCount := m.amendCount + 1, lastAmendFn := s.fn,
    amendHashes := m.amendHashes ++ [(img.drop 96).take 48], toPersist := m.toPersist ++ [img] }) s

/-- The map of an amendment in force. -/
def amendRefresh (img : List Byte) (recs : List Rec) (e1 : List ClampEntry) (s : State) : State :=
  refreshMap recs (amendMarks img s).smp.sealApplied (addClamps e1 (amendMarks img s))

theorem amendRefresh_kept (img : List Byte) (recs : List Rec) (e1 : List ClampEntry) (s : State) :
    AmendKept (amendMarks img s).smp (amendRefresh img recs e1 s).smp ∧ (amendRefresh img recs e1 s).smp.recs = recs ∧
    (amendRefresh img recs e1 s).smp.sealApplied = s.smp.sealApplied := by
  obtain ⟨kept, taken, sealed⟩ := refreshMap_kept recs (amendMarks img s).smp.sealApplied (addClamps e1 (amendMarks img s))
  exact ⟨amendKept_trans (addClamps_kept e1 (amendMarks img s)).1 kept, taken, sealed⟩

/-- The block with the hash of the map in force. -/
def hashedSmp (clamps : Smp → Nat) (m : Smp) : Smp := { m with activeHash := activeHashOf m, amClamps := clamps m }

theorem hashedSmp_kept (clamps : Smp → Nat) (m : Smp) : AmendKept m (hashedSmp clamps m) ∧ (hashedSmp clamps m).recs = m.recs ∧
    (hashedSmp clamps m).sealApplied = m.sealApplied ∧ (hashedSmp clamps m).activeHash = activeHashOf (hashedSmp clamps m) :=
  ⟨amendKept_refl m, rfl, rfl, rfl⟩

theorem markOff_kept (was : SiteMap) (u : State) : AmendKept u.smp (markOff was u).smp ∧ (markOff was u).smp.recs = u.smp.recs ∧
    (markOff was u).smp.sealApplied = u.smp.sealApplied := ⟨amendKept_refl _, rfl, rfl⟩

theorem setModems_smp (s : State) : (setModems s).smp = s.smp := by simp only [setModems]
theorem clearTallies_smp (rs : List Rec) (s : State) : (clearTallies rs s).smp = s.smp := by simp only [clearTallies]
theorem clearResiduals_smp (rs : List Rec) (s : State) : (clearResiduals rs s).smp = s.smp := by simp only [clearResiduals, onMet]

theorem clears_smp (rs : List Rec) (c : Prop) [Decidable c] (u : State) :
    (clearTallies rs (clearResiduals rs (if c then setModems u else u))).smp = u.smp := by
  rw [clearTallies_smp, clearResiduals_smp]
  split
  · rw [setModems_smp]
  · rfl

/-- What an amendment that applies counts as its clamps. -/
def clampsOf (e1 : List ClampEntry) (was : List ClampEntry) (m : Smp) : Nat := min 255 (e1.length + (m.ents.diff was).length)

theorem amendTake_eq (img : List Byte) (rs recs : List Rec) (e1 : List ClampEntry) (s : State) : amendTake img rs recs e1 s =
    clearTallies rs (clearResiduals rs (if rs.any fun r => r.typ = 4 then
        setModems (onSmp (hashedSmp (clampsOf e1 s.smp.ents)) (markOff s.map (amendRefresh img recs e1 s)))
      else onSmp (hashedSmp (clampsOf e1 s.smp.ents)) (markOff s.map (amendRefresh img recs e1 s)))) := rfl

theorem amendTake_smp (img : List Byte) (rs recs : List Rec) (e1 : List ClampEntry) (s : State) :
    AmendKept (amendMarks img s).smp (amendTake img rs recs e1 s).smp ∧ (amendTake img rs recs e1 s).smp.recs = recs ∧
    (amendTake img rs recs e1 s).smp.sealApplied = s.smp.sealApplied ∧
    (amendTake img rs recs e1 s).smp.activeHash = activeHashOf (amendTake img rs recs e1 s).smp := by
  rw [amendTake_eq, clears_smp]
  obtain ⟨kept, recs1, sealed1⟩ := amendRefresh_kept img recs e1 s
  generalize amendRefresh img recs e1 s = u at kept recs1 sealed1 ⊢
  obtain ⟨marked, recs2, sealed2⟩ := markOff_kept s.map u
  generalize markOff s.map u = v at marked recs2 sealed2 ⊢
  obtain ⟨hashed, recs3, sealed3, hash⟩ := hashedSmp_kept (clampsOf e1 s.smp.ents) v.smp
  exact ⟨amendKept_trans kept (amendKept_trans marked hashed), recs3.trans (recs2.trans recs1), sealed3.trans (sealed2.trans sealed1), hash⟩

/-! ### The firebreak takes its image (R330) -/

theorem tryHeld_smp (s : State) : (tryHeld s).smp = s.smp := by
  unfold tryHeld
  dsimp only
  split <;> rfl

theorem imgLoad_smp (s : State) : (imgLoad s).smp = s.smp := by
  unfold imgLoad
  dsimp only
  rw [tryHeld_smp]
  rfl

theorem fbkEval_smp (adv : Bool) (s : State) : (fbkEval adv s).smp = s.smp := (congrArg State.smp (fbkEval_evalFrame adv s).rest :)

theorem amendSend_smp (rs : List Rec) (s : State) : (amendSend rs s).smp = s.smp := by
  unfold amendSend
  split
  · rw [fbkEval_smp, imgLoad_smp]
  · rfl

/-! ### Applying (R52) -/

theorem amendReject_keeps (r : Nat) (s : State) : (amendReject r s).smp.amState = 5 ∧ (amendReject r s).smp.amReason = r ∧
    (amendReject r s).map = s.map ∧ (amendReject r s).smp.recs = s.smp.recs := ⟨rfl, rfl, rfl, rfl⟩

/-- The map that an amendment would give. -/
def amendTrial (raw : List Rec) (s : State) : SiteMap :=
  decodeMap (runPasses (mergeRecs s.smp.recs (amendRecs s.smp.amImage raw).1) s.smp.sealApplied s.smp.lost s.smp.pulseTimer).recs

theorem amendNow_error (s : State) (e : Nat × Nat) (h : checkOwn s s.smp.amImage none true = .error e) : amendNow s = amendReject e.1 s := by
  unfold amendNow
  dsimp only
  rw [h]

theorem amendNow_ok (s : State) (raw : List Rec) (h : checkOwn s s.smp.amImage none true = .ok raw) : amendNow s =
    if amendBusyMeter (amendRecs s.smp.amImage raw).1 s then amendReject 17 s
    else if amendMoves (amendRecs s.smp.amImage raw).1 (amendTrial raw s) s then amendReject 20 s
    else smpEvent 2 0 (amendSend (amendRecs s.smp.amImage raw).1 (amendTake s.smp.amImage (amendRecs s.smp.amImage raw).1
      (mergeRecs s.smp.recs (amendRecs s.smp.amImage raw).1) (amendRecs s.smp.amImage raw).2 s)) := by
  unfold amendNow
  dsimp only
  rw [h]
  rfl

theorem smpEvent_smp (b data : Nat) (s : State) :
    (smpEvent b data s).smp = { s.smp with intStatus := setBit s.smp.intStatus b } := rfl

theorem amendTaken (img : List Byte) (rs recs : List Rec) (e1 : List ClampEntry) (s : State) (m : Smp)
    (h : m = (smpEvent 2 0 (amendSend rs (amendTake img rs recs e1 s))).smp) : m.toPersist = s.smp.toPersist ++ [img] ∧
    m.amState = 3 ∧ m.amAppliedAt = s.fn ∧ m.lastAmendFn = s.fn ∧ m.amendCount = s.smp.amendCount + 1 ∧ m.recs = recs ∧
    m.sealApplied = s.smp.sealApplied ∧ m.activeHash = activeHashOf m ∧ m.hash = s.smp.hash := by
  rw [smpEvent_smp, amendSend_smp] at h
  obtain ⟨⟨persist, state, at_, last, count, hash, -⟩, recs', sealed, active⟩ := amendTake_smp img rs recs e1 s
  generalize (amendTake img rs recs e1 s).smp = n at *
  subst h
  exact ⟨persist, state, at_, last, count, recs', sealed, active, hash⟩

theorem exec_amendApply (s : State) (hc : s.isl.ctl = true) (h : amendDue s = true) : exec .amendApply s = .next (amendNow s) := by
  show execAmendApply s = _
  rw [execAmendApply, whenOn_on s hc, if_pos h]

theorem amendDue_of (s : State) (h : amendDue s = true) : s.smp.amState = 2 ∧ s.smp.amFn ≤ s.fn := by
  unfold amendDue at h
  simp only [Bool.and_eq_true, decide_eq_true_eq] at h
  exact h.1

/-! ### Submissions (R51) and persistence (R52) -/

theorem latchRead_clean (a n : Nat) (f : List Byte → State → State) (s : State) (h : lndBad a n s = []) :
    latchRead a n f s = f (lndRead a n s) s := by
  unfold latchRead
  simp only [lndPoison, eccRead, h, List.any_nil, List.foldl_nil, Bool.false_eq_true, ↓reduceIte]

theorem exec_amendSubmit_busy (s : State) (hc : s.isl.ctl = true) (h : amendBusy s = true) :
    exec .amendSubmit s = .next (refuse 0x100A0 s) := by
  show execAmendSubmit s = _
  rw [execAmendSubmit, whenOn_on s hc, if_pos h]

theorem exec_amendSubmit (s : State) (hc : s.isl.ctl = true) (h : amendBusy s = false) (hb : lndBad stagingBase s.smp.amendLen.toNat s = []) :
    exec .amendSubmit s = .next (amendImage (lndRead stagingBase s.smp.amendLen.toNat s) (amendSubmit s)) := by
  show execAmendSubmit s = _
  rw [execAmendSubmit, whenOn_on s hc, if_neg (by rw [h]; simp), latchRead_clean _ _ _ s hb]

theorem amendPersist_of (img : List Byte) (rest : List (List Byte)) (s : State) (h : s.smp.toPersist = img :: rest) : amendPersist s =
    smpEvent 3 0 (onSmp (fun m => { m with toPersist := rest, amState := if m.amState = 3 && rest = [] then 4 else m.amState })
      { s with flash := { s.flash with chainA := s.flash.chainA ++ [img], chainB := s.flash.chainB ++ [img] } }) := by
  unfold amendPersist
  rw [h]

/-- The chain areas after an amendment stands in both. -/
def chained (img : List Byte) (f : FlashMap) : FlashMap := { f with chainA := f.chainA ++ [img], chainB := f.chainB ++ [img] }

theorem smpEvent_chained (b : Nat) (g : Smp → Smp) (f : FlashMap) (s : State) :
    (smpEvent b 0 (onSmp g { s with flash := f })).flash = f ∧
    smpEvent b 0 (onSmp g { s with flash := f }) = { s with
      smp := (smpEvent b 0 (onSmp g { s with flash := f })).smp, flash := f, evs := (smpEvent b 0 (onSmp g { s with flash := f })).evs } :=
  ⟨rfl, rfl⟩

theorem amendPersist_effect (img : List Byte) (rest : List (List Byte)) (s : State) (h : s.smp.toPersist = img :: rest) :
    (amendPersist s).smp.toPersist = rest ∧
    (amendPersist s).smp.amState = (if s.smp.amState = 3 ∧ rest = [] then 4 else s.smp.amState) ∧
    (amendPersist s).flash = chained img s.flash ∧ (amendPersist s).smp.intStatus = setBit s.smp.intStatus 3 ∧
    amendPersist s = { s with smp := (amendPersist s).smp, flash := (amendPersist s).flash, evs := (amendPersist s).evs } := by
  rw [amendPersist_of img rest s h, ← chained, smpEvent_smp]
  obtain ⟨flash, frame⟩ := smpEvent_chained 3 (fun m => { m with toPersist := rest, amState := if m.amState = 3 && rest = [] then 4 else m.amState })
    (chained img s.flash) s
  rw [flash]
  refine ⟨rfl, ?_, rfl, rfl, frame⟩
  show (if (decide (s.smp.amState = 3) && decide (rest = [])) = true then 4 else s.smp.amState) = _
  simp only [Bool.and_eq_true, decide_eq_true_eq]

theorem amendPersist_none (s : State) (h : s.smp.toPersist = []) : amendPersist s = s := by
  unfold amendPersist
  rw [h]

/-! ### Flash writes (R54) -/

/-- The image that a flash write checks. -/
def flashImage (s : State) : List Byte := lndRead stagingBase (min s.smp.flashLen.toNat 0x100000) s

theorem flashWrite_of (b : Bool) (s : State) (h : s.smp.flashState ≠ 1) (hb : lndBad stagingBase (min s.smp.flashLen.toNat 0x100000) s = []) :
    (∀ e, checkOwn s (flashImage s) none false = .error e → flashWrite b s =
      smpEvent 5 e.1 (onSmp (fun m => { m with flashState := 3, flashReason := e.1 }) s)) ∧
    (∀ raw, checkOwn s (flashImage s) none false = .ok raw → flashWrite b s = { s with
      smp := { s.smp with flashState := 1, flashReason := 0 },
      flash := if b then { s.flash with writing := some b, image := flashImage s, copyB := [], chainB := [] }
        else { s.flash with writing := some b, image := flashImage s, copyA := [], chainA := [] } }) := by
  have clean : eccRead stagingBase (min s.smp.flashLen.toNat 0x100000) s = s := by
    rw [eccRead, hb, List.foldl_nil]
  unfold flashWrite
  rw [if_neg h]
  dsimp only
  rw [clean, ← flashImage]
  refine ⟨fun e he => ?_, fun raw hr => ?_⟩
  · rw [he]
  · rw [hr]
    rfl

/-- The end of a flash write: the areas as given, and the state of the write. -/
def flashEnd (f : FlashMap) (ok : Bool) (s : State) : State :=
  smpEvent 5 0 (onSmp (fun m => { m with flashState := if ok then 2 else 3, flashReason := if ok then 0 else 1 }) { s with flash := f })

theorem flashEnd_effect (f : FlashMap) (ok : Bool) (s : State) : (flashEnd f ok s).flash = f ∧
    (flashEnd f ok s).smp.flashState = (if ok then 2 else 3) ∧ (flashEnd f ok s).map = s.map ∧
    (flashEnd f ok s).smp.recs = s.smp.recs := ⟨rfl, rfl, rfl, rfl⟩

theorem flashDone_of (ok b : Bool) (s : State) (h : s.flash.writing = some b) : flashDone ok s =
    flashEnd { s.flash with
      writing := none, image := [], copyA := if b then s.flash.copyA else if ok then s.flash.image else [],
      copyB := if b then if ok then s.flash.image else [] else s.flash.copyB } ok s := by
  unfold flashDone
  rw [h]
  rfl

theorem flashDone_A (ok : Bool) (s : State) (h : s.flash.writing = some false) : (flashDone ok s).flash.writing = none ∧
    (flashDone ok s).flash.copyA = (if ok then s.flash.image else []) ∧ (flashDone ok s).flash.copyB = s.flash.copyB ∧
    (flashDone ok s).flash.chainB = s.flash.chainB ∧ (flashDone ok s).smp.flashState = (if ok then 2 else 3) ∧
    (flashDone ok s).map = s.map ∧ (flashDone ok s).smp.recs = s.smp.recs := by
  obtain ⟨flash, rest⟩ := flashEnd_effect _ ok s
  rw [flashDone_of ok false s h, flash]
  exact ⟨rfl, rfl, rfl, rfl, rest⟩

theorem flashDone_B (ok : Bool) (s : State) (h : s.flash.writing = some true) : (flashDone ok s).flash.writing = none ∧
    (flashDone ok s).flash.copyB = (if ok then s.flash.image else []) ∧ (flashDone ok s).flash.copyA = s.flash.copyA ∧
    (flashDone ok s).flash.chainA = s.flash.chainA ∧ (flashDone ok s).smp.flashState = (if ok then 2 else 3) ∧
    (flashDone ok s).map = s.map ∧ (flashDone ok s).smp.recs = s.smp.recs := by
  obtain ⟨flash, rest⟩ := flashEnd_effect _ ok s
  rw [flashDone_of ok true s h, flash]
  exact ⟨rfl, rfl, rfl, rfl, rest⟩

/-- Settles O51, clause by clause; an amendment that applies by `amendTaken`. -/
theorem amendmentsAndFlash : Obligations.AmendmentsAndFlash := by
  unfold Obligations.AmendmentsAndFlash
  refine ⟨fun s hc hb => ⟨_, exec_amendSubmit_busy s hc hb, rfl, rfl, rfl, rfl⟩, fun s hc hb hl => ⟨_, exec_amendSubmit s hc hb hl, ?_⟩,
    fun s hc h => ⟨_, whenOn_on s hc, ?_⟩, fun s h => whenOn_id (if_pos h), fun s hc h2 hf => ⟨?_, ?_⟩, fun s h => whenOn_id (if_neg ?_),
    fun s hc hd => ⟨_, exec_amendApply s hc hd, fun e he => ?_, fun raw hr => ?_⟩, fun img rest s hc h => ⟨_, whenOn_on s hc, ?_⟩,
    fun s h => whenOn_id (amendPersist_none s h), fun s hc h hb => ⟨_, _, whenOn_on s hc, whenOn_on s hc, fun raw hr => ?_, fun e he => ?_⟩,
    fun ok s hc h => ⟨_, whenOn_on s hc, flashDone_A ok s h⟩, fun ok s hc h => ⟨_, whenOn_on s hc, flashDone_B ok s h⟩,
    fun v s hc => whenOn_on s hc⟩
  · rw [amendSubmit, if_neg (by rw [hb]; simp)]
    exact ⟨rfl, rfl, rfl, rfl, rfl⟩
  · rcases amendValidate_effect s h with ⟨r, hr, rejected⟩ | ⟨late, scheduled⟩
    · rw [rejected]
      exact ⟨.inr ⟨rfl, hr⟩, nofun, rfl, rfl, rfl⟩
    · rw [scheduled]
      exact ⟨.inl rfl, fun _ => ⟨rfl, late⟩, rfl, rfl, rfl⟩
  · show whenOn s.isl.ctl s amendCancel = _
    rw [whenOn_on s hc, amendCancel, if_pos (by rw [h2]; simp [hf])]
    rfl
  · refine whenOn_id (if_neg fun due => ?_)
    have := (amendDue_of s due).2
    omega
  · simp only [Bool.and_eq_true, decide_eq_true_eq]
    omega
  · rw [amendNow_error s e he]
    exact amendReject_keeps e.1 s
  · rw [amendNow_ok s raw hr]
    refine ⟨fun busy => ?_, fun free moves => ?_, fun free stays => ?_⟩
    · rw [if_pos busy]
      exact amendReject_keeps 17 s
    · rw [← amendTrial] at moves
      rw [if_neg (by rw [free]; simp), if_pos moves]
      exact amendReject_keeps 20 s
    · rw [← amendTrial] at stays
      rw [if_neg (by rw [free]; simp), if_neg (by rw [stays]; simp)]
      exact amendTaken _ _ _ _ s _ rfl
  · exact amendPersist_effect img rest s h
  · rw [(flashWrite_of false s h hb).2 raw hr, (flashWrite_of true s h hb).2 raw hr]
    exact ⟨rfl, rfl⟩
  · rw [(flashWrite_of false s h hb).1 e he, (flashWrite_of true s h hb).1 e he]
    exact ⟨rfl, rfl, rfl, rfl, rfl, rfl⟩

end Sys2Proof.Machine
end

section
/-! Tandem operation (chapter 11): the link of the pair and its packets (O52). -/

namespace Sys2Proof.Machine

/-! ### The link (R282) -/

theorem tdmEvent_onTdm (b data : Nat) (f : Tdm → Tdm) (s : State) :
    (tdmEvent b data (onTdm f s)).tdm = { f s.tdm with intStatus := setBit (f s.tdm).intStatus b } ∧
    tdmEvent b data (onTdm f s) = { s with tdm := (tdmEvent b data (onTdm f s)).tdm, evs := (tdmEvent b data (onTdm f s)).evs } := ⟨rfl, rfl⟩

theorem exec_linkTraining (s : State) (hc : s.isl.ctl = true) (hm : s.map.tandem.linkMode ≠ 0) (hl : s.tdm.linkUp = false) :
    exec .linkTraining s = .next (tdmEvent 7 0 (onTdm (fun t => { t with linkUp := true }) s)) := by
  show execLinkTraining s = _
  rw [execLinkTraining, whenOn_on s hc, if_neg (by simp [hm, hl])]

theorem exec_tandemLinkDown (s : State) (hc : s.isl.ctl = true) (hl : s.tdm.linkUp = true) :
    exec .tandemLinkDown s = .next (tdmEvent 6 0 (onTdm (fun t => { t with linkUp := false, timeLock := false }) s)) := by
  show execTandemLinkDown s = _
  rw [execTandemLinkDown, whenOn_on s hc, if_pos hl]

/-! ### Markers and boundaries (R283, R284) -/

/-- The correction of a boundary by a marker (R284). -/
def timeCorr (a : Int) (t : Tdm) : Int := a - (t.rtt / 2 : Nat)

/-- The package sets its boundary from the lead's markers. -/
def timeFollows (t : Tdm) : Bool := t.st = .follow || t.st = .sync || t.st = .reseed

theorem timeStep_eq (m : Marker) (a : Int) (t : Tdm) : timeStep m a t =
    if !m.lead || !timeFollows t then t
    else if t.timeLock && decide (400 < (timeCorr a t).natAbs) then { t with lockErr := t.lockErr + 1 }
    else { t with timeLock := true, skew := timeCorr a t } := rfl

theorem timeFollows_of {t : Tdm} (h : t.st = .follow ∨ t.st = .sync ∨ t.st = .reseed) : timeFollows t = true := by
  rcases h with h | h | h <;> rw [timeFollows, h] <;> rfl

theorem timeStep_sets (m : Marker) (a : Int) (t : Tdm) (hm : m.lead = true) (ht : t.st = .follow ∨ t.st = .sync ∨ t.st = .reseed)
    (h : t.timeLock = false ∨ (timeCorr a t).natAbs ≤ 400) : timeStep m a t = { t with timeLock := true, skew := timeCorr a t } := by
  rw [timeStep_eq, hm, timeFollows_of ht, if_neg (by simp)]
  refine if_neg ?_
  rcases h with h | h
  · simp [h]
  · simp [Nat.not_lt.mpr h]

theorem timeStep_refuses (m : Marker) (a : Int) (t : Tdm) (hm : m.lead = true) (ht : t.st = .follow ∨ t.st = .sync ∨ t.st = .reseed)
    (hl : t.timeLock = true) (h : 400 < (timeCorr a t).natAbs) : timeStep m a t = { t with lockErr := t.lockErr + 1 } := by
  rw [timeStep_eq, hm, timeFollows_of ht, if_neg (by simp)]
  exact if_pos (by simp [hl, h])

theorem timeStep_none (m : Marker) (a : Int) (t : Tdm) (h : m.lead = false ∨ (t.st ≠ .follow ∧ t.st ≠ .sync ∧ t.st ≠ .reseed)) :
    timeStep m a t = t := by
  refine (timeStep_eq m a t).trans (if_pos ?_)
  rcases h with h | ⟨h1, h2, h3⟩
  · simp [h]
  · simp [timeFollows, h1, h2, h3]

/-- A marker is taken: for the frame near the own boundary, or any while the package has no common FN (R283). -/
def MarkerFits (m : Marker) (a : Int) (s : State) : Prop := (m.fn = s.fn ∧ a ≤ 5000) ∨ s.tdm.st = .wait ∨ s.tdm.st = .isolated

theorem markerFits_iff (m : Marker) (a : Int) (s : State) :
    (s.tdm.linkUp && ((m.fn = s.fn && decide (a ≤ 5000)) || s.tdm.st = .wait || s.tdm.st = .isolated)) = true ↔
      s.tdm.linkUp = true ∧ MarkerFits m a s := by
  simp [MarkerFits, or_assoc]

theorem exec_markerReceive (m : Marker) (a : Int) (s : State) (hc : s.isl.ctl = true) (hl : s.tdm.linkUp = true) (h : MarkerFits m a s) :
    exec (.markerReceive ⟨m, a⟩) s = .next { s with tdm := timeStep m a { s.tdm with got := some m, everMarker := true } } :=
  (whenOn_on s hc).trans (congrArg _ (if_pos ((markerFits_iff m a s).mpr ⟨hl, h⟩)))

theorem exec_markerReceive_left (m : Marker) (a : Int) (s : State) (h : s.tdm.linkUp = false ∨ ¬ MarkerFits m a s) :
    exec (.markerReceive ⟨m, a⟩) s = .next s := by
  refine whenOn_id (if_neg fun fits => ?_)
  obtain ⟨up, fit⟩ := (markerFits_iff m a s).mp fits
  exact h.elim (fun down => absurd (down.symm.trans up) Bool.false_ne_true) fun no => no fit

theorem exec_markerMissing (s : State) (hc : s.isl.ctl = true) (hs : s.tdm.st ≠ .single) (hg : s.tdm.got = none) (hm : s.tdm.missNow = false) :
    exec .markerMissing s =
      .next { s with tdm := { s.tdm with missNow := true, missRun := s.tdm.missRun + 1, cMiss := s.tdm.cMiss + 1 } } := by
  show execMarkerMissing s = _
  rw [execMarkerMissing, whenOn_on s hc, if_neg (by rw [hg]; simp [hs]), countMissing, if_neg (by rw [hm]; simp)]
  rfl

theorem exec_markerMissing_none (s : State) (h : s.tdm.st = .single ∨ s.tdm.got ≠ none ∨ s.tdm.missNow = true) :
    exec .markerMissing s = .next s := by
  show execMarkerMissing s = _
  refine whenOn_id ?_
  rw [← Option.isSome_iff_ne_none] at h
  rcases h with h | h | h
  · exact if_pos (by simp [h])
  · exact if_pos (by simp [h])
  · rw [countMissing, if_pos h]
    exact ite_self s

/-! ### Heartbeats (R292) -/

theorem bit_le (b : Bool) : bit b ≤ 1 := by cases b <;> decide

theorem decide_bit (b : Bool) : decide (bit b = 1) = b := by cases b <;> rfl

theorem code_le (x : TSt) : x.code ≤ 7 := by cases x <;> decide

/-- The bits of a byte of six fields: two flags, a state of three bits, three flags. -/
theorem flagByte_bits {a b c d e f : Nat} (ha : a ≤ 1) (hb : b ≤ 1) (hc : c ≤ 7) (hd : d ≤ 1) (he : e ≤ 1) (hf : f ≤ 1) :
    (a + 2 * b + 4 * c + 32 * d + 64 * e + 128 * f).testBit 0 = decide (a = 1) ∧
    (a + 2 * b + 4 * c + 32 * d + 64 * e + 128 * f).testBit 1 = decide (b = 1) ∧
    (a + 2 * b + 4 * c + 32 * d + 64 * e + 128 * f).testBit 5 = decide (d = 1) ∧
    (a + 2 * b + 4 * c + 32 * d + 64 * e + 128 * f).testBit 6 = decide (e = 1) ∧
    (a + 2 * b + 4 * c + 32 * d + 64 * e + 128 * f).testBit 7 = decide (f = 1) := by
  simp only [Nat.testBit_eq_decide_div_mod_eq, decide_eq_decide]
  omega

theorem hbByte_bits (s : State) : (hbByte s).getLsbD 0 = s.tdm.identity ∧ (hbByte s).getLsbD 1 = isLead s ∧
    (hbByte s).getLsbD 5 = s.tdm.ownFault ∧ (hbByte s).getLsbD 6 = s.tdm.claim ∧ (hbByte s).getLsbD 7 = s.tdm.grant := by
  have bits := flagByte_bits (bit_le s.tdm.identity) (bit_le (isLead s)) (code_le s.tdm.st) (bit_le s.tdm.ownFault) (bit_le s.tdm.claim)
    (bit_le s.tdm.grant)
  simp only [decide_bit] at bits
  simp only [hbByte, BitVec.getLsbD_ofNat, Nat.reduceLT, decide_true, Bool.true_and]
  exact bits

/-- The heartbeat of a frame. -/
def heartbeatOf (s : State) : Heartbeat := { byte0 := hbByte s, fn := BitVec.ofNat 32 s.fn, missed := s.tdm.cMiss }

theorem exec_heartbeatSend (k : CanIx) (s : State) (hc : s.isl.ctl = true) (hk : hbBus s = some k) :
    exec .heartbeatSend s = .next { s with tdm := { s.tdm with hbSent := some (heartbeatOf s) } } := by
  show execHeartbeatSend s = _
  rw [execHeartbeatSend, whenOn_on s hc, if_pos (by rw [hk]; rfl)]
  rfl

theorem exec_heartbeatReceive (h : Heartbeat) (k : CanIx) (s : State) (hc : s.isl.ctl = true) (hk : hbBus s = some k) :
    exec (.heartbeatReceive h) s = .next { s with tdm := { s.tdm with hb := some h, hbLast := some h } } := by
  show execHeartbeatReceive h s = _
  rw [execHeartbeatReceive, whenOn_on s hc, if_pos (by rw [hk]; rfl)]
  rfl

/-! ### Packets (R285 to R287) -/

/-- A snapshot received stays out: one is held already, or a joiner's bulk data are not complete. -/
def snapStays (s : State) : Bool :=
  match s.tdm.st with
  | .reseed => s.tdm.snap.isSome
  | .sync => s.tdm.snap.isSome || !s.tdm.bulkDone
  | _ => false

theorem exec_snapPacket (n : Nat) (x : Snap) (s : State) (hc : s.isl.ctl = true) (hl : s.tdm.linkUp = true) (hi : isLead s = false) :
    exec (.snapPacket n x) s = .next { s with tdm := { s.tdm with
      snap := if snapStays s then s.tdm.snap else some { x with fn := n }, bytesIn := s.tdm.bytesIn + snapLen { x with fn := n } } } := by
  show execSnapPacket n x s = _
  rw [execSnapPacket, whenOn_on s hc, if_pos (by rw [hl, hi]; rfl)]
  rfl

theorem snapStays_free (s : State) (hr : s.tdm.st ≠ .reseed) (hs : s.tdm.st ≠ .sync) : snapStays s = false := by
  unfold snapStays
  split
  next h => exact absurd h hr
  next h => exact absurd h hs
  next => rfl

theorem snapStays_held (s : State) (hs : s.tdm.st = .reseed ∨ s.tdm.st = .sync) (held : s.tdm.snap.isSome = true) : snapStays s = true := by
  rcases hs with hs | hs <;> simp [snapStays, hs, held]

theorem snapStays_reseed (s : State) (hs : s.tdm.st = .reseed) (free : s.tdm.snap = none) : snapStays s = false := by
  simp [snapStays, hs, free]

theorem snapStays_sync (s : State) (hs : s.tdm.st = .sync) (free : s.tdm.snap = none) : snapStays s = !s.tdm.bulkDone := by
  simp [snapStays, hs, free]

/-- What a package that takes a copy makes of the snapshot. -/
theorem snapPacket_effect (n : Nat) (x : Snap) (s : State) (hc : s.isl.ctl = true) (hl : s.tdm.linkUp = true) (hi : isLead s = false) :
    ∃ t, exec (.snapPacket n x) s = .next t ∧
      t = { s with tdm := { s.tdm with snap := t.tdm.snap, bytesIn := s.tdm.bytesIn + snapLen { x with fn := n } } } ∧
      (s.tdm.st ≠ .reseed → s.tdm.st ≠ .sync → t.tdm.snap = some { x with fn := n }) ∧
      (s.tdm.st = .reseed ∨ s.tdm.st = .sync → s.tdm.snap.isSome = true → t.tdm.snap = s.tdm.snap) ∧
      (s.tdm.st = .reseed → s.tdm.snap = none → t.tdm.snap = some { x with fn := n }) ∧
      (s.tdm.st = .sync → s.tdm.snap = none → t.tdm.snap = if s.tdm.bulkDone then some { x with fn := n } else none) := by
  refine ⟨_, exec_snapPacket n x s hc hl hi, rfl, fun hr hs => if_neg (by rw [snapStays_free s hr hs]; simp),
    fun hs held => if_pos (snapStays_held s hs held), fun hs free => if_neg (by rw [snapStays_reseed s hs free]; simp), fun hs free => ?_⟩
  dsimp only
  rw [snapStays_sync s hs free, free]
  cases s.tdm.bulkDone <;> rfl

theorem exec_protoPacket (fn : Nat) (p : Proto) (s : State) (hc : s.isl.ctl = true) (hl : s.tdm.linkUp = true) (hi : isLead s = false) :
    exec (.protoPacket fn p) s = .next (takeProto p { s with tdm := { s.tdm with
      proto := some (fn, p), bytesIn := s.tdm.bytesIn + protoLen p } }) := by
  show execProtoPacket fn p s = _
  rw [execProtoPacket, whenOn_on s hc, if_pos (by rw [hl, hi]; rfl)]
  rfl

theorem ownSounds_kept (s : State) (r : SlacRun) : (ownSounds s r).mac = r.mac ∧ (ownSounds s r).runId = r.runId ∧
    (ownSounds s r).bound = r.bound ∧ (ownSounds s r).cands = r.cands := by
  unfold ownSounds
  split <;> exact ⟨rfl, rfl, rfl, rfl⟩

theorem takeProto_run (p : Proto) (s : State) (r : SlacRun) (h : r ∈ p.runs) :
    ∃ q ∈ (takeProto p s).slac, q.mac = r.mac ∧ q.runId = r.runId ∧ q.bound = r.bound ∧ q.cands = r.cands :=
  ⟨ownSounds s r, List.mem_append_left _ (List.mem_map_of_mem h), ownSounds_kept s r⟩

/-- A port with the protocol state of a copy. -/
def portOf (x : ProtoPort) (v : Vlk) : Vlk :=
  { v with matched := x.matched, nmk := x.nmk, tcp := x.tcp, tls := x.tls, session := x.session, layer := x.layer, sdp := x.sdp }

theorem takeProto_vlk (p : Proto) (s : State) : (takeProto p s).vlk = Vec.mapIx s.vlk fun o v => portOf p.ports[o] v := rfl

theorem takeProto_port (p : Proto) (s : State) (o : OutIx) : (takeProto p s).vlk[o] = portOf p.ports[o] s.vlk[o] := by
  rw [takeProto_vlk, mapIx_get]

theorem takeProto_frame (p : Proto) (s : State) : takeProto p s = { s with vlk := (takeProto p s).vlk, slac := (takeProto p s).slac } := rfl

/-- What a package that holds a copy makes of the PROTO packet. -/
theorem protoPacket_effect (fn : Nat) (p : Proto) (s : State) (hc : s.isl.ctl = true) (hl : s.tdm.linkUp = true) (hi : isLead s = false) :
    ∃ t, exec (.protoPacket fn p) s = .next t ∧
      t = { s with
        vlk := t.vlk, slac := t.slac, tdm := { s.tdm with proto := some (fn, p), bytesIn := s.tdm.bytesIn + protoLen p } } ∧
      (∀ o : OutIx, t.vlk[o] = portOf p.ports[o] s.vlk[o]) ∧
      ∀ r ∈ p.runs, ∃ q ∈ t.slac, q.mac = r.mac ∧ q.runId = r.runId ∧ q.bound = r.bound ∧ q.cands = r.cands :=
  ⟨_, exec_protoPacket fn p s hc hl hi, takeProto_frame p _, takeProto_port p _, takeProto_run p _⟩

theorem not_held {s : State} (h : isLead s = true ∨ s.tdm.linkUp = false) : ¬ (s.tdm.linkUp && !isLead s) = true := by
  rcases h with h | h <;> simp [h]

theorem exec_packets_left (x : Snap) (fn : Nat) (p : Proto) (s : State) (h : isLead s = true ∨ s.tdm.linkUp = false) :
    exec (.snapPacket fn x) s = .next s ∧ exec (.protoPacket fn p) s = .next s :=
  ⟨show execSnapPacket fn x s = _ from whenOn_id (if_neg (not_held h)), show execProtoPacket fn p s = _ from whenOn_id (if_neg (not_held h))⟩

theorem exec_insetPacket (i : InputSet) (s : State) (hc : s.isl.ctl = true) (hl : s.tdm.linkUp = true)
    (h : isLead s = false ∨ s.tdm.oldSets ≠ 0) : exec (.insetPacket i) s = .next { s with tdm := { s.tdm with inset := some i } } := by
  show execInsetPacket i s = _
  rw [execInsetPacket, whenOn_on s hc, if_pos (by rcases h with h | h <;> simp [hl, h])]
  rfl

theorem exec_insetPacket_left (i : InputSet) (s : State) (h : isLead s = true ∨ s.tdm.linkUp = false)
    (ho : s.tdm.oldSets = 0 ∨ s.tdm.linkUp = false) : exec (.insetPacket i) s = .next s := by
  show execInsetPacket i s = _
  refine whenOn_id (if_neg ?_)
  rcases h with h | h
  · rcases ho with ho | ho <;> simp [h, ho]
  · simp [h]

/-! ### What goes out (R17, R21, R285) -/

/-- What goes out besides the bulk data is as before. -/
def SentKept (s t : State) : Prop := t.tdm.sentSnap = s.tdm.sentSnap ∧ t.tdm.sentProto = s.tdm.sentProto ∧ t.tdm.sentPair = s.tdm.sentPair

theorem bulkStep_sent (s : State) : SentKept s (bulkStep s) :=
  ite_rel (R := SentKept) _ ⟨rfl, rfl, rfl⟩ (ite_rel (R := SentKept) _ ⟨rfl, rfl, rfl⟩ ⟨rfl, rfl, rfl⟩)

theorem tdmSend_sent (n : Nat) (x : Snap) (s : State) : (tdmSend n x s).tdm.sentSnap = (if s.tdm.linkUp && s.tdm.st = .lead then some x else none) ∧
    (tdmSend n x s).tdm.sentProto = (if s.tdm.linkUp && s.tdm.st = .lead then some (protoOf s) else none) ∧
    (tdmSend n x s).tdm.sentPair = (if s.tdm.linkUp && (s.tdm.st = .wait || s.tdm.st = .isolated || s.tdm.st = .sync || s.tdm.st = .lead) then
      some (ownPair s) else none) := by
  unfold tdmSend
  exact bulkStep_sent _

/-! ### Pairing (R278, R297) -/

/-- The straps of both packages, and the package of the lower serial where they agree (R278). -/
def pairStraps (p : PairInfo) (s : State) : State :=
  onTdm (fun t => { t with
    pair := some p, strapConflict := p.identity = !s.tdm.strapHigh,
    identity := if p.identity = !s.tdm.strapHigh then !decide (s.otp.serial.toNat < p.serial.toNat) else !s.tdm.strapHigh }) s

/-- The check of a pair, from what it does not change. -/
theorem pairCheck_straps (p : PairInfo) (s : State) : pairCheck p (pairStraps p s) = pairCheck p s := rfl

/-- The bits of the check in the block. -/
def pairChecked (p : PairInfo) (s : State) : State := onTdm (fun t => { t with pairBits := pairCheck p s }) (pairStraps p s)

theorem pairIn_eq (p : PairInfo) (s : State) (hl : s.tdm.linkUp = true) : pairIn p s = match pairReason (pairCheck p s) with
    | some r => if s.tdm.st = .wait || s.tdm.st = .sync then
        onTdm (fun t => { t with pend := some (.isolated, r) }) (tdmEvent 8 r (pairChecked p s)) else pairChecked p s
    | none => pairChecked p s := by
  unfold pairIn
  rw [if_neg (by rw [hl]; simp)]
  rfl

theorem pairChecked_fields (p : PairInfo) (s : State) : (pairChecked p s).tdm.pair = some p ∧
    (p.identity = s.tdm.strapHigh → (pairChecked p s).tdm.identity = (!s.tdm.strapHigh) ∧ (pairChecked p s).tdm.strapConflict = false) ∧
    (p.identity ≠ s.tdm.strapHigh → (pairChecked p s).tdm.strapConflict = true ∧
      ((pairChecked p s).tdm.identity = false ↔ s.otp.serial.toNat < p.serial.toNat)) ∧
    (pairChecked p s).tdm.pairBits = pairCheck p s := by
  have conflict : (pairChecked p s).tdm.strapConflict = decide (p.identity = !s.tdm.strapHigh) := rfl
  have identity : (pairChecked p s).tdm.identity =
      if p.identity = !s.tdm.strapHigh then !decide (s.otp.serial.toNat < p.serial.toNat) else !s.tdm.strapHigh := rfl
  rw [conflict, identity]
  refine ⟨rfl, fun same => ?_, fun differ => ?_, rfl⟩
  · rw [same, if_neg (by simp)]
    exact ⟨rfl, by simp⟩
  · rw [Bool.eq_not_of_ne differ, if_pos rfl]
    simp

theorem pairReason_hash (p : PairInfo) (s : State) (h : hashBytes p.hash ≠ ownHash s) : pairReason (pairCheck p s) = some 1 := by
  have low : (pairCheck p s).getLsbD 0 = false := by
    unfold pairCheck
    rw [decide_eq_false h]
    simp only [BitVec.getLsbD_ofNat, Nat.reduceLT, decide_true, Bool.true_and, Nat.testBit_eq_decide_div_mod_eq, bit, decide_eq_false_iff_not,
      Bool.false_eq_true, if_false, Nat.pow_zero, Nat.div_one]
    omega
  unfold pairReason
  rw [List.findSome?_cons, low]
  rfl

theorem pairEvent_frame (r : Nat) (s : State) : onTdm (fun t => { t with pend := some (.isolated, r) }) (tdmEvent 8 r s) =
    { s with tdm := { s.tdm with intStatus := setBit s.tdm.intStatus 8, pend := some (.isolated, r) },
             evs := s.evs ++ [{ rank := 3, code := 9, data := r }] } := rfl

/-- A pair received leaves the block with its check, or with the isolation that the check asks for. -/
theorem pairIn_cases (p : PairInfo) (s : State) (hl : s.tdm.linkUp = true) : pairIn p s = pairChecked p s ∨
    ∃ r, pairIn p s = onTdm (fun t => { t with pend := some (.isolated, r) }) (tdmEvent 8 r (pairChecked p s)) := by
  rw [pairIn_eq p s hl]
  split
  next r _ =>
    split
    next => exact .inr ⟨r, rfl⟩
    next => exact .inl rfl
  next => exact .inl rfl

theorem pairIn_hash (p : PairInfo) (s : State) (hl : s.tdm.linkUp = true) (hh : hashBytes p.hash ≠ ownHash s)
    (hs : s.tdm.st = .wait ∨ s.tdm.st = .sync) : (pairIn p s).tdm.pend = some (.isolated, 1) := by
  rw [pairIn_eq p s hl, pairReason_hash p s hh]
  dsimp only
  rw [if_pos (by simpa using hs)]
  rfl

theorem pairIn_effect (p : PairInfo) (s : State) (hl : s.tdm.linkUp = true) : (pairIn p s).tdm.pair = some p ∧
    (p.identity = s.tdm.strapHigh → (pairIn p s).tdm.identity = (!s.tdm.strapHigh) ∧ (pairIn p s).tdm.strapConflict = false) ∧
    (p.identity ≠ s.tdm.strapHigh → (pairIn p s).tdm.strapConflict = true ∧
      ((pairIn p s).tdm.identity = false ↔ s.otp.serial.toNat < p.serial.toNat)) ∧
    (pairIn p s).tdm.pairBits = pairCheck p s ∧ pairIn p s = { s with tdm := (pairIn p s).tdm, evs := (pairIn p s).evs } := by
  obtain ⟨pair, agree, conflict, bits⟩ := pairChecked_fields p s
  have frame : pairChecked p s = { s with tdm := (pairChecked p s).tdm } := rfl
  rcases pairIn_cases p s hl with eq | ⟨r, eq⟩
  · rw [eq]
    generalize pairChecked p s = t at *
    exact ⟨pair, agree, conflict, bits, by rw [frame]⟩
  · rw [eq, pairEvent_frame]
    generalize pairChecked p s = t at *
    exact ⟨pair, agree, conflict, bits, by rw [frame]⟩

/-- Settles O52, clause by clause. -/
theorem tandemLink : Obligations.TandemLink := by
  unfold Obligations.TandemLink
  refine ⟨fun s hc hm hl => ⟨_, exec_linkTraining s hc hm hl, tdmEvent_onTdm 7 0 _ s⟩,
    fun s hc hl => ⟨_, exec_tandemLinkDown s hc hl, tdmEvent_onTdm 6 0 _ s⟩, fun m a s hc hl h => exec_markerReceive m a s hc hl h, fun m a s h => ?marker,
    fun m a t hm ht => ⟨timeStep_sets m a t hm ht, timeStep_refuses m a t hm ht⟩, timeStep_none, exec_markerMissing,
    exec_markerMissing_none, fun rt s hc => whenOn_on s hc, fun h k s hc hk => ⟨exec_heartbeatReceive h k s hc hk, ?heartbeat⟩,
    snapPacket_effect, exec_insetPacket, protoPacket_effect,
    fun x fn p i s h => ?left, fun n x s hl hs => ?sends, fun n x s hs => ?follows, fun fn crc s hc hl => ?digest, fun p s hc hl => ?pair⟩
  case marker =>
    refine exec_markerReceive_left m a s (h.imp id ?_)
    rintro ⟨far, wait, isolated⟩ (⟨now, near⟩ | hw | hi)
    · exact far.elim (fun ne => ne now) (by omega)
    · exact wait hw
    · exact isolated hi
  case heartbeat =>
    exact ⟨_, heartbeatOf s, exec_heartbeatSend k s hc hk, rfl, rfl, rfl, hbByte_bits s⟩
  case left =>
    obtain ⟨snap, proto⟩ := exec_packets_left x fn p s h
    exact ⟨snap, proto, exec_insetPacket_left i s h⟩
  case sends =>
    obtain ⟨snap, proto, pair⟩ := tdmSend_sent n x s
    rw [snap, proto, pair, hl, hs]
    exact ⟨rfl, rfl, rfl⟩
  case follows =>
    obtain ⟨snap, proto, pair⟩ := tdmSend_sent n x s
    rw [snap, proto, pair, hs]
    simp
  case digest =>
    show execDigestPacket fn crc s = _
    rw [execDigestPacket, whenOn_on s hc, if_pos hl]
    rfl
  case pair =>
    obtain ⟨pair, agree, conflict, bits, frame⟩ := pairIn_effect p s hl
    exact ⟨pairIn p s, whenOn_on s hc, pair, agree, conflict, bits, frame, pairIn_hash p s hl⟩

end Sys2Proof.Machine
end

section
/-! Tandem operation (chapter 11): joining, roles and the host's commands (O53). -/

namespace Sys2Proof.Machine

/-! ### Bulk data (R298, R375) -/

theorem exec_bulkPacket (b : Bulk) (s : State) (hc : s.isl.ctl = true) (hl : s.tdm.linkUp = true) :
    exec (.bulkPacket b) s = .next (bulkIn b s) := by
  show execBulkPacket b s = _
  rw [execBulkPacket, whenOn_on s hc, if_pos hl]

theorem exec_bulkPacket_left (b : Bulk) (s : State) (h : bulkIn b s = s) : exec (.bulkPacket b) s = .next s := by
  show execBulkPacket b s = _
  refine whenOn_id ?_
  rw [h]
  exact ite_self s

theorem bulkIn_ledger (ix : Fin 1536) (e : Ledger) (s : State) (h : s.tdm.st = .sync) :
    bulkIn (.ledger ix e) s = onTdm (fun t => { t with bulkLedger := t.bulkLedger + 1 }) (ledgerIn ix e s) := if_neg (by simp [h])

theorem bulkIn_ticket (ix : Fin 256) (bs : List Byte) (s : State) (h : s.tdm.st = .sync) : bulkIn (.ticket ix bs) s =
    lndWrite (ticketBase + 576 * ix.val) bs
      (onTdm (fun t => { t with bulkTickets := t.bulkTickets + 1 }) (onBilR (fun r => { r with tickets := r.tickets.set ix bs }) s)) :=
  if_neg (by simp [h])

/-- A ticket of the lead, in the ring of a joiner and in its mirror. -/
theorem bulkTicket_effect (ix : Fin 256) (bs : List Byte) (s : State) (h : s.tdm.st = .sync) :
    (bulkIn (.ticket ix bs) s).bilR.tickets = s.bilR.tickets.set ix bs ∧
    (bulkIn (.ticket ix bs) s).tdm.bulkTickets = s.tdm.bulkTickets + 1 ∧
    (bulkIn (.ticket ix bs) s).lnd.mem = memWriteBytes s.lnd.mem (ticketBase + 576 * ix.val) bs := by
  rw [bulkIn_ticket ix bs s h, lndWrite_mem]
  exact ⟨rfl, rfl, rfl⟩

/-- An outlet with the weld flag of the lead. -/
def weldFrom (f : BitVec 32) (o : Fin 32) (q : Osq) : Osq := { q with weld := f.getLsbD o.val }

theorem bulkIn_welds (f : BitVec 32) (s : State) (h : s.tdm.st = .sync) : bulkIn (.welds f) s =
    onTdm (fun t => { t with bulkWelds := true, bulkDone := true })
      { s with fl := { s.fl with osq := Vec.mapIx s.fl.osq (weldFrom f) }, nx := { s.nx with osq := Vec.mapIx s.nx.osq (weldFrom f) } } :=
  if_neg (by simp [h])

theorem bulkWelds_effect (f : BitVec 32) (s : State) (h : s.tdm.st = .sync) : (bulkIn (.welds f) s).tdm.bulkDone = true ∧
    ∀ o : OutIx, ((bulkIn (.welds f) s).fl.osq[o]).weld = f.getLsbD o.val ∧ ((bulkIn (.welds f) s).nx.osq[o]).weld = f.getLsbD o.val ∧
      ((bulkIn (.welds f) s).nx.osq[o]).st = (s.nx.osq[o]).st := by
  have flq : (bulkIn (.welds f) s).fl.osq = Vec.mapIx s.fl.osq (weldFrom f) := by rw [bulkIn_welds f s h]; rfl
  have nxq : (bulkIn (.welds f) s).nx.osq = Vec.mapIx s.nx.osq (weldFrom f) := by rw [bulkIn_welds f s h]; rfl
  refine ⟨by rw [bulkIn_welds f s h]; rfl, fun o => ?_⟩
  rw [flq, nxq, mapIx_get, mapIx_get]
  exact ⟨rfl, rfl, rfl⟩

/-- The key of a package that carries none. -/
theorem bulkIn_key (x : List Byte) (ok k : Bool) (s : State) (h : s.tdm.st = .sync ∨ s.tdm.st = .follow) : bulkIn (.ledgerKey x ok k) s =
    match (if !ok || k then none else Config.aesOpen (transferKey s) x) with
    | some k => takeLedgerKey k s
    | none => if s.tdm.st = .sync then onTdm (fun t => { t with pend := some (.isolated, 7) }) s else s :=
  if_neg (by rcases h with h | h <;> simp [h])

theorem bulkIn_other (b : Bulk) (s : State) (h1 : s.tdm.st ≠ .sync) (h2 : s.tdm.st ≠ .follow) : bulkIn b s = s := by
  cases b with
  | ledger ix e => exact if_pos h1
  | ticket ix bs => exact if_pos h1
  | welds f => exact if_pos h1
  | ledgerKey x ok k => exact if_pos (by simp [h1, h2])

/-- A follower writes no bulk data. -/
theorem bulkIn_follow (b : Bulk) (s : State) (h : s.tdm.st = .follow) (hb : ∀ x k, b ≠ .ledgerKey x true k) : bulkIn b s = s := by
  have ne : s.tdm.st ≠ .sync := by simp [h]
  cases b with
  | ledger ix e => exact if_pos ne
  | ticket ix bs => exact if_pos ne
  | welds f => exact if_pos ne
  | ledgerKey x ok k =>
    cases ok with
    | true => exact absurd rfl (hb x k)
    | false => exact (bulkIn_key x false k s (.inr h)).trans (if_neg ne)

/-! ### The recomputation from a snapshot (R27, R298) -/

/-- The live sample, recomputed from a snapshot and the sets retained. -/
def caught (x : Snap) (s : State) : State :=
  replay s.fn (s.ctl.clu.map (·.next)) ((s.tdm.kept.filter fun k => x.fn ≤ k.fn) ++ [keptNow s])
    (onTdm (fun t => { t with reached := true }) { putSnap x s with fn := x.fn })

theorem catchUp_of (x : Snap) (s : State) (h : s.tdm.snap = some x) :
    catchUp s = onTdm (fun t => { t with reached := true, kept := [], lag := 0 }) (putSnap (snapOf (caught x s)) s) := by
  unfold catchUp
  rw [h]
  rfl

theorem putSnap_frame (y : Snap) (s : State) : putSnap y s = { s with
    fl := y.fl, nx := y.nx, ctl := (putSnap y s).ctl, alc := (putSnap y s).alc, osqR := y.osqR, cclR := y.cclR,
    can := (putSnap y s).can, vlk := (putSnap y s).vlk, bilR := { s.bilR with cfg := y.bilCfg, calMap := y.calMap },
    met := { s.met with tamperCfg := y.tamperCfg } } := rfl

theorem mayCatch_iff (x : Snap) (s : State) (h : s.tdm.snap = some x) (hr : s.tdm.reached = false) (hf : x.fn < s.fn)
    (hs : s.tdm.st = .reseed ∨ (s.tdm.st = .sync ∧ s.tdm.bulkDone = true)) : mayCatch s = true := by
  unfold mayCatch
  rw [h, hr]
  simpa [hf] using hs

theorem mayCatch_none (s : State) (h : s.tdm.snap = none) : mayCatch s = false := by
  unfold mayCatch
  rw [h]
  exact Bool.and_false _

theorem exec_reseedCatchup (s : State) (hc : s.isl.ctl = true) (hs : s.tdm.st = .reseed) (h : mayCatch s = true) :
    exec .reseedCatchup s = .next (catchUp s) := by
  show execReseedCatchup s = _
  rw [execReseedCatchup, whenOn_on s hc, if_pos (by simp [hs, h])]

theorem exec_joinComplete (s : State) (hc : s.isl.ctl = true) (hs : s.tdm.st = .sync) (hr : s.tdm.reached = false) (h : mayCatch s = true) :
    exec .joinComplete s = .next (onTdm (fun t => { t with pend := some (.follow, 0) }) (catchUp s)) := by
  show execJoinComplete s = _
  rw [execJoinComplete, whenOn_on s hc, if_pos (by simp [hs, h]), if_neg (by rw [hr]; simp)]

theorem exec_joinComplete_reached (s : State) (hc : s.isl.ctl = true) (hs : s.tdm.st = .sync) (hr : s.tdm.reached = true) :
    exec .joinComplete s = .next { s with tdm := { s.tdm with pend := some (.follow, 0) } } := by
  show execJoinComplete s = _
  rw [execJoinComplete, whenOn_on s hc, if_pos (by simp [hs, hr]), if_pos hr]
  rfl

theorem exec_catch_none (s : State) (h : s.tdm.snap = none) (hr : s.tdm.reached = false) :
    exec .joinComplete s = .next s ∧ exec .reseedCatchup s = .next s := by
  have no := mayCatch_none s h
  exact ⟨show execJoinComplete s = _ from whenOn_id (if_neg (by simp [hr, no])),
    show execReseedCatchup s = _ from whenOn_id (if_neg (by simp [no]))⟩

/-! ### Transitions (R281, R293, R299) -/

theorem tdmGo_free (st : TSt) (reason : Nat) (s : State) (h : s.tdm.pend = none) :
    tdmGo st reason s = { s with tdm := { s.tdm with pend := some (st, reason) } } := if_neg (by rw [h]; simp)

/-- A transition found changes nothing but the one pending. -/
theorem tdmGo_frame (st : TSt) (reason : Nat) (s : State) :
    tdmGo st reason s = { s with tdm := { s.tdm with pend := (tdmGo st reason s).tdm.pend } } := by
  unfold tdmGo
  split <;> rfl

theorem joinTimeout_due (s : State) (hs : s.tdm.st = .sync) (hj : 100 ≤ s.tdm.joinFrames) (hp : s.tdm.pend = none) : joinTimeout s =
    { s with tdm := { s.tdm with pend := some (.isolated, if s.tdm.bulkDone then 8 else 7) } } :=
  (if_pos (by simp [hs, hj])).trans (tdmGo_free _ _ s hp)

theorem joinWait_due (s : State) (hs : s.tdm.st = .wait) (hm : s.tdm.everMarker = false) (hw : s.map.tandem.joinWait ≤ s.tdm.mapFrames)
    (hp : s.tdm.pend = none) :
    joinWait s = { s with tdm := { s.tdm with pend := some (if s.tdm.upSeen then (.isolated, 10) else (.lead, 0)) } } := by
  unfold joinWait
  rw [if_pos (by simp [hs, hm, hw]), tdmGo_free _ _ s hp, tdmGo_free _ _ s hp]
  cases s.tdm.upSeen <;> rfl

theorem joinWait_none (s : State) (h : s.tdm.st ≠ .wait ∨ s.tdm.everMarker = true) : joinWait s = s :=
  if_neg (by rcases h with h | h <;> simp [h])

theorem takeover_follow (s : State) (hl : leadLost s = true) (hs : s.tdm.st = .follow) (hp : s.tdm.pend = none) :
    takeover s = { tdmEvent 4 0 s with tdm := { (tdmEvent 4 0 s).tdm with pend := some (.lead, 0) } } := by
  unfold takeover
  rw [if_neg (by rw [hl]; simp), if_pos hs]
  exact tdmGo_free .lead 0 (tdmEvent 4 0 s) hp

theorem takeover_joining (s : State) (hl : leadLost s = true) (hs : s.tdm.st = .sync ∨ s.tdm.st = .reseed) :
    takeover s = onTdm (fun t => { t with restart := true }) (tdmGo .lead 0 (tdmEvent 4 0 s)) := by
  unfold takeover
  rw [if_neg (by rw [hl]; simp), if_neg (by rcases hs with hs | hs <;> simp [hs]), if_pos (by simpa using hs)]

theorem takeover_none (s : State) (h : leadLost s = false ∨ s.tdm.st = .lead ∨ s.tdm.st = .single) : takeover s = s := by
  unfold takeover
  rcases h with h | h | h <;> simp [h]

theorem roleSwap_of (k : SwapKind) (s : State) (h : s.tdm.swap = some (s.fn + 1, k)) : roleSwap s =
    if s.tdm.ownFault then tdmGo .faulted 0 s
    else if s.tdm.st = .lead && k ≠ .fault then tdmGo .follow 0 s
    else if s.tdm.st = .follow then tdmGo .lead 0 s
    else s := by
  unfold roleSwap
  rw [h]
  exact if_neg (by simp)

theorem roleSwap_other (f : Nat) (k : SwapKind) (s : State) (h : s.tdm.swap = some (f, k)) (hf : f ≠ s.fn + 1) : roleSwap s = s := by
  unfold roleSwap
  rw [h]
  exact if_pos (Ne.symm hf)

/-- What the swap of a frame finds. -/
theorem roleSwap_effect (k : SwapKind) (s : State) (h : s.tdm.swap = some (s.fn + 1, k)) (hp : s.tdm.pend = none) :
    (s.tdm.ownFault = true → (roleSwap s).tdm.pend = some (.faulted, 0)) ∧
    (s.tdm.ownFault = false → s.tdm.st = .follow → (roleSwap s).tdm.pend = some (.lead, 0)) ∧
    (s.tdm.ownFault = false → s.tdm.st = .lead → k ≠ .fault → (roleSwap s).tdm.pend = some (.follow, 0)) ∧
    (s.tdm.ownFault = false → s.tdm.st = .lead → k = .fault → roleSwap s = s) ∧
    roleSwap s = { s with tdm := { s.tdm with pend := (roleSwap s).tdm.pend } } := by
  rw [roleSwap_of k s h]
  refine ⟨fun f => ?_, fun f hs => ?_, fun f hs hk => ?_, fun f hs hk => ?_, ?_⟩
  · rw [if_pos f, tdmGo_free _ _ s hp]
  · rw [if_neg (by rw [f]; simp), if_neg (by simp [hs]), if_pos hs, tdmGo_free _ _ s hp]
  · rw [if_neg (by rw [f]; simp), if_pos (by simp [hs, hk]), tdmGo_free _ _ s hp]
  · rw [if_neg (by rw [f]; simp), if_neg (by simp [hk]), if_neg (by simp [hs])]
  · split
    · exact tdmGo_frame _ _ s
    · split
      · exact tdmGo_frame _ _ s
      · split
        · exact tdmGo_frame _ _ s
        · rfl

/-- A second lead (R296): the one that has led for the shorter time, or at the same age the one of identity 1, leaves. -/
theorem secondLead_leaves (m : Marker) (s : State) (hg : s.tdm.got = some m) (hm : m.state = 4) (hp : s.tdm.pend = none) :
    ((secondLead s).tdm.pend = some (.isolated, 6)) ↔
      (s.tdm.leadAge < m.leadAge ∨ (s.tdm.leadAge = m.leadAge ∧ s.tdm.identity = true)) := by
  have goes : (tdmGo .isolated 6 (tdmEvent 9 0 s)).tdm.pend = some (.isolated, 6) := by
    rw [tdmGo_free _ _ (tdmEvent 9 0 s) hp]
  have stays : (tdmEvent 9 0 s).tdm.pend = none := hp
  unfold secondLead
  rw [hg]
  dsimp only
  rw [if_neg (by rw [hm]; simp)]
  split
  case isTrue h => exact iff_of_true goes (by simpa using h)
  case isFalse h =>
    refine iff_of_false (by rw [stays]; simp) (by simpa using h)

/-! ### The clauses of O53 -/

theorem ledgerIn_frame (ix : Fin 1536) (e : Ledger) (s : State) : ledgerIn ix e s = { s with bilR := { s.bilR with
    ledger := s.bilR.ledger.set ix e, ledgerTag := (ledgerIn ix e s).bilR.ledgerTag,
    unusable := s.bilR.unusable.filter (· ≠ ix.val) } } := rfl

theorem bulkLedger_effect (ix : Fin 1536) (e : Ledger) (s : State) (hc : s.isl.ctl = true) (hl : s.tdm.linkUp = true)
    (hs : s.tdm.st = .sync) : ∃ t, exec (.bulkPacket (.ledger ix e)) s = .next t ∧ t.bilR.ledger = s.bilR.ledger.set ix e ∧
      t.bilR.unusable = s.bilR.unusable.filter (· ≠ ix.val) ∧ t = { s with
        bilR := { s.bilR with ledger := t.bilR.ledger, ledgerTag := t.bilR.ledgerTag, unusable := t.bilR.unusable },
        tdm := { s.tdm with bulkLedger := s.tdm.bulkLedger + 1 } } := by
  refine ⟨_, (exec_bulkPacket _ s hc hl).trans (congrArg Host.Outcome.next (bulkIn_ledger ix e s hs)), ?_⟩
  rw [ledgerIn_frame]
  exact ⟨rfl, rfl, rfl⟩

theorem bulkTicket_stored (ix : Fin 256) (bs : List Byte) (s : State) (hc : s.isl.ctl = true) (hl : s.tdm.linkUp = true)
    (hs : s.tdm.st = .sync) (hm : Memory.wf s.lnd.mem = true) :
    ∃ t, exec (.bulkPacket (.ticket ix bs)) s = .next t ∧ t.bilR.tickets[ix] = bs ∧ t.tdm.bulkTickets = s.tdm.bulkTickets + 1 ∧
      memReadBytes t.lnd.mem (ticketBase + 576 * ix.val) bs.length = bs ∧
      ∀ a : Nat, a < ticketBase + 576 * ix.val ∨ ticketBase + 576 * ix.val + bs.length ≤ a →
        memRead t.lnd.mem a = memRead s.lnd.mem a := by
  obtain ⟨tickets, count, mem⟩ := bulkTicket_effect ix bs s hs
  refine ⟨_, exec_bulkPacket _ s hc hl, ?_, count, ?_, fun a ha => ?_⟩
  · rw [tickets]
    exact Vector.getElem_set_self ix.isLt
  · rw [mem, memReadBytes_memWriteBytes _ _ _ hm]
  · rw [mem, memRead_memWriteBytes_off _ _ _ _ hm ha]

/-- The ledger key of the lead opens, or it does not (R375). -/
theorem bulkKey_effect (x : List Byte) (s : State) (hc : s.isl.ctl = true) (hl : s.tdm.linkUp = true)
    (hs : s.tdm.st = .sync ∨ s.tdm.st = .follow) : ∃ t, exec (.bulkPacket (.ledgerKey x true false)) s = .next t ∧
      (∀ k, Config.aesOpen (transferKey s) x = some k → t = { s with
        hwd := { s.hwd with bbk := s.hwd.bbk.set 1 (some { typ := 1, key := k }), intStatus := setBit s.hwd.intStatus 5 } }) ∧
      (Config.aesOpen (transferKey s) x = none → s.tdm.st = .sync → t = { s with tdm := { s.tdm with pend := some (.isolated, 7) } }) ∧
      (Config.aesOpen (transferKey s) x = none → s.tdm.st = .follow → t = s) := by
  refine ⟨_, (exec_bulkPacket _ s hc hl).trans (congrArg Host.Outcome.next (bulkIn_key x true false s hs)), fun k h => ?_, fun h hs => ?_, fun h hs => ?_⟩
  · rw [if_neg (by simp), h]
    rfl
  · rw [if_neg (by simp), h]
    exact if_pos hs
  · rw [if_neg (by simp), h]
    exact if_neg (by simp [hs])

theorem bulk_unproved (x : List Byte) (k : Bool) (s : State) (hc : s.isl.ctl = true) (hl : s.tdm.linkUp = true) (hs : s.tdm.st = .sync) :
    exec (.bulkPacket (.ledgerKey x false k)) s = .next { s with tdm := { s.tdm with pend := some (.isolated, 7) } } :=
  (exec_bulkPacket _ s hc hl).trans (congrArg Host.Outcome.next ((bulkIn_key x false k s (.inl hs)).trans (if_pos hs)))

theorem onTdm_putSnap_frame (g : Tdm → Tdm) (y : Snap) (s t : State) (h : t = onTdm g (putSnap y s)) : t = { s with
    fl := t.fl, nx := t.nx, ctl := t.ctl, alc := t.alc, osqR := t.osqR, cclR := t.cclR, can := t.can, vlk := t.vlk,
    bilR := { s.bilR with cfg := t.bilR.cfg, calMap := t.bilR.calMap }, met := { s.met with tamperCfg := t.met.tamperCfg },
    tdm := g s.tdm } := by
  subst h
  rfl

/-- What a package holds outside the snapshot stays. -/
theorem caught_put (g : Tdm → Tdm) (r s : State) : ∃ t, onTdm g (putSnap (snapOf r) s) = t ∧ t.fl = r.fl ∧ t.nx = r.nx ∧ t = { s with
    fl := t.fl, nx := t.nx, ctl := t.ctl, alc := t.alc, osqR := t.osqR, cclR := t.cclR, can := t.can, vlk := t.vlk,
    bilR := { s.bilR with cfg := t.bilR.cfg, calMap := t.bilR.calMap }, met := { s.met with tamperCfg := t.met.tamperCfg },
    tdm := g s.tdm } :=
  ⟨_, rfl, rfl, rfl, onTdm_putSnap_frame g (snapOf r) s _ rfl⟩

theorem joinComplete_recomputes (x : Snap) (s : State) (hc : s.isl.ctl = true) (hr : s.tdm.reached = false) (hx : s.tdm.snap = some x)
    (hf : x.fn < s.fn) (hs : s.tdm.st = .sync) (hd : s.tdm.bulkDone = true) : ∃ t, exec .joinComplete s = .next t ∧
      t.fl = (caught x s).fl ∧ t.nx = (caught x s).nx ∧ t = { s with
        fl := t.fl, nx := t.nx, ctl := t.ctl, alc := t.alc, osqR := t.osqR, cclR := t.cclR, can := t.can, vlk := t.vlk,
        bilR := { s.bilR with cfg := t.bilR.cfg, calMap := t.bilR.calMap }, met := { s.met with tamperCfg := t.met.tamperCfg },
        tdm := { s.tdm with reached := true, kept := [], lag := 0, pend := some (.follow, 0) } } := by
  have row := exec_joinComplete s hc hs hr (mayCatch_iff x s hx hr hf (.inr ⟨hs, hd⟩))
  rw [catchUp_of x s hx] at row
  generalize caught x s = r at row ⊢
  obtain ⟨t, ht, frame⟩ := caught_put (fun t => { t with reached := true, kept := [], lag := 0, pend := some (.follow, 0) }) r s
  exact ⟨t, row.trans (congrArg Host.Outcome.next ht), frame⟩

theorem reseedCatchup_recomputes (x : Snap) (s : State) (hc : s.isl.ctl = true) (hr : s.tdm.reached = false) (hx : s.tdm.snap = some x)
    (hf : x.fn < s.fn) (hs : s.tdm.st = .reseed) : ∃ t, exec .reseedCatchup s = .next t ∧
      t.fl = (caught x s).fl ∧ t.nx = (caught x s).nx ∧ t = { s with
        fl := t.fl, nx := t.nx, ctl := t.ctl, alc := t.alc, osqR := t.osqR, cclR := t.cclR, can := t.can, vlk := t.vlk,
        bilR := { s.bilR with cfg := t.bilR.cfg, calMap := t.bilR.calMap }, met := { s.met with tamperCfg := t.met.tamperCfg },
        tdm := { s.tdm with reached := true, kept := [], lag := 0 } } := by
  have row := exec_reseedCatchup s hc hs (mayCatch_iff x s hx hr hf (.inl hs))
  rw [catchUp_of x s hx] at row
  generalize caught x s = r at row ⊢
  obtain ⟨t, ht, frame⟩ := caught_put (fun t => { t with reached := true, kept := [], lag := 0 }) r s
  exact ⟨t, row.trans (congrArg Host.Outcome.next ht), frame⟩

/-- The host commands of the pair (R281, R299, R302). -/
theorem tdmCommands (s : State) (hc : s.isl.ctl = true) :
    exec .tdmRejoin s = .next (if s.tdm.st = .isolated then { s with tdm := { s.tdm with cmdRejoin := true } } else s) ∧
    exec .tdmYield s = .next (if s.tdm.st = .lead then { s with tdm := { s.tdm with cmdYield := true } } else s) ∧
    exec .tdmHoldReturn s = .next { s with tdm := { s.tdm with ctrlHold := true } } ∧
    exec .tdmDeclareFault s = .next (if (s.tdm.st = .lead ∨ s.tdm.st = .follow) ∧ inStep s = true then
      { s with tdm := { s.tdm with ownFault := true } } else s) := by
  refine ⟨whenOn_on s hc, whenOn_on s hc, whenOn_on s hc, ?_⟩
  refine Eq.trans (whenOn_on s hc) (congrArg Host.Outcome.next ?_)
  unfold tdmDeclare
  refine if_congr ?_ rfl rfl
  rw [Bool.and_eq_true, Bool.or_eq_true, decide_eq_true_eq, decide_eq_true_eq]

/-- Settles O53: each row's command, by what it finds in the state. -/
theorem tandemRoles : Obligations.TandemRoles := by
  unfold Obligations.TandemRoles
  refine ⟨bulkLedger_effect, bulkTicket_stored, fun f s hc hl hs => ⟨_, exec_bulkPacket _ s hc hl, bulkWelds_effect f s hs⟩,
    bulk_unproved, bulkKey_effect, fun ix e q bs x f k s hs => ⟨?_, ?_, ?_, ?_⟩,
    fun b s h1 h2 => exec_bulkPacket_left b s (bulkIn_other b s h1 h2), fun x s hc hr hx hf => ⟨fun hs hd => ?_, fun hs => ?_⟩,
    exec_joinComplete_reached, exec_catch_none,
    fun s hc hs hj hp => (whenOn_on s hc).trans (congrArg Host.Outcome.next (joinTimeout_due s hs hj hp)),
    fun s hc hs hm hw hp => (whenOn_on s hc).trans (congrArg Host.Outcome.next (joinWait_due s hs hm hw hp)),
    fun s h => whenOn_id (joinWait_none s h), fun s hc hl hs hp => ?_, fun s hc hl hs => ?_,
    fun s h => whenOn_id (takeover_none s h), fun k s hc hw hp => ⟨_, whenOn_on s hc, roleSwap_effect k s hw hp⟩,
    fun f k s hw hf => whenOn_id (roleSwap_other f k s hw hf), tdmCommands, fun m s _ hg hm hp => secondLead_leaves m s hg hm hp⟩
  · exact exec_bulkPacket_left _ s (bulkIn_follow _ s hs (by simp))
  · exact exec_bulkPacket_left _ s (bulkIn_follow _ s hs (by simp))
  · exact exec_bulkPacket_left _ s (bulkIn_follow _ s hs (by simp))
  · exact exec_bulkPacket_left _ s (bulkIn_follow _ s hs (by simp))
  · obtain ⟨t, row, frame⟩ := joinComplete_recomputes x s hc hr hx hf hs hd
    exact ⟨t, caught x s, row, rfl, frame⟩
  · obtain ⟨t, row, frame⟩ := reseedCatchup_recomputes x s hc hr hx hf hs
    exact ⟨t, caught x s, row, rfl, frame⟩
  · exact ⟨_, (whenOn_on s hc).trans (congrArg Host.Outcome.next (takeover_follow s hl hs hp)), rfl, rfl⟩
  · have restarts : ∀ g : State, (onTdm (fun t => { t with restart := true }) g).tdm.restart = true ∧
        (onTdm (fun t => { t with restart := true }) g).tdm.st = g.tdm.st := fun g => ⟨rfl, rfl⟩
    refine ⟨_, (whenOn_on s hc).trans (congrArg Host.Outcome.next (takeover_joining s hl hs)), (restarts _).1, (restarts _).2.trans ?_⟩
    rw [tdmGo_frame]
    rfl

end Sys2Proof.Machine
end

section
/-! The commands of the key store (chapter 15): what each begins and which slot it changes (O54). -/

namespace Sys2Proof.Machine

/-- Beside the slots and their keys, a command of the key store may use a random number, renew the bitmap of the valid slots
and send events. -/
def SlotWork (s t : State) : Prop := t = { s with
  freeIx := t.freeIx, live := { s.live with slotValid := t.live.slotValid }, arrived := t.arrived,
  hwd := { s.hwd with
    bankA := t.hwd.bankA, bankB := t.hwd.bankB, cache := t.hwd.cache, active := t.hwd.active, bad := t.hwd.bad, bbk := t.hwd.bbk,
    smpKey := t.hwd.smpKey, smpRows := t.hwd.smpRows, resealed := t.hwd.resealed, pendCommit := t.hwd.pendCommit,
    resealDone := t.hwd.resealDone, committed := t.hwd.committed, attFn := t.hwd.attFn, intStatus := t.hwd.intStatus } }

theorem slotWork_refl (s : State) : SlotWork s s := rfl
theorem slotWork_trans {s t u : State} (h : SlotWork s t) (k : SlotWork t u) : SlotWork s u := by
  unfold SlotWork at h k ⊢
  rw [h] at k
  exact k

theorem putEntry_slotWork (k : Fin 128) (b : Bool) (e : List Byte) (s : State) : SlotWork s (putEntry k b e s) := by
  cases b <;> rfl
theorem slotsMarked_slotWork (act : Vector (Option Bool) 128) (bad : Hwd → BitVec 128) (valid : BitVec 128) (s : State) :
    SlotWork s (onHwd (fun h => { h with active := act, bad := bad h }) { s with live := { s.live with slotValid := valid } }) := rfl
theorem setActive_slotWork (k : Fin 128) (a : Option Bool) (s : State) : SlotWork s (setActive k a s) :=
  slotsMarked_slotWork _ (fun h => clrBit h.bad k.val) _ s
theorem cache_slotWork (f : Hwd → List (Fin 128 × List Byte)) (s : State) : SlotWork s (onHwd (fun h => { h with cache := f h }) s) := rfl
theorem cachePut_slotWork (k : Fin 128) (key : List Byte) (s : State) : SlotWork s (cachePut k key s) := cache_slotWork _ s
theorem cacheDrop_slotWork (k : Fin 128) (s : State) : SlotWork s (cacheDrop k s) := cache_slotWork _ s
theorem useKey_slotWork (k : Fin 128) (e : List Byte) (s : State) : SlotWork s (useKey k e s).2 := cachePut_slotWork k _ s
theorem randomKey_slotWork (typ : Nat) (s : State) : SlotWork s (randomKey typ s).2 := rfl
theorem hwdInt_slotWork (b : Nat) (s : State) : SlotWork s (hwdInt b s) := rfl
theorem hwdEvent_slotWork (code num : Nat) (s : State) : SlotWork s (hwdEvent code num s) := rfl
theorem pendCommit_slotWork (f : Hwd → Nat) (g : Hwd → BitVec 128) (s : State) :
    SlotWork s (onHwd (fun h => { h with resealed := f h, pendCommit := g h }) s) := rfl
theorem resealClear_slotWork (s : State) :
    SlotWork s (onHwd (fun h => { h with resealed := 0, pendCommit := 0, resealDone := false, committed := false }) s) := rfl
theorem resealDone_slotWork (s : State) : SlotWork s (onHwd (fun h => { h with resealDone := true }) s) := rfl
theorem committed_slotWork (s : State) : SlotWork s (onHwd (fun h => { h with pendCommit := 0, committed := true }) s) := rfl
theorem bbkSet_slotWork (v : Vector (Option BbkKey) 8) (s : State) : SlotWork s (onHwd (fun h => { h with bbk := v }) s) := rfl
theorem smpSet_slotWork (key : List Byte) (rows : List (List Byte)) (s : State) :
    SlotWork s (onHwd (fun h => { h with smpKey := key, smpRows := rows }) s) := rfl
theorem attFn_slotWork (s : State) : SlotWork s (onHwd (fun h => { h with attFn := s.fn }) s) := rfl

theorem slotCheck_slotWork (s : State) : SlotWork s (slotCheck s) :=
  slotWork_trans (slotsMarked_slotWork _ (fun _ => slotBad (slotActive s) s.hwd) _ s)
    (foldl_rel SlotWork slotWork_refl slotWork_trans _ (fun u (k : Fin 128) => slotWork_trans (hwdInt_slotWork 2 u) (hwdEvent_slotWork 3 k.val _)) _ _)

theorem newKey_slotWork (k : Fin 128) (typ usage mask : Nat) (key : List Byte) (s : State) :
    SlotWork s (newKey k typ usage mask key s) :=
  slotWork_trans (putEntry_slotWork k _ _ s) (slotWork_trans (setActive_slotWork k _ _) (cachePut_slotWork k key _))

theorem resealSlot_slotWork (target : Vector (List Byte) 8) (s : State) (k : Fin 128) : SlotWork s (resealSlot target s k) := by
  unfold resealSlot
  split
  · exact ite_rel _ (slotWork_trans (useKey_slotWork k _ s) (slotWork_trans (putEntry_slotWork k _ _ _) (pendCommit_slotWork _ _ _)))
      (slotWork_refl s)
  · exact slotWork_refl s

theorem resealAll_slotWork (target : Vector (List Byte) 8) (s : State) : SlotWork s (resealAll target s) := by
  have written (u : State) : SlotWork u ((List.finRange 128).foldl (resealSlot target) u) :=
    foldl_rel SlotWork slotWork_refl slotWork_trans _ (resealSlot_slotWork target) _ u
  have closed (u : State) : SlotWork u (slotCheck (hwdEvent 5 0 (hwdInt 4 (onHwd (fun h => { h with resealDone := true }) u)))) :=
    slotWork_trans (resealDone_slotWork u) (slotWork_trans (hwdInt_slotWork 4 _) (slotWork_trans (hwdEvent_slotWork 5 0 _) (slotCheck_slotWork _)))
  exact slotWork_trans (resealClear_slotWork s) (slotWork_trans (written _) (closed _))

theorem commitSlot_slotWork (s : State) (k : Fin 128) : SlotWork s (commitSlot s k) := by
  unfold commitSlot
  refine ite_rel _ ?_ (slotWork_refl s)
  split
  · exact putEntry_slotWork k _ _ s
  · exact slotWork_refl s

theorem commitSlots_slotWork (s : State) : SlotWork s (commitSlots s) :=
  slotWork_trans (foldl_rel SlotWork slotWork_refl slotWork_trans _ commitSlot_slotWork _ s) (committed_slotWork _)

/-! ### Every command begins (R380) -/

/-- A command has begun: its code, and beside it the slots alone. -/
def Begins (n : Nat) (s t : State) : Prop := ∃ result out u, t = hwdBegin n result out u ∧ SlotWork s u

theorem begins_of {n : Nat} {s u : State} (result : Nat) (out : List Byte) (h : SlotWork s u) : Begins n s (hwdBegin n result out u) :=
  ⟨result, out, u, rfl, h⟩

theorem begins_at (n result : Nat) (out : List Byte) (s : State) : Begins n s (hwdBegin n result out s) :=
  begins_of result out (slotWork_refl s)

theorem opGenerate_begins (a : Word) (s : State) : Begins 1 s (opGenerate a s) := by
  unfold opGenerate
  split
  · exact begins_at 1 _ _ s
  · exact begins_at 1 _ _ s
  · exact ite_rel _ (begins_at 1 _ _ s) (begins_of _ _ (slotWork_trans (randomKey_slotWork (argTyp a) s) (newKey_slotWork _ _ _ _ _ _)))

theorem opImport_begins (a : Word) (s : State) : Begins 2 s (opImport a s) := by
  unfold opImport
  split
  · exact begins_at 2 _ _ s
  · exact begins_at 2 _ _ s
  · split
    · exact begins_of _ _ (newKey_slotWork _ _ _ _ _ s)
    · exact begins_at 2 _ _ s

theorem opPublic_begins (a : Word) (s : State) : Begins 3 s (opPublic a s) := by
  have fixed (result : Nat) (out : List Byte) : Begins 3 s (hwdBegin 3 result out s) := begins_at 3 result out s
  unfold opPublic
  refine ite_rel _ (ite_rel _ (fixed _ _) (fixed _ _)) (ite_rel _ ?_ ?_)
  · split
    · exact fixed _ _
    · split
      · exact fixed _ _
      · exact ite_rel _ (fixed _ _) (fixed _ _)
  · split
    · exact fixed _ _
    · refine ite_rel _ (fixed _ _) ?_
      split
      · exact fixed _ _
      · exact ite_rel _ (fixed _ _) (begins_of _ _ (useKey_slotWork _ _ s))

theorem opDelete_begins (a : Word) (s : State) : Begins 4 s (opDelete a s) := by
  unfold opDelete
  split
  · exact begins_at 4 _ _ s
  · exact begins_of _ _ (slotWork_trans (putEntry_slotWork _ _ _ s) (slotWork_trans (putEntry_slotWork _ _ _ _)
      (slotWork_trans (setActive_slotWork _ _ _) (cacheDrop_slotWork _ _))))

theorem opReseal_begins (s : State) : Begins 5 s (opReseal s) := by
  unfold opReseal
  split
  · exact begins_at 5 _ _ s
  · exact ite_rel _ (begins_at 5 _ _ s) (begins_of _ _ (resealAll_slotWork _ s))

theorem opResealCommit_begins (s : State) : Begins 6 s (opResealCommit s) := begins_of _ _ (commitSlots_slotWork s)

theorem opAttest_begins (s : State) : Begins 7 s (opAttest s) :=
  ite_rel _ (begins_at 7 _ _ s) (begins_of _ _ (attFn_slotWork s))

theorem opBbk_begins (a : Word) (s : State) : Begins 8 s (opBbk a s) := by
  unfold opBbk
  split
  · exact begins_at 8 _ _ s
  · exact ite_rel _ (begins_at 8 _ _ s) (ite_rel _ (begins_at 8 _ _ s) (ite_rel _ (begins_at 8 _ _ s)
      (begins_of _ _ (slotWork_trans (randomKey_slotWork (argTyp a) s) (bbkSet_slotWork _ _)))))

theorem opEnroll_begins (s : State) : Begins 9 s (opEnroll s) :=
  ite_rel _ (begins_of _ _ (smpSet_slotWork _ _ s)) (ite_rel _ (begins_of _ _ (smpSet_slotWork _ _ s))
    (ite_rel _ (begins_at 9 _ _ s) (ite_rel _ (begins_of _ _ (smpSet_slotWork _ _ s)) (begins_at 9 _ _ s))))

/-- The command of an op code, once its argument is held. -/
def hwdOp (op : Nat) (a : Word) (s : State) : State :=
  match op with
  | 1 => opGenerate a s
  | 2 => opImport a s
  | 3 => opPublic a s
  | 4 => opDelete a s
  | 5 => opReseal s
  | 6 => opResealCommit s
  | 7 => opAttest s
  | 8 => opBbk a s
  | 9 => opEnroll s
  | _ => hwdBegin op 1 [] s

theorem hwdOp_begins (op : Nat) (a : Word) (s : State) : Begins op s (hwdOp op a s) := by
  unfold hwdOp
  split
  · exact opGenerate_begins a s
  · exact opImport_begins a s
  · exact opPublic_begins a s
  · exact opDelete_begins a s
  · exact opReseal_begins s
  · exact opResealCommit_begins s
  · exact opAttest_begins s
  · exact opBbk_begins a s
  · exact opEnroll_begins s
  · exact begins_at _ _ _ s

/-- The argument of a command. -/
def argHeld (a : Word) (s : State) : State := onHwd (fun h => { h with arg := a }) s

theorem hwdRow_idle (op : Nat) (a : Word) (s : State) (hm : s.isl.met = true) (hb : s.hwd.busy = none) :
    hwdRow op a s = .next (hwdOp op a (argHeld a s)) := by
  rw [hwdRow, whenOn_on s hm, hwdStart, if_neg (by rw [hb]; simp)]
  rfl

theorem hwdRow_busy (op : Nat) (a : Word) (s : State) (hb : s.hwd.busy ≠ none) : hwdRow op a s = .next s :=
  whenOn_id (if_pos (Option.isSome_iff_ne_none.mpr hb))

/-- What a command that has begun leaves. -/
theorem begins_effect {n : Nat} {a : Word} {s t : State} (h : Begins n (argHeld a s) t) : ∃ r, t.hwd.busy = some r ∧ r.op = n ∧
    t.hwd.done = false ∧ t.hwd.ops = s.hwd.ops + 1 ∧ t.hwd.arg = a ∧ t.hwd.root = s.hwd.root ∧ t.hwd.tc = s.hwd.tc ∧
    t.hwd.meas = s.hwd.meas ∧ t.lnd = s.lnd ∧ t.fl = s.fl ∧ t.nx = s.nx ∧ t.fbk = s.fbk := by
  obtain ⟨result, out, u, rfl, hu⟩ := h
  have ops : u.hwd.ops = s.hwd.ops := (congrArg (fun t : State => t.hwd.ops) hu :)
  exact ⟨_, rfl, rfl, rfl, congrArg (· + 1) ops, (congrArg (fun t : State => t.hwd.arg) hu :),
    (congrArg (fun t : State => t.hwd.root) hu :), (congrArg (fun t : State => t.hwd.tc) hu :),
    (congrArg (fun t : State => t.hwd.meas) hu :), (congrArg State.lnd hu :), (congrArg State.fl hu :), (congrArg State.nx hu :),
    (congrArg State.fbk hu :)⟩

/-- The row of a command of the key store. -/
theorem exec_hwd (a : Word) (c : Instr) (n : Nat)
    (h : (c, n) ∈ ([(.hwdGenerate a, 1), (.hwdImport a, 2), (.hwdPublic a, 3), (.hwdDelete a, 4), (.hwdReseal a, 5),
      (.hwdResealCommit a, 6), (.hwdAttest a, 7), (.hwdBbkGenerate a, 8), (.hwdEnrollSmp a, 9)] : List (Instr × Nat))) (s : State) :
    exec c s = hwdRow n a s := by
  simp only [List.mem_cons, Prod.mk.injEq, List.not_mem_nil, or_false] at h
  obtain ⟨rfl, rfl⟩ | ⟨rfl, rfl⟩ | ⟨rfl, rfl⟩ | ⟨rfl, rfl⟩ | ⟨rfl, rfl⟩ | ⟨rfl, rfl⟩ | ⟨rfl, rfl⟩ | ⟨rfl, rfl⟩ | ⟨rfl, rfl⟩ := h <;> rfl

/-! ### A new key in a slot (R371, R380) -/

theorem argSlot_lt (a : Word) (k : Fin 128) (h : argSlot a = k.val) : optFin 128 (argSlot a) = some k := by
  rw [h]
  exact optFin_val k

theorem newKeyCheck_of (a : Word) (k : Fin 128) (s : State) (h : argSlot a = k.val) (h1 : 1 ≤ argTyp a) (h3 : argTyp a ≤ 3)
    (hd : derivRefused s = false) : newKeyCheck a s = if (s.hwd.active[k]).isSome then some 2 else none := by
  have lt : argSlot a < 128 := h ▸ k.isLt
  have slot : (⟨argSlot a, lt⟩ : Fin 128) = k := Fin.ext h
  unfold newKeyCheck
  rw [dif_pos lt, if_neg (by omega), if_neg (by rw [hd]; simp)]
  exact congrArg (fun k : Fin 128 => if (s.hwd.active[k]).isSome then some 2 else none) slot

theorem sealEntry_typ (root : BitVec 256) (tc : Nat) (meas : Vector (List Byte) 8) (slot typ usage mask gen : Nat) (key : List Byte)
    (h : typ < 256) : entTyp (sealEntry root tc meas slot typ usage mask gen key) = typ := by
  have first : (sealEntry root tc meas slot typ usage mask gen key).getD 0 0 = BitVec.ofNat 8 typ := by
    unfold sealEntry
    dsimp only
    simp only [List.append_assoc]
    rfl
  rw [entTyp, first, BitVec.toNat_ofNat, Nat.mod_eq_of_lt (by simpa using h)]

theorem setActive_effect (k : Fin 128) (a : Option Bool) (s : State) : (setActive k a s).hwd.active = s.hwd.active.set k a ∧
    (setActive k a s).live.slotValid = validBits (s.hwd.active.set k a) ∧ (setActive k a s).hwd.bankA = s.hwd.bankA ∧
    (setActive k a s).hwd.bankB = s.hwd.bankB := by
  simp only [setActive, onHwd, and_self]

theorem cachePut_kept (k : Fin 128) (key : List Byte) (s : State) : (cachePut k key s).hwd.active = s.hwd.active ∧
    (cachePut k key s).live = s.live ∧ (cachePut k key s).hwd.bankA = s.hwd.bankA ∧ (cachePut k key s).hwd.bankB = s.hwd.bankB :=
  ⟨rfl, rfl, rfl, rfl⟩

/-- A new key in a free slot: bank A holds it, active, and the other slots stay. -/
theorem newKey_effect (k : Fin 128) (typ usage mask : Nat) (key : List Byte) (s : State) (ht : typ < 256) (h : s.hwd.active[k] = none) :
    (newKey k typ usage mask key s).hwd.active[k] = some false ∧ entTyp (newKey k typ usage mask key s).hwd.bankA[k] = typ ∧
      (newKey k typ usage mask key s).hwd.bankB = s.hwd.bankB ∧
      (newKey k typ usage mask key s).live.slotValid = validBits (newKey k typ usage mask key s).hwd.active ∧
      ∀ j : Fin 128, j ≠ k → (newKey k typ usage mask key s).hwd.active[j] = s.hwd.active[j] ∧
        (newKey k typ usage mask key s).hwd.bankA[j] = s.hwd.bankA[j] := by
  unfold newKey
  rw [h]
  dsimp only
  generalize hx : sealEntry _ _ _ _ _ _ _ _ _ = x
  have typed : entTyp x = typ := by rw [← hx]; exact sealEntry_typ _ _ _ _ _ _ _ _ _ ht
  have put : (putEntry k false x s).hwd.active = s.hwd.active ∧ (putEntry k false x s).hwd.bankA = s.hwd.bankA.set k x ∧
      (putEntry k false x s).hwd.bankB = s.hwd.bankB := ⟨rfl, rfl, rfl⟩
  obtain ⟨act, bankA, bankB⟩ := put
  obtain ⟨act', valid', bankA', bankB'⟩ := setActive_effect k (some false) (putEntry k false x s)
  obtain ⟨act'', live'', bankA'', bankB''⟩ := cachePut_kept k key (setActive k (some false) (putEntry k false x s))
  rw [act'', live'', bankA'', bankB'', act', valid', bankA', bankB', act, bankA, bankB]
  refine ⟨Vector.getElem_set_self k.isLt, ?_, rfl, rfl, fun j hj => ?_⟩
  · exact (congrArg entTyp (Vector.getElem_set_self k.isLt)).trans typed
  · have ne : k.val ≠ j.val := fun e => hj (Fin.ext e.symm)
    exact ⟨Vector.getElem_set_ne _ _ ne, Vector.getElem_set_ne _ _ ne⟩

theorem opGenerate_new (a : Word) (k : Fin 128) (s : State) (h : argSlot a = k.val) (h1 : 1 ≤ argTyp a) (h3 : argTyp a ≤ 3)
    (hd : derivRefused s = false) (ha : s.hwd.active[k] = none) (ht : s.hwd.trngFail = false) : opGenerate a s =
    hwdBegin 1 0 [] (newKey k (argTyp a) (argUsage a) (argMask a) (randomKey (argTyp a) s).1 (randomKey (argTyp a) s).2) := by
  unfold opGenerate
  rw [newKeyCheck_of a k s h h1 h3 hd, ha, argSlot_lt a k h]
  exact if_neg (by rw [ht]; simp)

theorem opImport_new (a : Word) (k : Fin 128) (s : State) (h : argSlot a = k.val) (h1 : 1 ≤ argTyp a) (h3 : argTyp a ≤ 3)
    (hd : derivRefused s = false) (ha : s.hwd.active[k] = none) : opImport a s =
    match Config.hwdImport (imk s) (lndRead hwdBase 16384 s) with
    | some key => hwdBegin 2 0 [] (newKey k (argTyp a) (argUsage a) (argMask a) key s)
    | none => hwdBegin 2 7 [] s := by
  unfold opImport
  rw [newKeyCheck_of a k s h h1 h3 hd, ha, argSlot_lt a k h]
  rfl

/-- A slot that is held takes no new key. -/
theorem newKey_held (a : Word) (k : Fin 128) (x : Bool) (s : State) (h : argSlot a = k.val) (h1 : 1 ≤ argTyp a) (h3 : argTyp a ≤ 3)
    (hd : derivRefused s = false) (ha : s.hwd.active[k] = some x) :
    opGenerate a s = hwdBegin 1 2 [] s ∧ opImport a s = hwdBegin 2 2 [] s := by
  have check := newKeyCheck_of a k s h h1 h3 hd
  rw [ha] at check
  unfold opGenerate opImport
  rw [check]
  exact ⟨rfl, rfl⟩

/-! ### The commit of a reseal (R381) -/

/-- One slot of the commit, seen from a slot. -/
theorem commitSlot_get (s : State) (j k : Fin 128) : (commitSlot s j).hwd.active = s.hwd.active ∧
    (commitSlot s j).hwd.pendCommit = s.hwd.pendCommit ∧
    (commitSlot s j).hwd.bankA[k] =
      (if j = k ∧ s.hwd.pendCommit.getLsbD k.val = true ∧ s.hwd.active[k] = some true then [] else s.hwd.bankA[k]) ∧
    (commitSlot s j).hwd.bankB[k] =
      (if j = k ∧ s.hwd.pendCommit.getLsbD k.val = true ∧ s.hwd.active[k] = some false then [] else s.hwd.bankB[k]) := by
  have none_hit (h : ¬ (j = k ∧ s.hwd.pendCommit.getLsbD k.val = true)) (b : Bool) :
      ¬ (j = k ∧ s.hwd.pendCommit.getLsbD k.val = true ∧ s.hwd.active[k] = some b) := fun ⟨e, p, _⟩ => h ⟨e, p⟩
  have set_at (v : Vector (List Byte) 128) : (v.set j [])[k] = if j = k then [] else v[k] := by
    show (v.set j.val [])[k.val] = _
    rw [Vector.getElem_set]
    exact if_congr Fin.ext_iff.symm rfl rfl
  unfold commitSlot
  by_cases hp : s.hwd.pendCommit.getLsbD j.val = true
  · rw [if_pos hp]
    cases ha : s.hwd.active[j] with
    | none =>
      have other (b : Bool) : ¬ (j = k ∧ s.hwd.pendCommit.getLsbD k.val = true ∧ s.hwd.active[k] = some b) := by
        rintro ⟨rfl, -, e⟩
        rw [ha] at e
        cases e
      rw [if_neg (other true), if_neg (other false)]
      exact ⟨rfl, rfl, rfl, rfl⟩
    | some b =>
      have here (c : Bool) : (j = k ∧ s.hwd.pendCommit.getLsbD k.val = true ∧ s.hwd.active[k] = some c) ↔ (j = k ∧ b = c) := by
        refine ⟨?_, ?_⟩
        · rintro ⟨rfl, -, e⟩
          rw [ha] at e
          exact ⟨rfl, Option.some.inj e⟩
        · rintro ⟨rfl, rfl⟩
          exact ⟨rfl, hp, ha⟩
      rw [if_congr (here true) rfl rfl, if_congr (here false) rfl rfl]
      cases b with
      | true =>
        refine ⟨rfl, rfl, ?_, (if_neg (by simp)).symm⟩
        exact (set_at s.hwd.bankA).trans (if_congr (by simp) rfl rfl)
      | false =>
        refine ⟨rfl, rfl, (if_neg (by simp)).symm, ?_⟩
        exact (set_at s.hwd.bankB).trans (if_congr (by simp) rfl rfl)
  · rw [if_neg hp]
    have other : ¬ (j = k ∧ s.hwd.pendCommit.getLsbD k.val = true) := by
      rintro ⟨rfl, e⟩
      exact hp e
    rw [if_neg (none_hit other true), if_neg (none_hit other false)]
    exact ⟨rfl, rfl, rfl, rfl⟩

theorem foldl_commitSlot_get (l : List (Fin 128)) (s : State) (k : Fin 128) : (l.foldl commitSlot s).hwd.active = s.hwd.active ∧
    (l.foldl commitSlot s).hwd.pendCommit = s.hwd.pendCommit ∧
    (l.foldl commitSlot s).hwd.bankA[k] =
      (if k ∈ l ∧ s.hwd.pendCommit.getLsbD k.val = true ∧ s.hwd.active[k] = some true then [] else s.hwd.bankA[k]) ∧
    (l.foldl commitSlot s).hwd.bankB[k] =
      (if k ∈ l ∧ s.hwd.pendCommit.getLsbD k.val = true ∧ s.hwd.active[k] = some false then [] else s.hwd.bankB[k]) := by
  induction l generalizing s with
  | nil => simp
  | cons j js ih =>
    obtain ⟨act, pend, a, b⟩ := commitSlot_get s j k
    obtain ⟨act', pend', a', b'⟩ := ih (commitSlot s j)
    rw [List.foldl_cons, act', pend', a', b', act, pend, a, b]
    have either (p : Prop) [Decidable p] (v : List Byte) :
        (if k ∈ js ∧ p then [] else if j = k ∧ p then [] else v) = if k ∈ j :: js ∧ p then [] else v := by
      by_cases hp : p <;> by_cases hj : k ∈ js <;> simp [hp, hj, eq_comm]
    exact ⟨rfl, rfl, either _ _, either _ _⟩

theorem commitSlots_effect (s : State) : (commitSlots s).hwd.pendCommit = 0 ∧ (commitSlots s).hwd.committed = true ∧
    (commitSlots s).hwd.active = s.hwd.active ∧ ∀ k : Fin 128,
    (s.hwd.pendCommit.getLsbD k.val = true → s.hwd.active[k] = some false →
      (commitSlots s).hwd.bankB[k] = [] ∧ (commitSlots s).hwd.bankA[k] = s.hwd.bankA[k]) ∧
    (s.hwd.pendCommit.getLsbD k.val = false →
      (commitSlots s).hwd.bankA[k] = s.hwd.bankA[k] ∧ (commitSlots s).hwd.bankB[k] = s.hwd.bankB[k]) := by
  refine ⟨rfl, rfl, (foldl_commitSlot_get (List.finRange 128) s 0).1, fun k => ?_⟩
  obtain ⟨-, -, a, b⟩ := foldl_commitSlot_get (List.finRange 128) s k
  have bankA : (commitSlots s).hwd.bankA[k] = _ := a
  have bankB : (commitSlots s).hwd.bankB[k] = _ := b
  rw [bankA, bankB]
  refine ⟨fun hp ha => ⟨if_pos ⟨List.mem_finRange k, hp, ha⟩, if_neg (by simp [ha])⟩, fun hp => ⟨if_neg ?_, if_neg ?_⟩⟩
  · exact fun ⟨_, h, _⟩ => by rw [hp] at h; cases h
  · exact fun ⟨_, h, _⟩ => by rw [hp] at h; cases h

/-! ### The other commands -/

theorem opDelete_of (a : Word) (k : Fin 128) (s : State) (h : argSlot a = k.val) :
    opDelete a s = hwdBegin 4 0 [] (cacheDrop k (setActive k none (putEntry k true [] (putEntry k false [] s)))) := by
  unfold opDelete
  rw [argSlot_lt a k h]

/-- Both copies of a slot that is deleted are zeroed, and no other slot changes. -/
theorem opDelete_effect (a : Word) (k : Fin 128) (s : State) (h : argSlot a = k.val) : (opDelete a s).hwd.bankA[k] = [] ∧
    (opDelete a s).hwd.bankB[k] = [] ∧ (opDelete a s).hwd.active[k] = none ∧
      ∀ j : Fin 128, j ≠ k → (opDelete a s).hwd.active[j] = s.hwd.active[j] ∧ (opDelete a s).hwd.bankA[j] = s.hwd.bankA[j] ∧
        (opDelete a s).hwd.bankB[j] = s.hwd.bankB[j] := by
  rw [opDelete_of a k s h]
  have kept (u : State) : (hwdBegin 4 0 [] (cacheDrop k u)).hwd.active = u.hwd.active ∧
      (hwdBegin 4 0 [] (cacheDrop k u)).hwd.bankA = u.hwd.bankA ∧ (hwdBegin 4 0 [] (cacheDrop k u)).hwd.bankB = u.hwd.bankB :=
    ⟨rfl, rfl, rfl⟩
  obtain ⟨act, bankA, bankB⟩ := kept (setActive k none (putEntry k true [] (putEntry k false [] s)))
  obtain ⟨act', -, bankA', bankB'⟩ := setActive_effect k none (putEntry k true [] (putEntry k false [] s))
  have put : (putEntry k true [] (putEntry k false [] s)).hwd.active = s.hwd.active ∧
      (putEntry k true [] (putEntry k false [] s)).hwd.bankA = s.hwd.bankA.set k [] ∧
      (putEntry k true [] (putEntry k false [] s)).hwd.bankB = s.hwd.bankB.set k [] := ⟨rfl, rfl, rfl⟩
  obtain ⟨act'', bankA'', bankB''⟩ := put
  rw [act, bankA, bankB, act', bankA', bankB', act'', bankA'', bankB'']
  refine ⟨Vector.getElem_set_self k.isLt, Vector.getElem_set_self k.isLt, Vector.getElem_set_self k.isLt, fun j hj => ?_⟩
  have ne : k.val ≠ j.val := fun e => hj (Fin.ext e.symm)
  exact ⟨Vector.getElem_set_ne _ _ ne, Vector.getElem_set_ne _ _ ne, Vector.getElem_set_ne _ _ ne⟩

/-- The public identity key. -/
theorem opPublic_identity (a : Word) (s : State) (h : argSlot a = 0xFE) (hd : derivRefused s = false) :
    opPublic a s = hwdBegin 3 0 (Config.ecdsaPublic (idk s)) s := by
  unfold opPublic
  dsimp only
  rw [h, if_pos (.inl rfl), if_neg (by rw [hd]; simp), if_pos rfl]

theorem opReseal_none (s : State) (h : s.fwu.target = none) : opReseal s = hwdBegin 5 9 [] s := by
  unfold opReseal
  rw [h]

theorem statement_head (nonce : List Byte) (s : State) : ∃ rest, statement nonce s = [0x41, 0x54, 0x53, 0x54] ++ rest := by
  unfold statement
  dsimp only
  simp only [List.append_assoc]
  exact ⟨_, rfl⟩

theorem opAttest_refused (s : State) (h : derivRefused s = true) : opAttest s = hwdBegin 7 5 [] s := if_pos h

theorem opAttest_signs (s : State) (h : derivRefused s = false) : opAttest s = hwdBegin 7 0
    (statement (lndRead hwdBase 32 s) s ++ Config.ecdsaSign (idk s) (statement (lndRead hwdBase 32 s) s))
    (onHwd (fun h => { h with attFn := s.fn }) s) := if_neg (by rw [h]; simp)

theorem opBbk_new (a : Word) (b : Fin 8) (s : State) (h : argSlot a = b.val) (ht : bbkTypOk b.val (argTyp a) = true)
    (hb : s.hwd.bbk[b] = none) (hf : s.hwd.trngFail = false) : opBbk a s = hwdBegin 8 0 [] (onHwd (fun h => { h with
      bbk := h.bbk.set b (some { typ := argTyp a, key := (randomKey (argTyp a) s).1 }) }) (randomKey (argTyp a) s).2) := by
  unfold opBbk
  rw [h, optFin_val]
  dsimp only
  rw [hb, ht, if_neg (by simp), if_neg (by simp), if_neg (by rw [hf]; simp)]

theorem opBbk_ledgerHeld (a : Word) (s : State) (h : argSlot a = 1) (ht : argTyp a = 1) (hb : (s.hwd.bbk[(1 : Fin 8)]).isSome = true)
    (hs : s.tdm.st ≠ .single) : opBbk a s = hwdBegin 8 2 [] s := by
  have slot : optFin 8 1 = some (1 : Fin 8) := rfl
  unfold opBbk
  rw [h, slot]
  dsimp only
  rw [ht, hb, if_neg (by decide), if_pos (by simp [hs])]

theorem opEnroll_first (s : State) (h : s.hwd.smpRows = []) : opEnroll s = hwdBegin 9 0 [] (onHwd (fun x => { x with
    smpKey := (lndRead hwdBase 192 s).take 96,
    smpRows := x.smpRows ++ [hashBytes (Config.sha384 ((lndRead hwdBase 192 s).take 96))] }) s) := by
  unfold opEnroll
  dsimp only
  rw [if_pos h]
  rfl

/-! ### The end of a command (R380) -/

theorem hwdDone_none (s : State) (h : s.hwd.busy = none) : hwdDone s = s := by
  unfold hwdDone
  rw [h]

/-- The state of a completed command: the result, and the output in the buffer. -/
def answered (r : HwdRun) (s : State) : State :=
  hwdInt 1 (onHwd (fun h => { h with busy := none, done := true, result := r.result, op := r.op })
    (if r.out = [] then s else lndWrite hwdBase r.out s))

theorem hwdDone_of (r : HwdRun) (s : State) (h : s.hwd.busy = some r) : hwdDone s = hwdFwu r (answered r s) := by
  unfold hwdDone
  rw [h]
  rfl

theorem answered_mem (r : HwdRun) (s : State) : (answered r s).lnd.mem = memWriteBytes s.lnd.mem hwdBase r.out := by
  have through (u : State) : (hwdInt 1 (onHwd (fun h => { h with busy := none, done := true, result := r.result, op := r.op }) u)).lnd = u.lnd := rfl
  unfold answered
  rw [through]
  split
  case isTrue h => rw [h]; rfl
  case isFalse => rfl

theorem answered_hwd (r : HwdRun) (s : State) : (answered r s).hwd.busy = none ∧ (answered r s).hwd.done = true ∧
    (answered r s).hwd.result = r.result ∧ (answered r s).fwu = s.fwu := by
  unfold answered
  refine ⟨rfl, rfl, rfl, ?_⟩
  split <;> rfl

/-- What the update notes of a command that ends. -/
def fwuNoted (r : HwdRun) (s : State) : State :=
  if r.result ≠ 0 then s
  else if r.op = 5 then { s with fwu := { s.fwu with resealed := true } }
  else if r.op = 6 then { s with fwu := { s.fwu with
    rec0 := s.fwu.rec0.map fun x => { x with pendCommit := false }, rec1 := s.fwu.rec1.map fun x => { x with pendCommit := false } } }
  else s

theorem fwuNoted_frame (r : HwdRun) (s : State) : fwuNoted r s = { s with fwu := { s.fwu with
    resealed := (fwuNoted r s).fwu.resealed, rec0 := (fwuNoted r s).fwu.rec0, rec1 := (fwuNoted r s).fwu.rec1 } } := by
  unfold fwuNoted
  split
  · rfl
  · split
    · rfl
    · split <;> rfl

theorem fwuNoted_effect (r : HwdRun) (s : State) (h : r.result = 0) : (r.op = 5 → (fwuNoted r s).fwu.resealed = true) ∧
    (r.op = 6 → (∀ x, (fwuNoted r s).fwu.rec0 = some x → x.pendCommit = false) ∧
      ∀ x, (fwuNoted r s).fwu.rec1 = some x → x.pendCommit = false) := by
  have gone (c : Option BootRec) (x : BootRec) (hx : (c.map fun x => { x with pendCommit := false }) = some x) : x.pendCommit = false := by
    cases c with
    | none => cases hx
    | some y => exact Option.some.inj hx ▸ rfl
  unfold fwuNoted
  rw [if_neg (by simp [h])]
  refine ⟨fun h5 => ?_, fun h6 => ?_⟩
  · rw [if_pos h5]
  · rw [if_neg (by omega), if_pos h6]
    exact ⟨gone _, gone _⟩

theorem hwdFwu_idle (r : HwdRun) (s : State) (h : s.fwu.hwdWant = none) : hwdFwu r s = fwuNoted r s := by
  have want : (fwuNoted r s).fwu.hwdWant = none := by rw [fwuNoted_frame]; exact h
  show (match (fwuNoted r s).fwu.hwdWant with | some op => hwdAsk op (fwuNoted r s) | none => fwuNoted r s) = _
  rw [want]

theorem hwdFwu_wanted (r : HwdRun) (op : Nat) (s : State) (h : s.fwu.hwdWant = some op) : hwdFwu r s = hwdAsk op (fwuNoted r s) := by
  have want : (fwuNoted r s).fwu.hwdWant = some op := by rw [fwuNoted_frame]; exact h
  show (match (fwuNoted r s).fwu.hwdWant with | some op => hwdAsk op (fwuNoted r s) | none => fwuNoted r s) = _
  rw [want]

/-- A command that the update wants begins where none runs. -/
theorem hwdAsk_begins (op : Nat) (s : State) (hb : s.hwd.busy = none) (h : op = 5 ∨ op = 6) :
    Begins op { s with fwu := { s.fwu with hwdWant := none } } (hwdAsk op s) := by
  unfold hwdAsk
  rw [if_neg (by rw [hb]; simp)]
  obtain rfl | rfl := h
  · exact opReseal_begins _
  · exact opResealCommit_begins _

end Sys2Proof.Machine
end

section
/-! The rows of the key store's commands (O54). -/

namespace Sys2Proof.Machine

section
variable {a : Word} {k : Fin 128} {s : State}

theorem generate_new (hm : s.isl.met = true) (hb : s.hwd.busy = none) (h : argSlot a = k.val) (h1 : 1 ≤ argTyp a) (h3 : argTyp a ≤ 3)
    (hd : derivRefused s = false) (ha : s.hwd.active[k] = none) (ht : s.hwd.trngFail = false) : ∃ t r, exec (.hwdGenerate a) s = .next t ∧
      t.hwd.busy = some r ∧ r.result = 0 ∧ t.hwd.active[k] = some false ∧ entTyp t.hwd.bankA[k] = argTyp a ∧
      t.hwd.bankB = s.hwd.bankB ∧ t.live.slotValid = validBits t.hwd.active ∧
      ∀ j : Fin 128, j ≠ k → t.hwd.active[j] = s.hwd.active[j] ∧ t.hwd.bankA[j] = s.hwd.bankA[j] := by
  have row : exec (.hwdGenerate a) s = .next (opGenerate a (argHeld a s)) := hwdRow_idle 1 a s hm hb
  rw [opGenerate_new a k (argHeld a s) h h1 h3 hd ha ht] at row
  have random : (randomKey (argTyp a) (argHeld a s)).2.hwd = (argHeld a s).hwd := rfl
  generalize (randomKey (argTyp a) (argHeld a s)).2 = u at row random
  have active : u.hwd.active = s.hwd.active := by rw [random]; rfl
  have bankA : u.hwd.bankA = s.hwd.bankA := by rw [random]; rfl
  have bankB : u.hwd.bankB = s.hwd.bankB := by rw [random]; rfl
  have new := newKey_effect k (argTyp a) (argUsage a) (argMask a) (randomKey (argTyp a) (argHeld a s)).1 u (by omega) (by rw [active, ha])
  rw [active, bankA, bankB] at new
  generalize newKey k _ _ _ _ u = v at row new
  exact ⟨_, _, row, rfl, rfl, new⟩

theorem newKey_refused (x : Bool) (hm : s.isl.met = true) (hb : s.hwd.busy = none) (h : argSlot a = k.val) (h1 : 1 ≤ argTyp a)
    (h3 : argTyp a ≤ 3) (hd : derivRefused s = false) (ha : s.hwd.active[k] = some x) (c : Instr)
    (hc : c ∈ ([.hwdGenerate a, .hwdImport a] : List Instr)) : ∃ t r, exec c s = .next t ∧ t.hwd.busy = some r ∧ r.result = 2 ∧
      t.hwd.active = s.hwd.active ∧ t.hwd.bankA = s.hwd.bankA ∧ t.hwd.bankB = s.hwd.bankB := by
  obtain ⟨gen, imp⟩ := newKey_held a k x (argHeld a s) h h1 h3 hd ha
  simp only [List.mem_cons, List.not_mem_nil, or_false] at hc
  obtain rfl | rfl := hc
  · exact ⟨_, _, (hwdRow_idle 1 a s hm hb).trans (congrArg Host.Outcome.next gen), rfl, rfl, rfl, rfl, rfl⟩
  · exact ⟨_, _, (hwdRow_idle 2 a s hm hb).trans (congrArg Host.Outcome.next imp), rfl, rfl, rfl, rfl, rfl⟩

theorem import_new (hm : s.isl.met = true) (hb : s.hwd.busy = none) (h : argSlot a = k.val) (h1 : 1 ≤ argTyp a) (h3 : argTyp a ≤ 3)
    (hd : derivRefused s = false) (ha : s.hwd.active[k] = none) : ∃ t r, exec (.hwdImport a) s = .next t ∧ t.hwd.busy = some r ∧
      (∀ key, Config.hwdImport (imk s) (lndRead hwdBase 16384 s) = some key → r.result = 0 ∧ t.hwd.active[k] = some false ∧
        entTyp t.hwd.bankA[k] = argTyp a) ∧
      (Config.hwdImport (imk s) (lndRead hwdBase 16384 s) = none → r.result = 7 ∧ t.hwd.active = s.hwd.active ∧
        t.hwd.bankA = s.hwd.bankA) := by
  have row : exec (.hwdImport a) s = .next (opImport a (argHeld a s)) := hwdRow_idle 2 a s hm hb
  rw [opImport_new a k (argHeld a s) h h1 h3 hd ha] at row
  have opens : Config.hwdImport (imk (argHeld a s)) (lndRead hwdBase 16384 (argHeld a s)) =
    Config.hwdImport (imk s) (lndRead hwdBase 16384 s) := rfl
  rw [opens] at row
  cases hk : Config.hwdImport (imk s) (lndRead hwdBase 16384 s) with
  | some key =>
    rw [hk] at row
    obtain ⟨act, typ, -⟩ := newKey_effect k (argTyp a) (argUsage a) (argMask a) key (argHeld a s) (by omega) ha
    exact ⟨_, _, row, rfl, fun _ _ => ⟨rfl, act, typ⟩, by simp⟩
  | none =>
    rw [hk] at row
    exact ⟨_, _, row, rfl, by simp, fun _ => ⟨rfl, rfl, rfl⟩⟩

theorem resealCommit_zeroes (hm : s.isl.met = true) (hb : s.hwd.busy = none) : ∃ t, exec (.hwdResealCommit a) s = .next t ∧
    t.hwd.pendCommit = 0 ∧ t.hwd.committed = true ∧ t.hwd.active = s.hwd.active ∧
    ∀ k : Fin 128, (s.hwd.pendCommit.getLsbD k.val = true → s.hwd.active[k] = some false → t.hwd.bankB[k] = [] ∧
      t.hwd.bankA[k] = s.hwd.bankA[k]) ∧
      (s.hwd.pendCommit.getLsbD k.val = false → t.hwd.bankA[k] = s.hwd.bankA[k] ∧ t.hwd.bankB[k] = s.hwd.bankB[k]) :=
  ⟨_, hwdRow_idle 6 a s hm hb, commitSlots_effect (argHeld a s)⟩

theorem attest_answers (hm : s.isl.met = true) (hb : s.hwd.busy = none) : ∃ t r, exec (.hwdAttest a) s = .next t ∧ t.hwd.busy = some r ∧
    (derivRefused s = true → r.result = 5 ∧ r.out = [] ∧ t.hwd.attFn = s.hwd.attFn) ∧
    (derivRefused s = false → r.result = 0 ∧ t.hwd.attFn = s.fn ∧ r.out.take 4 = [0x41, 0x54, 0x53, 0x54]) := by
  have row : exec (.hwdAttest a) s = .next (opAttest (argHeld a s)) := hwdRow_idle 7 a s hm hb
  cases hd : derivRefused s with
  | true =>
    rw [opAttest_refused (argHeld a s) hd] at row
    exact ⟨_, _, row, rfl, fun _ => ⟨rfl, rfl, rfl⟩, by simp⟩
  | false =>
    rw [opAttest_signs (argHeld a s) hd] at row
    obtain ⟨rest, head⟩ := statement_head (lndRead hwdBase 32 (argHeld a s)) (argHeld a s)
    rw [head, List.append_assoc] at row
    exact ⟨_, _, row, rfl, by simp, fun _ => ⟨rfl, rfl, rfl⟩⟩

theorem bbkGenerate_new (b : Fin 8) (hm : s.isl.met = true) (hb : s.hwd.busy = none) (h : argSlot a = b.val)
    (ht : bbkTypOk b.val (argTyp a) = true) (hn : s.hwd.bbk[b] = none) (hf : s.hwd.trngFail = false) :
    ∃ t r k, exec (.hwdBbkGenerate a) s = .next t ∧ t.hwd.busy = some r ∧
      r.result = 0 ∧ t.hwd.bbk[b] = some k ∧ k.typ = argTyp a ∧ ∀ j : Fin 8, j ≠ b → t.hwd.bbk[j] = s.hwd.bbk[j] := by
  have row : exec (.hwdBbkGenerate a) s = .next (opBbk a (argHeld a s)) := hwdRow_idle 8 a s hm hb
  rw [opBbk_new a b (argHeld a s) h ht hn hf] at row
  refine ⟨_, _, { typ := argTyp a, key := (randomKey (argTyp a) (argHeld a s)).1 }, row, rfl, rfl, Vector.getElem_set_self b.isLt, rfl,
    fun j hj => ?_⟩
  exact Vector.getElem_set_ne b.isLt j.isLt fun e => hj (Fin.ext e.symm)

theorem enroll_first (hm : s.isl.met = true) (hb : s.hwd.busy = none) (h : s.hwd.smpRows = []) :
    ∃ t r, exec (.hwdEnrollSmp a) s = .next t ∧
    t.hwd.busy = some r ∧ r.result = 0 ∧ t.hwd.smpKey = (lndRead hwdBase 192 s).take 96 ∧
    t.hwd.smpRows = [hashBytes (Config.sha384 t.hwd.smpKey)] := by
  have row : exec (.hwdEnrollSmp a) s = .next (opEnroll (argHeld a s)) := hwdRow_idle 9 a s hm hb
  rw [opEnroll_first (argHeld a s) h] at row
  exact ⟨_, _, row, rfl, rfl, rfl, congrArg (· ++ [hashBytes (Config.sha384 ((lndRead hwdBase 192 s).take 96))]) h⟩

theorem commandDone_answers (r : HwdRun) (hm : s.isl.met = true) (hb : s.hwd.busy = some r) (hw : s.fwu.hwdWant = none)
    (wf : Memory.wf s.lnd.mem = true) : ∃ t, exec .hwdCommandDone s = .next t ∧ t.hwd.busy = none ∧
      (r.op = 5 → r.result = 0 → t.fwu.resealed = true) ∧
      (r.op = 6 → r.result = 0 → (∀ x, t.fwu.rec0 = some x → x.pendCommit = false) ∧ ∀ x, t.fwu.rec1 = some x → x.pendCommit = false) ∧
      t.hwd.done = true ∧ t.hwd.result = r.result ∧ memReadBytes t.lnd.mem hwdBase r.out.length = r.out ∧
      ∀ x : Nat, x < hwdBase ∨ hwdBase + r.out.length ≤ x → memRead t.lnd.mem x = memRead s.lnd.mem x := by
  obtain ⟨busy, done, result, fwu⟩ := answered_hwd r s
  have row : exec .hwdCommandDone s = .next (fwuNoted r (answered r s)) := by
    show execHwdCommandDone s = _
    rw [execHwdCommandDone, whenOn_on s hm, hwdDone_of r s hb, hwdFwu_idle r _ (by rw [fwu]; exact hw)]
  have frame := fwuNoted_frame r (answered r s)
  have mem : (fwuNoted r (answered r s)).lnd.mem = memWriteBytes s.lnd.mem hwdBase r.out :=
    (congrArg (fun t : State => t.lnd.mem) frame :).trans (answered_mem r s)
  refine ⟨_, row, (congrArg (fun t : State => t.hwd.busy) frame :).trans busy, fun h5 h0 => (fwuNoted_effect r _ h0).1 h5,
    fun h6 h0 => (fwuNoted_effect r _ h0).2 h6, (congrArg (fun t : State => t.hwd.done) frame :).trans done,
    (congrArg (fun t : State => t.hwd.result) frame :).trans result, ?_, fun x hx => ?_⟩
  · rw [mem, memReadBytes_memWriteBytes _ _ _ wf]
  · rw [mem, memRead_memWriteBytes_off _ _ _ _ wf hx]

theorem commandDone_next (r : HwdRun) (op : Nat) (hm : s.isl.met = true) (hb : s.hwd.busy = some r) (hw : s.fwu.hwdWant = some op)
    (h : op = 5 ∨ op = 6) : ∃ t x, exec .hwdCommandDone s = .next t ∧ t.hwd.busy = some x ∧ x.op = op ∧ t.fwu.hwdWant = none := by
  obtain ⟨busy, -, -, fwu⟩ := answered_hwd r s
  have row : exec .hwdCommandDone s = .next (hwdAsk op (fwuNoted r (answered r s))) := by
    show execHwdCommandDone s = _
    rw [execHwdCommandDone, whenOn_on s hm, hwdDone_of r s hb, hwdFwu_wanted r op _ (by rw [fwu]; exact hw)]
  have idle : (fwuNoted r (answered r s)).hwd.busy = none := (congrArg (fun t : State => t.hwd.busy) (fwuNoted_frame r (answered r s)) :).trans busy
  generalize fwuNoted r (answered r s) = v at row idle
  obtain ⟨result, out, u, hu, work⟩ := hwdAsk_begins op v idle h
  rw [hu] at row
  exact ⟨_, _, row, rfl, rfl, (congrArg (fun t : State => t.fwu.hwdWant) work :)⟩

end

/-- Settles O54: every command of the key store begins with its own result, and each of the rules by its row. -/
theorem heartwoodCommands : Obligations.HeartwoodCommands := by
  unfold Obligations.HeartwoodCommands
  refine ⟨fun a s hm hb c n hc => ?_, fun a s hb c hc => ?_, fun a k s => generate_new, fun a k x s => newKey_refused x,
    fun a k s => import_new, fun a s hm hb h hd => ?_, fun a k s hm hb h => ⟨_, hwdRow_idle 4 a s hm hb, opDelete_effect a k (argHeld a s) h⟩,
    fun a s hm hb h => ?_, fun a s => resealCommit_zeroes, fun a s => attest_answers, fun a b s => bbkGenerate_new b,
    fun a s hm hb h ht hh hs => ?_, fun a s => enroll_first, fun r s => commandDone_answers r, fun r op s => commandDone_next r op,
    fun s h => whenOn_id (hwdDone_none s h)⟩
  · obtain ⟨r, effect⟩ := begins_effect (hwdOp_begins n a (argHeld a s))
    exact ⟨_, r, (exec_hwd a c n hc s).trans (hwdRow_idle n a s hm hb), effect⟩
  · simp only [List.mem_cons, List.not_mem_nil, or_false] at hc
    obtain rfl | rfl | rfl | rfl | rfl | rfl | rfl | rfl | rfl := hc <;> exact hwdRow_busy _ a s hb
  · exact ⟨_, _, (hwdRow_idle 3 a s hm hb).trans (congrArg Host.Outcome.next (opPublic_identity a (argHeld a s) h hd)), rfl, rfl, rfl⟩
  · exact ⟨_, _, (hwdRow_idle 5 a s hm hb).trans (congrArg Host.Outcome.next (opReseal_none (argHeld a s) h)), rfl, rfl, rfl, rfl⟩
  · exact ⟨_, _, (hwdRow_idle 8 a s hm hb).trans (congrArg Host.Outcome.next (opBbk_ledgerHeld a (argHeld a s) h ht hh hs)), rfl, rfl, rfl⟩

end Sys2Proof.Machine
end

section
/-! The service port and the block protocol of an update (chapter 16) (O56). -/

namespace Sys2Proof.Machine

/-! ### Packets at the port (R387) -/

/-- The link of the port is up. -/
def svcLinked (s : State) : State := { s with fwu := { s.fwu with svcUp := true } }

theorem svcPacket_on (s : State) (f : State → State) (hm : s.isl.met = true) (h : s.fwu.svcIp ≠ 0) : svcPacket s f = .next (f (svcLinked s)) := by
  have on : svcOn (svcLinked s) = true := decide_eq_true h
  unfold svcPacket
  rw [whenOn_on s hm]
  exact congrArg Host.Outcome.next (if_pos on)

theorem svcPacket_off (s : State) (f : State → State) (hm : s.isl.met = true) (h : s.fwu.svcIp = 0) : svcPacket s f =
    .next { s with fwu := { s.fwu with svcUp := true, svcDrops := s.fwu.svcDrops + 1 } } := by
  have off : ¬ svcOn (svcLinked s) = true := by simp [svcOn, svcLinked, h]
  unfold svcPacket
  rw [whenOn_on s hm]
  exact congrArg Host.Outcome.next (if_neg off)

/-! ### Sessions and manifests (R388) -/

/-- A change of the update's state leaves all but the block and the events. -/
theorem fwuGo_frame (st : FwSt) (b : Option Nat) (s : State) :
    fwuGo st b s = { s with fwu := { s.fwu with st := st, intStatus := (fwuGo st b s).fwu.intStatus }, evs := (fwuGo st b s).evs } := rfl

theorem fwuOpen_effect (ss : BitVec 16) (n : Nat) (s : State) : (fwuOpen ss n s).fwu.sess = some ss ∧
    (fwuOpen ss n s).fwu.held = s.fwu.held ∧ (fwuOpen ss n s).fwu.manifest = s.fwu.manifest ∧
    (s.fwu.st = .idle → (fwuOpen ss n s).fwu.st = .receiving ∧ (fwuOpen ss n s).fwu.blocks = min 4096 n) ∧
    (s.fwu.st ≠ .idle → (fwuOpen ss n s).fwu.st = s.fwu.st ∧ (fwuOpen ss n s).fwu.blocks = s.fwu.blocks) ∧
    fwuOpen ss n s = { s with fwu := (fwuOpen ss n s).fwu, evs := (fwuOpen ss n s).evs } := by
  by_cases h : s.fwu.st = .idle
  · have opened : fwuOpen ss n s = fwuGo .receiving none (onFwu (fun f => { f with sess := some ss, blocks := min 4096 n }) s) := if_pos h
    rw [opened]
    exact ⟨rfl, rfl, rfl, fun _ => ⟨rfl, rfl⟩, fun ne => absurd h ne, rfl⟩
  · have opened : fwuOpen ss n s = onFwu (fun f => { f with sess := some ss }) s := if_neg h
    rw [opened]
    exact ⟨rfl, rfl, rfl, fun e => absurd e h, fun _ => ⟨rfl, rfl⟩, rfl⟩

theorem fwuManifest_effect (ss : BitVec 16) (img : List Byte) (s : State) :
    (s.fwu.sess = some ss → s.fwu.manifest = [] → (fwuManifest ss img s).fwu.manifest = img) ∧
    (s.fwu.sess ≠ some ss → (fwuManifest ss img s).fwu.ack = some (0, 3) ∧ (fwuManifest ss img s).fwu.manifest = s.fwu.manifest) ∧
    (s.fwu.sess = some ss → s.fwu.manifest ≠ [] → Config.sha384 img ≠ Config.sha384 s.fwu.manifest →
      (fwuManifest ss img s).fwu.ack = some (0, 4) ∧ (fwuManifest ss img s).fwu.sess = none ∧
        (fwuManifest ss img s).fwu.manifest = s.fwu.manifest) ∧
    (fwuManifest ss img s).fwu.held = s.fwu.held ∧ (fwuManifest ss img s).fwu.st = s.fwu.st ∧
    fwuManifest ss img s = { s with fwu := (fwuManifest ss img s).fwu } := by
  unfold fwuManifest
  split
  case isTrue h => exact ⟨fun e => absurd e h, fun _ => ⟨rfl, rfl⟩, fun e => absurd e h, rfl, rfl, rfl⟩
  case isFalse h =>
    split
    case isTrue hm => exact ⟨fun _ _ => rfl, fun e => absurd e h, fun _ e => absurd hm e, rfl, rfl, rfl⟩
    case isFalse hm =>
      split
      case isTrue hs => exact ⟨fun _ e => absurd e hm, fun e => absurd e h, fun _ _ e => absurd hs e, rfl, rfl, rfl⟩
      case isFalse => exact ⟨fun _ e => absurd e hm, fun e => absurd e h, fun _ _ _ => ⟨rfl, rfl, rfl⟩, rfl, rfl, rfl⟩

/-! ### Blocks (R388) -/

theorem fwuBlock_taken (ss : BitVec 16) (n : Nat) (q : Fin 4) (crc : BitVec 32) (bs : List Byte) (s : State) (hs : s.fwu.sess = some ss)
    (hn : n < s.fwu.blocks) (hh : s.fwu.held.getLsbD n = false) (hr : s.fwu.st = .receiving) (hb : bs.length = 1024) :
    fwuBlock ss n q crc bs s = fwuQuarter n q crc bs s := by
  unfold fwuBlock
  rw [if_neg (by simp [hs]), if_neg (by omega), if_neg (by simp [hh]), if_neg (by simp [hr]), if_neg (by simp [hb])]

theorem quartersOf_cons (f : Fwu) (n : Nat) (got : BitVec 4) (rest : List (Nat × BitVec 4)) :
    quartersOf { f with quarters := (n, got) :: rest } n = got := by
  simp [quartersOf]

theorem quartersOf_dropped (f : Fwu) (n : Nat) (l : List (Nat × BitVec 4)) (h : f.quarters = l.filter (·.1 ≠ n)) : quartersOf f n = 0 := by
  have none_left : f.quarters.find? (·.1 = n) = none := by
    rw [h, List.find?_eq_none]
    intro x hx
    simpa using (List.mem_filter.mp hx).2
  unfold quartersOf
  rw [none_left]

/-- A quarter stored in the staging area of its block. -/
def quarterStored (n : Nat) (q : Fin 4) (bs : List Byte) (s : State) : State := lndWrite (fwBase + 4096 * n + 1024 * q.val) bs s

/-- A quarter that leaves its block open. -/
theorem fwuQuarter_open (n : Nat) (q : Fin 4) (crc : BitVec 32) (bs : List Byte) (s : State) (h : setBit (quartersOf s.fwu n) q.val ≠ 0xF) :
    fwuQuarter n q crc bs s = onFwu (fun f => { f with quarters := (n, setBit (quartersOf s.fwu n) q.val) :: s.fwu.quarters.filter (·.1 ≠ n) })
      (quarterStored n q bs s) := if_pos h

/-- A block that is complete: its quarters are no longer kept. -/
def blockClosed (n : Nat) (q : Fin 4) (bs : List Byte) (s : State) : State :=
  onFwu (fun f => { f with quarters := s.fwu.quarters.filter (·.1 ≠ n) }) (quarterStored n q bs s)

/-- The state of a block whose check sum holds. -/
def blockHeld (n : Nat) (s : State) : State := fwuAck n 0 (onFwu (fun f => { f with held := setBit f.held n }) s)

theorem fwuQuarter_good (n : Nat) (q : Fin 4) (crc : BitVec 32) (bs : List Byte) (s : State) (h : setBit (quartersOf s.fwu n) q.val = 0xF)
    (hc : crc32c (lndRead (fwBase + 4096 * n) 4096 (quarterStored n q bs s)) = crc) : fwuQuarter n q crc bs s =
      if blocksHeld (blockHeld n (blockClosed n q bs s)).fwu = (blockHeld n (blockClosed n q bs s)).fwu.blocks then
        fwuGo .staged (some 0) (blockHeld n (blockClosed n q bs s))
      else blockHeld n (blockClosed n q bs s) :=
  (if_neg (not_not.mpr h)).trans (if_pos hc)

theorem fwuQuarter_bad (n : Nat) (q : Fin 4) (crc : BitVec 32) (bs : List Byte) (s : State) (h : setBit (quartersOf s.fwu n) q.val = 0xF)
    (hc : crc32c (lndRead (fwBase + 4096 * n) 4096 (quarterStored n q bs s)) ≠ crc) : fwuQuarter n q crc bs s =
      fwuAck n 1 (onFwu (fun f => { f with crcErrs := f.crcErrs + 1 }) (blockClosed n q bs s)) :=
  (if_neg (not_not.mpr h)).trans (if_neg hc)

/-- What a good block leaves, staged or not. -/
theorem fwuQuarter_good_effect (n : Nat) (q : Fin 4) (crc : BitVec 32) (bs : List Byte) (s : State)
    (h : setBit (quartersOf s.fwu n) q.val = 0xF) (hc : crc32c (lndRead (fwBase + 4096 * n) 4096 (quarterStored n q bs s)) = crc) :
    (fwuQuarter n q crc bs s).lnd = (quarterStored n q bs s).lnd ∧ (fwuQuarter n q crc bs s).fwu.ack = some (n, 0) ∧
      (fwuQuarter n q crc bs s).fwu.held = setBit s.fwu.held n ∧
      (fwuQuarter n q crc bs s).fwu.quarters = s.fwu.quarters.filter (·.1 ≠ n) := by
  rw [fwuQuarter_good n q crc bs s h hc]
  split <;> exact ⟨rfl, rfl, rfl, rfl⟩

theorem fwuQuarter_lnd (n : Nat) (q : Fin 4) (crc : BitVec 32) (bs : List Byte) (s : State) :
    (fwuQuarter n q crc bs s).lnd.mem = memWriteBytes s.lnd.mem (fwBase + 4096 * n + 1024 * q.val) bs := by
  have stored : (quarterStored n q bs s).lnd.mem = memWriteBytes s.lnd.mem (fwBase + 4096 * n + 1024 * q.val) bs := rfl
  by_cases h : setBit (quartersOf s.fwu n) q.val = 0xF
  · by_cases hc : crc32c (lndRead (fwBase + 4096 * n) 4096 (quarterStored n q bs s)) = crc
    · rw [(fwuQuarter_good_effect n q crc bs s h hc).1, stored]
    · rw [fwuQuarter_bad n q crc bs s h hc]
      exact stored
  · rw [fwuQuarter_open n q crc bs s h]
    exact stored

/-- The other blocks stay as they are. -/
theorem fwuQuarter_others (n : Nat) (q : Fin 4) (crc : BitVec 32) (bs : List Byte) (s : State) (m : Nat) (hm : m ≠ n) :
    (fwuQuarter n q crc bs s).fwu.held.getLsbD m = s.fwu.held.getLsbD m := by
  have set_other : (setBit s.fwu.held n).getLsbD m = s.fwu.held.getLsbD m := by
    by_cases lt : m < 4096
    · rw [getLsbD_setBit _ _ _ lt, decide_eq_false (Ne.symm hm), Bool.or_false]
    · rw [BitVec.getLsbD_of_ge _ _ (by omega), BitVec.getLsbD_of_ge _ _ (by omega)]
  by_cases h : setBit (quartersOf s.fwu n) q.val = 0xF
  · by_cases hc : crc32c (lndRead (fwBase + 4096 * n) 4096 (quarterStored n q bs s)) = crc
    · rw [(fwuQuarter_good_effect n q crc bs s h hc).2.2.1, set_other]
    · rw [fwuQuarter_bad n q crc bs s h hc]
      rfl
  · rw [fwuQuarter_open n q crc bs s h]
    rfl

/-- The fourth quarter decides by the check sum of the block. -/
theorem fwuQuarter_fourth (n : Nat) (q : Fin 4) (crc : BitVec 32) (bs : List Byte) (s : State) (hn : n < 4096)
    (h : setBit (quartersOf s.fwu n) q.val = 0xF) : quartersOf (fwuQuarter n q crc bs s).fwu n = 0 ∧
    (crc32c (memReadBytes (fwuQuarter n q crc bs s).lnd.mem (fwBase + 4096 * n) 4096) = crc →
      (fwuQuarter n q crc bs s).fwu.held.getLsbD n = true ∧ (fwuQuarter n q crc bs s).fwu.ack = some (n, 0)) ∧
    (crc32c (memReadBytes (fwuQuarter n q crc bs s).lnd.mem (fwBase + 4096 * n) 4096) ≠ crc →
      (fwuQuarter n q crc bs s).fwu.held = s.fwu.held ∧ (fwuQuarter n q crc bs s).fwu.ack = some (n, 1) ∧
        (fwuQuarter n q crc bs s).fwu.crcErrs = s.fwu.crcErrs + 1) := by
  have sum : memReadBytes (fwuQuarter n q crc bs s).lnd.mem (fwBase + 4096 * n) 4096 =
      lndRead (fwBase + 4096 * n) 4096 (quarterStored n q bs s) := by
    rw [fwuQuarter_lnd]
    rfl
  rw [sum]
  by_cases hc : crc32c (lndRead (fwBase + 4096 * n) 4096 (quarterStored n q bs s)) = crc
  · obtain ⟨-, ack, held, quarters⟩ := fwuQuarter_good_effect n q crc bs s h hc
    refine ⟨quartersOf_dropped _ n _ quarters, fun _ => ⟨?_, ack⟩, fun ne => absurd hc ne⟩
    rw [held, getLsbD_setBit _ _ _ hn, decide_eq_true rfl, Bool.or_true]
  · rw [fwuQuarter_bad n q crc bs s h hc]
    exact ⟨quartersOf_dropped _ n s.fwu.quarters rfl, fun e => absurd e hc, fun _ => ⟨rfl, rfl, rfl⟩⟩

theorem fwuBlock_stores (ss : BitVec 16) (n : Nat) (q : Fin 4) (crc : BitVec 32) (bs : List Byte) (s : State) (hm : s.isl.met = true)
    (hp : s.fwu.svcIp ≠ 0) (hs : s.fwu.sess = some ss) (hb : n < s.fwu.blocks) (hn : n < 4096) (hh : s.fwu.held.getLsbD n = false)
    (hr : s.fwu.st = .receiving) (hl : bs.length = 1024) (wf : Memory.wf s.lnd.mem = true) : ∃ t, exec (.fwuBlock ss n q crc bs) s = .next t ∧
      memReadBytes t.lnd.mem (fwBase + 4096 * n + 1024 * q.val) 1024 = bs ∧
      (∀ a : Nat, a < fwBase + 4096 * n + 1024 * q.val ∨ fwBase + 4096 * n + 1024 * q.val + 1024 ≤ a →
        memRead t.lnd.mem a = memRead s.lnd.mem a) ∧
      (∀ m : Nat, m ≠ n → t.fwu.held.getLsbD m = s.fwu.held.getLsbD m) ∧
      (setBit (quartersOf s.fwu n) q.val ≠ 0xF → quartersOf t.fwu n = setBit (quartersOf s.fwu n) q.val ∧
        t.fwu.held = s.fwu.held ∧ t.fwu.st = .receiving) ∧
      (setBit (quartersOf s.fwu n) q.val = 0xF → quartersOf t.fwu n = 0 ∧
        (crc32c (memReadBytes t.lnd.mem (fwBase + 4096 * n) 4096) = crc → t.fwu.held.getLsbD n = true ∧ t.fwu.ack = some (n, 0)) ∧
        (crc32c (memReadBytes t.lnd.mem (fwBase + 4096 * n) 4096) ≠ crc → t.fwu.held = s.fwu.held ∧ t.fwu.ack = some (n, 1) ∧
          t.fwu.crcErrs = s.fwu.crcErrs + 1)) := by
  have row : exec (.fwuBlock ss n q crc bs) s = .next (fwuQuarter n q crc bs (svcLinked s)) :=
    (svcPacket_on s _ hm hp).trans (congrArg Host.Outcome.next (fwuBlock_taken ss n q crc bs (svcLinked s) hs hb hh hr hl))
  refine ⟨_, row, ?_, fun a ha => ?_, fun m hm => fwuQuarter_others n q crc bs (svcLinked s) m hm, fun h => ?_,
    fwuQuarter_fourth n q crc bs (svcLinked s) hn⟩
  · rw [fwuQuarter_lnd, ← hl]
    exact memReadBytes_memWriteBytes s.lnd.mem _ bs wf
  · rw [fwuQuarter_lnd]
    exact memRead_memWriteBytes_off s.lnd.mem _ a bs wf (by rw [hl]; exact ha)
  · rw [fwuQuarter_open n q crc bs (svcLinked s) h]
    exact ⟨quartersOf_cons _ n _ _, rfl, hr⟩

/-- Settles O56: a packet raises the link, and acts where the port is enabled. -/
theorem servicePort : Obligations.ServicePort := by
  unfold Obligations.ServicePort
  refine ⟨fun ip bs ss n m q crc v s hm h c hc => ?_, fun bs s hm h => ⟨?_, ?_⟩, fun ip bs s hm h hi => ⟨?_, ?_⟩,
    fun ss m n s hm h => ⟨_, svcPacket_on s _ hm h, fwuOpen_effect ss n (svcLinked s)⟩,
    fun ss img s hm h => ⟨_, svcPacket_on s _ hm h, fwuManifest_effect ss img (svcLinked s)⟩, fwuBlock_stores,
    fun ss n q crc bs s hm h hs => ⟨?_, ?_, ?_⟩, fun ss s hm h hs => ⟨⟨stateAnswer (svcLinked s), ?_, rfl, rfl⟩, ?_⟩,
    fun v s hm h => ?_, fun s => rfl, fun s hm => whenOn_on s hm⟩
  · simp only [List.mem_cons, List.not_mem_nil, or_false] at hc
    obtain rfl | rfl | rfl | rfl | rfl | rfl | rfl | rfl := hc
    · exact svcPacket_off s (fun s => if ip = s.fwu.svcIp then onFwu (fun f => { f with svcOut := some (1, svcMac s) }) s else s) hm h
    · exact svcPacket_off s (fun s => if ip = s.fwu.svcIp then onFwu (fun f => { f with svcOut := some (2, bs) }) s else s) hm h
    · exact svcPacket_off s (fwuOpen ss m) hm h
    · exact svcPacket_off s (fwuManifest ss bs) hm h
    · exact svcPacket_off s (fwuBlock ss n q crc bs) hm h
    · exact svcPacket_off s (fun s => if s.fwu.sess = some ss then stateAnswer s else fwuAck 0 3 s) hm h
    · exact svcPacket_off s (fun s => if s.fwu.sess = some ss then onFwu (fun f => { f with sess := none }) s else fwuAck 0 3 s) hm h
    · exact svcPacket_off s (fun s => { s with arrived := s.arrived ++ [.vote v] }) hm h
  · show execSvcArp s.fwu.svcIp s = _
    rw [execSvcArp, svcPacket_on s _ hm h]
    exact congrArg Host.Outcome.next (if_pos rfl)
  · show execSvcIcmpEcho s.fwu.svcIp bs s = _
    rw [execSvcIcmpEcho, svcPacket_on s _ hm h]
    exact congrArg Host.Outcome.next (if_pos rfl)
  · show execSvcArp ip s = _
    rw [execSvcArp, svcPacket_on s _ hm h]
    exact congrArg Host.Outcome.next (if_neg hi)
  · show execSvcIcmpEcho ip bs s = _
    rw [execSvcIcmpEcho, svcPacket_on s _ hm h]
    exact congrArg Host.Outcome.next (if_neg hi)
  · exact (svcPacket_on s (fwuBlock ss n q crc bs) hm h).trans (congrArg Host.Outcome.next (if_pos hs))
  · show execFwuQuery ss s = _
    rw [execFwuQuery, svcPacket_on s _ hm h]
    exact congrArg Host.Outcome.next (if_neg hs)
  · show execFwuClose ss s = _
    rw [execFwuClose, svcPacket_on s _ hm h]
    exact congrArg Host.Outcome.next (if_neg hs)
  · show execFwuQuery ss s = _
    rw [execFwuQuery, svcPacket_on s _ hm h]
    exact congrArg Host.Outcome.next (if_pos hs)
  · show execFwuClose ss s = _
    rw [execFwuClose, svcPacket_on s _ hm h]
    exact congrArg Host.Outcome.next (if_pos hs)
  · show execFwuVoteReceive v s = _
    rw [execFwuVoteReceive, svcPacket_on s _ hm h]
    rfl

end Sys2Proof.Machine
end

section
/-! The states of an update (chapter 16): the new start of the cores at an activation checks the wrapped slots, which renews the
bitmap of the valid slots (R372); the row of the activation leaves that bitmap as it was (O57). -/

namespace Sys2Proof.Machine

theorem ofFn_at {α : Type} {n : Nat} (f : Fin n → α) (k : Fin n) : (Vector.ofFn f)[k] = f k := Vector.getElem_ofFn k.isLt

/-- A check under which no derivation is made finds no valid slot (R370). -/
theorem slotValid_refused (s : State) (h : derivRefused s = true) : (slotCheck s).live.slotValid = 0 := by
  have live (l : List (Fin 128)) (u : State) : (l.foldl (fun s (k : Fin 128) => hwdEvent 3 k.val (hwdInt 2 s)) u).live = u.live :=
    foldl_proj State.live (fun s (k : Fin 128) => hwdEvent 3 k.val (hwdInt 2 s)) (fun _ _ => rfl) l u
  have none_active (k : Fin 128) : (slotActive s)[k] = none := by
    rw [slotActive, ofFn_at, if_pos h]
  have empty : validBits (slotActive s) = 0 := by
    unfold validBits
    refine List.foldl_fixed' (fun k => ?_) _
    rw [none_active k]
    rfl
  have checked : (slotCheck s).live.slotValid = validBits (slotActive s) := by
    unfold slotCheck slotPut
    rw [live]
    simp only [onHwd]
  exact checked.trans empty

theorem coresRestart_slotValid (slot : Bool) (resume : Nat) (s : State) (h : derivRefused s = true) :
    (coresRestart slot resume s).live.slotValid = 0 := slotValid_refused _ h

/-- A debug session is open (R370) while slot 0 still counts as valid; the update is decided for this frame. -/
def decidedUnderDebug : State :=
  { State.reset with
    isl := { State.reset.isl with ctl := true }
    live := { State.reset.live with slotValid := 1 }
    hwd := { State.reset.hwd with rootSet := true, debug := true, active := State.reset.hwd.active.set 0 (some false) }
    fwu := { State.reset.fwu with st := .scheduled, decided := true, actFn := State.reset.fn } }

theorem fwuActivate_slotValid : (fwuActivate decidedUnderDebug).live.slotValid = 0 := by
  have begun : fwuActivate decidedUnderDebug = fwuGo .activating (some 6) (coresRestart (!decidedUnderDebug.fwu.running)
      (decidedUnderDebug.fwu.actFn + 150) (onFwu (fun f => { f with
        report := none, latOwn := none, latPartner := none, revertPend := none, decided := false, resumeAt := none }) decidedUnderDebug)) :=
    if_neg (by decide)
  have live (st : FwSt) (b : Option Nat) (u : State) : (fwuGo st b u).live = u.live := rfl
  rw [begun, live]
  exact coresRestart_slotValid _ _ _ (by decide)

/-- Refutes O57: with a debug session open, the restart of the cores takes slot 0 out of the valid slots. -/
theorem not_updateStates : ¬ Obligations.UpdateStates := by
  unfold Obligations.UpdateStates
  rintro ⟨-, -, -, -, -, -, -, -, -, -, -, -, -, -, activate, -⟩
  obtain ⟨t, ht, -, -, -, frame⟩ := activate decidedUnderDebug rfl rfl rfl rfl
  obtain rfl := Host.Outcome.next.inj ht
  have kept : (fwuActivate decidedUnderDebug).live.slotValid = 1 := (congrArg (fun t : State => t.live.slotValid) frame :)
  rw [fwuActivate_slotValid] at kept
  exact absurd kept (by decide)

end Sys2Proof.Machine
end

section
/-! The landing memory (chapter 17): the host's writes, the scrubber and the tally ring (O58). -/

namespace Sys2Proof.Machine

/-! ### The host's writes (R409) -/

/-- Where the host may write depends on the map alone. -/
theorem hostMay_map {s t : State} (h : t.map = s.map) (a : Nat) : hostMay t a = hostMay s a := by simp only [hostMay, h]

theorem hostMay_lndWrite (a : Nat) (bs : List Byte) (s : State) (b : Nat) : hostMay (lndWrite a bs s) b = hostMay s b := hostMay_map rfl b

theorem hostBytes_land (a : Nat) (b : Byte) (bs : List Byte) (s : State) (h : hostMay s a = true) :
    hostBytes a (b :: bs) s = hostBytes (a + 1) bs (lndWrite a [b] s) := if_pos h

theorem hostBytes_refuse (a : Nat) (b : Byte) (bs : List Byte) (s : State) (h : hostMay s a = false) :
    hostBytes a (b :: bs) s = ((hostBytes (a + 1) bs s).1, some ((hostBytes (a + 1) bs s).2.getD a)) := if_neg (by rw [h]; simp)

/-- The bytes alone, and the words that they make good, change. -/
theorem hostBytes_frame (a : Nat) (bs : List Byte) (s : State) : (hostBytes a bs s).1 = { s with lnd := { s.lnd with
    mem := (hostBytes a bs s).1.lnd.mem, bad := (hostBytes a bs s).1.lnd.bad } } := by
  induction bs generalizing a s with
  | nil => rfl
  | cons b bs ih =>
    cases h : hostMay s a with
    | true =>
      rw [hostBytes_land a b bs s h]
      exact ih (a + 1) (lndWrite a [b] s)
    | false =>
      rw [hostBytes_refuse a b bs s h]
      exact ih (a + 1) s

theorem hostBytes_outside (a : Nat) (bs : List Byte) (s : State) (wf : Memory.wf s.lnd.mem = true) (x : Nat)
    (h : x < a ∨ a + bs.length ≤ x ∨ hostMay s x = false) : memRead (hostBytes a bs s).1.lnd.mem x = memRead s.lnd.mem x := by
  induction bs generalizing a s with
  | nil => rfl
  | cons b bs ih =>
    have rest : x < a + 1 ∨ a + 1 + bs.length ≤ x ∨ hostMay s x = false := by
      rw [List.length_cons] at h
      exact h.imp (fun lt => by omega) (Or.imp (fun ge => by omega) id)
    cases ha : hostMay s a with
    | true =>
      have ne : x ≠ a := by
        rintro rfl
        rw [ha] at h
        simp at h
      rw [hostBytes_land a b bs s ha, ih (a + 1) (lndWrite a [b] s) (memWrite_wf s.lnd.mem a b wf) (by rwa [hostMay_lndWrite])]
      exact (memRead_memWrite s.lnd.mem a x b wf).trans (if_neg ne)
    | false =>
      rw [hostBytes_refuse a b bs s ha]
      exact ih (a + 1) s wf rest

theorem hostBytes_stored (a : Nat) (bs : List Byte) (s : State) (wf : Memory.wf s.lnd.mem = true) (i : Nat) (hi : i < bs.length)
    (h : hostMay s (a + i) = true) : memRead (hostBytes a bs s).1.lnd.mem (a + i) = bs.getD i 0 := by
  induction bs generalizing a s i with
  | nil => exact absurd hi (by simp)
  | cons b bs ih =>
    have lands : hostMay s a = true → memRead (lndWrite a [b] s).lnd.mem a = b := fun _ =>
      (memRead_memWrite s.lnd.mem a a b wf).trans (if_pos rfl)
    cases i with
    | zero =>
      rw [hostBytes_land a b bs s h]
      exact (hostBytes_outside (a + 1) bs _ (memWrite_wf s.lnd.mem a b wf) _ (.inl (Nat.lt_succ_self a))).trans (lands h)
    | succ i =>
      have next : a + (i + 1) = a + 1 + i := by omega
      have hi' : i < bs.length := by simpa using hi
      rw [next] at h ⊢
      cases ha : hostMay s a with
      | true =>
        rw [hostBytes_land a b bs s ha]
        exact ih (a + 1) (lndWrite a [b] s) (memWrite_wf s.lnd.mem a b wf) i hi' (by rwa [hostMay_lndWrite])
      | false =>
        rw [hostBytes_refuse a b bs s ha]
        exact ih (a + 1) s wf i hi' h

/-- Every byte lands: none is refused. -/
theorem hostBytes_all (a : Nat) (bs : List Byte) (s : State) (h : ∀ i < bs.length, hostMay s (a + i) = true) : (hostBytes a bs s).2 = none := by
  induction bs generalizing a s with
  | nil => rfl
  | cons b bs ih =>
    rw [hostBytes_land a b bs s (h 0 (by simp))]
    refine ih (a + 1) (lndWrite a [b] s) fun i hi => ?_
    rw [hostMay_lndWrite, show a + 1 + i = a + (i + 1) by omega]
    exact h (i + 1) (by simpa using hi)

theorem hostBytes_some (a : Nat) (bs : List Byte) (s : State) (h : ∃ i < bs.length, hostMay s (a + i) = false) :
    ∃ x, (hostBytes a bs s).2 = some x := by
  induction bs generalizing a s with
  | nil =>
    obtain ⟨i, hi, -⟩ := h
    exact absurd hi (by simp)
  | cons b bs ih =>
    cases ha : hostMay s a with
    | false => exact ⟨_, congrArg Prod.snd (hostBytes_refuse a b bs s ha)⟩
    | true =>
      obtain ⟨i, hi, hm⟩ := h
      rw [hostBytes_land a b bs s ha]
      cases i with
      | zero => exact absurd (ha.symm.trans hm) (by simp)
      | succ i =>
        refine ih (a + 1) (lndWrite a [b] s) ⟨i, by simpa using hi, ?_⟩
        rw [hostMay_lndWrite, show a + 1 + i = a + (i + 1) by omega]
        exact hm

theorem bar2Write_all (a : Nat) (bs : List Byte) (s : State) (h : ∀ i < bs.length, hostMay s (a + i) = true) :
    bar2Write a bs s = (hostBytes a bs s).1 := by
  have none_refused := hostBytes_all a bs s h
  unfold bar2Write
  split
  case h_1 t hx => rw [hx]
  case h_2 t x hx => rw [hx] at none_refused; cases none_refused

theorem bar2Write_refused (a : Nat) (bs : List Byte) (s : State) (h : ∃ i < bs.length, hostMay s (a + i) = false) :
    ∃ x, bar2Write a bs s = bar2Refused x (hostBytes a bs s).1 := by
  obtain ⟨x, hx⟩ := hostBytes_some a bs s h
  unfold bar2Write
  split
  case h_1 t ht => rw [ht] at hx; cases hx
  case h_2 t y ht => exact ⟨y, by rw [ht]⟩

/-- What a refused write leaves beside the bytes that land. -/
theorem bar2Refused_effect (x : Nat) (s : State) : (bar2Refused x s).lnd.mem = s.lnd.mem ∧ (bar2Refused x s).lnd.hostWr = s.lnd.hostWr + 1 ∧
    (bar2Refused x s).lnd.intStatus = setBit s.lnd.intStatus 5 ∧ (bar2Refused x s).hst.intStatus = setBit s.hst.intStatus 4 ∧
    bar2Refused x s = { s with
      lnd := (bar2Refused x s).lnd, hst := (bar2Refused x s).hst, evs := (bar2Refused x s).evs } :=
  ⟨rfl, rfl, rfl, rfl, rfl⟩

theorem bar2Write_mem (a : Nat) (bs : List Byte) (s : State) : (bar2Write a bs s).lnd.mem = (hostBytes a bs s).1.lnd.mem := by
  by_cases h : ∀ i < bs.length, hostMay s (a + i) = true
  · rw [bar2Write_all a bs s h]
  · have refused : ∃ i < bs.length, hostMay s (a + i) = false := by simpa using h
    obtain ⟨x, hx⟩ := bar2Write_refused a bs s refused
    rw [hx, (bar2Refused_effect x _).1]

/-- A write through BAR2, by whether a byte of it is refused. -/
theorem bar2Write_effect (a : Nat) (bs : List Byte) (s : State) :
    ((∀ i < bs.length, hostMay s (a + i) = true) → (bar2Write a bs s).evs = s.evs ∧ (bar2Write a bs s).hst = s.hst ∧
      (bar2Write a bs s).lnd.hostWr = s.lnd.hostWr) ∧
    ((∃ i < bs.length, hostMay s (a + i) = false) → (bar2Write a bs s).lnd.hostWr = s.lnd.hostWr + 1 ∧
      (bar2Write a bs s).lnd.intStatus = setBit s.lnd.intStatus 5 ∧ (bar2Write a bs s).hst.intStatus = setBit s.hst.intStatus 4) ∧
    bar2Write a bs s = { s with lnd := (bar2Write a bs s).lnd, hst := (bar2Write a bs s).hst, evs := (bar2Write a bs s).evs } := by
  have frame := hostBytes_frame a bs s
  refine ⟨fun h => ?_, fun h => ?_, ?_⟩
  · rw [bar2Write_all a bs s h]
    exact ⟨(congrArg State.evs frame :), (congrArg State.hst frame :), (congrArg (fun t : State => t.lnd.hostWr) frame :)⟩
  · obtain ⟨x, hx⟩ := bar2Write_refused a bs s h
    rw [hx]
    obtain ⟨-, wr, int, hst, -⟩ := bar2Refused_effect x (hostBytes a bs s).1
    exact ⟨wr.trans (congrArg (fun t : State => t.lnd.hostWr + 1) frame :),
      int.trans (congrArg (fun t : State => setBit t.lnd.intStatus 5) frame :),
      hst.trans (congrArg (fun t : State => setBit t.hst.intStatus 4) frame :)⟩
  · by_cases h : ∀ i < bs.length, hostMay s (a + i) = true
    · rw [bar2Write_all a bs s h]
      generalize (hostBytes a bs s).1 = t at frame ⊢
      rw [frame]
    · have refused : ∃ i < bs.length, hostMay s (a + i) = false := by simpa using h
      obtain ⟨x, hx⟩ := bar2Write_refused a bs s refused
      rw [hx]
      generalize (hostBytes a bs s).1 = t at frame ⊢
      rw [frame]
      rfl

/-! ### The scrubber (R405) -/

/-- Reads of words in error change their counts, their marks and the events alone. -/
def EccOnly (s t : State) : Prop := t = { s with
  lnd := { s.lnd with
    bad := t.lnd.bad, corrN := t.lnd.corrN, corrAddr := t.lnd.corrAddr, uncorrN := t.lnd.uncorrN, uncorrAddr := t.lnd.uncorrAddr,
    uncorr := t.lnd.uncorr, intStatus := t.lnd.intStatus }, evs := t.evs }

theorem eccOnly_refl (s : State) : EccOnly s s := rfl
theorem eccOnly_trans {s t u : State} (h : EccOnly s t) (k : EccOnly t u) : EccOnly s u := by
  unfold EccOnly at h k ⊢
  rw [h] at k
  exact k

theorem lndEvent_eccOnly (b data : Nat) (s : State) : EccOnly s (lndEvent b data s) := rfl
theorem raise_eccOnly (s : State) (e : Event) : EccOnly s (raise s e) := rfl
theorem uncorr_eccOnly (f : Lnd → Nat) (a : BitVec 26) (s : State) :
    EccOnly s (onLnd (fun l => { l with uncorrN := f l, uncorrAddr := a, uncorr := true }) s) := rfl
theorem corr_eccOnly (f : Lnd → Nat) (a : BitVec 26) (g : Lnd → List (Nat × Bool)) (s : State) :
    EccOnly s (onLnd (fun l => { l with corrN := f l, corrAddr := a, bad := g l }) s) := rfl

theorem eccWord_only (s : State) (w : Nat × Bool) : EccOnly s (eccWord s w) :=
  ite_rel _
    (eccOnly_trans (uncorr_eccOnly _ _ s) (eccOnly_trans (lndEvent_eccOnly 1 w.1 _) (raise_eccOnly _ _)))
    (eccOnly_trans (corr_eccOnly _ _ _ s) (lndEvent_eccOnly 0 w.1 _))

theorem eccRead_only (a n : Nat) (s : State) : EccOnly s (eccRead a n s) :=
  foldl_rel EccOnly eccOnly_refl eccOnly_trans _ eccWord_only _ s

/-- A word beyond correction stays in error. -/
theorem eccWord_bad (s : State) (w : Nat × Bool) (x : Nat) (hw : w.2 = false → w.1 ≠ x) (h : (x, true) ∈ s.lnd.bad) :
    (x, true) ∈ (eccWord s w).lnd.bad := by
  unfold eccWord
  split
  · exact h
  case isFalse hb =>
    refine List.mem_filter.mpr ⟨h, ?_⟩
    simpa using (hw (by simpa using hb)).symm

theorem foldl_eccWord_bad (l : List (Nat × Bool)) (s : State) (x : Nat) (hl : ∀ w ∈ l, w.2 = false → w.1 ≠ x) (h : (x, true) ∈ s.lnd.bad) :
    (x, true) ∈ (l.foldl eccWord s).lnd.bad := by
  induction l generalizing s with
  | nil => exact h
  | cons w ws ih =>
    exact ih _ (fun v hv => hl v (List.mem_cons_of_mem _ hv)) (eccWord_bad s w x (hl w List.mem_cons_self) h)

theorem eccRead_bad (a n : Nat) (s : State) (x : Nat) (h : (x, true) ∈ s.lnd.bad) (hx : (x, false) ∉ s.lnd.bad) :
    (x, true) ∈ (eccRead a n s).lnd.bad := by
  refine foldl_eccWord_bad _ s x (fun w hw hf => ?_) h
  rintro rfl
  have listed := (List.mem_filter.mp hw).1
  rw [← hf] at hx
  exact hx listed

/-- A line read: the next line, and the end of a pass where it was the last. -/
def lineRead (s : State) : State :=
  onLnd (fun l => { l with
    scrubLine := s.lnd.scrubLine + 1, scrubbing := !decide (s.lnd.scrubLine + 1 = 0),
    scrubPasses := if s.lnd.scrubLine + 1 = 0 then l.scrubPasses + 1 else l.scrubPasses }) (eccRead (64 * s.lnd.scrubLine.toNat) 64 s)

theorem scrubStep_runs (s : State) (h : s.lnd.scrubCfg.getLsbD 8 = true ∨ s.lnd.scrubbing = true) (ht : s.lnd.throttled = false) :
    scrubStep s = if s.lnd.scrubLine + 1 = 0 then lndEvent 6 0 (lineRead s) else lineRead s := by
  unfold scrubStep
  rw [if_neg (by rcases h with h | h <;> simp [h, ht])]
  rfl

theorem scrubStep_paused (s : State) (h : (s.lnd.scrubCfg.getLsbD 8 = false ∧ s.lnd.scrubbing = false) ∨ s.lnd.throttled = true) :
    scrubStep s = s := by
  unfold scrubStep
  refine if_pos ?_
  rcases h with ⟨h, h'⟩ | h
  · simp only [h, h', Bool.or_self, Bool.not_false, Bool.true_or]
  · simp only [h, Bool.or_true]

/-- What the last line of a pass adds. -/
theorem scrubStep_lnd (s : State) (h : s.lnd.scrubCfg.getLsbD 8 = true ∨ s.lnd.scrubbing = true) (ht : s.lnd.throttled = false) :
    scrubStep s = { lineRead s with
      lnd := { (lineRead s).lnd with intStatus := (scrubStep s).lnd.intStatus }, evs := (scrubStep s).evs } := by
  rw [scrubStep_runs s h ht]
  split <;> rfl

theorem lineRead_frame (s : State) : lineRead s = { s with lnd := (lineRead s).lnd, evs := (lineRead s).evs } := by
  have read := eccRead_only (64 * s.lnd.scrubLine.toNat) 64 s
  unfold lineRead
  generalize eccRead _ 64 s = t at read ⊢
  rw [read]
  rfl

theorem lineRead_effect (s : State) : (lineRead s).lnd.scrubLine = s.lnd.scrubLine + 1 ∧ (lineRead s).lnd.mem = s.lnd.mem ∧
    (s.lnd.scrubLine + 1 = 0 → (lineRead s).lnd.scrubPasses = s.lnd.scrubPasses + 1 ∧ (lineRead s).lnd.scrubbing = false) ∧
    (s.lnd.scrubLine + 1 ≠ 0 → (lineRead s).lnd.scrubPasses = s.lnd.scrubPasses ∧ (lineRead s).lnd.scrubbing = true) ∧
    (lineRead s).lnd.bad = (eccRead (64 * s.lnd.scrubLine.toNat) 64 s).lnd.bad := by
  have read := eccRead_only (64 * s.lnd.scrubLine.toNat) 64 s
  have passes : (eccRead (64 * s.lnd.scrubLine.toNat) 64 s).lnd.scrubPasses = s.lnd.scrubPasses := (congrArg (fun t : State => t.lnd.scrubPasses) read :)
  have mem : (eccRead (64 * s.lnd.scrubLine.toNat) 64 s).lnd.mem = s.lnd.mem := (congrArg (fun t : State => t.lnd.mem) read :)
  unfold lineRead
  generalize eccRead _ 64 s = t at passes mem ⊢
  refine ⟨rfl, mem, fun h => ⟨?_, ?_⟩, fun h => ⟨?_, ?_⟩, rfl⟩
  · exact (if_pos h).trans (congrArg (· + 1) passes)
  · exact congrArg Bool.not (decide_eq_true h)
  · exact (if_neg h).trans passes
  · exact congrArg Bool.not (decide_eq_false h)

theorem scrubStep_effect (s : State) (hl : s.isl.lnd = true) (h : s.lnd.scrubCfg.getLsbD 8 = true ∨ s.lnd.scrubbing = true)
    (ht : s.lnd.throttled = false) : ∃ t, exec .scrubStep s = .next t ∧ t.lnd.scrubLine = s.lnd.scrubLine + 1 ∧ t.lnd.mem = s.lnd.mem ∧
      (s.lnd.scrubLine + 1 = 0 → t.lnd.scrubPasses = s.lnd.scrubPasses + 1 ∧ t.lnd.scrubbing = false) ∧
      (s.lnd.scrubLine + 1 ≠ 0 → t.lnd.scrubPasses = s.lnd.scrubPasses ∧ t.lnd.scrubbing = true) ∧
      (∀ w, (w, true) ∈ s.lnd.bad → (w, false) ∉ s.lnd.bad → (w, true) ∈ t.lnd.bad) ∧ t = { s with lnd := t.lnd, evs := t.evs } := by
  have row : exec .scrubStep s = .next (scrubStep s) := whenOn_on s hl
  obtain ⟨line, mem, last, more, bad⟩ := lineRead_effect s
  have still := eccRead_bad (64 * s.lnd.scrubLine.toNat) 64 s
  have frame := lineRead_frame s
  have tail := scrubStep_lnd s h ht
  rw [← bad] at still
  generalize scrubStep s = t at row tail
  generalize lineRead s = u at line mem last more still frame tail
  rw [frame] at tail
  refine ⟨t, row, ?_⟩
  rw [tail]
  exact ⟨line, mem, last, more, still, rfl⟩

/-! ### The tally ring (R443) -/

/-- An entry of the tally ring before its check sum. -/
def tallyBody (s : State) : List Byte :=
  leBytes 8 s.fn ++ leBytes 2 192 ++ List.replicate 6 0 ++ (s.hkp.tlyShown.toList.map (leBytes 8)).flatten ++ List.replicate 44 0

/-- An entry of the tally ring. -/
def tallyEntry (s : State) : List Byte := tallyBody s ++ leBytes 4 (crc32c (tallyBody s)).toNat

theorem tallyShown_length (s : State) : ((s.hkp.tlyShown.toList.map (leBytes 8)).flatten).length = 1536 := by
  rw [flatten_map_length (leBytes 8) 8 _ (leBytes_length 8), Vector.length_toList]

theorem tallyEntry_length (s : State) : (tallyEntry s).length = 1600 := by
  rw [tallyEntry, tallyBody]
  simp only [List.length_append, leBytes_length, List.length_replicate, tallyShown_length]

theorem tallyRing_idle (s : State) (h : s.hkp.tlyEvery = 0 ∨ s.hkp.level = 2) : tallyRing s = s :=
  if_pos (by rcases h with h | h <;> simp [h])

theorem tallyRing_effect (s : State) (he : s.hkp.tlyEvery ≠ 0) (hv : s.hkp.level ≠ 2) :
    (tallyRing s).lnd.mem = memWriteBytes s.lnd.mem (tallyBase + 1600 * s.hkp.tlyNext) (tallyEntry s) ∧
    (tallyRing s).hkp.tlyNext = (if 39 ≤ s.hkp.tlyNext then 0 else s.hkp.tlyNext + 1) ∧ (tallyRing s).hkp.tlyShown = s.hkp.tlyShown := by
  have raised (c : Bool) (e : Event) (u : State) : (if c then raise u e else u).lnd = u.lnd ∧ (if c then raise u e else u).hkp = u.hkp := by
    cases c <;> exact ⟨rfl, rfl⟩
  unfold tallyRing
  rw [if_neg (by simp [he, hv])]
  dsimp only
  rw [(raised _ _ _).1, (raised _ _ _).2]
  simp only [onLnd, lndWrite, tallyEntry, tallyBody, decide_eq_true_eq, and_self]

theorem tallyRing_stores (s : State) (hc : s.isl.ctl = true) (he : s.hkp.tlyEvery ≠ 0) (hv : s.hkp.level ≠ 2) (wf : Memory.wf s.lnd.mem = true) :
    ∃ t, exec .tallyRingWrite s = .next t ∧ memReadBytes t.lnd.mem (tallyBase + 1600 * s.hkp.tlyNext) 8 = leBytes 8 s.fn ∧
      memReadBytes t.lnd.mem (tallyBase + 1600 * s.hkp.tlyNext + 16) 1536 = (s.hkp.tlyShown.toList.map (leBytes 8)).flatten ∧
      (∀ a : Nat, a < tallyBase + 1600 * s.hkp.tlyNext ∨ tallyBase + 1600 * s.hkp.tlyNext + 1600 ≤ a →
        memRead t.lnd.mem a = memRead s.lnd.mem a) ∧
      t.hkp.tlyNext = (if 39 ≤ s.hkp.tlyNext then 0 else s.hkp.tlyNext + 1) ∧ t.hkp.tlyShown = s.hkp.tlyShown := by
  obtain ⟨mem, next, shown⟩ := tallyRing_effect s he hv
  refine ⟨tallyRing s, whenOn_on s hc, ?_, ?_, fun a ha => ?_, next, shown⟩
  · have parts : ∃ rest, tallyEntry s = leBytes 8 s.fn ++ rest := by
      simp only [tallyEntry, tallyBody, List.append_assoc]
      exact ⟨_, rfl⟩
    obtain ⟨rest, e⟩ := parts
    have front := memReadBytes_front s.lnd.mem (tallyBase + 1600 * s.hkp.tlyNext) (leBytes 8 s.fn) rest wf
    rw [leBytes_length] at front
    rw [mem, e, front]
  · have middle := memReadBytes_part s.lnd.mem (tallyBase + 1600 * s.hkp.tlyNext) (leBytes 8 s.fn ++ leBytes 2 192 ++ List.replicate 6 0)
      (s.hkp.tlyShown.toList.map (leBytes 8)).flatten (List.replicate 44 0 ++ leBytes 4 (crc32c (tallyBody s)).toNat) wf
    rw [tallyShown_length] at middle
    have e : tallyEntry s = leBytes 8 s.fn ++ leBytes 2 192 ++ List.replicate 6 0 ++ (s.hkp.tlyShown.toList.map (leBytes 8)).flatten ++
        (List.replicate 44 0 ++ leBytes 4 (crc32c (tallyBody s)).toNat) := List.append_assoc _ _ _
    rw [mem, e]
    simpa only [List.length_append, leBytes_length, List.length_replicate] using middle
  · rw [mem, memRead_memWriteBytes_off _ _ _ _ wf (by rw [tallyEntry_length]; exact ha)]

/-- Settles O58: what each of the rows stores, and what it leaves as it was. -/
theorem landingMemory : Obligations.LandingMemory := by
  unfold Obligations.LandingMemory
  refine ⟨fun off bs s hl wf => ⟨_, whenOn_on s hl, fun i hi h => ?_, fun a h => ?_, bar2Write_effect off.toNat bs s⟩,
    scrubStep_effect, fun s h => whenOn_id (scrubStep_paused s h), fun s hl => ⟨whenOn_on s hl, whenOn_on s hl⟩, tallyRing_stores,
    fun s h => whenOn_id (tallyRing_idle s h)⟩
  · rw [bar2Write_mem]
    exact hostBytes_stored off.toNat bs s wf i hi h
  · rw [bar2Write_mem]
    exact hostBytes_outside off.toNat bs s wf a h

end Sys2Proof.Machine
end

section
/-! The interrupts of the host port (chapter 19): the vectors that fire, the acknowledgement and the masks (O59). -/

namespace Sys2Proof.Machine

/-! ### What firing changes (R457) -/

/-- A state with other armed vectors, pending bits and messages sent. -/
def fired (a p : BitVec 32) (q : List (Fin 32)) (s : State) : State := { s with hst := { s.hst with armed := a, pba := p, sent := q } }

/-- Vectors fire: they are disarmed, and each message goes out or is held. -/
def Fires (s t : State) : Prop := ∃ a p q, t = fired a p q s

/-- The messages of a set of vectors, in their order. -/
def sendAll (fire : BitVec 32) (l : List (Fin 32)) (h : Hst) : Hst := l.foldl (fun h v => if fire.getLsbD v.val then msgSend h v else h) h

/-- Messages change the pending bits and what was sent alone. -/
def MsgOnly (h k : Hst) : Prop := k = { h with pba := k.pba, sent := k.sent }

theorem msgOnly_refl (h : Hst) : MsgOnly h h := rfl
theorem msgOnly_trans {h k l : Hst} (x : MsgOnly h k) (y : MsgOnly k l) : MsgOnly h l := by
  unfold MsgOnly at x y ⊢
  rw [x] at y
  exact y

theorem msgSend_frame (h : Hst) (v : Fin 32) : MsgOnly h (msgSend h v) := by
  unfold msgSend
  split <;> rfl

theorem msgSendIf_frame (fire : BitVec 32) (h : Hst) (v : Fin 32) : MsgOnly h (if fire.getLsbD v.val then msgSend h v else h) := by
  split
  · exact msgSend_frame h v
  · exact msgOnly_refl h

theorem sendAll_frame (fire : BitVec 32) (l : List (Fin 32)) (h : Hst) : MsgOnly h (sendAll fire l h) := by
  induction l generalizing h with
  | nil => exact msgOnly_refl h
  | cons v vs ih => exact msgOnly_trans (msgSendIf_frame fire h v) (ih _)

/-- The block with the vectors that fire disarmed. -/
def disarmed (s : State) : Hst := { s.hst with armed := s.hst.armed &&& ~~~(vecPend s &&& s.hst.armed) }

theorem intEval_none (s : State) (h : vecPend s &&& s.hst.armed = 0) : intEval s = s := if_pos h

theorem intEval_some (s : State) (h : vecPend s &&& s.hst.armed ≠ 0) :
    intEval s = { s with hst := sendAll (vecPend s &&& s.hst.armed) (List.finRange 32) (disarmed s) } := if_neg h

theorem intEval_fires (s : State) : Fires s (intEval s) := by
  by_cases h : vecPend s &&& s.hst.armed = 0
  · rw [intEval_none s h]
    exact ⟨s.hst.armed, s.hst.pba, s.hst.sent, rfl⟩
  · rw [intEval_some s h, sendAll_frame (vecPend s &&& s.hst.armed) (List.finRange 32) (disarmed s)]
    exact ⟨_, _, _, rfl⟩

/-! ### What is pending does not depend on it -/

theorem srcPending_fired (a p : BitVec 32) (q : List (Fin 32)) (s : State) (n : Nat) : srcPending (fired a p q s) n = srcPending s n := rfl

theorem vecOf_fired (a p : BitVec 32) (q : List (Fin 32)) (s : State) (n : Nat) : vecOf (fired a p q s) n = vecOf s n := rfl

theorem vecPend_fired (a p : BitVec 32) (q : List (Fin 32)) (s : State) : vecPend (fired a p q s) = vecPend s := by
  simp only [vecPend, srcPending_fired, vecOf_fired]

/-! ### Messages -/

theorem msgFree_sent (h : Hst) (p : BitVec 32) (q : List (Fin 32)) (v : Fin 32) : msgFree { h with pba := p, sent := q } v = msgFree h v := rfl

/-- A message sent is not taken back, and one held stays held. -/
theorem msgSend_keeps (h : Hst) (v i : Fin 32) :
    (i ∈ h.sent → i ∈ (msgSend h v).sent) ∧ (h.pba.getLsbD i.val = true → (msgSend h v).pba.getLsbD i.val = true) := by
  unfold msgSend
  split
  · exact ⟨fun hi => List.mem_append_left _ hi, id⟩
  · exact ⟨id, setBit_keeps h.pba v.val i.val⟩

/-- The message of a vector that fires. -/
theorem msgSend_own (h : Hst) (i : Fin 32) :
    (msgFree h i = true → i ∈ (msgSend h i).sent) ∧ (msgFree h i = false → (msgSend h i).pba.getLsbD i.val = true) := by
  unfold msgSend
  refine ⟨fun f => ?_, fun f => ?_⟩
  · rw [if_pos f]
    exact List.mem_append_right _ (List.mem_singleton_self i)
  · rw [if_neg (by rw [f]; simp)]
    exact (getLsbD_setBit h.pba i.val i.val i.isLt).trans (by simp)

theorem sendAll_keeps (fire : BitVec 32) (l : List (Fin 32)) (h : Hst) (i : Fin 32) :
    (i ∈ h.sent → i ∈ (sendAll fire l h).sent) ∧ (h.pba.getLsbD i.val = true → (sendAll fire l h).pba.getLsbD i.val = true) := by
  induction l generalizing h with
  | nil => exact ⟨id, id⟩
  | cons v vs ih =>
    have step : (i ∈ h.sent → i ∈ (if fire.getLsbD v.val then msgSend h v else h).sent) ∧
        (h.pba.getLsbD i.val = true → (if fire.getLsbD v.val then msgSend h v else h).pba.getLsbD i.val = true) := by
      split
      · exact msgSend_keeps h v i
      · exact ⟨id, id⟩
    obtain ⟨sent, pba⟩ := ih (if fire.getLsbD v.val then msgSend h v else h)
    exact ⟨fun hi => sent (step.1 hi), fun hi => pba (step.2 hi)⟩

theorem sendAll_own (fire : BitVec 32) (l : List (Fin 32)) (h : Hst) (i : Fin 32) (hi : i ∈ l) (hf : fire.getLsbD i.val = true) :
    (msgFree h i = true → i ∈ (sendAll fire l h).sent) ∧ (msgFree h i = false → (sendAll fire l h).pba.getLsbD i.val = true) := by
  induction l generalizing h with
  | nil => exact absurd hi (by simp)
  | cons v vs ih =>
    by_cases e : v = i
    · subst e
      have unfolded : sendAll fire (v :: vs) h = sendAll fire vs (msgSend h v) := congrArg (sendAll fire vs) (if_pos hf)
      rw [unfolded]
      obtain ⟨sent, pba⟩ := sendAll_keeps fire vs (msgSend h v) v
      obtain ⟨free, held⟩ := msgSend_own h v
      exact ⟨fun f => sent (free f), fun f => pba (held f)⟩
    · have same : msgFree (if fire.getLsbD v.val then msgSend h v else h) i = msgFree h i := by
        split
        · rw [msgSend_frame h v, msgFree_sent]
        · rfl
      have next := ih (if fire.getLsbD v.val then msgSend h v else h) ((List.mem_cons.mp hi).resolve_left (Ne.symm e))
      rw [same] at next
      exact next

/-- A vector that is armed and pending fires. -/
theorem intEval_own (s : State) (i : Fin 32) (ha : s.hst.armed.getLsbD i.val = true) (hp : (vecPend s).getLsbD i.val = true) :
    (msgFree s.hst i = true → i ∈ (intEval s).hst.sent) ∧ (msgFree s.hst i = false → (intEval s).hst.pba.getLsbD i.val = true) := by
  have fire : (vecPend s &&& s.hst.armed).getLsbD i.val = true := by rw [BitVec.getLsbD_and, ha, hp]; rfl
  have some_fire : vecPend s &&& s.hst.armed ≠ 0 := by
    intro e
    rw [e] at fire
    simp at fire
  rw [intEval_some s some_fire]
  exact sendAll_own _ (List.finRange 32) (disarmed s) i (List.mem_finRange i) fire

theorem intEval_keeps (s : State) (i : Fin 32) :
    (i ∈ s.hst.sent → i ∈ (intEval s).hst.sent) ∧ (s.hst.pba.getLsbD i.val = true → (intEval s).hst.pba.getLsbD i.val = true) := by
  by_cases h : vecPend s &&& s.hst.armed = 0
  · rw [intEval_none s h]
    exact ⟨id, id⟩
  · rw [intEval_some s h]
    exact sendAll_keeps _ (List.finRange 32) (disarmed s) i

/-- Every vector with a pending source is disarmed. -/
theorem intEval_armed (s : State) : (intEval s).hst.armed = s.hst.armed &&& ~~~(vecPend s) := by
  have masked (a p : BitVec 32) : a &&& ~~~(p &&& a) = a &&& ~~~p := by
    refine BitVec.eq_of_getLsbD_eq fun i hi => ?_
    simp only [BitVec.getLsbD_and, BitVec.getLsbD_not, hi, decide_true, Bool.true_and]
    cases a.getLsbD i <;> simp
  by_cases h : vecPend s &&& s.hst.armed = 0
  · rw [intEval_none s h]
    have all := masked s.hst.armed (vecPend s)
    rw [h] at all
    rw [← all]
    exact (by rw [BitVec.not_zero, BitVec.and_allOnes] : s.hst.armed = s.hst.armed &&& ~~~0#32)
  · rw [intEval_some s h, sendAll_frame (vecPend s &&& s.hst.armed) (List.finRange 32) (disarmed s)]
    exact masked s.hst.armed (vecPend s)

/-! ### VECTOR_ACK (R457) -/

/-- A state with more vectors armed. -/
def rearmed (v : Word) (s : State) : State := onHst (fun h => { h with armed := h.armed ||| v }) s

theorem vecAck_armed (v : Word) (s : State) : (vecAck v s).hst.armed = (s.hst.armed ||| v) &&& ~~~(vecPend s) := by
  have first := intEval_armed s
  obtain ⟨a, p, q, e⟩ := intEval_fires s
  have second := intEval_armed (rearmed v (intEval s))
  have pend : vecPend (rearmed v (intEval s)) = vecPend s := by
    rw [e]
    exact vecPend_fired (a ||| v) p q s
  have armed : (rearmed v (intEval s)).hst.armed = (intEval s).hst.armed ||| v := rfl
  rw [pend, armed, first] at second
  refine Eq.trans second (BitVec.eq_of_getLsbD_eq fun i hi => ?_)
  simp only [BitVec.getLsbD_and, BitVec.getLsbD_not, BitVec.getLsbD_or, hi, decide_true, Bool.true_and]
  cases s.hst.armed.getLsbD i <;> cases v.getLsbD i <;> cases (vecPend s).getLsbD i <;> rfl

theorem vecAck_fires (v : Word) (s : State) : Fires s (vecAck v s) := by
  obtain ⟨a, p, q, e⟩ := intEval_fires s
  obtain ⟨a', p', q', e'⟩ := intEval_fires (rearmed v (intEval s))
  refine ⟨a', p', q', ?_⟩
  show intEval (rearmed v (intEval s)) = _
  rw [e', e]
  rfl

/-- A vector that is armed, or armed again, and has a pending source fires. -/
theorem vecAck_own (v : Word) (s : State) (i : Fin 32) (ha : (s.hst.armed ||| v).getLsbD i.val = true) (hp : (vecPend s).getLsbD i.val = true) :
    (msgFree s.hst i = true → i ∈ (vecAck v s).hst.sent) ∧ (msgFree s.hst i = false → (vecAck v s).hst.pba.getLsbD i.val = true) := by
  obtain ⟨sent, pba⟩ := intEval_keeps (rearmed v (intEval s)) i
  by_cases h : s.hst.armed.getLsbD i.val = true
  · obtain ⟨free, held⟩ := intEval_own s i h hp
    exact ⟨fun f => sent (free f), fun f => pba (held f)⟩
  · have hv : v.getLsbD i.val = true := by
      rw [BitVec.getLsbD_or] at ha
      exact (Bool.or_eq_true _ _ ▸ ha).resolve_left h
    obtain ⟨a, p, q, e⟩ := intEval_fires s
    have pend : vecPend (rearmed v (intEval s)) = vecPend s := by
      rw [e]
      exact vecPend_fired (a ||| v) p q s
    have armed : (rearmed v (intEval s)).hst.armed.getLsbD i.val = true := by
      show ((intEval s).hst.armed ||| v).getLsbD i.val = true
      rw [BitVec.getLsbD_or, hv, Bool.or_true]
    have free : msgFree (rearmed v (intEval s)).hst i = msgFree s.hst i := by
      rw [e]
      rfl
    have own := intEval_own (rearmed v (intEval s)) i armed (by rw [pend]; exact hp)
    rw [free] at own
    exact own

/-! ### MSIX_MASK_CLEAR (R457) -/

theorem getLsbD_clrBit {m : Nat} (w : BitVec m) (b n : Nat) (hn : n < m) : (clrBit w b).getLsbD n = (w.getLsbD n && decide (b ≠ n)) := by
  rw [clrBit, BitVec.getLsbD_and, BitVec.getLsbD_not, BitVec.getLsbD_ofNat, Nat.testBit_two_pow, decide_eq_true hn, Bool.true_and, Bool.true_and]
  by_cases e : b = n <;> simp [e]

/-- One vector of a release. -/
def msgPass (h : Hst) (v : Fin 32) : Hst :=
  if h.pba.getLsbD v.val && msgFree h v then { h with pba := clrBit h.pba v.val, sent := h.sent ++ [v] } else h

theorem msgRelease_eq (h : Hst) : msgRelease h = (List.finRange 32).foldl msgPass h := rfl

theorem msgPass_frame (h : Hst) (v : Fin 32) : MsgOnly h (msgPass h v) := by
  unfold msgPass
  split <;> rfl

theorem msgPass_get (h : Hst) (v i : Fin 32) : (msgPass h v).pba.getLsbD i.val = (h.pba.getLsbD i.val && !(decide (v = i) && msgFree h v)) ∧
    (i ∈ h.sent → i ∈ (msgPass h v).sent) ∧
    (v = i → h.pba.getLsbD i.val = true → msgFree h i = true → i ∈ (msgPass h v).sent) := by
  have differ : decide (v.val ≠ i.val) = !decide (v = i) := by
    rw [← decide_not]
    exact decide_eq_decide.mpr (not_congr Fin.ext_iff.symm)
  unfold msgPass
  split
  case isTrue hp =>
    obtain ⟨-, free⟩ := (Bool.and_eq_true _ _ ▸ hp : _ ∧ _)
    refine ⟨?_, fun hi => List.mem_append_left _ hi, fun e _ _ => List.mem_append_right _ (by simp [e])⟩
    rw [getLsbD_clrBit _ _ _ i.isLt, differ, free, Bool.and_true]
  case isFalse hp =>
    refine ⟨?_, id, fun e hb hf => absurd (by rw [e, hb, hf]; rfl) hp⟩
    by_cases e : v = i
    · subst e
      cases hb : h.pba.getLsbD v.val with
      | false => rfl
      | true =>
        cases hf : msgFree h v with
        | false => simp
        | true => exact absurd (by rw [hb, hf]; rfl) hp
    · simp [e]

theorem msgRelease_frame (h : Hst) : MsgOnly h (msgRelease h) := by
  rw [msgRelease_eq]
  generalize List.finRange 32 = l
  induction l generalizing h with
  | nil => exact msgOnly_refl h
  | cons v vs ih => exact msgOnly_trans (msgPass_frame h v) (ih _)

theorem foldl_msgPass_get (l : List (Fin 32)) (h : Hst) (i : Fin 32) :
    (l.foldl msgPass h).pba.getLsbD i.val = (h.pba.getLsbD i.val && !(decide (i ∈ l) && msgFree h i)) ∧
    (i ∈ h.sent → i ∈ (l.foldl msgPass h).sent) ∧
    (i ∈ l → h.pba.getLsbD i.val = true → msgFree h i = true → i ∈ (l.foldl msgPass h).sent) := by
  induction l generalizing h with
  | nil => simp
  | cons v vs ih =>
    obtain ⟨bit, keeps, own⟩ := msgPass_get h v i
    obtain ⟨bits, kept, sent⟩ := ih (msgPass h v)
    have free : msgFree (msgPass h v) i = msgFree h i := by rw [msgPass_frame h v, msgFree_sent]
    rw [free] at bits sent
    rw [List.foldl_cons]
    refine ⟨?_, fun hi => kept (keeps hi), fun hi hb hf => ?_⟩
    · rw [bits, bit]
      by_cases e : v = i
      · subst e
        cases h.pba.getLsbD v.val <;> cases msgFree h v <;> simp
      · simp [e, Ne.symm e]
    · by_cases e : v = i
      · exact kept (own e hb hf)
      · refine sent ((List.mem_cons.mp hi).resolve_left (Ne.symm e)) ?_ hf
        rw [bit, hb, decide_eq_false e]
        rfl

theorem msgRelease_get (h : Hst) (i : Fin 32) :
    (msgRelease h).pba.getLsbD i.val = (h.pba.getLsbD i.val && !msgFree h i) ∧
    (h.pba.getLsbD i.val = true → msgFree h i = true → i ∈ (msgRelease h).sent) := by
  obtain ⟨bits, -, sent⟩ := foldl_msgPass_get (List.finRange 32) h i
  rw [decide_eq_true (List.mem_finRange i), Bool.true_and] at bits
  exact ⟨bits, sent (List.mem_finRange i)⟩

theorem msgRelease_held (h : Hst) (hf : ∀ v, msgFree h v = false) : msgRelease h = h := by
  refine List.foldl_fixed' (fun v => ?_) _
  rw [hf v, Bool.and_false]
  rfl

end Sys2Proof.Machine
end

section
/-! The writes of the host port (chapter 19) and the rows of the interrupts (O59). -/

namespace Sys2Proof.Machine

/-- The registers of the block alone change, and the events of the frame. -/
def HstEvs (s t : State) : Prop := t = { s with hst := t.hst, evs := t.evs }

theorem hstEvs_refl (s : State) : HstEvs s s := rfl
theorem hstEvs_trans {s t u : State} (h : HstEvs s t) (k : HstEvs t u) : HstEvs s u := by
  unfold HstEvs at h k ⊢
  rw [h] at k
  exact k

theorem onHst_hstEvs (f : Hst → Hst) (s : State) : HstEvs s (onHst f s) := rfl
theorem raise_hstEvs (s : State) (e : Event) : HstEvs s (raise s e) := rfl
theorem hstEvent_hstEvs (b data : Nat) (s : State) : HstEvs s (hstEvent b data s) :=
  hstEvs_trans (onHst_hstEvs _ s) (raise_hstEvs _ _)
theorem fired_hstEvs (a p : BitVec 32) (q : List (Fin 32)) (s : State) : HstEvs s (fired a p q s) := rfl
theorem intEval_hstEvs (s : State) : HstEvs s (intEval s) := by
  obtain ⟨a, p, q, e⟩ := intEval_fires s
  rw [e]
  exact fired_hstEvs a p q s
theorem accessError_hstEvs (bar2 : Bool) (off : Nat) (s : State) : HstEvs s (accessError bar2 off s) :=
  hstEvs_trans (onHst_hstEvs _ s) (hstEvent_hstEvs 2 off _)
theorem unmapped_hstEvs (off : Nat) (s : State) : HstEvs s (unmapped off s) :=
  hstEvs_trans (onHst_hstEvs _ s) (hstEvent_hstEvs 3 off _)

theorem intEval_around_hstEvs (g : State → State) (s : State) (h : ∀ u, HstEvs u (g u)) : HstEvs s (intEval (g (intEval s))) :=
  hstEvs_trans (intEval_hstEvs s) (hstEvs_trans (h _) (intEval_hstEvs _))

/-- An access lies between two evaluations of the interrupts (R457). -/
theorem intEval_around (g : State → State) (s : State) : ∃ a p q a' p' q',
    intEval (g (intEval s)) = fired a' p' q' (g (fired a p q s)) := by
  obtain ⟨a, p, q, e⟩ := intEval_fires s
  rw [e]
  obtain ⟨a', p', q', e'⟩ := intEval_fires (g (fired a p q s))
  exact ⟨a, p, q, a', p', q', e'⟩

/-! ### The rows of the interrupts (R457) -/

theorem exec_vectorAck (v : Word) (s : State) (hc : s.isl.ctl = true) : ∃ t, exec (.vectorAck v) s = .next t ∧
    t.hst.armed = (s.hst.armed ||| v) &&& ~~~(vecPend s) ∧
    (∀ i : Fin 32, (s.hst.armed ||| v).getLsbD i.val = true → (vecPend s).getLsbD i.val = true →
      (msgFree s.hst i = true → i ∈ t.hst.sent) ∧ (msgFree s.hst i = false → t.hst.pba.getLsbD i.val = true)) ∧
    t = { s with hst := { s.hst with armed := t.hst.armed, pba := t.hst.pba, sent := t.hst.sent } } := by
  refine ⟨vecAck v s, whenOn_on s hc, vecAck_armed v s, fun i => vecAck_own v s i, ?_⟩
  obtain ⟨a, p, q, e⟩ := vecAck_fires v s
  rw [e]
  rfl

/-- The block as a host that takes MSI-X messages has it. -/
def msixOn (h : Hst) : Hst := { h with msixEn := true, busMaster := true }

theorem maskClear_one (i : Fin 32) (s : State) :
    maskClear (some i) s = onHst (fun h => msgRelease { msixOn h with msix := Vec.upd h.msix i fun e => { e with mask := false } }) s := rfl

theorem exec_msixMaskClear_all (s : State) (hc : s.isl.ctl = true) : ∃ t, exec (.msixMaskClear none) s = .next t ∧
    (∀ i : Fin 32, (s.hst.pba.getLsbD i.val = true → (s.hst.msix[i]).mask = false → i ∈ t.hst.sent) ∧
      t.hst.pba.getLsbD i.val = (s.hst.pba.getLsbD i.val && (s.hst.msix[i]).mask)) ∧
    t = { s with hst := { s.hst with msixMask := false, msixEn := true, busMaster := true, pba := t.hst.pba, sent := t.hst.sent } } := by
  have row : exec (.msixMaskClear none) s = .next { s with hst := msgRelease { msixOn s.hst with msixMask := false } } := whenOn_on s hc
  have free (i : Fin 32) : msgFree { msixOn s.hst with msixMask := false } i = !(s.hst.msix[i]).mask := rfl
  have got (i : Fin 32) := msgRelease_get { msixOn s.hst with msixMask := false } i
  have frame := msgRelease_frame { msixOn s.hst with msixMask := false }
  simp only [free] at got
  generalize msgRelease { msixOn s.hst with msixMask := false } = k at row got frame
  refine ⟨_, row, fun i => ⟨fun hp hm => (got i).2 hp (by rw [hm]; rfl), ?_⟩, ?_⟩
  · rw [(got i).1, Bool.not_not]
    rfl
  · rw [frame]
    rfl

theorem exec_msixMaskClear_one (i : Fin 32) (s : State) (hc : s.isl.ctl = true) : ∃ t, exec (.msixMaskClear (some i)) s = .next t ∧
    (t.hst.msix[i]).mask = false ∧
    (s.hst.msixMask = false → s.hst.pba.getLsbD i.val = true → i ∈ t.hst.sent) ∧
    t.hst.pba.getLsbD i.val = (s.hst.pba.getLsbD i.val && s.hst.msixMask) ∧
    (s.hst.msixMask = true → t.hst.pba = s.hst.pba ∧ t.hst.sent = s.hst.sent) ∧
    (∀ j : Fin 32, j ≠ i → t.hst.msix[j] = s.hst.msix[j]) ∧
    t = { s with hst := { s.hst with msixEn := true, busMaster := true, msix := t.hst.msix, pba := t.hst.pba, sent := t.hst.sent } } := by
  have table := upd_get s.hst.msix i
  have row : exec (.msixMaskClear (some i)) s = .next (maskClear (some i) s) := whenOn_on s hc
  rw [maskClear_one] at row
  generalize hv : Vec.upd s.hst.msix i (fun e => { e with mask := false }) = msix at row
  have own : (msix[i]).mask = false := by rw [← hv, table, if_pos rfl]
  have other (j : Fin 32) (hj : j ≠ i) : msix[j] = s.hst.msix[j] := by rw [← hv, table, if_neg (Ne.symm hj)]
  have row' : exec (.msixMaskClear (some i)) s = .next { s with hst := msgRelease { msixOn s.hst with msix := msix } } := by
    rw [row, ← hv]
    rfl
  have free : msgFree { msixOn s.hst with msix := msix } i = !s.hst.msixMask := by
    show (true && true && !s.hst.msixMask && !(msix[i]).mask) = _
    rw [own]
    simp
  obtain ⟨bits, sent⟩ := msgRelease_get { msixOn s.hst with msix := msix } i
  have held : s.hst.msixMask = true → msgRelease { msixOn s.hst with msix := msix } = { msixOn s.hst with msix := msix } := fun hm =>
    msgRelease_held _ fun v => by
      show (true && true && !s.hst.msixMask && !(msix[v]).mask) = _
      rw [hm]
      rfl
  have frame := msgRelease_frame { msixOn s.hst with msix := msix }
  rw [free] at bits sent
  generalize msgRelease { msixOn s.hst with msix := msix } = k at row' bits sent held frame
  refine ⟨_, row', ?_, fun hm hp => sent hp (by rw [hm]; rfl), ?_, fun hm => ?_, fun j hj => ?_, ?_⟩
  · exact (congrArg (fun k : Hst => (k.msix[i]).mask) frame).trans own
  · rw [bits, Bool.not_not]
    rfl
  · rw [held hm]
    exact ⟨rfl, rfl⟩
  · exact (congrArg (fun k : Hst => k.msix[j]) frame).trans (other j hj)
  · rw [frame]
    rfl

/-! ### Register writes (R449, R451) -/

theorem exec_registerWrite (off : BitVec 21) (v : Word) (be : BitVec 4) (len : Nat) (s : State) (hc : s.isl.ctl = true) :
    exec (.registerWrite off v ⟨be, len⟩) s =
      .next (intEval ((if 4 < len then accessError false off.toNat else bar0Write off.toNat v be) (intEval s))) := by
  show execRegisterWrite off v ⟨be, len⟩ s = _
  rw [execRegisterWrite, whenOn_on s hc]

theorem bar0Write_error (off : Nat) (v : Word) (be : BitVec 4) (s : State) (h : be ≠ 0xF ∨ off % 4 ≠ 0) :
    bar0Write off v be s = accessError false off s := if_pos (by simpa using h)

theorem bar0Write_word (off : Nat) (v : Word) (s : State) (h : off % 4 = 0) : bar0Write off v 0xF s = regWrite off v s :=
  if_neg (by simp [h])

theorem errAddr_of (off : Nat) (h : off < 2 ^ 26) : BitVec.ofNat 32 (off % 2 ^ 26 + 2 ^ 31 * bit false) = BitVec.ofNat 32 off := by
  rw [Nat.mod_eq_of_lt h]
  rfl

/-- An access that fails, between two evaluations of the interrupts. -/
theorem accessError_around (bar2 : Bool) (off : Nat) (s : State) : ∃ t, intEval (accessError bar2 off (intEval s)) = t ∧
    t.hst.cErr = s.hst.cErr + 1 ∧ t.hst.intStatus = setBit s.hst.intStatus 2 ∧
    t.hst.errAddr = BitVec.ofNat 32 (off % 2 ^ 26 + 2 ^ 31 * bit bar2) ∧ t = { s with hst := t.hst, evs := t.evs } := by
  obtain ⟨a, p, q, a', p', q', e⟩ := intEval_around (accessError bar2 off) s
  exact ⟨_, e, rfl, rfl, rfl, e ▸ intEval_around_hstEvs _ s (accessError_hstEvs bar2 off)⟩

theorem registerWrite_error (off : BitVec 21) (v : Word) (be : BitVec 4) (len : Nat) (s : State) (hc : s.isl.ctl = true)
    (h : be ≠ 0xF ∨ off.toNat % 4 ≠ 0 ∨ 4 < len) : ∃ t,
    exec (.registerWrite off v ⟨be, len⟩) s = .next t ∧ t.hst.cErr = s.hst.cErr + 1 ∧ t.hst.intStatus = setBit s.hst.intStatus 2 ∧
      t.hst.errAddr = BitVec.ofNat 32 off.toNat ∧ t = { s with hst := t.hst, evs := t.evs } := by
  have fails (u : State) : (if 4 < len then accessError false off.toNat else bar0Write off.toNat v be) u = accessError false off.toNat u := by
    split
    · rfl
    case isFalse hl => exact bar0Write_error _ _ _ u (h.imp id fun x => x.resolve_right hl)
  obtain ⟨t, e, count, int, addr, frame⟩ := accessError_around false off.toNat s
  have lt : off.toNat < 2 ^ 26 := Nat.lt_of_lt_of_le off.isLt (by decide)
  refine ⟨t, ?_, count, int, addr.trans (errAddr_of _ lt), frame⟩
  rw [exec_registerWrite off v be len s hc, fails, e]

/-- A word written at an aligned offset. -/
theorem registerWrite_word (off : BitVec 21) (v : Word) (len : Nat) (s : State) (hc : s.isl.ctl = true) (hl : len ≤ 4)
    (ho : off.toNat % 4 = 0) : exec (.registerWrite off v ⟨0xF, len⟩) s = .next (intEval (regWrite off.toNat v (intEval s))) := by
  rw [exec_registerWrite off v 0xF len s hc, if_neg (by omega), bar0Write_word _ _ _ ho]

theorem regWrite_unmapped (off : Nat) (v : Word) (s : State) (hs : inSpan off = false) (hm : inMsix off = false) (hp : inPba off = false) :
    regWrite off v s = unmapped off s := by
  unfold regWrite
  rw [hs, hm, hp]
  rfl

theorem unmapped_around (off : Nat) (s : State) : ∃ t, intEval (unmapped off (intEval s)) = t ∧
    t.hst.cUnmapped = s.hst.cUnmapped + 1 ∧ t.hst.intStatus = setBit s.hst.intStatus 3 ∧ t = { s with hst := t.hst, evs := t.evs } := by
  obtain ⟨a, p, q, a', p', q', e⟩ := intEval_around (unmapped off) s
  exact ⟨_, e, rfl, rfl, e ▸ intEval_around_hstEvs _ s (unmapped_hstEvs off)⟩

theorem registerWrite_unmapped (off : BitVec 21) (v : Word) (len : Nat) (s : State) (hc : s.isl.ctl = true) (hl : len ≤ 4)
    (ho : off.toNat % 4 = 0) (hs : inSpan off.toNat = false) (hm : inMsix off.toNat = false) (hp : inPba off.toNat = false) : ∃ t,
      exec (.registerWrite off v ⟨0xF, len⟩) s = .next t ∧
      t.hst.cUnmapped = s.hst.cUnmapped + 1 ∧ t.hst.intStatus = setBit s.hst.intStatus 3 ∧ t = { s with hst := t.hst, evs := t.evs } := by
  obtain ⟨t, e, effect⟩ := unmapped_around off.toNat s
  refine ⟨t, ?_, effect⟩
  rw [registerWrite_word off v len s hc hl ho, regWrite_unmapped _ _ _ hs hm hp, e]

/-- A span lies outside the MSI-X table and the pending-bit array. -/
theorem inSpan_plain (off : Nat) (h : inSpan off = true) : inMsix off = false ∧ inPba off = false := by
  have outside (k : off / 65536 = 24) : False := by
    unfold inSpan at h
    rw [k] at h
    simp [blockSpan] at h
  refine ⟨?_, ?_⟩
  · unfold inMsix
    by_contra hm
    simp only [Bool.not_eq_false, Bool.and_eq_true, decide_eq_true_eq] at hm
    exact outside (by omega)
  · unfold inPba
    by_contra hm
    simp only [Bool.not_eq_false, decide_eq_true_eq] at hm
    exact outside (by omega)

theorem regWrite_span (off : Nat) (v : Word) (s : State) (h : inSpan off = true) : regWrite off v s =
    if isCmd (off / 65536) (off % 65536) v then takeHostCmd off v (blockNow (off / 65536) (off % 65536) v s)
    else blockNow (off / 65536) (off % 65536) v s := by
  obtain ⟨hm, hp⟩ := inSpan_plain off h
  unfold regWrite
  rw [hm, hp, h]
  rfl

theorem regWrite_scratch (v : Word) (s : State) : regWrite 0x6C v s = onHst (fun h => { h with scratch := h.scratch.set 0 v }) s :=
  (regWrite_span 0x6C v s (by decide)).trans rfl

theorem scratch_around (v : Word) (s : State) : ∃ t, intEval (regWrite 0x6C v (intEval s)) = t ∧ t.hst.scratch[(0 : Fin 2)] = v ∧
    t.hst.scratch[(1 : Fin 2)] = s.hst.scratch[(1 : Fin 2)] ∧
    t = { s with hst := { s.hst with scratch := t.hst.scratch, armed := t.hst.armed, pba := t.hst.pba, sent := t.hst.sent } } := by
  obtain ⟨a, p, q, a', p', q', e⟩ := intEval_around (regWrite 0x6C v) s
  refine ⟨_, e, ?_⟩
  rw [regWrite_scratch]
  exact ⟨Vector.getElem_set_self (by decide), Vector.getElem_set_ne (by decide) (by decide) (by decide), rfl⟩

theorem registerWrite_scratch (v : Word) (len : Nat) (s : State) (hc : s.isl.ctl = true) (hl : len ≤ 4) : ∃ t,
    exec (.registerWrite 0x6C v ⟨0xF, len⟩) s = .next t ∧
    t.hst.scratch[(0 : Fin 2)] = v ∧ t.hst.scratch[(1 : Fin 2)] = s.hst.scratch[(1 : Fin 2)] ∧
    t = { s with hst := { s.hst with scratch := t.hst.scratch, armed := t.hst.armed, pba := t.hst.pba, sent := t.hst.sent } } := by
  obtain ⟨t, e, effect⟩ := scratch_around v s
  exact ⟨t, (registerWrite_word 0x6C v len s hc hl rfl).trans (congrArg Host.Outcome.next e), effect⟩

/-! ### Commands of an outlet (R451) -/

theorem blockNow_osqCtrl (o : OutIx) (r : Nat) (v : Word) (s : State) (h : r = 4 + 0x100 * o.val) : blockNow 5 r v s = s := by
  have ix : optFin 32 (r / 0x100) = some o := by
    rw [show r / 0x100 = o.val by omega]
    exact optFin_val o
  show withFin 32 (r / 0x100) (fun o => osqNow o (r % 0x100) v s) s = s
  unfold withFin
  rw [ix, show r % 0x100 = 4 by omega]
  rfl

theorem isCmd_osqCtrl (o : OutIx) (r : Nat) (v : Word) (h : r = 4 + 0x100 * o.val) (hv : v &&& 0xFF ≠ 0) : isCmd 5 r v = true := by
  show osqIsCmd (r % 0x100) v = true
  rw [show r % 0x100 = 4 by omega]
  have bits : decide (v &&& 0xFF ≠ 0) = true := decide_eq_true hv
  unfold osqIsCmd
  rw [bits]
  rfl

/-- A command of an outlet is a host command and nothing else. -/
theorem regWrite_osqCtrl (o : OutIx) (off : Nat) (v : Word) (s : State) (h : off = 0x50004 + 0x100 * o.val) (hv : v &&& 0xFF ≠ 0) :
    regWrite off v s = takeHostCmd off v s := by
  have block : off / 65536 = 5 := by omega
  have reg : off % 65536 = 4 + 0x100 * o.val := by omega
  have span : inSpan off = true := by
    unfold inSpan
    rw [block, reg]
    exact decide_eq_true (show 4 + 0x100 * o.val < 0x2000 by omega)
  rw [regWrite_span off v s span, block, isCmd_osqCtrl o _ v reg hv, blockNow_osqCtrl o _ v s reg]
  exact if_pos rfl

theorem takeHostCmd_lead (off : Nat) (v : Word) (s : State) (h : isLead s = true) : takeHostCmd off v s = captureCmd off v s := if_pos h

theorem takeHostCmd_ignored (off : Nat) (v : Word) (s : State) (h : isLead s = false) (hl : isLocal (off / 65536) (off % 65536) v = false) :
    takeHostCmd off v s = ignoreCmd off s := by
  unfold takeHostCmd
  dsimp only
  rw [if_neg (by rw [h]; simp), hl]
  rfl

theorem hstEvent_kept (b data : Nat) (s : State) : (hstEvent b data s).osqR = s.osqR ∧ (hstEvent b data s).nx = s.nx ∧
    (hstEvent b data s).arrived = s.arrived ∧ (hstEvent b data s).tdm = s.tdm := ⟨rfl, rfl, rfl, rfl⟩

theorem ignoreCmd_effect (off : Nat) (s : State) : (ignoreCmd off s).osqR = s.osqR ∧ (ignoreCmd off s).nx = s.nx ∧
    (ignoreCmd off s).arrived = s.arrived ∧ (ignoreCmd off s).tdm.cIgnored = s.tdm.cIgnored + 1 := by
  obtain ⟨regs, next, arrived, tdm⟩ := hstEvent_kept 1 off
    (onTdm (fun t => { t with cIgnored := t.cIgnored + 1, ignoredAddr := BitVec.ofNat 21 off, intStatus := setBit t.intStatus 11 }) s)
  exact ⟨regs, next, arrived, congrArg Tdm.cIgnored tdm⟩

theorem captureCmd_room (off : Nat) (v : Word) (s : State) (h : s.hst.cmdCount < 1024) : captureCmd off v s =
    onHst (fun h => { h with cmdCount := h.cmdCount + 1 }) { s with arrived := s.arrived ++ [.hostCmd (BitVec.ofNat 21 off) v []] } := if_pos h

theorem captureCmd_full (off : Nat) (v : Word) (s : State) (h : 1024 ≤ s.hst.cmdCount) : captureCmd off v s =
    hstEvent 5 off (onHst (fun h => { h with waiting := h.waiting ++ [(BitVec.ofNat 21 off, v)], withheld := h.withheld + 1 }) s) :=
  if_neg (by omega)

/-- What a host command of an outlet leaves. -/
theorem osqCommand_effect (o : OutIx) (off : BitVec 21) (v : Word) (u : State) (h : off.toNat = 0x50004 + 0x100 * o.val) :
    (takeHostCmd off.toNat v u).osqR = u.osqR ∧ (takeHostCmd off.toNat v u).nx = u.nx ∧
    (isLead u = true → u.hst.cmdCount < 1024 → (takeHostCmd off.toNat v u).arrived = u.arrived ++ [.hostCmd off v []] ∧
      (takeHostCmd off.toNat v u).hst.cmdCount = u.hst.cmdCount + 1) ∧
    (isLead u = true → 1024 ≤ u.hst.cmdCount → (takeHostCmd off.toNat v u).arrived = u.arrived ∧
      (takeHostCmd off.toNat v u).hst.waiting = u.hst.waiting ++ [(off, v)]) ∧
    (isLead u = false → (takeHostCmd off.toNat v u).arrived = u.arrived ∧
      (takeHostCmd off.toNat v u).tdm.cIgnored = u.tdm.cIgnored + 1) := by
  have same : BitVec.ofNat 21 off.toNat = off := by simp
  cases hl : isLead u with
  | true =>
    rw [takeHostCmd_lead _ v u hl]
    by_cases hn : u.hst.cmdCount < 1024
    · rw [captureCmd_room _ v u hn, same]
      exact ⟨rfl, rfl, fun _ _ => ⟨rfl, rfl⟩, fun _ hf => absurd hf (by omega), fun no => Bool.noConfusion no⟩
    · rw [captureCmd_full _ v u (by omega), same]
      exact ⟨rfl, rfl, fun _ hr => absurd hr hn, fun _ _ => ⟨rfl, rfl⟩, fun no => Bool.noConfusion no⟩
  | false =>
    have block : off.toNat / 65536 = 5 := by omega
    have nonlocal : isLocal (off.toNat / 65536) (off.toNat % 65536) v = false := by rw [block]; rfl
    rw [takeHostCmd_ignored _ v u hl nonlocal]
    obtain ⟨regs, next, arrived, count⟩ := ignoreCmd_effect off.toNat u
    exact ⟨regs, next, fun no => Bool.noConfusion no, fun no => Bool.noConfusion no, fun _ => ⟨arrived, count⟩⟩

theorem registerWrite_osqCtrl (o : OutIx) (off : BitVec 21) (v : Word) (s : State) (hc : s.isl.ctl = true)
    (h : off.toNat = 0x50004 + 0x100 * o.val) (hv : v &&& 0xFF ≠ 0) :
    ∃ t, exec (.registerWrite off v ⟨0xF, 4⟩) s = .next t ∧ t.osqR = s.osqR ∧ t.nx = s.nx ∧
      (isLead s = true → s.hst.cmdCount < 1024 → t.arrived = s.arrived ++ [.hostCmd off v []] ∧ t.hst.cmdCount = s.hst.cmdCount + 1) ∧
      (isLead s = true → 1024 ≤ s.hst.cmdCount → t.arrived = s.arrived ∧ t.hst.waiting = s.hst.waiting ++ [(off, v)]) ∧
      (isLead s = false → t.arrived = s.arrived ∧ t.tdm.cIgnored = s.tdm.cIgnored + 1) := by
  have row := registerWrite_word off v 4 s hc (Nat.le_refl 4) (by omega)
  rw [regWrite_osqCtrl o off.toNat v (intEval s) h hv] at row
  obtain ⟨a, p, q, a', p', q', e⟩ := intEval_around (takeHostCmd off.toNat v) s
  exact ⟨_, row.trans (congrArg Host.Outcome.next e), osqCommand_effect o off v (fired a p q s) h⟩

end Sys2Proof.Machine
end

section
/-! The reads of the host port (chapter 19) (O59). -/

namespace Sys2Proof.Machine

/-! ### Reads of BAR0 (R449) -/

theorem exec_hostRead_bar0 (off : BitVec 26) (len : Nat) (be : BitVec 4) (s : State) (hc : s.isl.ctl = true) :
    exec (.hostRead .bar0 off len be) s = .next (intEval (bar0Read off.toNat len be (intEval s))) := by
  show (whenOn s.isl.ctl s fun s => intEval (bar0Read off.toNat len be (intEval s))) = _
  rw [whenOn_on s hc]

theorem exec_hostRead_bar2 (off : BitVec 26) (len : Nat) (be : BitVec 4) (s : State) (hl : s.isl.lnd = true) :
    exec (.hostRead .bar2 off len be) s = .next (intEval (bar2Read off.toNat len (intEval s))) := by
  show (whenOn s.isl.lnd s fun s => intEval (bar2Read off.toNat len (intEval s))) = _
  rw [whenOn_on s hl]

theorem regRead_span (off : Nat) (clr : Bool) (s : State) (h : inSpan off = true) : regRead off clr s =
    ((blockRead (off / 65536) (off % 65536) clr s).1, false, (blockRead (off / 65536) (off % 65536) clr s).2) := by
  obtain ⟨hm, hp⟩ := inSpan_plain off h
  unfold regRead
  rw [hm, hp, h]
  rfl

theorem regRead_unmapped (off : Nat) (clr : Bool) (s : State) (hs : inSpan off = false) (hm : inMsix off = false) (hp : inPba off = false) :
    regRead off clr s = (0, s.hst.urUnmapped, unmapped off s) := by
  unfold regRead
  rw [hs, hm, hp]
  rfl

/-- The answer of a read that has reached a register, or none. -/
def answer (x : Nat × Bool × State) : State :=
  if x.2.1 then readAnswer [] true x.2.2 else readAnswer [BitVec.ofNat 32 x.1] false x.2.2

theorem bar0Read_long (off len : Nat) (be : BitVec 4) (s : State) (h : 4 < len) :
    bar0Read off len be s = readAnswer [] true (accessError false off s) := if_pos h

theorem bar0Read_word (off len : Nat) (s : State) (hl : len ≤ 4) (ho : off % 4 = 0) : bar0Read off len 0xF s = answer (regRead off true s) := by
  have good : ((0xF : BitVec 4) ≠ 0xF || off % 4 ≠ 0) = false := by simp [ho]
  unfold bar0Read
  rw [if_neg (by omega)]
  dsimp only
  rw [good, ho]
  rfl

theorem bar0Read_bad (off len : Nat) (be : BitVec 4) (s : State) (hl : len ≤ 4) (h : be ≠ 0xF ∨ off % 4 ≠ 0) :
    bar0Read off len be s = answer (regRead (off - off % 4) false (accessError false off s)) := by
  have bad : (be ≠ 0xF || off % 4 ≠ 0) = true := by simpa using h
  unfold bar0Read
  rw [if_neg (by omega)]
  dsimp only
  rw [bad]
  rfl

/-- The registers of the block itself. -/
theorem regRead_hst (off : Nat) (clr : Bool) (s : State) (h : off < 0xC0) : regRead off clr s = (regAt (hstRegs s) off, false, s) := by
  have block : off / 65536 = 0 := by omega
  have reg : off % 65536 = off := by omega
  have span : inSpan off = true := by
    unfold inSpan
    rw [block, reg]
    exact decide_eq_true h
  rw [regRead_span off clr s span, block, reg]
  rfl

theorem hostRead_span (off : BitVec 26) (len : Nat) (s : State) (hc : s.isl.ctl = true) (hl : len ≤ 4) (ho : off.toNat % 4 = 0)
    (h : inSpan off.toNat = true) : exec (.hostRead .bar0 off len 0xF) s = .next (intEval (readAnswer
      [BitVec.ofNat 32 (blockRead (off.toNat / 65536) (off.toNat % 65536) true (intEval s)).1] false
      (blockRead (off.toNat / 65536) (off.toNat % 65536) true (intEval s)).2)) := by
  rw [exec_hostRead_bar0 off len 0xF s hc, bar0Read_word _ _ _ hl ho, regRead_span _ _ _ h]
  rfl

/-- An answer, between two evaluations of the interrupts. -/
theorem answer_around (ws : List Word) (ur : Bool) (s : State) : ∃ t, intEval (readAnswer ws ur (intEval s)) = t ∧ t.hst.readUr = ur ∧
    t.hst.readData = ws ∧ t = { s with hst := { s.hst with
      readUr := t.hst.readUr, readData := t.hst.readData, armed := t.hst.armed, pba := t.hst.pba, sent := t.hst.sent } } := by
  obtain ⟨a, p, q, a', p', q', e⟩ := intEval_around (readAnswer ws ur) s
  exact ⟨_, e, rfl, rfl, rfl⟩

theorem hostRead_hst (off : BitVec 26) (len : Nat) (s : State) (hc : s.isl.ctl = true) (hl : len ≤ 4) (ho : off.toNat % 4 = 0)
    (h : off.toNat < 0xC0) : ∃ t, exec (.hostRead .bar0 off len 0xF) s = .next t ∧ t.hst.readUr = false ∧
      t.hst.readData = [BitVec.ofNat 32 (regAt (hstRegs (intEval s)) off.toNat)] ∧
      t = { s with hst := { s.hst with readUr := t.hst.readUr, readData := t.hst.readData, armed := t.hst.armed,
                                       pba := t.hst.pba, sent := t.hst.sent } } := by
  have row := exec_hostRead_bar0 off len 0xF s hc
  rw [bar0Read_word _ _ _ hl ho, regRead_hst _ _ _ h] at row
  obtain ⟨t, e, effect⟩ := answer_around [BitVec.ofNat 32 (regAt (hstRegs (intEval s)) off.toNat)] false s
  exact ⟨t, row.trans (congrArg Host.Outcome.next e), effect⟩

theorem readAnswer_hstEvs (ws : List Word) (ur : Bool) (s : State) : HstEvs s (readAnswer ws ur s) := rfl

/-- An answer after an access that fails. -/
theorem failed_around (ws : State → List Word) (ur bar2 : Bool) (off : Nat) (s : State) : ∃ t,
    intEval (readAnswer (ws (accessError bar2 off (intEval s))) ur (accessError bar2 off (intEval s))) = t ∧ t.hst.readUr = ur ∧
    t.hst.readData = ws (accessError bar2 off (intEval s)) ∧ t.hst.cErr = s.hst.cErr + 1 ∧ t.hst.intStatus = setBit s.hst.intStatus 2 ∧
    t = { s with hst := t.hst, evs := t.evs } := by
  have frame : HstEvs s (intEval (readAnswer (ws (accessError bar2 off (intEval s))) ur (accessError bar2 off (intEval s)))) :=
    hstEvs_trans (intEval_hstEvs s) (hstEvs_trans (accessError_hstEvs bar2 off _) (hstEvs_trans (readAnswer_hstEvs _ ur _) (intEval_hstEvs _)))
  generalize ws (accessError bar2 off (intEval s)) = x at frame ⊢
  obtain ⟨a, p, q, a', p', q', e⟩ := intEval_around (fun u => readAnswer x ur (accessError bar2 off u)) s
  exact ⟨_, e, rfl, rfl, rfl, rfl, e ▸ frame⟩

theorem hostRead_bad (off : BitVec 26) (be : BitVec 4) (len : Nat) (s : State) (hc : s.isl.ctl = true) (h : be ≠ 0xF ∨ off.toNat % 4 ≠ 0)
    (hl : len ≤ 4) (ho : off.toNat < 0xC0) : ∃ t, exec (.hostRead .bar0 off len be) s = .next t ∧ t.hst.readUr = false ∧
      t.hst.cErr = s.hst.cErr + 1 ∧
      t.hst.intStatus = setBit s.hst.intStatus 2 ∧ t.hst.readData.length = 1 ∧ t = { s with hst := t.hst, evs := t.evs } := by
  have row := exec_hostRead_bar0 off len be s hc
  rw [bar0Read_bad _ _ _ _ hl h, regRead_hst _ _ _ (by omega)] at row
  obtain ⟨t, e, ur, data, err, int, frame⟩ :=
    failed_around (fun u => [BitVec.ofNat 32 (regAt (hstRegs u) (off.toNat - off.toNat % 4))]) false false off.toNat s
  exact ⟨t, row.trans (congrArg Host.Outcome.next e), ur, err, int, congrArg List.length data, frame⟩

theorem hostRead_long (off : BitVec 26) (be : BitVec 4) (len : Nat) (s : State) (hc : s.isl.ctl = true) (h : 4 < len) : ∃ t,
    exec (.hostRead .bar0 off len be) s = .next t ∧ t.hst.readUr = true ∧ t.hst.readData = [] ∧ t.hst.cErr = s.hst.cErr + 1 ∧
      t = { s with hst := t.hst, evs := t.evs } := by
  have row := exec_hostRead_bar0 off len be s hc
  rw [bar0Read_long _ _ _ _ h] at row
  obtain ⟨t, e, ur, data, err, -, frame⟩ := failed_around (fun _ => []) true false off.toNat s
  exact ⟨t, row.trans (congrArg Host.Outcome.next e), ur, data, err, frame⟩

/-- The answer of a read that no block has. -/
theorem answer_unmapped_around (off : Nat) (s : State) :
    ∃ t, intEval (answer (0, (intEval s).hst.urUnmapped, unmapped off (intEval s))) = t ∧
      t.hst.readUr = s.hst.urUnmapped ∧ t.hst.readData = (if s.hst.urUnmapped then [] else [0]) ∧
      t.hst.cUnmapped = s.hst.cUnmapped + 1 ∧ t = { s with hst := t.hst, evs := t.evs } := by
  have same : (intEval s).hst.urUnmapped = s.hst.urUnmapped := by
    obtain ⟨a, p, q, e⟩ := intEval_fires s
    rw [e]
    rfl
  have frame (ws : List Word) (ur : Bool) : HstEvs s (intEval (readAnswer ws ur (unmapped off (intEval s)))) :=
    hstEvs_trans (intEval_hstEvs s) (hstEvs_trans (unmapped_hstEvs off _) (hstEvs_trans (readAnswer_hstEvs ws ur _) (intEval_hstEvs _)))
  rw [same]
  cases s.hst.urUnmapped with
  | true =>
    obtain ⟨a, p, q, a', p', q', e⟩ := intEval_around (fun u => readAnswer [] true (unmapped off u)) s
    exact ⟨_, e, rfl, rfl, rfl, e ▸ frame [] true⟩
  | false =>
    obtain ⟨a, p, q, a', p', q', e⟩ := intEval_around (fun u => readAnswer [BitVec.ofNat 32 0] false (unmapped off u)) s
    exact ⟨_, e, rfl, rfl, rfl, e ▸ frame [BitVec.ofNat 32 0] false⟩

theorem hostRead_unmapped (off : BitVec 26) (len : Nat) (s : State) (hc : s.isl.ctl = true) (hl : len ≤ 4) (ho : off.toNat % 4 = 0)
    (hs : inSpan off.toNat = false) (hm : inMsix off.toNat = false) (hp : inPba off.toNat = false) : ∃ t,
      exec (.hostRead .bar0 off len 0xF) s = .next t ∧
      t.hst.readUr = s.hst.urUnmapped ∧ t.hst.readData = (if s.hst.urUnmapped then [] else [0]) ∧
      t.hst.cUnmapped = s.hst.cUnmapped + 1 ∧ t = { s with hst := t.hst, evs := t.evs } := by
  have row := exec_hostRead_bar0 off len 0xF s hc
  rw [bar0Read_word _ _ _ hl ho, regRead_unmapped _ _ _ hs hm hp] at row
  obtain ⟨t, e, effect⟩ := answer_unmapped_around off.toNat s
  exact ⟨t, row.trans (congrArg Host.Outcome.next e), effect⟩

/-! ### Reads of BAR2 (R450) -/

/-- A word beyond correction has been read. -/
def UncorrSeen (s : State) : Prop := s.lnd.uncorr = true ∧ s.lnd.intStatus.getLsbD 1 = true

theorem eccWord_seen (s : State) (w : Nat × Bool) (h : UncorrSeen s ∨ w.2 = true) : UncorrSeen (eccWord s w) := by
  unfold eccWord
  split
  case isTrue => exact ⟨rfl, (getLsbD_setBit s.lnd.intStatus 1 1 (by decide)).trans (by simp)⟩
  case isFalse hw =>
    obtain ⟨un, int⟩ := h.resolve_right hw
    exact ⟨un, setBit_keeps s.lnd.intStatus 0 1 int⟩

theorem foldl_eccWord_seen (l : List (Nat × Bool)) (s : State) (h : UncorrSeen s ∨ ∃ w ∈ l, w.2 = true) : UncorrSeen (l.foldl eccWord s) := by
  induction l generalizing s with
  | nil => exact h.resolve_right (by simp)
  | cons v vs ih =>
    refine ih _ ?_
    obtain seen | ⟨w, hw, hb⟩ := h
    · exact .inl (eccWord_seen s v (.inl seen))
    · obtain rfl | hv := List.mem_cons.mp hw
      · exact .inl (eccWord_seen s w (.inr hb))
      · exact .inr ⟨w, hv, hb⟩

/-- The bytes that a read of BAR2 covers. -/
def bar2Len (off len : Nat) : Nat := min len (landSize - off)

theorem bar2Read_eq (off len : Nat) (s : State) :
    bar2Read off len s = readAnswer (wordsOf (lndRead off (bar2Len off len) s)) false (eccRead off (bar2Len off len) s) := rfl

/-- A change that leaves the landing memory changes nothing of a read. -/
theorem lndBad_lnd {s u : State} (h : u.lnd = s.lnd) (a n : Nat) : lndBad a n u = lndBad a n s := by rw [lndBad, lndBad, h]
theorem lndRead_lnd {s u : State} (h : u.lnd = s.lnd) (a n : Nat) : lndRead a n u = lndRead a n s := by rw [lndRead, lndRead, h]

/-- A read of BAR2 changes the block, the error marks and the events. -/
theorem bar2Read_effect (off len : Nat) (u : State) : (bar2Read off len u).hst = { u.hst with
      readData := wordsOf (lndRead off (bar2Len off len) u), readUr := false } ∧ (bar2Read off len u).lnd.mem = u.lnd.mem ∧
    (lndBad off (bar2Len off len) u = [] → bar2Read off len u = { u with hst := (bar2Read off len u).hst }) ∧
    (∀ w, (w, true) ∈ lndBad off (bar2Len off len) u → UncorrSeen (bar2Read off len u)) ∧
    bar2Read off len u = { u with hst := (bar2Read off len u).hst, lnd := (bar2Read off len u).lnd, evs := (bar2Read off len u).evs } := by
  have only := eccRead_only off (bar2Len off len) u
  have none_bad (h : lndBad off (bar2Len off len) u = []) : eccRead off (bar2Len off len) u = u := congrArg (List.foldl eccWord u) h
  have seen (w : Nat) (h : (w, true) ∈ lndBad off (bar2Len off len) u) : UncorrSeen (eccRead off (bar2Len off len) u) :=
    foldl_eccWord_seen _ u (.inr ⟨_, h, rfl⟩)
  rw [bar2Read_eq]
  generalize wordsOf (lndRead off (bar2Len off len) u) = ws
  generalize eccRead off (bar2Len off len) u = x at only none_bad seen ⊢
  have hst : x.hst = u.hst := (congrArg State.hst only :)
  refine ⟨?_, (congrArg (fun t : State => t.lnd.mem) only :), fun h => ?_, seen, ?_⟩
  · show { x.hst with readData := ws, readUr := false } = _
    rw [hst]
  · rw [none_bad h]
    rfl
  · rw [only]
    rfl

theorem hostRead_bar2 (off : BitVec 26) (len : Nat) (be : BitVec 4) (s : State) (hl : s.isl.lnd = true) : ∃ t,
    exec (.hostRead .bar2 off len be) s = .next t ∧ t.hst.readUr = false ∧
      t.hst.readData = wordsOf (lndRead off.toNat (min len (landSize - off.toNat)) s) ∧ t.lnd.mem = s.lnd.mem ∧
      (lndBad off.toNat (min len (landSize - off.toNat)) s = [] → t.lnd = s.lnd ∧ t = { s with hst := t.hst }) ∧
      (∀ w, (w, true) ∈ lndBad off.toNat (min len (landSize - off.toNat)) s → t.lnd.uncorr = true ∧ t.lnd.intStatus.getLsbD 1 = true) ∧
      t = { s with hst := t.hst, lnd := t.lnd, evs := t.evs } := by
  have row := exec_hostRead_bar2 off len be s hl
  obtain ⟨a, p, q, a', p', q', e⟩ := intEval_around (bar2Read off.toNat len) s
  rw [e] at row
  obtain ⟨hst, mem, clean, seen, frame⟩ := bar2Read_effect off.toNat len (fired a p q s)
  rw [lndBad_lnd (show (fired a p q s).lnd = s.lnd from rfl)] at clean seen
  rw [lndRead_lnd (show (fired a p q s).lnd = s.lnd from rfl)] at hst
  generalize bar2Read off.toNat len (fired a p q s) = x at row hst mem clean seen frame
  refine ⟨_, row, (congrArg Hst.readUr hst :), (congrArg Hst.readData hst :), mem, fun h => ?_, seen, ?_⟩
  · have whole := clean h
    rw [whole]
    exact ⟨rfl, rfl⟩
  · rw [frame]
    rfl

end Sys2Proof.Machine
end

section
/-! The quad-SPI target, the link and the island of the host port (chapter 19); the rows of O59. -/

namespace Sys2Proof.Machine

/-! ### Reads of the target (R454) -/

theorem exec_qspiRead (bar : Bar) (off : BitVec 26) (len : Nat) (ready : Bool) (s : State) (hc : s.isl.ctl = true) (hq : s.hst.qspiDis = false) :
    exec (.qspiRead bar off len ready) s = .next (intEval (qspiRead bar off.toNat len ready (intEval s))) := by
  have on : (s.isl.ctl && !s.hst.qspiDis) = true := by rw [hc, hq]; rfl
  show (whenOn (s.isl.ctl && !s.hst.qspiDis) s fun s => intEval (qspiRead bar off.toNat len ready (intEval s))) = _
  rw [whenOn_on s on]

/-- A transaction counted, with whether its data were ready. -/
def counted (notReady : Bool) (s : State) : State := onHst (fun h => { h with lastNotReady := notReady }) (qspiCount s)

/-- The end of a read, which may lie inside a word. -/
def readEnd (len : Nat) (s : State) : State := if len % 4 ≠ 0 then qspiError true s else s

theorem qspiRead_late (bar : Bar) (off len : Nat) (s : State) : qspiRead bar off len false s =
    readEnd len (readAnswer (List.replicate (cdiv len 4) 0xFFFFFFFF) false (qspiError false (counted true s))) := rfl

theorem qspiRead_bar2 (off len : Nat) (s : State) : qspiRead .bar2 off len true s = readEnd len (bar2Read off len (counted false s)) := rfl

theorem qspiRead_bar0 (off len : Nat) (s : State) (h : 4 ≤ len) :
    qspiRead .bar0 off len true s = readEnd len (bar0Read off len 0xF (counted false s)) :=
  congrArg (readEnd len) (if_neg (Nat.not_lt.mpr h))

theorem counted_hstEvs (b : Bool) (s : State) : HstEvs s (counted b s) :=
  hstEvs_trans (onHst_hstEvs _ s) (onHst_hstEvs _ _)
theorem qspiError_hstEvs (b : Bool) (s : State) : HstEvs s (qspiError b s) := hstEvs_trans (onHst_hstEvs _ s) (hstEvent_hstEvs 7 0 _)
theorem readEnd_hstEvs (len : Nat) (s : State) : HstEvs s (readEnd len s) := ite_rel _ (qspiError_hstEvs true s) (hstEvs_refl s)

theorem setBit_twice {m : Nat} (w : BitVec m) (b : Nat) : setBit (setBit w b) b = setBit w b := by
  rw [setBit, setBit, BitVec.or_assoc, BitVec.or_self]

/-- What the end of a read leaves of the block. -/
theorem readEnd_hst (len : Nat) (s : State) : (readEnd len s).hst = { s.hst with
    framing := if len % 4 = 0 then s.hst.framing else s.hst.framing + 1,
    intStatus := if len % 4 = 0 then s.hst.intStatus else setBit s.hst.intStatus 7 } := by
  unfold readEnd
  by_cases h : len % 4 = 0
  · rw [if_neg (not_not.mpr h), if_pos h, if_pos h]
  · rw [if_pos h, if_neg h, if_neg h]
    rfl

theorem readEnd_whole (len : Nat) (s : State) (h : len % 4 = 0) : readEnd len s = s := if_neg (not_not.mpr h)

theorem readAnswer_hst (ws : List Word) (ur : Bool) (s : State) : (readAnswer ws ur s).hst = { s.hst with readData := ws, readUr := ur } := rfl
theorem counted_hst (b : Bool) (s : State) : (counted b s).hst = { s.hst with accesses := s.hst.accesses + 1, lastNotReady := b } := rfl
theorem qspiError_late_hst (s : State) : (qspiError false s).hst = { s.hst with intStatus := setBit s.hst.intStatus 7 } := rfl

/-- A transaction whose data were not ready. -/
theorem qspiRead_late_effect (bar : Bar) (off len : Nat) (s : State) : (qspiRead bar off len false s).hst = { s.hst with
    accesses := s.hst.accesses + 1, lastNotReady := true, readData := List.replicate (cdiv len 4) 0xFFFFFFFF, readUr := false,
    framing := if len % 4 = 0 then s.hst.framing else s.hst.framing + 1, intStatus := setBit s.hst.intStatus 7 } := by
  rw [qspiRead_late, readEnd_hst, readAnswer_hst, qspiError_late_hst, counted_hst]
  generalize List.replicate (cdiv len 4) _ = ws
  by_cases h : len % 4 = 0
  · simp only [h, if_true]
  · simp only [h, if_false, setBit_twice]

theorem qspiRead_late_hstEvs (bar : Bar) (off len : Nat) (s : State) : HstEvs s (qspiRead bar off len false s) := by
  rw [qspiRead_late]
  exact hstEvs_trans (counted_hstEvs true s) (hstEvs_trans (qspiError_hstEvs false _) (hstEvs_trans (readAnswer_hstEvs _ _ _) (readEnd_hstEvs len _)))

theorem qspiRead_notReady (bar : Bar) (off : BitVec 26) (len : Nat) (s : State) (hc : s.isl.ctl = true) (hq : s.hst.qspiDis = false) : ∃ t,
    exec (.qspiRead bar off len false) s = .next t ∧ t.hst.readData = List.replicate (cdiv len 4) 0xFFFFFFFF ∧
      t.hst.lastNotReady = true ∧ t.hst.accesses = s.hst.accesses + 1 ∧ t.hst.intStatus = setBit s.hst.intStatus 7 ∧
      t.hst.framing = (if len % 4 = 0 then s.hst.framing else s.hst.framing + 1) ∧ t = { s with hst := t.hst, evs := t.evs } := by
  have row := exec_qspiRead bar off len false s hc hq
  have frame := intEval_around_hstEvs (qspiRead bar off.toNat len false) s (qspiRead_late_hstEvs bar off.toNat len)
  obtain ⟨a, p, q, a', p', q', e⟩ := intEval_around (qspiRead bar off.toNat len false) s
  have hst := qspiRead_late_effect bar off.toNat len (fired a p q s)
  rw [e] at row frame
  generalize qspiRead bar off.toNat len false (fired a p q s) = x at row frame hst
  exact ⟨_, row, (congrArg Hst.readData hst :), (congrArg Hst.lastNotReady hst :), (congrArg Hst.accesses hst :),
    (congrArg Hst.intStatus hst :), (congrArg Hst.framing hst :), frame⟩

/-- The registers of the block, the landing block and the events alone change. -/
def HostOnly (s t : State) : Prop := t = { s with hst := t.hst, lnd := t.lnd, evs := t.evs }

theorem hostOnly_trans {s t u : State} (h : HostOnly s t) (k : HostOnly t u) : HostOnly s u := by
  unfold HostOnly at h k ⊢
  rw [h] at k
  exact k

theorem hostOnly_of {s t : State} (h : HstEvs s t) : HostOnly s t := by
  have whole : t = { s with hst := t.hst, evs := t.evs } := h
  have lnd : t.lnd = s.lnd := (congrArg State.lnd whole :)
  unfold HostOnly
  rw [lnd]
  exact h

theorem qspiRead_memory (off : BitVec 26) (len : Nat) (s : State) (hc : s.isl.ctl = true) (hq : s.hst.qspiDis = false) : ∃ t,
    exec (.qspiRead .bar2 off len true) s = .next t ∧
      t.hst.readData = wordsOf (lndRead off.toNat (min len (landSize - off.toNat)) s) ∧ t.hst.lastNotReady = false ∧
      t.hst.accesses = s.hst.accesses + 1 ∧ t.hst.framing = (if len % 4 = 0 then s.hst.framing else s.hst.framing + 1) ∧
      (len % 4 ≠ 0 → t.hst.intStatus.getLsbD 7 = true) ∧
      t.lnd.mem = s.lnd.mem ∧ t = { s with hst := t.hst, lnd := t.lnd, evs := t.evs } := by
  have row := exec_qspiRead .bar2 off len true s hc hq
  obtain ⟨a, p, q, a', p', q', e⟩ := intEval_around (qspiRead .bar2 off.toNat len true) s
  rw [e, qspiRead_bar2] at row
  obtain ⟨hst, mem, -, -, frame⟩ := bar2Read_effect off.toNat len (counted false (fired a p q s))
  rw [lndRead_lnd (show (counted false (fired a p q s)).lnd = s.lnd from rfl)] at hst
  generalize bar2Read off.toNat len (counted false (fired a p q s)) = x at row hst mem frame
  have ended := readEnd_hst len x
  have tail := readEnd_hstEvs len x
  generalize readEnd len x = y at row ended tail
  have lnd : y.lnd = x.lnd := (congrArg State.lnd tail :)
  have data : y.hst.readData = x.hst.readData := (congrArg Hst.readData ended :)
  have ready : y.hst.lastNotReady = x.hst.lastNotReady := (congrArg Hst.lastNotReady ended :)
  have count : y.hst.accesses = x.hst.accesses := (congrArg Hst.accesses ended :)
  have framing : y.hst.framing = if len % 4 = 0 then x.hst.framing else x.hst.framing + 1 := (congrArg Hst.framing ended :)
  have int : y.hst.intStatus = if len % 4 = 0 then x.hst.intStatus else setBit x.hst.intStatus 7 := (congrArg Hst.intStatus ended :)
  have framingX : x.hst.framing = s.hst.framing := (congrArg Hst.framing hst :)
  refine ⟨_, row, data.trans (congrArg Hst.readData hst :), ready.trans (congrArg Hst.lastNotReady hst :),
    count.trans (congrArg Hst.accesses hst :), framing.trans (by rw [framingX]), fun h => ?_, ?_, ?_⟩
  · show y.hst.intStatus.getLsbD 7 = true
    rw [int, if_neg h, getLsbD_setBit _ _ _ (by decide)]
    simp
  · show y.lnd.mem = s.lnd.mem
    rw [lnd]
    exact mem
  · exact hostOnly_trans (hostOnly_of (fired_hstEvs a p q s)) (hostOnly_trans (hostOnly_of (counted_hstEvs false _))
      (hostOnly_trans frame (hostOnly_trans (hostOnly_of tail) (hostOnly_of (fired_hstEvs a' p' q' y)))))

theorem qspiRead_long (off : BitVec 26) (len : Nat) (s : State) (hc : s.isl.ctl = true) (hq : s.hst.qspiDis = false) (hl : 4 < len) : ∃ t,
    exec (.qspiRead .bar0 off len true) s = .next t ∧ t.hst.readData = [] ∧ t.hst.readUr = true ∧ t.hst.cErr = s.hst.cErr + 1 ∧
      t.hst.accesses = s.hst.accesses + 1 ∧ t.hst.framing = (if len % 4 = 0 then s.hst.framing else s.hst.framing + 1) ∧
      t = { s with hst := t.hst, evs := t.evs } := by
  have row := exec_qspiRead .bar0 off len true s hc hq
  have frame : HstEvs s (intEval (readEnd len (readAnswer [] true (accessError false off.toNat (counted false (intEval s)))))) :=
    intEval_around_hstEvs (fun u => readEnd len (readAnswer [] true (accessError false off.toNat (counted false u)))) s fun u =>
      hstEvs_trans (counted_hstEvs false u) (hstEvs_trans (accessError_hstEvs _ _ _) (hstEvs_trans (readAnswer_hstEvs _ _ _) (readEnd_hstEvs len _)))
  rw [qspiRead_bar0 _ _ _ (by omega), bar0Read_long _ _ _ _ hl] at row
  obtain ⟨a, p, q, a', p', q', e⟩ :=
    intEval_around (fun u => readEnd len (readAnswer [] true (accessError false off.toNat (counted false u)))) s
  rw [e] at row frame
  have ended := readEnd_hst len (readAnswer [] true (accessError false off.toNat (counted false (fired a p q s))))
  exact ⟨_, row, (congrArg Hst.readData ended :), (congrArg Hst.readUr ended :), (congrArg Hst.cErr ended :), (congrArg Hst.accesses ended :),
    (congrArg Hst.framing ended :), frame⟩

/-! ### One word of the registers changes with a transaction -/

/-- Two lists that differ in one place at most. -/
inductive OneWord : Nat → List Nat → List Nat → Prop
  | here (x y : Nat) (l : List Nat) : OneWord 0 (x :: l) (y :: l)
  | next (a : Nat) {n : Nat} {l k : List Nat} : OneWord n l k → OneWord (n + 1) (a :: l) (a :: k)

theorem OneWord.before {n : Nat} {l k : List Nat} (h : OneWord n l k) (r : List Nat) : OneWord n (l ++ r) (k ++ r) := by
  induction h with
  | here x y l => exact .here x y (l ++ r)
  | next a _ ih => exact .next a ih

theorem OneWord.after {n m : Nat} {l k : List Nat} (h : OneWord n l k) (r : List Nat) (hm : m = r.length + n) : OneWord m (r ++ l) (r ++ k) := by
  subst hm
  induction r with
  | nil => simpa using h
  | cons a r ih =>
    rw [List.length_cons, Nat.add_right_comm]
    exact .next a ih

theorem OneWord.getD {n : Nat} {l k : List Nat} (h : OneWord n l k) (i : Nat) (hi : i ≠ n) : l.getD i 0 = k.getD i 0 := by
  induction h generalizing i with
  | here x y l =>
    cases i with
    | zero => exact absurd rfl hi
    | succ i => rfl
  | next a _ ih =>
    cases i with
    | zero => rfl
    | succ i => exact ih i fun e => hi (congrArg (· + 1) e)

theorem srcPending_counted (b : Bool) (s : State) (n : Nat) : srcPending (counted b s) n = srcPending s n := rfl
theorem vecPend_counted (b : Bool) (s : State) : vecPend (counted b s) = vecPend s := by
  have vec (n : Nat) : vecOf (counted b s) n = vecOf s n := rfl
  simp only [vecPend, srcPending_counted, vec]

/-- The word of the transactions, HST_QSPI_STATUS, alone differs. -/
theorem hstRegs_counted (b : Bool) (s : State) : OneWord 26 (hstRegs (counted b s)) (hstRegs s) := by
  have src : srcPending (counted b s) = srcPending s := funext (srcPending_counted b s)
  unfold hstRegs
  dsimp only
  rw [vecPend_counted, src]
  refine .before (.before (.before (.before (.before ?_ _) _) _) _) _
  refine OneWord.after (n := 11) ?_ _ (by simp)
  iterate 11 refine .next _ ?_
  exact .here _ _ _

theorem regAt_counted (b : Bool) (s : State) (off : Nat) (ho : off % 4 = 0) (h : off ≠ 0x68) :
    regAt (hstRegs (counted b s)) off = regAt (hstRegs s) off :=
  (hstRegs_counted b s).getD (off / 4) (by omega)

/-- The registers of the block alone change. -/
def HstOnly (s t : State) : Prop := t = { s with hst := t.hst }

theorem hstOnly_trans {s t u : State} (h : HstOnly s t) (k : HstOnly t u) : HstOnly s u := by
  unfold HstOnly at h k ⊢
  rw [h] at k
  exact k

theorem onHst_hstOnly (f : Hst → Hst) (s : State) : HstOnly s (onHst f s) := rfl
theorem readAnswer_hstOnly (ws : List Word) (ur : Bool) (s : State) : HstOnly s (readAnswer ws ur s) := rfl
theorem fired_hstOnly (a p : BitVec 32) (q : List (Fin 32)) (s : State) : HstOnly s (fired a p q s) := rfl
theorem counted_hstOnly (b : Bool) (s : State) : HstOnly s (counted b s) := hstOnly_trans (onHst_hstOnly _ s) (onHst_hstOnly _ _)
theorem intEval_hstOnly (s : State) : HstOnly s (intEval s) := by
  obtain ⟨a, p, q, e⟩ := intEval_fires s
  rw [e]
  exact fired_hstOnly a p q s
theorem intEval_around_hstOnly (g : State → State) (s : State) (h : ∀ u, HstOnly u (g u)) : HstOnly s (intEval (g (intEval s))) :=
  hstOnly_trans (intEval_hstOnly s) (hstOnly_trans (h _) (intEval_hstOnly _))

/-- An answer to a transaction, between two evaluations of the interrupts. -/
theorem answer_counted_around (ws : List Word) (ur : Bool) (s : State) : ∃ t, intEval (readAnswer ws ur (counted false (intEval s))) = t ∧
    t.hst.readUr = ur ∧ t.hst.readData = ws ∧ t.hst.lastNotReady = false ∧ t.hst.accesses = s.hst.accesses + 1 ∧
    t = { s with hst := t.hst } := by
  obtain ⟨a, p, q, a', p', q', e⟩ := intEval_around (fun u => readAnswer ws ur (counted false u)) s
  have frame := intEval_around_hstOnly (fun u => readAnswer ws ur (counted false u)) s fun u =>
    hstOnly_trans (counted_hstOnly false u) (readAnswer_hstOnly ws ur _)
  exact ⟨_, e, rfl, rfl, rfl, rfl, e ▸ frame⟩

theorem qspiRead_register (off : BitVec 26) (s : State) (hc : s.isl.ctl = true) (hq : s.hst.qspiDis = false) (ho : off.toNat % 4 = 0)
    (h : off.toNat < 0xC0) :
    ∃ t, exec (.qspiRead .bar0 off 4 true) s = .next t ∧ t.hst.readUr = false ∧ t.hst.lastNotReady = false ∧
      t.hst.accesses = s.hst.accesses + 1 ∧
      (off.toNat ≠ 0x68 → t.hst.readData = [BitVec.ofNat 32 (regAt (hstRegs (intEval s)) off.toNat)]) ∧ t = { s with hst := t.hst } := by
  have row := exec_qspiRead .bar0 off 4 true s hc hq
  rw [qspiRead_bar0 _ _ _ (Nat.le_refl 4), readEnd_whole 4 _ rfl, bar0Read_word _ _ _ (Nat.le_refl 4) ho, regRead_hst _ _ _ h] at row
  have word (hx : off.toNat ≠ 0x68) := regAt_counted false (intEval s) off.toNat ho hx
  generalize regAt (hstRegs (intEval s)) off.toNat = y at word
  generalize regAt (hstRegs (counted false (intEval s))) off.toNat = x at row word
  obtain ⟨t, e, effect⟩ := answer_counted_around [BitVec.ofNat 32 x] false s
  obtain ⟨ur, data, ready, count, frame⟩ := effect
  exact ⟨t, row.trans (congrArg Host.Outcome.next e), ur, ready, count, fun hx => by rw [data, word hx], frame⟩

end Sys2Proof.Machine
end

section
/-! The writes of the quad-SPI target, the link and the island of the host port (chapter 19): O59. -/

namespace Sys2Proof.Machine

/-! ### Writes of the target (R454) -/

theorem exec_qspiWrite (bar : Bar) (off : BitVec 26) (ws : List Word) (s : State) (hc : s.isl.ctl = true) (hq : s.hst.qspiDis = false) :
    exec (.qspiWrite bar off ⟨ws, 0⟩) s = .next (intEval (qspiWrite bar off.toNat ws (intEval s))) := by
  have on : (s.isl.ctl && !s.hst.qspiDis) = true := by rw [hc, hq]; rfl
  show execQspiWrite bar off ⟨ws, 0⟩ s = _
  rw [execQspiWrite, whenOn_on s on]
  rfl

theorem exec_qspiWrite_cut (bar : Bar) (off : BitVec 26) (ws : List Word) (tail : Fin 4) (s : State) (hc : s.isl.ctl = true)
    (hq : s.hst.qspiDis = false) (ht : tail ≠ 0) : exec (.qspiWrite bar off ⟨ws, tail⟩) s = .next (intEval (qspiCut (intEval s))) := by
  have on : (s.isl.ctl && !s.hst.qspiDis) = true := by rw [hc, hq]; rfl
  show execQspiWrite bar off ⟨ws, tail⟩ s = _
  rw [execQspiWrite, whenOn_on s on, if_neg ht]

/-- A write noted in the status byte. -/
def noted (bad : Bool) (s : State) : State := onHst (fun h => { h with lastDiscarded := bad }) s

theorem noted_hst (bad : Bool) (s : State) : (noted bad s).hst = { s.hst with lastDiscarded := bad } := rfl
theorem noted_lnd (bad : Bool) (s : State) : (noted bad s).lnd = s.lnd := rfl
theorem noted_hstOnly (bad : Bool) (s : State) : HstOnly s (noted bad s) := rfl
theorem qspiCount_hstOnly (s : State) : HstOnly s (qspiCount s) := rfl

theorem hstEvs_of {s t : State} (h : HstOnly s t) : HstEvs s t := by
  have whole : t = { s with hst := t.hst } := h
  have evs : t.evs = s.evs := (congrArg State.evs whole :)
  unfold HstEvs
  rw [evs]
  exact h

theorem qspiWrite_eq (bar : Bar) (off : Nat) (ws : List Word) (s : State) : qspiWrite bar off ws s =
    noted (qspiBad bar off ws s) (qspiPut bar off ws (qspiCount s)) := rfl

/-! #### A write that lies in BAR2 -/

theorem bytesOf_length (ws : List Word) : (bytesOf ws).length = 4 * ws.length := by
  rw [bytesOf, flatten_map_length (fun w : Word => leBytes 4 w.toNat) 4 ws (fun _ => leBytes_length 4 _), Nat.mul_comm]

theorem memReadBytes_get (m : Memory) (a : Nat) (bs : List Byte) (h : ∀ i < bs.length, memRead m (a + i) = bs.getD i 0) :
    memReadBytes m a bs.length = bs := by
  induction bs generalizing a with
  | nil => rfl
  | cons b bs ih =>
    have rest := ih (a + 1) fun i hi => by
      rw [show a + 1 + i = a + (i + 1) by omega]
      exact h (i + 1) (by simpa using hi)
    rw [List.length_cons, memReadBytes, rest]
    exact congrArg (· :: bs) (h 0 (by simp))

theorem qspiBad_bar2 (off : Nat) (ws : List Word) (s : State) (h : ws ≠ []) : qspiBad .bar2 off ws s =
    (List.range (4 * (ws.take 64).length)).any fun i => !hostMay s (off + i) := by
  cases ws with
  | nil => exact absurd rfl h
  | cons w ws => rfl

/-- A write of at most 64 words to where the host may write. -/
theorem qspiPut_all (off : Nat) (ws : List Word) (s : State) (hl : ws.length ≤ 64) (h : ∀ i < 4 * ws.length, hostMay s (off + i) = true) :
    qspiPut .bar2 off ws s = (hostBytes off (bytesOf ws) s).1 := by
  have put : qspiPut .bar2 off ws s = bar2Write off (bytesOf (ws.take 64)) s := rfl
  rw [put, List.take_of_length_le hl]
  exact bar2Write_all off _ s fun i hi => h i (by rwa [bytesOf_length] at hi)

theorem hostBytes_read (off : Nat) (bs : List Byte) (s : State) (wf : Memory.wf s.lnd.mem = true)
    (h : ∀ i < bs.length, hostMay s (off + i) = true) : memReadBytes (hostBytes off bs s).1.lnd.mem off bs.length = bs :=
  memReadBytes_get _ off bs fun i hi => hostBytes_stored off bs s wf i hi (h i hi)

theorem hostBytes_hostOnly (a : Nat) (bs : List Byte) (s : State) : HostOnly s (hostBytes a bs s).1 := by
  have frame := hostBytes_frame a bs s
  unfold HostOnly
  generalize (hostBytes a bs s).1 = t at frame ⊢
  rw [frame]

theorem qspiWrite_stored (off : Nat) (ws : List Word) (s : State) (hw : ws ≠ []) (hl : ws.length ≤ 64)
    (h : ∀ i < 4 * ws.length, hostMay s (off + i) = true) :
    qspiWrite .bar2 off ws s = noted false (hostBytes off (bytesOf ws) (qspiCount s)).1 := by
  have good : qspiBad .bar2 off ws s = false := by
    rw [qspiBad_bar2 off ws _ hw, List.take_of_length_le hl, List.any_eq_false]
    intro i hi
    rw [h i (List.mem_range.mp hi)]
    simp
  rw [qspiWrite_eq, qspiPut_all off ws (qspiCount s) hl h, good]

theorem qspiWrite_memory (off : BitVec 26) (ws : List Word) (s : State) (hc : s.isl.ctl = true) (hq : s.hst.qspiDis = false) (hw : ws ≠ [])
    (hl : ws.length ≤ 64) (h : ∀ i < 4 * ws.length, hostMay s (off.toNat + i) = true) (wf : Memory.wf s.lnd.mem = true) : ∃ t,
    exec (.qspiWrite .bar2 off ⟨ws, 0⟩) s = .next t ∧ memReadBytes t.lnd.mem off.toNat (4 * ws.length) = bytesOf ws ∧
      t.hst.lastDiscarded = false ∧ t.hst.accesses = s.hst.accesses + 1 ∧ t = { s with hst := t.hst, lnd := t.lnd } := by
  have row := exec_qspiWrite .bar2 off ws s hc hq
  obtain ⟨a, p, q, a', p', q', e⟩ := intEval_around (qspiWrite .bar2 off.toNat ws) s
  have may (i : Nat) : hostMay (fired a p q s) (off.toNat + i) = hostMay s (off.toNat + i) := hostMay_map rfl _
  rw [e, qspiWrite_stored off.toNat ws (fired a p q s) hw hl (fun i hi => (may i).trans (h i hi))] at row
  have read := hostBytes_read off.toNat (bytesOf ws) (qspiCount (fired a p q s)) wf
    (fun i hi => (may i).trans (h i (by rwa [bytesOf_length] at hi)))
  have frame := hostBytes_frame off.toNat (bytesOf ws) (qspiCount (fired a p q s))
  have only := hostBytes_hostOnly off.toNat (bytesOf ws) (qspiCount (fired a p q s))
  rw [bytesOf_length] at read
  generalize (hostBytes off.toNat (bytesOf ws) (qspiCount (fired a p q s))).1 = x at row read frame only
  have count : x.hst.accesses = s.hst.accesses + 1 := (congrArg (fun t : State => t.hst.accesses) frame :)
  have whole : HostOnly s (fired a' p' q' (noted false x)) := hostOnly_trans (hostOnly_of (fired_hstEvs a p q s))
    (hostOnly_trans (hostOnly_of (hstEvs_of (qspiCount_hstOnly _))) (hostOnly_trans only
      (hostOnly_of (hstEvs_trans (hstEvs_of (noted_hstOnly false x)) (fired_hstEvs a' p' q' _)))))
  have evs : (fired a' p' q' (noted false x)).evs = s.evs := (congrArg State.evs frame :)
  unfold HostOnly at whole
  rw [evs] at whole
  exact ⟨_, row, read, rfl, count, whole⟩

theorem qspiWrite_refused (off : BitVec 26) (ws : List Word) (s : State) (hc : s.isl.ctl = true) (hq : s.hst.qspiDis = false) (hw : ws ≠ [])
    (h : ∃ i < 4 * min 64 ws.length, hostMay s (off.toNat + i) = false) : ∃ t,
    exec (.qspiWrite .bar2 off ⟨ws, 0⟩) s = .next t ∧ t.hst.lastDiscarded = true ∧ t.hst.accesses = s.hst.accesses + 1 ∧
      t.lnd.hostWr = s.lnd.hostWr + 1 ∧ t.hst.intStatus = setBit s.hst.intStatus 4 ∧
      t = { s with hst := t.hst, lnd := t.lnd, evs := t.evs } := by
  have row := exec_qspiWrite .bar2 off ws s hc hq
  obtain ⟨a, p, q, a', p', q', e⟩ := intEval_around (qspiWrite .bar2 off.toNat ws) s
  have put (u : State) : qspiPut .bar2 off.toNat ws u = bar2Write off.toNat (bytesOf (ws.take 64)) u := rfl
  have may (i : Nat) : hostMay (qspiCount (fired a p q s)) (off.toNat + i) = hostMay s (off.toNat + i) := hostMay_map rfl _
  have refused : ∃ i < (bytesOf (ws.take 64)).length, hostMay (qspiCount (fired a p q s)) (off.toNat + i) = false := by
    obtain ⟨i, hi, hm⟩ := h
    exact ⟨i, by rw [bytesOf_length, List.length_take]; exact hi, (may i).trans hm⟩
  obtain ⟨-, effect, frame⟩ := bar2Write_effect off.toNat (bytesOf (ws.take 64)) (qspiCount (fired a p q s))
  obtain ⟨wr, -, int⟩ := effect refused
  obtain ⟨y, refusal⟩ := bar2Write_refused _ _ _ refused
  have count : (bar2Write off.toNat (bytesOf (ws.take 64)) (qspiCount (fired a p q s))).hst.accesses = s.hst.accesses + 1 := by
    have bytes := hostBytes_frame off.toNat (bytesOf (ws.take 64)) (qspiCount (fired a p q s))
    rw [refusal]
    generalize (hostBytes off.toNat (bytesOf (ws.take 64)) (qspiCount (fired a p q s))).1 = z at bytes
    exact (congrArg (fun t : State => t.hst.accesses) bytes :)
  have bad : qspiBad .bar2 off.toNat ws (fired a p q s) = true := by
    obtain ⟨i, hi, hm⟩ := h
    rw [qspiBad_bar2 _ ws _ hw, List.any_eq_true]
    have no : hostMay (fired a p q s) (off.toNat + i) = false := (hostMay_map rfl _).trans hm
    exact ⟨i, List.mem_range.mpr (by rw [List.length_take]; exact hi), by rw [no]; rfl⟩
  rw [e, qspiWrite_eq, put, bad] at row
  generalize bar2Write off.toNat (bytesOf (ws.take 64)) (qspiCount (fired a p q s)) = x at row wr int frame count
  exact ⟨_, row, rfl, count, wr, int, hostOnly_trans (hostOnly_of (fired_hstEvs a p q s)) (hostOnly_trans
    (hostOnly_of (hstEvs_of (qspiCount_hstOnly _))) (hostOnly_trans frame (hostOnly_of (hstEvs_trans (hstEvs_of (noted_hstOnly true x))
      (fired_hstEvs a' p' q' _)))))⟩

/-! #### A write to BAR0 -/

theorem qspiWrite_scratch_eq (w : Word) (s : State) : qspiWrite .bar0 0x6C [w] s =
    noted false (onHst (fun h => { h with scratch := h.scratch.set 0 w }) (qspiCount s)) := by
  have put : qspiPut .bar0 0x6C [w] (qspiCount s) = regWrite 0x6C w (qspiCount s) := bar0Write_word 0x6C w _ rfl
  have good (u : State) : qspiBad .bar0 0x6C [w] u = false := by
    show (decide (0x6C % 4 ≠ 0) || !(inSpan 0x6C || inMsix 0x6C || inPba 0x6C)) = false
    decide
  rw [qspiWrite_eq, put, regWrite_scratch, good]

theorem qspiWrite_scratch (w : Word) (s : State) (hc : s.isl.ctl = true) (hq : s.hst.qspiDis = false) : ∃ t,
    exec (.qspiWrite .bar0 0x6C ⟨[w], 0⟩) s = .next t ∧ t.hst.scratch[(0 : Fin 2)] = w ∧ t.hst.lastDiscarded = false ∧
      t.hst.accesses = s.hst.accesses + 1 ∧ t = { s with hst := t.hst } := by
  have row := exec_qspiWrite .bar0 0x6C [w] s hc hq
  have frame := intEval_around_hstOnly (qspiWrite .bar0 0x6C [w]) s fun u => by
    rw [qspiWrite_scratch_eq]
    exact hstOnly_trans (qspiCount_hstOnly u) (hstOnly_trans (onHst_hstOnly _ _) (noted_hstOnly false _))
  obtain ⟨a, p, q, a', p', q', e⟩ := intEval_around (qspiWrite .bar0 0x6C [w]) s
  rw [e, qspiWrite_scratch_eq] at frame
  refine ⟨_, row.trans (congrArg Host.Outcome.next e), ?_⟩
  rw [qspiWrite_scratch_eq]
  exact ⟨Vector.getElem_set_self (by decide), rfl, rfl, frame⟩

/-- Neither one aligned word nor none: the write is discarded. -/
theorem qspiWrite_discards (off : Nat) (ws : List Word) (s : State) (h : 1 < ws.length ∨ (ws.length = 1 ∧ off % 4 ≠ 0)) :
    qspiWrite .bar0 off ws s = noted true (accessError false off (qspiCount s)) := by
  cases ws with
  | nil => simp at h
  | cons w rest =>
    cases rest with
    | nil =>
      have ho : off % 4 ≠ 0 := by simpa using h
      have put : qspiPut .bar0 off [w] (qspiCount s) = accessError false off (qspiCount s) := bar0Write_error off w 0xF _ (.inr ho)
      have bad (u : State) : qspiBad .bar0 off [w] u = true := by
        show (decide (off % 4 ≠ 0) || !(inSpan off || inMsix off || inPba off)) = true
        rw [decide_eq_true ho]
        rfl
      rw [qspiWrite_eq, put, bad]
    | cons v rest => rfl

theorem qspiWrite_error (off : BitVec 26) (ws : List Word) (s : State) (hc : s.isl.ctl = true) (hq : s.hst.qspiDis = false)
    (h : 1 < ws.length ∨ (ws.length = 1 ∧ off.toNat % 4 ≠ 0)) : ∃ t,
    exec (.qspiWrite .bar0 off ⟨ws, 0⟩) s = .next t ∧ t.hst.lastDiscarded = true ∧ t.hst.cErr = s.hst.cErr + 1 ∧
      t.hst.accesses = s.hst.accesses + 1 ∧ t = { s with hst := t.hst, evs := t.evs } := by
  have row := exec_qspiWrite .bar0 off ws s hc hq
  have frame := intEval_around_hstEvs (qspiWrite .bar0 off.toNat ws) s fun u => by
    rw [qspiWrite_discards off.toNat ws u h]
    exact hstEvs_trans (hstEvs_of (qspiCount_hstOnly u)) (hstEvs_trans (accessError_hstEvs _ _ _) (hstEvs_of (noted_hstOnly true _)))
  obtain ⟨a, p, q, a', p', q', e⟩ := intEval_around (qspiWrite .bar0 off.toNat ws) s
  rw [e, qspiWrite_discards _ ws _ h] at frame
  refine ⟨_, row.trans (congrArg Host.Outcome.next e), ?_⟩
  rw [qspiWrite_discards _ ws _ h]
  exact ⟨rfl, rfl, rfl, frame⟩

theorem qspiWrite_empty_eq (bar : Bar) (off : Nat) (s : State) : qspiWrite bar off [] s = noted true (qspiCount s) := by
  cases bar <;> rfl

theorem qspiWrite_empty (bar : Bar) (off : BitVec 26) (s : State) (hc : s.isl.ctl = true) (hq : s.hst.qspiDis = false) : ∃ t,
    exec (.qspiWrite bar off ⟨[], 0⟩) s = .next t ∧ t.hst.lastDiscarded = true ∧ t.hst.accesses = s.hst.accesses + 1 ∧
      t = { s with hst := t.hst } := by
  have row := exec_qspiWrite bar off [] s hc hq
  have frame := intEval_around_hstOnly (qspiWrite bar off.toNat []) s fun u => by
    rw [qspiWrite_empty_eq]
    exact hstOnly_trans (qspiCount_hstOnly u) (noted_hstOnly true _)
  obtain ⟨a, p, q, a', p', q', e⟩ := intEval_around (qspiWrite bar off.toNat []) s
  rw [e, qspiWrite_empty_eq] at frame
  refine ⟨_, row.trans (congrArg Host.Outcome.next e), ?_⟩
  rw [qspiWrite_empty_eq]
  exact ⟨rfl, rfl, frame⟩

theorem qspiWrite_cut (bar : Bar) (off : BitVec 26) (ws : List Word) (tail : Fin 4) (s : State) (hc : s.isl.ctl = true)
    (hq : s.hst.qspiDis = false) (ht : tail ≠ 0) :
    ∃ t, exec (.qspiWrite bar off ⟨ws, tail⟩) s = .next t ∧ t.hst.lastDiscarded = true ∧ t.hst.framing = s.hst.framing + 1 ∧
      t.hst.accesses = s.hst.accesses + 1 ∧ t.hst.intStatus = setBit s.hst.intStatus 7 ∧ t = { s with hst := t.hst, evs := t.evs } := by
  have row := exec_qspiWrite_cut bar off ws tail s hc hq ht
  have frame := intEval_around_hstEvs qspiCut s fun u =>
    hstEvs_trans (hstEvs_of (qspiCount_hstOnly u)) (hstEvs_trans (qspiError_hstEvs true _) (onHst_hstEvs _ _))
  obtain ⟨a, p, q, a', p', q', e⟩ := intEval_around qspiCut s
  rw [e] at frame
  exact ⟨_, row.trans (congrArg Host.Outcome.next e), rfl, rfl, rfl, rfl, frame⟩

theorem exec_qspi_disabled (bar : Bar) (off : BitVec 26) (len : Nat) (r : Bool) (ws : List Word) (tail : Fin 4) (s : State)
    (h : s.hst.qspiDis = true) : exec (.qspiRead bar off len r) s = .next s ∧ exec (.qspiWrite bar off ⟨ws, tail⟩) s = .next s := by
  have off' : (s.isl.ctl && !s.hst.qspiDis) = false := by rw [h]; simp
  refine ⟨?_, ?_⟩
  · show execQspiRead bar off len r s = _
    rw [execQspiRead, off']
    rfl
  · show execQspiWrite bar off ⟨ws, tail⟩ s = _
    rw [execQspiWrite, off']
    rfl

theorem exec_qspiStatus (s : State) (hc : s.isl.ctl = true) : exec .qspiStatus s = .next { s with hst := { s.hst with
      accesses := s.hst.accesses + 1, readUr := false,
      readData := [BitVec.ofNat 32 (bit s.hst.lastDiscarded + 2 * bit s.hst.lastNotReady + 4 * bit s.hst.qspiDis)] } } := by
  show execQspiStatus s = _
  rw [execQspiStatus, whenOn_on s hc]
  rfl

/-! ### The island and the link (R459) -/

theorem hostReset_effect (k : HostResetKind) (s : State) :
    (hostReset k s).hst.qspiDis = s.hst.qspiDis ∧ (hostReset k s).hst.cmdCount = s.hst.cmdCount ∧ (hostReset k s).hst.msixEn = false ∧
    (hostReset k s).hst.busMaster = false ∧ (∀ i : Fin 32, ((hostReset k s).hst.msix[i]).mask = true) ∧
    (hostReset k s).hst.armed = 0xFFFFFFFF ∧ (hostReset k s).hst.pba = 0 ∧ (hostReset k s).hst.intStatus = 0 ∧
    (hostReset k s).hst.intEnable = 0 ∧ (hostReset k s).hst.tick = 0 ∧ (hostReset k s).hst.vecMap = State.reset.hst.vecMap ∧
    (hostReset k s).hst.scratch = State.reset.hst.scratch ∧
    hostReset k s = { s with hst := (hostReset k s).hst, hkp := { s.hkp with hostResets := s.hkp.hostResets + 1 } } := by
  have table (i : Fin 32) : ((hostReset k s).hst.msix[i]).mask = true := by
    have whole : (hostReset k s).hst.msix = Vector.replicate 32 {} := rfl
    rw [whole]
    exact congrArg MsixEntry.mask (Vector.getElem_replicate i.isLt)
  exact ⟨rfl, rfl, rfl, rfl, table, rfl, rfl, rfl, rfl, rfl, rfl, rfl, rfl⟩

/-- A link that trains again. -/
theorem hostLinkUp_again (g : Bool) (s : State) (h : (s.hst.linkUp && !s.hst.retrain) = true) : hostLinkUp g s =
    onHst (fun h => { h with linkUp := true, gen2 := g, retrain := false, inL1 := false, recoveries := h.recoveries + 1 }) s := by
  unfold hostLinkUp
  dsimp only
  rw [h]
  rfl

/-- A link that comes up. -/
theorem hostLinkUp_new (g : Bool) (s : State) (h : (s.hst.linkUp && !s.hst.retrain) = false) : hostLinkUp g s =
    hstEvent 6 0 (onHst (fun h => { h with linkUp := true, gen2 := g, retrain := false, inL1 := false }) s) := by
  unfold hostLinkUp
  dsimp only
  rw [h]
  rfl

theorem hostLinkUp_effect (g : Bool) (s : State) : (hostLinkUp g s).hst.linkUp = true ∧ (hostLinkUp g s).hst.gen2 = g ∧
    (hostLinkUp g s).hst.retrain = false ∧ (hostLinkUp g s).hst.inL1 = false ∧
    (s.hst.linkUp = true → s.hst.retrain = false → (hostLinkUp g s).hst.recoveries = s.hst.recoveries + 1 ∧
      (hostLinkUp g s).hst.intStatus = s.hst.intStatus ∧ (hostLinkUp g s).evs = s.evs) ∧
    (s.hst.linkUp = false ∨ s.hst.retrain = true → (hostLinkUp g s).hst.recoveries = s.hst.recoveries ∧
      (hostLinkUp g s).hst.intStatus = setBit s.hst.intStatus 6 ∧ ∃ e ∈ (hostLinkUp g s).evs, e.rank = 13 ∧ e.code = 7) ∧
    hostLinkUp g s = { s with
      hst := { s.hst with
        linkUp := true, gen2 := g, retrain := false, inL1 := false,
        recoveries := (hostLinkUp g s).hst.recoveries, intStatus := (hostLinkUp g s).hst.intStatus }
      evs := (hostLinkUp g s).evs } := by
  cases h : (s.hst.linkUp && !s.hst.retrain) with
  | true =>
    have was : s.hst.linkUp = true ∧ s.hst.retrain = false := by simpa using h
    rw [hostLinkUp_again g s h]
    refine ⟨rfl, rfl, rfl, rfl, fun _ _ => ⟨rfl, rfl, rfl⟩, fun no => ?_, rfl⟩
    rw [was.1, was.2] at no
    simp at no
  | false =>
    rw [hostLinkUp_new g s h]
    refine ⟨rfl, rfl, rfl, rfl, fun up re => ?_, fun _ => ⟨rfl, rfl, _, List.mem_append_right _ (List.mem_singleton_self _), rfl, rfl⟩, rfl⟩
    rw [up, re] at h
    cases h

theorem registerWrite_span (off : BitVec 21) (v : Word) (len : Nat) (s : State) (hc : s.isl.ctl = true) (hl : len ≤ 4)
    (ho : off.toNat % 4 = 0) (h : inSpan off.toNat = true) :
    exec (.registerWrite off v ⟨0xF, len⟩) s = .next (intEval
      (let s1 := blockNow (off.toNat / 65536) (off.toNat % 65536) v (intEval s)
       if isCmd (off.toNat / 65536) (off.toNat % 65536) v then takeHostCmd off.toNat v s1 else s1)) := by
  rw [registerWrite_word off v len s hc hl ho, regWrite_span _ _ _ h]

/-- Settles O59: each row by the access that it makes, between two evaluations of the interrupts. -/
theorem hostPort : Obligations.HostPort := by
  unfold Obligations.HostPort
  exact ⟨exec_vectorAck, exec_msixMaskClear_all, exec_msixMaskClear_one, registerWrite_error, registerWrite_unmapped, registerWrite_scratch,
    registerWrite_span, registerWrite_osqCtrl, hostRead_span, hostRead_hst, hostRead_bad, hostRead_long, hostRead_unmapped, hostRead_bar2,
    qspiRead_notReady, qspiRead_memory, qspiRead_register, qspiRead_long, qspiWrite_memory, qspiWrite_refused, qspiWrite_scratch,
    qspiWrite_error, qspiWrite_empty, qspiWrite_cut, exec_qspi_disabled, fun s hc => ⟨exec_qspiStatus s hc, whenOn_on s hc⟩,
    fun k s hc => ⟨_, whenOn_on s hc, hostReset_effect k s⟩, fun g s hc => ⟨_, whenOn_on s hc, hostLinkUp_effect g s⟩⟩

end Sys2Proof.Machine
end

section
/-! Starts (R427, R436, R438) and frame boundaries (R17) (O60). -/

namespace Sys2Proof.Machine

/-! ### What FN_h is taken from (R427) -/

/-- The save slots and their key, the two stored frame numbers, and whether the clock is valid. -/
def StartKept (s t : State) : Prop := t.bilR.slots = s.bilR.slots ∧ t.bilR.fnAon = s.bilR.fnAon ∧ t.bilR.fnMram = s.bilR.fnMram ∧
  t.hwd.bbk = s.hwd.bbk ∧ t.hkp.rtcValid = s.hkp.rtcValid

theorem startKept_refl (s : State) : StartKept s s := ⟨rfl, rfl, rfl, rfl, rfl⟩
theorem startKept_trans {s t u : State} (h : StartKept s t) (k : StartKept t u) : StartKept s u := by
  obtain ⟨h1, h2, h3, h4, h5⟩ := h
  obtain ⟨k1, k2, k3, k4, k5⟩ := k
  exact ⟨k1.trans h1, k2.trans h2, k3.trans h3, k4.trans h4, k5.trans h5⟩

theorem ledgerKey_bbk {s t : State} (h : t.hwd.bbk = s.hwd.bbk) : ledgerKey t = ledgerKey s := by simp only [ledgerKey, h]

theorem bestSlot_kept {s t : State} (h : StartKept s t) : bestSlot t = bestSlot s := by
  obtain ⟨slots, -, -, bbk, -⟩ := h
  have valid : slotValid t = slotValid s := by
    funext x
    simp only [slotValid, ledgerKey_bbk bbk]
  simp only [bestSlot, slots, valid]

theorem fnHigh_kept {s t : State} (h : StartKept s t) : fnHigh t = fnHigh s := by
  have best := bestSlot_kept h
  obtain ⟨-, aon, mram, -, -⟩ := h
  simp only [fnHigh, best, aon, mram]

/-- FN_first lies beyond FN_h by 1,001 frames at least, and by no more where the clock is not valid. -/
theorem fnFirst_beyond (s : State) : fnHigh s + 1001 ≤ fnFirst s ∧ (s.hkp.rtcValid = false → fnFirst s = fnHigh s + 1001) := by
  refine ⟨Nat.add_le_add_left (Nat.le_max_left 1001 (fnGap s)) _, fun h => ?_⟩
  have gap : fnGap s = 0 := by
    unfold fnGap
    rw [h]
    split <;> rfl
  rw [fnFirst, gap]
  rfl

/-! ### What the steps of a start leave of it -/

theorem startKept_of {s t : State} (hb : t.bilR = s.bilR) (hh : t.hwd.bbk = s.hwd.bbk) (hk : t.hkp = s.hkp) : StartKept s t := by
  rw [StartKept, hb, hh, hk]
  exact ⟨rfl, rfl, rfl, rfl, rfl⟩

theorem resetBase_startKept (s : State) : StartKept s (resetBase s) := ⟨rfl, rfl, rfl, rfl, rfl⟩
theorem warmBase_startKept (s : State) : StartKept s (warmBase s) := ⟨rfl, rfl, rfl, rfl, rfl⟩

theorem coldFbk_startKept (s : State) : StartKept s (coldFbk s) := by
  unfold coldFbk
  exact ite_rel _ (startKept_of rfl rfl rfl) (startKept_of rfl rfl rfl)

theorem rootProvision_startKept (ok : Bool) (s : State) : StartKept s (rootProvision ok s) := by
  unfold rootProvision
  exact ite_rel _ (startKept_refl s) (startKept_of rfl rfl rfl)

theorem pendingBurn_startKept (s : State) : StartKept s (pendingBurn s) := by
  unfold pendingBurn
  exact ite_rel _ ⟨rfl, rfl, rfl, burnFuse_bbk s, rfl⟩ (startKept_refl s)

theorem pipeAssign_startKept (pass : BitVec 16) (s : State) : StartKept s (pipeAssign pass s) := ⟨rfl, rfl, rfl, rfl, rfl⟩

theorem bootImage_startKept (s : State) : StartKept s (bootImage s) := by
  unfold bootImage
  split
  · exact startKept_refl s
  · exact ⟨rfl, rfl, rfl, rfl, rfl⟩

theorem slotCheck_startKept (s : State) : StartKept s (slotCheck s) :=
  have work := slotCheck_slotWork s
  startKept_of (congrArg State.bilR work :) (slotCheck_bbk s) (congrArg State.hkp work :)

theorem commitSlots_startKept (s : State) : StartKept s (commitSlots s) := by
  have work := commitSlots_slotWork s
  have one (u : State) (k : Fin 128) : (commitSlot u k).hwd.bbk = u.hwd.bbk := by
    unfold commitSlot putEntry
    split
    · split
      · rename_i b _
        cases b <;> rfl
      · rfl
    · rfl
  exact startKept_of (congrArg State.bilR work :) (foldl_proj (fun u : State => u.hwd.bbk) commitSlot one _ s) (congrArg State.hkp work :)

theorem onFwu_startKept (f : Fwu → Fwu) (s : State) : StartKept s (onFwu f s) := ⟨rfl, rfl, rfl, rfl, rfl⟩

theorem bootCommit_startKept (s : State) : StartKept s (bootCommit s) := by
  unfold bootCommit
  split
  · exact startKept_refl s
  · exact ite_rel _ (startKept_trans (commitSlots_startKept s) (onFwu_startKept _ _)) (startKept_refl s)

theorem bootSlots_startKept (s : State) : StartKept s (bootSlots s) :=
  startKept_trans (slotCheck_startKept s) (startKept_trans (t := onHwd (fun h => { h with ready := true }) (slotCheck s)) ⟨rfl, rfl, rfl, rfl, rfl⟩
    (bootCommit_startKept _))

/-! #### The stand map -/

theorem onSmp_startKept (f : Smp → Smp) (s : State) : StartKept s (onSmp f s) := ⟨rfl, rfl, rfl, rfl, rfl⟩
theorem raise_startKept (s : State) (e : Event) : StartKept s (raise s e) := ⟨rfl, rfl, rfl, rfl, rfl⟩
theorem addClamp_startKept (s : State) (e : ClampEntry) : StartKept s (addClamp s e) := startKept_trans (onSmp_startKept _ s) (raise_startKept _ _)
theorem addClamps_startKept (es : List ClampEntry) (s : State) : StartKept s (addClamps es s) :=
  foldl_rel StartKept startKept_refl startKept_trans _ addClamp_startKept es s
theorem takeMap_startKept (base : List Rec) (sw : BitVec 64) (a : Applied) (s : State) : StartKept s (takeMap base sw a s) :=
  startKept_trans (onSmp_startKept _ s) (addClamps_startKept _ _)
theorem smpEvent_startKept (b data : Nat) (s : State) : StartKept s (smpEvent b data s) := startKept_trans (onSmp_startKept _ s) (raise_startKept _ _)
theorem setModems_startKept (s : State) : StartKept s (setModems s) := ⟨rfl, rfl, rfl, rfl, rfl⟩

/-- A map in force, the event of a rejected copy, the modems and the start of the cable blocks. -/
theorem mapLoad_startKept (failA failB : Option Nat) (s : State) : StartKept s (mapLoad failA failB s) := by
  have noted (f g : Smp → Smp) (es : List ClampEntry) (u : State) : StartKept u (onSmp g (addClamps es (onSmp f u))) :=
    startKept_trans (onSmp_startKept f u) (startKept_trans (addClamps_startKept es _) (onSmp_startKept g _))
  have taken (m : SiteMap) (rs : List Rec) (sw : BitVec 64) (a : Applied) (f : Smp → Smp) (u : State) :
      StartKept u (onSmp f (takeMap rs sw a { u with map := m })) :=
    startKept_trans (t := { u with map := m }) ⟨rfl, rfl, rfl, rfl, rfl⟩ (startKept_trans (takeMap_startKept rs sw a _) (onSmp_startKept f _))
  have told (c : Prop) [Decidable c] (e : Event) (src : Nat) (u : State) :
      StartKept u (smpEvent 0 src (setModems (if c then raise u e else u))) :=
    startKept_trans (ite_rel _ (raise_startKept u e) (startKept_refl u)) (startKept_trans (setModems_startKept _) (smpEvent_startKept 0 src _))
  have ended (u : State) (m : Levels) (f : FrameState) (c : Vector Can 8) : StartKept u { u with live := m, fl := f, can := c } :=
    ⟨rfl, rfl, rfl, rfl, rfl⟩
  unfold mapLoad
  -- the source, its records, the chain and the passes are named; what they are does not matter here
  split
  split
  split
  extract_lets
  split
  extract_lets
  split
  extract_lets
  exact startKept_trans (noted _ _ _ s) (startKept_trans (taken _ _ _ _ _ _) (startKept_trans (told _ _ _ _) (ended _ _ _ _)))

theorem tryHeld_startKept (s : State) : StartKept s (tryHeld s) := by
  have event (u : State) : StartKept u (fbkEvent 16 1 u) :=
    have rest := (fbkEvent_evalFrame 16 1 u).rest
    startKept_of (congrArg State.bilR rest :) (congrArg (fun t : State => t.hwd.bbk) rest :) (congrArg State.hkp rest :)
  unfold tryHeld
  exact ite_rel _ (startKept_trans (startKept_of rfl rfl rfl) (event _)) (startKept_refl s)

theorem imgLoad_startKept (s : State) : StartKept s (imgLoad s) := by
  unfold imgLoad
  exact startKept_trans (startKept_of rfl rfl rfl) (tryHeld_startKept _)

theorem fbkEval_startKept (adv : Bool) (s : State) : StartKept s (fbkEval adv s) :=
  have rest := (fbkEval_evalFrame adv s).rest
  startKept_of (congrArg State.bilR rest :) (congrArg (fun t : State => t.hwd.bbk) rest :) (congrArg State.hkp rest :)

theorem fbkCopy_startKept (s : State) : StartKept s (fbkCopy s) :=
  have rest := (fbkCopy_evalFrame s).rest
  startKept_of (congrArg State.bilR rest :) (congrArg (fun t : State => t.hwd.bbk) rest :) (congrArg State.hkp rest :)

theorem onLnd_startKept (f : Lnd → Lnd) (s : State) : StartKept s (onLnd f s) := ⟨rfl, rfl, rfl, rfl, rfl⟩
theorem brakeLevel_startKept (s : State) : StartKept s (brakeLevel s) := by
  unfold brakeLevel
  exact startKept_of rfl rfl rfl

theorem bootMap_startKept (failA failB : Option Nat) (s : State) : StartKept s (bootMap failA failB s) :=
  startKept_trans (fbkCopy_startKept s) (startKept_trans (mapLoad_startKept failA failB _) (startKept_trans (onLnd_startKept _ _)
    (startKept_trans (imgLoad_startKept _) (startKept_trans (fbkEval_startKept false _) (brakeLevel_startKept _)))))

theorem bootRtc_startKept (ms : Nat) (s : State) : StartKept s (bootRtc ms s) := by
  unfold bootRtc
  exact ite_rel _ (startKept_refl s) (startKept_of rfl rfl rfl)

/-! ### The first frame (R427) -/

/-- The state in which FN_first is taken. -/
def booted (failA failB : Option Nat) (ms : Nat) (s : State) : State := bootRtc ms (bootMap failA failB (bootSlots (bootImage s)))

theorem booted_startKept (failA failB : Option Nat) (ms : Nat) (s : State) : StartKept s (booted failA failB ms s) :=
  startKept_trans (bootImage_startKept s) (startKept_trans (bootSlots_startKept _) (startKept_trans (bootMap_startKept failA failB _) (bootRtc_startKept ms _)))

theorem bootRun_fn (cold : Bool) (failA failB : Option Nat) (ms : Nat) (s : State) :
    (bootRun cold failA failB ms s).fn = fnFirst (booted failA failB ms s) :=
  (bootOpen_same cold ms { booted failA failB ms s with fn := fnFirst (booted failA failB ms s) }).2.2.2.1

/-- A start opens its first frame beyond FN_h. -/
theorem bootRun_beyond (cold : Bool) (failA failB : Option Nat) (ms : Nat) {s u : State} (h : StartKept s u) :
    fnHigh s + 1001 ≤ (bootRun cold failA failB ms u).fn ∧
    (s.hkp.rtcValid = false → (bootRun cold failA failB ms u).fn = fnHigh s + 1001) := by
  have kept := startKept_trans h (booted_startKept failA failB ms u)
  obtain ⟨least, exactly⟩ := fnFirst_beyond (booted failA failB ms u)
  rw [bootRun_fn, ← fnHigh_kept kept]
  exact ⟨least, fun hv => exactly (kept.2.2.2.2.trans hv)⟩

/-- A start whose image matches its record runs it, and its first frame lies beyond FN_h. -/
theorem bootStart_beyond (cold : Bool) (failA failB : Option Nat) (ms : Nat) {s u : State} (h : StartKept s u) (ok : bootOk u = true) :
    fnHigh s + 1001 ≤ (bootStart cold failA failB ms u).fn ∧
    (s.hkp.rtcValid = false → (bootStart cold failA failB ms u).fn = fnHigh s + 1001) := by
  rw [bootStart, if_pos ok]
  exact bootRun_beyond cold failA failB ms h

/-- A start whose image does not match starts no island. -/
theorem bootStart_stops (cold : Bool) (failA failB : Option Nat) (ms : Nat) {s : State} (bad : bootOk s = false) :
    (bootStart cold failA failB ms s).isl = { ctl := false, com := false, met := false, lnd := false } ∧
    (bootStart cold failA failB ms s).aux.held = true := by
  rw [bootStart, if_neg (by rw [bad]; exact Bool.false_ne_true)]
  exact ⟨rfl, rfl⟩

/-! ### The cold start (R436) and the warm reset (R438) -/

/-- A cold start before its image: the reset, the strap, the cause of a power-up, the root, a pending burn and the pipelines. -/
def coldReady (x : BootFacts) (s : State) : State :=
  pipeAssign x.pipesPass (pendingBurn (rootProvision x.burnOk
    (onHkp (fun h => { h with cause := if s.hkp.resetReq.isNone then setBit h.cause 0 else h.cause })
      (onTdm (fun t => { t with strapHigh := x.tdmPref }) (coldFbk (resetBase s))))))

/-- A warm reset before its image. -/
def warmReady (s : State) : State := pendingBurn (warmBase s)

theorem coldStart_eq (x : BootFacts) (s : State) : coldStart x s = bootStart true x.failA x.failB x.bootMs (coldReady x s) := rfl
theorem warmReset_eq (ms : Nat) (s : State) : warmReset ms s = bootStart false none none ms (warmReady s) := rfl

theorem coldReady_startKept (x : BootFacts) (s : State) : StartKept s (coldReady x s) := by
  have strap (f : Tdm → Tdm) (u : State) : StartKept u (onTdm f u) := ⟨rfl, rfl, rfl, rfl, rfl⟩
  have cause (c : Hkp → BitVec 8) (u : State) : StartKept u (onHkp (fun h => { h with cause := c h }) u) := ⟨rfl, rfl, rfl, rfl, rfl⟩
  exact startKept_trans (resetBase_startKept s) (startKept_trans (coldFbk_startKept _) (startKept_trans (strap _ _) (startKept_trans (cause _ _)
    (startKept_trans (rootProvision_startKept x.burnOk _) (startKept_trans (pendingBurn_startKept _) (pipeAssign_startKept _ _))))))

theorem warmReady_startKept (s : State) : StartKept s (warmReady s) :=
  startKept_trans (warmBase_startKept s) (pendingBurn_startKept _)

/-! #### The boot records -/

theorem bootOk_fwu {s t : State} (h : t.fwu = s.fwu) : bootOk t = bootOk s := by simp only [bootOk, h]

/-- The reset keeps the two slots and their records, and so what the boot ROM decides. -/
theorem resetBase_bootOk (s : State) : bootOk (resetBase s) = bootOk s := rfl

theorem coldFbk_fwu (s : State) : (coldFbk s).fwu = s.fwu := by
  unfold coldFbk
  split <;> rfl

theorem rootProvision_fwu (ok : Bool) (s : State) : (rootProvision ok s).fwu = s.fwu := by
  unfold rootProvision
  split <;> rfl

theorem burnFuse_fwu (s : State) : (burnFuse s).fwu = s.fwu := rfl

theorem pendingBurn_fwu (s : State) : (pendingBurn s).fwu = s.fwu := by
  unfold pendingBurn
  split
  · exact burnFuse_fwu s
  · rfl

theorem coldReady_bootOk (x : BootFacts) (s : State) : bootOk (coldReady x s) = bootOk s :=
  calc bootOk (coldReady x s) = bootOk (resetBase s) :=
        bootOk_fwu ((pendingBurn_fwu _).trans ((rootProvision_fwu _ _).trans (coldFbk_fwu _)))
    _ = bootOk s := resetBase_bootOk s

theorem warmReady_bootOk (s : State) : bootOk (warmReady s) = bootOk s :=
  calc bootOk (warmReady s) = bootOk (resetBase s) := bootOk_fwu (pendingBurn_fwu _)
    _ = bootOk s := resetBase_bootOk s

/-! #### The commands -/

theorem exec_coldStart {s : State} (x : BootFacts) (hs : s.hkp.shutdown = false) (hx : s.hkp.xtalStopped = false) :
    exec (.coldStart x) s = .next (coldStart x s) :=
  congrArg Host.Outcome.next (if_neg (by simp [hs, hx]))

theorem exec_warmReset {s : State} (ms : Nat) (hs : s.hkp.shutdown = false) (hx : s.hkp.xtalStopped = false)
    (hr : s.hkp.resetReq ≠ some true) : exec (.warmReset ms) s = .next (warmReset ms s) :=
  congrArg Host.Outcome.next (if_neg (by simp [hs, hx, hr]))

theorem exec_start_stopped (x : BootFacts) (ms : Nat) {s : State} (h : s.hkp.shutdown = true ∨ s.hkp.xtalStopped = true) :
    exec (.coldStart x) s = .next s ∧ exec (.warmReset ms) s = .next s := by
  have stopped : (s.hkp.shutdown || s.hkp.xtalStopped) = true := by simpa using h
  exact ⟨congrArg Host.Outcome.next (if_pos stopped), congrArg Host.Outcome.next (if_pos (by rw [stopped]; rfl))⟩

/-! ### The end of a frame and the tandem state (R17) -/

theorem winnerStep_tdm (s : State) (c : ChIx) : (winnerStep s c).tdm = s.tdm := by
  unfold winnerStep
  dsimp only
  split
  · split <;> rfl
  · rfl

theorem winners_tdm (s : State) : (winners s).tdm = s.tdm := foldl_proj State.tdm winnerStep winnerStep_tdm _ s

theorem eventsPut_lndEvs (fn seq rank : Nat) (es : List Event) (s : State) : LndEvs s (eventsPut fn seq rank es s) := by
  have one (k : Nat) (e : Event) (u : State) : LndEvs u (eventPut fn k e u) := by
    unfold eventPut
    exact lndEvs_trans (lndWrite_lndEvs _ _ u) (lndEvs_trans (ringAdd_lndEvs _ _ _) (onLnd_lndEvs _ _))
  induction es generalizing seq rank s with
  | nil => exact lndEvs_refl s
  | cons e es ih => exact lndEvs_trans (one _ e s) (ih _ _ _)

theorem jnlSlot_lndEvs (void : Bool) (need : Nat) (bs : List Byte) (s : State) : LndEvs s (jnlSlot void need bs s) := by
  have told (c : Prop) [Decidable c] (e : Event) (u : State) : LndEvs u (if c then raise u e else u) := ite_rel _ rfl (lndEvs_refl u)
  unfold jnlSlot
  exact lndEvs_trans (onLnd_lndEvs _ s) (lndEvs_trans (told _ _ _) (lndEvs_trans (lndWrite_lndEvs _ _ _) (onLnd_lndEvs _ _)))

theorem jnlLevelStep_lndEvs (s : State) : LndEvs s (jnlLevelStep s) := by
  have told (c : Prop) [Decidable c] (u : State) : LndEvs u (if c then lndEvent 2 0 u else u) := ite_rel _ (lndEvent_lndEvs 2 0 u) (lndEvs_refl u)
  unfold jnlLevelStep
  exact lndEvs_trans (onLnd_lndEvs _ s) (told _ _)

theorem jnlPut_lndEvs (bs : List Byte) (s : State) : LndEvs s (jnlPut bs s) := by
  unfold jnlPut
  refine ite_rel _ (lndEvs_refl s) ?_
  exact lndEvs_trans (ite_rel _ (jnlSlot_lndEvs true _ [] s) (lndEvs_refl s)) (lndEvs_trans (jnlSlot_lndEvs false _ bs _) (jnlLevelStep_lndEvs _))

theorem jnlWrite_tdm (es : List Event) (s : State) : (jnlWrite es s).tdm = s.tdm := by
  have put := jnlPut_lndEvs (jnlPayload s.jnlOld es s) s
  exact (congrArg State.tdm put :)

theorem mbxWrite_tdm (s : State) (e : MbxEntry) : (mbxWrite s e).tdm = s.tdm := by
  simp only [mbxWrite, lndWrite, onLnd]

theorem mbxAll_tdm (s : State) : (mbxAll s).tdm = s.tdm := foldl_proj State.tdm mbxWrite mbxWrite_tdm s.mbx s

theorem evsTake_tdm (s : State) : (evsTake s).tdm = s.tdm := by
  simp only [evsTake, tallyCount]

theorem evsWrite_tdm (es : List Event) (s : State) : (evsWrite es s).tdm = s.tdm := by
  have put := eventsPut_lndEvs s.fn 0 0 es (evsTake s)
  have taken := evsTake_tdm s
  rw [evsWrite, jnlWrite_tdm]
  generalize eventsPut s.fn 0 0 es (evsTake s) = t at put ⊢
  generalize evsTake s = u at put taken
  exact (congrArg State.tdm put :).trans taken

theorem endFrame_tdm (s : State) : (endFrame s).tdm = s.tdm := by
  rw [endFrame, evsWrite_tdm, mbxAll_tdm]

/-! ### The boundary of a single package -/

theorem retainFrame_single {s : State} (h : s.tdm.st = .single) : retainFrame s = s :=
  if_pos (by simp [retains, h])

theorem swapProto_single {s : State} (h : s.tdm.st = .single) : swapProto s = s := by
  unfold swapProto
  split
  · exact if_neg (by simp [h])
  · rfl

theorem tdmEval_single {s : State} (h : s.tdm.st = .single) : tdmEval s = s := if_pos h

theorem closeFrame_tdm_single {s : State} (h : s.tdm.st = .single) : (closeFrame s).tdm = s.tdm := by
  have won := winners_tdm s
  have alone : (winners s).tdm.st = .single := by rw [won]; exact h
  rw [closeFrame, retainFrame_single alone, swapProto_single alone, tdmEval_single alone]
  exact (endFrame_tdm _).trans won

/-- Without a change of role that waits, the next frame is the next number. -/
theorem nextFn_of_no_pend {s : State} (h : s.tdm.pend = none) : nextFn s = s.fn + 1 := by
  unfold nextFn
  rw [h]

theorem boundary_fn (s : State) : (boundary s).fn = nextFn (closeFrame s) := by
  have same := boundary_same s
  generalize boundary s = t at same ⊢
  generalize nextFn (closeFrame s) = n at same ⊢
  obtain ⟨-, -, -, fn, -⟩ := same
  exact fn

theorem boundary_fn_single {s : State} (hs : s.tdm.st = .single) (hp : s.tdm.pend = none) : (boundary s).fn = s.fn + 1 := by
  have tdm := closeFrame_tdm_single hs
  have fn : (closeFrame s).fn = s.fn := (closeFrame_same s).2.2.2.1
  have pend : (closeFrame s).tdm.pend = none := (congrArg Tdm.pend tdm).trans hp
  rw [boundary_fn, nextFn_of_no_pend pend, fn]

/-! ### The obligation -/

/-- Settles O60: the steps of a start leave what FN_h is taken from, the reset keeps the boot records, and a single package counts on. -/
theorem startsAndBoundaries : Obligations.StartsAndBoundaries := by
  unfold Obligations.StartsAndBoundaries
  refine ⟨?cold, ?warm, ?mismatch, ?stopped, ?boundary, ?off⟩
  case cold =>
    intro x s hs hx ok
    have run := exec_coldStart x hs hx
    have effect := effect_of_exec run
    obtain ⟨least, exactly⟩ := bootStart_beyond true x.failA x.failB x.bootMs (coldReady_startKept x s) ((coldReady_bootOk x s).trans ok)
    exact ⟨_, run, least, exactly, effect.otp rfl, effect.runs.queue⟩
  case warm =>
    intro ms s hs hx hr ok
    have run := exec_warmReset ms hs hx hr
    have effect := effect_of_exec run
    obtain ⟨least, exactly⟩ := bootStart_beyond false none none ms (warmReady_startKept s) ((warmReady_bootOk s).trans ok)
    exact ⟨_, run, least, exactly, effect.otp rfl, effect.runs.queue⟩
  case mismatch =>
    intro x ms s hs hx bad
    exact ⟨⟨_, exec_coldStart x hs hx, bootStart_stops true x.failA x.failB x.bootMs ((coldReady_bootOk x s).trans bad)⟩,
      fun hr => ⟨_, exec_warmReset ms hs hx hr, bootStart_stops false none none ms ((warmReady_bootOk s).trans bad)⟩⟩
  case stopped => exact fun x ms s h => exec_start_stopped x ms h
  case boundary =>
    intro s hc hs hp
    have run : exec .frameBoundary s = .next (boundary s) := whenOn_on s hc
    have effect := effect_of_exec run
    exact ⟨_, run, boundary_fn_single hs hp, effect.otp rfl, effect.runs.queue⟩
  case off => exact fun s hc => congrArg Host.Outcome.next (if_neg (by rw [hc]; exact Bool.false_ne_true))

end Sys2Proof.Machine
end
